-- ==== Sys2Proof/Word.lean ====
section
/-! DEFINITION. The words of the device and their plainest arithmetic: 32-bit registers (R10),
bytes, the 64-bit counters (R39), and rounding a length up to whole units. -/

namespace Sys2Proof

/-- A register is 32 bits wide (R10). -/
abbrev Word := BitVec 32

/-- A byte of a frame, a key or a memory. -/
abbrev Byte := BitVec 8

/-- A 64-bit value held in two consecutive registers (R39). -/
abbrev DWord := BitVec 64

/-- The whole units of `m` that `n` needs, rounded up. -/
def ceilDiv (n m : Nat) : Nat := (n + m - 1) / m

/-- The word that holds a natural number modulo 2^32. -/
def w32 (n : Nat) : Word := BitVec.ofNat 32 n

end Sys2Proof
end

