-- ==== Sys2Proof/Types.lean ====
section
/-! DEFINITION. The data that commands carry and the state holds: CAN messages, frames of cells,
requesters and targets of register accesses, outcomes of outside reads, and what the block sends
out. Each type follows the table of spec/ that its docstring names. -/

namespace Sys2Proof

/-- One CAN message (R20, Table 3.1, Table 4.8): `fmt` is the format code 0 CC base, 1 CC extended,
2 FD base, 3 FD extended, 4 XL; `dlc` is the DLC of a remote frame. -/
structure CanMsg where
  id : BitVec 29 := 0
  fmt : Fin 5 := 0
  rtr : Bool := false
  brs : Bool := false
  esi : Bool := false
  sec : Bool := false
  dlc : Nat := 0
  vcid : Byte := 0
  sdt : Byte := 0
  af : Word := 0
  data : List Byte := []
  deriving DecidableEq, Repr

/-- What a frame of the Basin holds (Table 1.2). An Ethernet frame is held from the first byte of the
destination MAC to the last byte before the FCS: the FCS is the CRC of those bytes. -/
inductive FrameBody
  | eth (bytes : List Byte)
  | can (m : CanMsg) (chan : Fin 16) (tunnel : Bool)
  | fieldEdge (chan : Fin 32) (falling : Bool) (rec : List Byte)
  | snapshot (chan : Fin 32) (rec : List Byte)
  | fieldFault (chan : Fin 32) (rec : List Byte)
  | samples (load : Fin 40) (rec : List Byte)
  deriving DecidableEq, Repr

/-- Where an internal-source frame came from: slip, submission ring and FLOW (R95, R140). -/
structure SlipSrc where
  slip : Nat
  ring : Nat
  flow : Nat
  deriving DecidableEq, Repr

/-- A frame held in the Basin with its frame header (R20, R21, R61). `uid` is the model's own name
for one held frame; `confirm` names the ring, slot and completion of a TX_CAN with CONFIRM; `cells` are the
cells it lies in, first to last (R42). -/
structure Frame where
  uid : Nat
  body : FrameBody
  inPort : Nat
  cls : Nat
  ts : Nat
  vid : Nat := 0
  pcp : Nat := 0
  tagged : Bool := false
  tunnelled : Bool := false
  src : Option SlipSrc := none
  confirm : Bool := false
  descIdx : Nat := 0
  cells : List Nat := []
  torn : Bool := false
  deriving DecidableEq, Repr

/-- An error a DRAM row returns (R331): corrected, or uncorrectable with the addresses whose data it lost. -/
inductive DramError
  | corrected
  | uncorrectable (lost : List Nat)
  deriving DecidableEq, Repr

/-- Where an access to memory goes: an offset of a memory of Table 12.10, or a cluster physical address (Table 12.2). -/
inductive MemAt
  | mem (m : Fin 5) (off : BitVec 34)
  | phys (addr : BitVec 56)
  deriving DecidableEq, Repr

/-- The outcome of reading stored cells for egress (R43, R48): clean, one corrected error counted
against a cell, or an uncorrectable error of a cell. -/
inductive CellRead
  | clean
  | corrected (cell : Nat)
  | uncorrectable (cell : Nat)
  deriving DecidableEq, Repr

/-- What the MACsec engine finds in a received frame (R81; Table 2.3, check 4): no SecTAG; an ICV that is good,
with its SCI, association number and PN; or one that is bad, with the SecTAG's encryption bit. -/
inductive MsCheck
  | unprotected
  | valid (sci : Nat) (an : Nat) (pn : Nat)
  | failed (encrypted : Bool)
  deriving DecidableEq, Repr

/-- The agents that may access a register (R155): the physical function, a virtual function, a
cluster hart, the Quaymaster. -/
inductive Requester
  | pf
  | vf (n : Fin 4096)
  | hart (h : Fin 8)
  | qm
  deriving DecidableEq, Repr

/-- Settings of the physical function's configuration space that the device acts on (R117, R118, R148): 10-Bit Tag
Requester Enable, Extended Tag Field Enable, Max Read Request Size in bytes, whether the SR-IOV system page size
is 64 KiB, and whether error messages are enabled (R161). The values are those of PCI Express after a conventional reset (PRESUMED, assumption 31). -/
structure HostCtl where
  tag10 : Bool := false
  extTag : Bool := false
  mrrs : Nat := 512
  page64 : Bool := false
  errMsg : Bool := false
  deriving DecidableEq, Repr

/-- What a register access names: a BAR0 offset (for a hart or the Quaymaster, the same space), an
offset in the requester's system page of a slip window or doorbell page (at most 64 KiB, R118), or a cluster register. -/
inductive Target
  | bar0 (off : BitVec 26)
  | window (slip : Fin 4096) (off : BitVec 16)
  | doorbell (slip : Fin 4096) (off : BitVec 16)
  | clt (off : BitVec 16)
  deriving DecidableEq, Repr

/-- How the far side answers an access (Table 5.3): it responds; with a parity error, cause 6; or not within PB_TIMEOUT,
cause 5, so that the access stays pending until PERIPHERAL_BUS_TIMEOUT. -/
inductive FarSide
  | responds
  | parity
  | silent
  deriving DecidableEq, Repr

/-- What the sleeping transceiver sees on the bus (R213): a CAN CC frame without error, a wake-up pattern, a CAN FD
frame, or a frame error (a CAN XL frame is one). -/
inductive BusSeen
  | frame
  | wup
  | fdFrame
  | error
  deriving DecidableEq, Repr

/-- What ISO 11898-1 makes the counters of R199 depend on beside the error's code: a bit error while an active error or
overload flag is sent, and whether the module sent the frame that flag ended; a stuff error in arbitration on a bit sent recessive and seen dominant; no dominant bit during
a passive error flag; a dominant bit right after the receiver's error flag; and further runs of eight dominant bits
after a flag. -/
structure ErrDetail where
  inFlag : Bool := false
  arbStuff : Bool := false
  quiet : Bool := false
  domAfter : Bool := false
  runs : Fin 32 := 0
  sender : Bool := false
  deriving DecidableEq, Repr

/-- One segment's measurement (R231): on-resistance in units of 10 µΩ, junction in °C, current in mA. -/
structure SegMeas where
  res : Nat
  tj : Int
  ma : Nat
  deriving DecidableEq, Repr

/-- What the converters of one load channel give for the 100 raw values of 100 µs (R263, R271): the latest raw value in
mA; the sum of the magnitudes in mA of those not at saturation, and how many are at saturation; and the 10-ms mean of
the magnitude in mA. -/
structure LoadMeas where
  now : Int
  sum : Nat
  sat : Nat
  mean10 : Nat
  deriving DecidableEq, Repr

/-- How a patrolled word of a rule bank reads (R307). -/
inductive PatrolRead
  | clean
  | corrected
  | uncorrectable
  deriving DecidableEq, Repr

/-- What the fault latch detects (Table 11.1). -/
inductive BwkFaultCause
  | clock
  | lockstep
  | supply
  | bankUe
  deriving DecidableEq, Repr

/-- FAULT_CAUSE code of a cause. -/
def BwkFaultCause.code : BwkFaultCause → Nat
  | .clock => 1
  | .lockstep => 2
  | .supply => 3
  | .bankUe => 4

/-- The operation of a PCIe AtomicOp (AtomicOps row of chapter 04). -/
inductive AtomicKind
  | fetchAdd
  | swap
  | cas
  deriving DecidableEq, Repr

/-- The operation of a cluster AMO: the harts are RV64GC, and the AMOs are those of its A extension. -/
inductive AmoKind
  | add
  | swap
  | and
  | or
  | xor
  | min
  | max
  | minU
  | maxU
  deriving DecidableEq, Repr

/-- A read-modify-write under a semaphore (R170). -/
inductive Rmw
  | atomic (k : AtomicKind)
  | amo (k : AmoKind)
  deriving DecidableEq, Repr

/-- A resource of a control slip (R128). -/
inductive ResKind
  | load
  | field
  | group
  deriving DecidableEq, Repr

/-- The four states of a resource (R129). -/
inductive ResState
  | unbound
  | commanded
  | held
  | released
  deriving DecidableEq, Repr

/-- A release state (R130). -/
inductive RelState
  | off
  | on
  | hold
  deriving DecidableEq, Repr

/-- The states of a slip (R125, Table 4.25 codes 0–3). -/
inductive SlipState
  | free
  | detached
  | active
  | resetting
  deriving DecidableEq, Repr

/-- A read of some bytes, or a write of bytes, of a region-controlled memory (R350). -/
inductive MemOp
  | read (n : Nat) (c : CellRead)
  | write (bytes : List Byte)
  | dmaRead (fab : Bool) (t : Fin 768) (n : Nat)
  deriving DecidableEq, Repr

/-- Who writes word 3 of a region: a World N requester, after words 0–2, or the Lock, with all four over its
private path (R352). -/
inductive RegionWriter
  | worldN (who : Requester)
  | lock (w0 w1 w2 : Word)
  deriving DecidableEq, Repr

/-- What a debugger asks of a processor through the Debug Module (R357): halt it or let it run, a single step, an abstract
register access, a trigger of a hart set to a value, a trace or counter read. -/
inductive DebugOp
  | halt
  | resume
  | step
  | access
  | trigger (i : Fin 4) (v : DWord)
  | trace
  deriving DecidableEq, Repr

/-- Who consumes poisoned data (R330): a hart's load or instruction fetch, or a slip's DMA read. -/
inductive PoisonUse
  | load (h : Fin 8)
  | fetch (h : Fin 8)
  | dma (n : Fin 4096) (fab : Bool) (t : Fin 768)
  deriving DecidableEq, Repr

/-- Where a power failure cuts a key update, a destruction or a transition (Tables 13.7, 13.11): before anything is
programmed (U1, U2; T1, T2); with a copy or row programmed that is not in force (U3, U4, a torn U5; a torn T3); or once the
commit record or row is whole (U5–U7; T3, T4). -/
inductive FlashCut
  | early
  | torn
  | whole
  deriving DecidableEq, Repr

/-- How a flash or fuse write ends: programmed; failed twice (R375); cut by a power failure. -/
inductive FlashOut
  | ok
  | bad
  | cut (at_ : FlashCut)
  deriving DecidableEq, Repr

/-- Partner entry states (Table 7.15, codes 0–5). -/
inductive PartState
  | free
  | present
  | lost
  | assigning
  | own
  | peer
  deriving DecidableEq, Repr

/-- One partner entry (R221, Table 7.15). `answered`: it answered the open call; `tries`: ASSIGNs sent. -/
structure Partner where
  state : PartState := .free
  uid : Nat := 0
  kind : Nat := 0
  misses : Nat := 0
  session : Nat := 0
  seen : Nat := 0
  first : Nat := 0
  answered : Bool := false
  tries : Nat := 0
  deriving DecidableEq, Repr

/-- A slip of the Primary as the Standby's shadow holds it (Tables 4.19, 4.25). -/
structure ShadowSlip where
  cls : Nat := 0
  classMax : Nat := 0
  rxq : Nat := 0
  min : Nat := 0
  max : Nat := 0
  deriving DecidableEq, Repr

/-- What a mirror record carries (Table 15.3): register writes of the Chart (extraction items, delivery sets,
policers, or the shadow words of a command) with a command's OP and INDEX (0: no command), the learning
templates, a slip (none: freed), a binding, the rule bank, a signal group, an analog word, an output's
recorded command, the θ, τ and ambient of the Primary's channels, those of the Standby's own channels
with the age of the copy in s (R426), a partner entry, the active configuration, or the marker that ends
a resync (R421). -/
inductive Mirror
  | chart (writes : List (Nat × Word)) (op index : Nat)
  | learn (templates : List (List Byte))
  | slip (n : Nat) (x : Option ShadowSlip)
  | bind (k owner : Nat) (release : RelState) (state : ResState)
  | bank (words : List (Nat × Word))
  | signals (g : Nat) (v : Word)
  | analog (i : Nat) (v : BitVec 16)
  | output (k : Nat) (on : Bool)
  | theta (chans : List (Int × Nat × Int))
  | thetaBack (chans : List (Int × Nat × Int)) (age : Nat)
  | partner (ch m : Nat) (p : Partner)
  | config (image : List Byte)
  | marker
  deriving DecidableEq, Repr

/-- What the DMA of a STAGE read (R430): nothing, when a read failed; the image; or a part of it, when power failed
meanwhile. -/
inductive StageRead
  | failed
  | whole (image : List Byte)
  | cut
  deriving DecidableEq, Repr

/-- What the exit sequence reads besides its tests: the image types whose active bank fails its check (R430), and
SLOT_ID, open as true (R411). -/
structure StartRead where
  badImages : BitVec 4 := 0
  strap : Bool := true
  deriving DecidableEq, Repr

/-- The header of a pairs frame (Table 15.2) without its TYPE. -/
structure PairHdr where
  role : Byte := 0
  flags : Byte := 0
  fmt : Byte := 0
  hbSeq : BitVec 16 := 0
  mirrorSeq : Word := 0
  version : Word := 0
  serial : BitVec 64 := 0
  ts : BitVec 64 := 0
  deriving DecidableEq, Repr

end Sys2Proof
end

