-- ==== Sys2Proof/Syntax.lean ====
section
/-! DEFINITION. The commands of the block: one constructor per row of the opcode table, with its operands. Each
docstring is the row's summary and rule; the operands are what a register write, a frame, a pin or an outside
measurement brings with it. -/

namespace Sys2Proof

inductive Instr
  /-- REGISTER_WRITE: A write to a register that has no row of its own acts on its fields by their access codes, or fails and is reported in the manner of its window (R12) -/
  | registerWrite (who : Requester) (t : Target) (width : Nat) (value : DWord) (far far2 : FarSide)
  /-- PERIPHERAL_BUS_TIMEOUT: The peripheral bus gives no response within PB_TIMEOUT, so the pending access fails with cause TIMEOUT (R164) -/
  | peripheralBusTimeout (who : Requester) (read : Option (Target × Nat × FarSide))
  /-- ATOMIC_OP: A PCIe AtomicOp takes a semaphore, reads, computes, writes and returns the original value, or is refused (R170) -/
  | atomicOp (fn : Fin 4096) (t : Target) (wide : Bool) (k : AtomicKind) (operand cmp : DWord) (slow : Bool) (far : FarSide)
  /-- CLUSTER_AMO: A cluster AMO to peripheral space is performed under a semaphore like an AtomicOp (R170) -/
  | clusterAmo (h : Fin 8) (t : Target) (wide : Bool) (k : AmoKind) (operand : DWord) (slow : Bool) (far : FarSide)
  /-- CLUSTER_LR: A cluster LR to a peripheral register takes a semaphore as the hart's reservation and returns the value (R171) -/
  | clusterLr (h : Fin 8) (t : Target) (wide : Bool) (far : FarSide)
  /-- CLUSTER_SC: A cluster SC writes only if its reservation is intact and younger than RES_TIMEOUT, and otherwise fails (R171) -/
  | clusterSc (h : Fin 8) (t : Target) (wide : Bool) (value : DWord) (far : FarSide)
  /-- RESERVATION_EXPIRE: An LR reservation reaches RES_TIMEOUT and can no longer let its SC succeed (R171) -/
  | reservationExpire (h : Fin 8)
  /-- SEMAPHORE_FREED: A freed semaphore lets the oldest waiting AtomicOp or AMO proceed (R172) -/
  | semaphoreFreed (k : Fin 64)
  /-- QM_WORK_ENQUEUE: Work for the Quaymaster is queued in its work queue by priority class, or shed by level (R29) -/
  | qmWorkEnqueue (cls : Fin 5) (id : Nat)
  /-- QM_WORK_SERVE: The Quaymaster takes the next work item by class, then by arrival, and serves it (R29) -/
  | qmWorkServe
  /-- OCC_PEAK_INTERVAL: A 1-s fabric-clock interval ends and DEV_QM_OCC.PEAK takes the highest occupancy of that interval (R30) -/
  | occPeakInterval
  /-- TIME_AON_COPY: Every 1 ms the 802.1AS time is copied to the always-on domain (R33) -/
  | timeAonCopy
  /-- FRAME_RECEIVED: A frame ends reception on a wire port and is checked, classed and admitted or dropped (R50) -/
  | frameReceived (p : Fin 11) (bytes : List Byte) (ts : Nat) (fcsOk : Bool) (m : MsCheck)
  /-- PFC_XOFF_REPEAT: Half a pause time passes while XOFF holds, so XOFF is sent again (R76) -/
  | pfcXoffRepeat (p : Fin 11) (c : Fin 8)
  /-- TX_FRAME_START: A wire port starts the next frame from the highest eligible class queue, or drops it if it cannot fit its gate (R66) -/
  | txFrameStart (p : Fin 11) (ts : Nat)
  /-- TX_FRAME_END: A frame leaves a destination, and its cells are freed once every destination and Logbook copy is done (R54) -/
  | txFrameEnd (p : Fin 11) (c : CellRead)
  /-- BASIN_MARCH_END: The Basin march test after reset ends and admission begins (R46) -/
  | basinMarchEnd (failed : List Nat)
  /-- BASIN_PATROL: The in-service patrol tests free cells and retires those that fail (R46) -/
  | basinPatrol (c : CellRead)
  /-- RETIRE_MAP_SAVE: The Quaymaster copies the Basin retirement map to flash after a retirement (R47) -/
  | retireMapSave
  /-- LIMIT_COMMIT: A write of SW_LIMIT_CMD.COMMIT snapshots the shadow limits for application (R56) -/
  | limitCommit
  /-- LIMIT_APPLIED: The snapshot of limits is applied whole between two admission decisions, or refused, and SW_LIMIT_RESULT is written (R56) -/
  | limitApplied
  /-- PORT_DISABLE: SW_PORTCFG.ENABLE written 0 discards every queued frame of the wire port (R67) -/
  | portDisable (p : Fin 11)
  /-- PORT_LINK_LOSS: A wire port loses link and discards its queued frames (R67) -/
  | portLinkLoss (p : Fin 11)
  /-- PORT_LINK_UP: A wire port's PHY completes training and its link comes up (R49) -/
  | portLinkUp (p : Fin 11)
  /-- AS_SYNC: An 802.1AS synchronisation corrects device time by slewing or by a step (R70) -/
  | asSync (offset : Int) (slavePort : Fin 16) (state : Fin 4) (prio : Byte)
  /-- GATE_CHANGE: A gate control list entry interval ends and the port's gate states change (R71) -/
  | gateChange (p : Fin 11)
  /-- QBV_COMMIT: SW_QBV_CMD.COMMIT copies the administrative gate list as a pending request (R73) -/
  | qbvCommit (p : Fin 11)
  /-- QBV_CHANGE_TIME: The change time arrives and the pending gate list becomes operative (R73) -/
  | qbvChangeTime (p : Fin 11)
  /-- PFC_FRAME_RX: A received MAC control frame is taken by the MAC and, if PFC, pauses its enabled classes (R77) -/
  | pfcFrameRx (p : Fin 11) (opcode : BitVec 16) (classes : BitVec 8) (times : List (BitVec 16))
  /-- PFC_PAUSE_EXPIRE: The pause time of a paused class expires and the class resumes (R77) -/
  | pfcPauseExpire (p : Fin 11) (c : Fin 8)
  /-- PFC_WATCHDOG: A class stays paused for WATCHDOG ms and the port ignores received pause for it (R77) -/
  | pfcWatchdog (p : Fin 11) (c : Fin 8)
  /-- PFC_WATCHDOG_END: 1 s passes after a PFC watchdog expiry and received pause is obeyed again (R77) -/
  | pfcWatchdogEnd (p : Fin 11) (c : Fin 8)
  /-- LOGBOOK_ENABLE: A write of SW_LB_CTRL.ENABLE is accepted only for a slip that can own the Logbook, or stops it (R84) -/
  | logbookEnable (v : Word)
  /-- LOGBOOK_RECORD_WRITE: A queued Logbook copy is written to the ring as a record, or discarded when the ring is full (R86) -/
  | logbookRecordWrite (c : CellRead)
  /-- LOGBOOK_INTERRUPT: The 10-µs hold-off ends with unconsumed records and the Logbook interrupt is raised (R89) -/
  | logbookInterrupt
  /-- LB_CONS: A write of LB_CONS in the owning slip's doorbell page returns Logbook space (R86) -/
  | lbCons (n : Fin 4096) (v : BitVec 16)
  /-- SW_CLEAR_PEAKS: SW_CNT_CLEAR.PEAKS sets SW_PEAK to the present SW_INUSE (R92) -/
  | swClearPeaks
  /-- SW_CLEAR_PCNT: SW_CNT_CLEAR.PCNT clears every port counter (R92) -/
  | swClearPcnt
  /-- SW_CLEAR_GDROP: SW_CNT_CLEAR.GDROP clears every SW_GDROP and SW_PDROP (R92) -/
  | swClearGdrop
  /-- SW_CLEAR_EDROP: SW_CNT_CLEAR.EDROP clears every SW_EDROP (R92) -/
  | swClearEdrop
  /-- SW_CLEAR_DROP: SW_CNT_CLEAR.DROP clears every SW_DROP, SW_LB_LOST and SW_CE_COUNT (R92) -/
  | swClearDrop
  /-- INSERT: CHT_CMD INSERT places a new exact entry in a free bucket, moving entries if needed (R113) -/
  | insert
  /-- UPDATE: CHT_CMD UPDATE replaces the action words of the exact entry with the shadow key (R111) -/
  | update
  /-- DELETE: CHT_CMD DELETE invalidates the exact entry with the shadow key (R111) -/
  | delete
  /-- TWRITE: CHT_CMD TWRITE writes the key, mask and actions of a ternary entry (R111) -/
  | twrite (i : BitVec 10)
  /-- TDELETE: CHT_CMD TDELETE invalidates a ternary entry (R111) -/
  | tdelete (i : BitVec 10)
  /-- MWRITE: CHT_CMD MWRITE writes the actions of the miss entry of one key kind (R111) -/
  | mwrite
  /-- POLICER_WRITE: A write of policer word 2 applies words 0 to 2 whole and refills both buckets (R115) -/
  | policerWrite (k : Fin 256) (w2 : Word)
  /-- PUNT_HANDLE: The Quaymaster handles a punted frame or copy, returning a whole frame for a second lookup (R107) -/
  | puntHandle
  /-- CHT_CLEAR_ALL: CHT_CNT_CLEAR.ALL clears every counter pair (R103) -/
  | chtClearAll
  /-- CHT_CLEAR_DROPS: CHT_CNT_CLEAR.DROPS clears the drop, miss, punt, extraction and impostor counters (R103) -/
  | chtClearDrops
  /-- CHT_CLEAR_INDEX: CHT_CNT_CLEAR clears the one counter pair INDEX (R103) -/
  | chtClearIndex (k : Fin 4096)
  /-- CREATE: SLP command CREATE makes a FREE slip ACTIVE or DETACHED with its class and share (R125) -/
  | create (n : Fin 4096)
  /-- DESTROY: SLP command DESTROY resets a slip if needed and frees it, unless a resource is bound (R130) -/
  | destroy (n : Fin 4096)
  /-- BIND: SLP command BIND binds a resource to a control slip with a declared release state (R129) -/
  | bind (n : Fin 4096)
  /-- UNBIND: SLP command UNBIND makes a released resource UNBOUND (R130) -/
  | unbind (n : Fin 4096)
  /-- RELEASE: SLP command RELEASE applies a resource's release state (R130) -/
  | release (n : Fin 4096)
  /-- SETSHARE: SLP command SETSHARE sets a slip's manifest MIN and MAX (R147) -/
  | setshare (n : Fin 4096)
  /-- RESET: SLP command RESET requests a slip reset and reports when it is done (R151) -/
  | reset (n : Fin 4096)
  /-- SETVFMAX: SLP command SETVFMAX moves the boundary between host and internal slips (R127) -/
  | setvfmax
  /-- SLP_CLEAR: SLP_CNT_CLEAR clears SLP_DLV_SKIP and every SLIP_RX_DROP (R143) -/
  | slpClear
  /-- VF_ENABLE: The host sets VF Enable, attaching host slips whose virtual functions now exist (R122) -/
  | vfEnable (k : Fin 4096) (ctl : HostCtl)
  /-- VF_DISABLE: The host clears VF Enable, resetting every host slip and making each DETACHED (R130) -/
  | vfDisable
  /-- VF_FLR: A function-level reset of virtual function n requests a reset of slip n (R151) -/
  | vfFlr (n : Fin 4096)
  /-- PF_RESET: A function-level or conventional reset of the physical function resets slip 0 and every host slip (R151) -/
  | pfReset
  /-- HOST_LINK_LOSS: The host link is lost, resetting slip 0 and every host slip (R149) -/
  | hostLinkLoss
  /-- SLIP_CTRL_RESET: SLIP_CTRL.RESET written 1 in an internal slip's window requests its reset (R151) -/
  | slipCtrlReset (n : Fin 4096)
  /-- SLIP_RESET_DONE: A slip reset sequence finishes its steps, writes SLIP_RESET_REPORT and releases every joined request (R151) -/
  | slipResetDone (n : Fin 4096)
  /-- RING_ENABLE: RING_CFG.ENABLE written 1 enables a ring pair with indices reset, or fails on a bad size (R132) -/
  | ringEnable (n : Fin 4096) (r : Fin 8) (cfg : Word)
  /-- RING_DISABLE: RING_CFG.ENABLE written 0 stops fetching and squashes fetched descriptors before their point of return (R133) -/
  | ringDisable (n : Fin 4096) (r : Fin 8)
  /-- RING_DISABLE_DONE: Every fetched descriptor has completed and RING_STATUS.ACTIVE falls to 0 (R133) -/
  | ringDisableDone (n : Fin 4096) (r : Fin 8)
  /-- SQ_TAIL: A write of SQ_TAIL in a doorbell page announces new submission entries, or sets DB_ERR (R134) -/
  | sqTail (n : Fin 4096) (r : Fin 8) (v : BitVec 16)
  /-- CQ_HEAD: A write of CQ_HEAD returns completion slots to the device, or sets DB_ERR (R134) -/
  | cqHead (n : Fin 4096) (r : Fin 8) (v : BitVec 16)
  /-- DESCRIPTOR_FETCH: The device issues a descriptor read once a manifest entry, tag and completion slot are free (R136) -/
  | descriptorFetch (n : Fin 4096) (r : Fin 8) (words : Option (List Word))
  /-- DESC_FETCH_FAIL: A descriptor fetch fails and the ring stops with ERR 2 (R149) -/
  | descFetchFail (n : Fin 4096) (r : Fin 8) (idx : BitVec 16) (cpl : Bool)
  /-- DMA_READ_COMPLETE: A data read for a descriptor returns, or fails and completes READ_ERR (R148) -/
  | dmaReadComplete (fab : Bool) (t : Fin 768) (data : Option (List Byte))
  /-- NOP: A NOP descriptor completes OK (R139) -/
  | nop (n : Fin 4096) (r : Fin 8)
  /-- RX_BUF: An RX_BUF descriptor in hand receives the waiting frame, which is written and completed (R143) -/
  | rxBuf (n : Fin 4096) (r : Fin 8) (cr : CellRead)
  /-- TX_ETH: A TX_ETH descriptor reads a frame and enters it into the Basin for classification (R140) -/
  | txEth (n : Fin 4096) (r : Fin 8) (data : Option (List Byte))
  /-- TX_CAN: A TX_CAN descriptor builds a CAN frame and enters it into the Basin for classification (R140) -/
  | txCan (n : Fin 4096) (r : Fin 8) (data : Option (List Byte))
  /-- TX_CAN_CONFIRM_DONE: Every channel named for a confirmed TX_CAN has ended the transmission and the completion is written (R142) -/
  | txCanConfirmDone (n : Fin 4096) (r : Fin 8)
  /-- LOAD_SET: A LOAD_SET descriptor commands a bound load channel on, off or clear (R240) -/
  | loadSet (n : Fin 4096) (r : Fin 8)
  /-- LOAD_SET_DONE: A waiting LOAD_SET completes when its gate turns on, current reaches zero, or the turn-on is withdrawn (R240) -/
  | loadSetDone (n : Fin 4096) (r : Fin 8)
  /-- LOAD_QUERY: A LOAD_QUERY descriptor completes at once with the channel status and latest sample (R241) -/
  | loadQuery (n : Fin 4096) (r : Fin 8)
  /-- FIELD_SET: A FIELD_SET descriptor commands a bound field output (R295) -/
  | fieldSet (n : Fin 4096) (r : Fin 8)
  /-- FIELD_SET_DONE: A waiting FIELD_SET completes with the first report from the field side (R295) -/
  | fieldSetDone (n : Fin 4096) (r : Fin 8)
  /-- FIELD_QUERY: A FIELD_QUERY descriptor completes at once with the field channel status word (R295) -/
  | fieldQuery (n : Fin 4096) (r : Fin 8)
  /-- BWK_REQ: A BWK_REQ descriptor writes masked bits of a bound signal group (R141) -/
  | bwkReq (n : Fin 4096) (r : Fin 8)
  /-- KEY_REQ: A KEY_REQ descriptor stages its request and posts it to an engine mailbox slot (R368) -/
  | keyReq (n : Fin 4096) (r : Fin 8) (data : Option (List Byte))
  /-- KEY_REQ_DONE: The Lock's response to a KEY_REQ is written and the descriptor completes (R368) -/
  | keyReqDone (k : Fin 8)
  /-- KEY_REQ_TIMEOUT: A KEY_REQ unanswered for 1 s completes TIMEOUT (R368) -/
  | keyReqTimeout (k : Fin 8)
  /-- LOG_READ: A LOG_READ descriptor copies whole device-log records from FROM into its buffer (R146) -/
  | logRead (n : Fin 4096) (r : Fin 8)
  /-- LOG_READ_TIMEOUT: A LOG_READ unanswered for 1 s completes TIMEOUT (R146) -/
  | logReadTimeout (n : Fin 4096) (r : Fin 8)
  /-- LOG_FLUSH: The Quaymaster moves device-log records from the staging queue to flash (R145) -/
  | logFlush
  /-- MSIX_HOLDOFF_EXPIRE: A ring's hold-off ends with completions written since the last message, so its vector is sent (R150) -/
  | msixHoldoffExpire (n : Fin 4096) (r : Fin 8)
  /-- MSIX_UNMASK: A masked vector with its pending bit set is unmasked and sent (R150) -/
  | msixUnmask (n : Fin 4096) (v : Fin 8) (whole : Bool)
  /-- TUNNEL_WRAP: The tunnel engine wraps a frame into Ethernet and returns it to the Basin, or refuses (R176) -/
  | tunnelWrap (c : CellRead)
  /-- TUNNEL_UNWRAP: The tunnel engine examines a frame for unwrapping and enters each CAN message into the Basin (R181) -/
  | tunnelUnwrap (c : CellRead)
  /-- TUN_CFG_WRITE: A write of TUN_CFG sets the enables and applies the stream's other fields only while both enables were 0 (R174) -/
  | tunCfgWrite (k : Fin 256) (v : Word)
  /-- SWITCH: TUN_KEY.SWITCH moves transmission to the other key number if it is valid (R180) -/
  | switch (k : Fin 256)
  /-- BRG_CLEAR_LOG: BRG_CNT_CLEAR.LOG writes VALID 0 in every bridge log entry (R167) -/
  | brgClearLog
  /-- BRG_CLEAR_TUN: BRG_CNT_CLEAR.TUN clears every tunnel counter (R92) -/
  | brgClearTun
  /-- BRG_CLEAR_OVERWRITE: BRG_CNT_CLEAR.OVERWRITE clears BRG_ERR_OVERWRITE (R92) -/
  | brgClearOverwrite
  /-- CAN_FRAME_RX: A CAN frame becomes valid at a channel and goes to the high-priority buffer, the acceptance test and the Basin (R190) -/
  | canFrameRx (n : Fin 16) (m : CanMsg) (ts : Nat)
  /-- HP_DELIVER: A high-priority frame is written into the next fetched RX_BUF of its ring and its vector sent (R193) -/
  | hpDeliver (n : Fin 17)
  /-- CAN_ENABLE: CAN_CTRL.ENABLE written 1 checks the configuration and leaves CONFIG for INTEGRATING, or stays in CONFIG (R187) -/
  | canEnable (n : Fin 16) (v : Word)
  /-- CAN_DISABLE: CAN_CTRL.ENABLE written 0 returns the channel to CONFIG and abandons loaded frames (R200) -/
  | canDisable (n : Fin 16)
  /-- CAN_BUS_INTEGRATED: An INTEGRATING channel sees 11 consecutive recessive bits and becomes ACTIVE (R200) -/
  | canBusIntegrated (n : Fin 16)
  /-- CAN_TX_LOAD: A queued frame is loaded into a mailbox or the transmit FIFO, or discarded (R195) -/
  | canTxLoad (n : Fin 16) (c : CellRead)
  /-- CAN_TX_ATTEMPT: At a start-of-frame opportunity the channel offers its highest-priority candidate (R196) -/
  | canTxAttempt (n : Fin 16) (lost : Bool) (delay sof : Nat)
  /-- CAN_TX_OK: A frame is sent successfully and leaves its mailbox or the FIFO (R197) -/
  | canTxOk (n : Fin 16)
  /-- CAN_BUS_ERROR: A channel detects a bus error and updates TEC and REC and its state (R199) -/
  | canBusError (n : Fin 16) (code : Fin 5) (phase : Fin 3) (window : Bool) (x : ErrDetail)
  /-- CAN_TX_TIMEOUT: A loaded frame reaches TX_TIMEOUT and is abandoned (R197) -/
  | canTxTimeout (n : Fin 16) (i : Fin 48)
  /-- CAN_BO_DELAY_EXPIRE: BO_DELAY passes in BUS_OFF with automatic recovery and the channel begins RECOVERING (R200) -/
  | canBoDelayExpire (n : Fin 16)
  /-- CAN_RECOVERED: 128 occurrences of 11 recessive bits end recovery and the channel becomes ACTIVE (R200) -/
  | canRecovered (n : Fin 16)
  /-- RECOVER: CAN_CMD RECOVER starts recovery from BUS_OFF (R200) -/
  | recover (n : Fin 16)
  /-- ABORT_TX: CAN_CMD ABORT_TX abandons loaded frames (R197) -/
  | abortTx (n : Fin 16)
  /-- CAN_TRCV_FAULT: A group supply or transceiver thermal fault puts the channel OFFLINE (R202) -/
  | canTrcvFault (n : Fin 16) (supply : Bool)
  /-- CAN_TRCV_FAULT_CLEAR: The fault clears and an OFFLINE channel returns to INTEGRATING (R200) -/
  | canTrcvFaultClear (n : Fin 16) (supply : Bool)
  /-- CAN_PEX: A frame the channel cannot decode causes a protocol exception event (R201) -/
  | canPex (n : Fin 16)
  /-- CAN_CLEAR: CAN_CNT_CLEAR clears every counter of the channel (R92) -/
  | canClear (n : Fin 16)
  /-- NWS_ENABLE: NWS_CFG.EN written 1 starts the network machine AWAKE and CONFIRMED (R209) -/
  | nwsEnable (n : Fin 16) (v : Word)
  /-- NWS_DISABLE: NWS_CFG.EN written 0 stops the network machine and returns the transceiver to normal (R209) -/
  | nwsDisable (n : Fin 16) (v : Word)
  /-- KEEP_ALIVE_RX: A received keep-alive is counted and restarts the idle timer (R207) -/
  | keepAliveRx (n : Fin 16) (m : CanMsg)
  /-- KEEP_ALIVE_DUE: KA_PERIOD passes under local need and a keep-alive is sent or counted as skipped (R208) -/
  | keepAliveDue (n : Fin 16)
  /-- LOCAL_NEED: Local need arises on a network, sending a keep-alive or waking it (R208) -/
  | localNeed (n : Fin 16) (host : Bool)
  /-- IDLE_TIMER_EXPIRE: The idle timer expires and the network stays AWAKE or goes DRAINING (R209) -/
  | idleTimerExpire (n : Fin 16)
  /-- DRAIN_TIMER_EXPIRE: T_DRAIN expires and at bus idle the transceiver is commanded into sleep (R209) -/
  | drainTimerExpire (n : Fin 16) (busIdle : Bool)
  /-- T_MAX_EXPIRE: The T_max timer expires and every seen node is held (R211) -/
  | tMaxExpire (n : Fin 16)
  /-- TRANSCEIVER_SLEEP_DONE: The transceiver's switch into sleep ends and a latched wake is served (R214) -/
  | transceiverSleepDone (n : Fin 16)
  /-- BUS_WAKE: The transceiver detects a wake in ASLEEP and returns to normal mode (R213) -/
  | busWake (n : Fin 16) (c : BusSeen) (m : CanMsg)
  /-- CONTROLLER_ONLINE: The controller sees 11 recessive bits after wake, its counters are released and the network becomes AWAKE (R212) -/
  | controllerOnline (n : Fin 16)
  /-- HAIL_PERIOD_EXPIRE: PERIOD seconds pass and a Hail CALL with ALL = 1 falls due (R219) -/
  | hailPeriodExpire (n : Fin 16)
  /-- HAIL_CALL_ALL: NWS_HAIL_CMD CALL with ALL = 1 sends a Hail call (R219) -/
  | hailCallAll (n : Fin 16)
  /-- HAIL_CALL_NEW: NWS_HAIL_CMD CALL with ALL = 0 sends a Hail call to partners without a number (R219) -/
  | hailCallNew (n : Fin 16)
  /-- FORGET: NWS_HAIL_CMD FORGET makes a LOST partner entry FREE (R221) -/
  | forget (n : Fin 16) (m : Fin 64)
  /-- ANNOUNCE: A received ANNOUNCE updates the partner table and may send ASSIGN (R221) -/
  | announce (n : Fin 16) (uid : BitVec 56) (session held kind : BitVec 8) (confirm : Bool) (ts : Nat)
  /-- LEAVE: A received LEAVE makes the partner's entry LOST (R222) -/
  | leave (n : Fin 16) (uid : BitVec 56)
  /-- FOREIGN_CALL: A CALL from a caller neither this module nor its peer is counted (R223) -/
  | foreignCall (n : Fin 16) (uid : BitVec 56)
  /-- HAIL_WINDOW_CLOSE: A call's window closes and silent PRESENT entries count a miss (R222) -/
  | hailWindowClose (n : Fin 16)
  /-- HAIL_ASSIGN_TIMEOUT: An ASSIGNING entry gets no confirmation within 100 ms and ASSIGN is resent or the entry freed (R221) -/
  | hailAssignTimeout (n : Fin 16) (m : Fin 64)
  /-- LLDP_RX: A received LLDPDU creates, refreshes or removes a neighbour entry (R225) -/
  | lldpRx (p : Fin 11) (frame : List Byte) (ts : Nat)
  /-- LLDP_TX: msgTxInterval passes and the agent sends an LLDPDU on the port (R224) -/
  | lldpTx (p : Fin 11)
  /-- LLDP_TTL_EXPIRE: A neighbour entry's TTL runs out and it is removed (R226) -/
  | lldpTtlExpire (p : Fin 11) (k : Fin 4)
  /-- NWS_CLEAR: NWS_CNT_CLEAR clears every NWS counter of the channel (R92) -/
  | nwsClear (n : Fin 16)
  /-- SLALOM_ADMIT: Slalom admits the first fit request of a bank's queue and the gate turns on (R272) -/
  | slalomAdmit (b : Fin 2)
  /-- TURN_OFF_END: A channel's clamp or ramp ends with current at zero and LDC_RAMP records the outcome (R249) -/
  | turnOffEnd (n : Fin 40)
  /-- SHORT_CIRCUIT_TRIP: Current crosses the short-circuit threshold and the channel blocks and latches code 1 (R242) -/
  | shortCircuitTrip (n : Fin 40) (ma : Int)
  /-- THERMAL_TRIP: A segment junction reaches 175 °C and the channel turns off and restarts or latches (R243) -/
  | thermalTrip (n : Fin 40) (tj : Int)
  /-- THERMAL_RESTART: Every in-service segment falls below 150 °C and a restart turn-on is requested (R243) -/
  | thermalRestart (n : Fin 40) (tj : Int)
  /-- RESTART_COUNT_RESET: 10 s on without a thermal trip returns the restart count to 0 (R243) -/
  | restartCountReset (n : Fin 40)
  /-- REVERSE_CURRENT: Reverse current lasts REV_TIME ms and is reported and may trip the channel (R244) -/
  | reverseCurrent (n : Fin 40) (cur : Int)
  /-- TWIN_REVERSE_BLOCK: A TWIN channel's current falls below −1 % of full scale and its reverse-facing transistors turn off (R245) -/
  | twinReverseBlock (n : Fin 40) (cur : Int)
  /-- TWIN_FORWARD: Forward voltage across a blocking TWIN channel exceeds 20 mV and it conducts again (R245) -/
  | twinForward (n : Fin 40) (mv : Int)
  /-- SUPPLY_FAULT: A bank or gate-drive supply leaves its range and the affected channels turn off (R246) -/
  | supplyFault (k : Fin 4) (v : Int)
  /-- SUPPLY_RESTORED: A supply returns to range and channels that want to be on request turn-on (R246) -/
  | supplyRestored (k : Fin 4) (v : Int)
  /-- SEGMENT_MEASURE: Every 10 s an on channel measures each in-service segment's on-resistance (R231) -/
  | segmentMeasure (n : Fin 40) (ms : List SegMeas)
  /-- SPARE_CHECK: 100 µs after the spare turns on its current is checked before the retiring segment turns off (R233) -/
  | spareCheck (n : Fin 40) (spare mean : Nat)
  /-- SEGMENT_TEST: The off-state segment test runs after turn-off or every 10 s while off (R232) -/
  | segmentTest (n : Fin 40) (bad : Option (Fin 7))
  /-- SEGMENT_MAP_SAVE: The Quaymaster copies a changed segment map to flash (R235) -/
  | segmentMapSave
  /-- OPEN_LOAD: An on channel stays below the open-load threshold for OL_TIME ms and reports open load (R251) -/
  | openLoad (n : Fin 40) (cur : Int)
  /-- UNDER_CURRENT: An on channel stays below UC_THR for UC_TIME ms and reports under-current (R252) -/
  | underCurrent (n : Fin 40) (cur : Int)
  /-- OFF_STATE_TEST: An off channel tests its output voltage and reports the outcome (R254) -/
  | offStateTest (n : Fin 40) (mv : Int)
  /-- SAMPLE_INTERVAL_END: A sample interval ends and the sample is added to the open block (R255) -/
  | sampleIntervalEnd (n : Fin 40) (mean lo hi tj : Int)
  /-- LDC_APPLY: LDC_CMD APPLY checks and applies a channel's four staged registers together (R260) -/
  | ldcApply (n : Fin 64)
  /-- CLEAR_TRIP: LDC_CMD CLEAR_TRIP clears trip codes 1–3 and code 4 when allowed (R240) -/
  | clearTrip (n : Fin 64)
  /-- SEG_TEST: LDC_CMD SEG_TEST runs the off-state segment test (R232) -/
  | segTest (n : Fin 64) (bad : Option (Fin 7))
  /-- RETIRE: LDC_CMD RETIRE retires a named segment with cause 4 (R233) -/
  | retire (n : Fin 64) (seg : Fin 8)
  /-- WEAR_RECORD_SAVE: The Quaymaster copies the wear records of each channel to flash (R466) -/
  | wearRecordSave
  /-- LDC_CLEAR_ALL: LDC_CNT_CLEAR.ALL clears every counter of every channel except wear records (R261) -/
  | ldcClearAll
  /-- LDC_CLEAR_CHANNEL: LDC_CNT_CLEAR clears every counter of one channel except wear records (R261) -/
  | ldcClearChannel (n : Fin 64)
  /-- WG_MODEL_UPDATE: Every 100 µs the wire guard updates each channel's modelled conductor temperature (R263) -/
  | wgModelUpdate (va vb : Int) (ms : List LoadMeas)
  /-- WG_STATE_SAVE: The wire guard saves its state to the next record area (R268) -/
  | wgStateSave (whole : Bool)
  /-- WGS_APPLY: WGS_CMD APPLY checks and applies a channel's four staged registers together (R281) -/
  | wgsApply (n : Fin 64)
  /-- MAINS_LOW: The mains falls below 180 V over 20 ms and MAINS_LOW is set (R270) -/
  | mainsLow (volts : Nat)
  /-- MAINS_LOW_CLEAR: The mains stays at or above 180 V for 1 s and MAINS_LOW clears (R270) -/
  | mainsLowClear (volts : Nat)
  /-- BANK_OVERCURRENT: A bank's mean current stays above its budget for 100 ms and one channel is shed (R278) -/
  | bankOvercurrent (b : Fin 2)
  /-- SHED_HOLD_EXPIRE: SHED_HOLD passes and a shed channel's request re-enters the queue (R279) -/
  | shedHoldExpire (n : Fin 40)
  /-- INRUSH_WINDOW_END: A channel's inrush window ends, its reservation falls and its checks start (R271) -/
  | inrushWindowEnd (n : Fin 40)
  /-- DIP_BEGIN: A bank voltage falls more than DIP_THR below its mean and a dip begins (R275) -/
  | dipBegin (b : Fin 2) (v : Int)
  /-- DIP_END: The dip ends, its duration is recorded and running windows are extended (R276) -/
  | dipEnd (b : Fin 2) (v : Int)
  /-- DIP_BLANKING_END: 200 µs after a dip ends, check blanking and the admission hold end (R276) -/
  | dipBlankingEnd (b : Fin 2)
  /-- WGS_CLEAR_ALL: WGS_CNT_CLEAR clears every wire guard and Slalom counter (R282) -/
  | wgsClearAll
  /-- WGS_CLEAR_CHANNEL: WGS_CNT_CLEAR clears the counters of one channel (R282) -/
  | wgsClearChannel (n : Fin 64)
  /-- FIELD_INPUT_EDGE: An input reads a new level for FILTER, changes its qualified state and forms an edge record (R286) -/
  | fieldInputEdge (n : Fin 32) (level : Bool) (ts : Nat)
  /-- ISOLATION_FRAME_TX: Every 20 µs each side sends an isolation frame, and the field side latches its counters (R300) -/
  | isolationFrameTx
  /-- FIELD_FRAME_RX: The device side receives a field-side frame, judges its validity and presents input terms (R300) -/
  | fieldFrameRx (crc : Bool)
  /-- FIELD_SIDE_FRAME_RX: The field side receives a device-side frame and applies each output's drive request (R293) -/
  | fieldSideFrameRx (crc : Bool)
  /-- FIELD_LINK_DOWN: 3 periods pass without a valid frame and the device side declares the link down (R300) -/
  | fieldLinkDown
  /-- FIELD_SILENCE: A group receives no valid frame for T_SILENCE and its outputs take their safe states (R301) -/
  | fieldSilence (g : Fin 4)
  /-- WIRE_BREAK: A Type 3 loop current stays below 0.25 mA for 2 ms and a break is reported (R288) -/
  | wireBreak (n : Fin 32)
  /-- WIRE_BREAK_CLEAR: A loop current stays at 0.35 mA or more for 2 ms and the break clears (R288) -/
  | wireBreakClear (n : Fin 32)
  /-- OUTPUT_OVERLOAD: An output stays in current limit for 5 ms and latches fault 2 (R294) -/
  | outputOverload (n : Fin 32)
  /-- OUTPUT_THERMAL_SHUTDOWN: An output driver reaches 150 °C and latches fault 3 (R294) -/
  | outputThermalShutdown (n : Fin 32)
  /-- OUTPUT_MISMATCH: An output driven off stays above 12 V for 2 ms and reports fault 5 (R294) -/
  | outputMismatch (n : Fin 32)
  /-- OUTPUT_MISMATCH_CLEAR: The terminal stays at or below 12 V for 2 ms and the mismatch clears (R294) -/
  | outputMismatchClear (n : Fin 32)
  /-- QUAD_SUPPLY_FAULT: A quad supply goes out of range and its outputs turn off with fault 4 (R284) -/
  | quadSupplyFault (q : Fin 8) (volt : BitVec 16)
  /-- QUAD_SUPPLY_RESTORED: A quad supply returns to range and its outputs follow their drive requests (R284) -/
  | quadSupplyRestored (q : Fin 8) (volt : BitVec 16)
  /-- COUNTER_SNAPSHOT: A SNAP_PERIOD multiple passes and a snapshot record is formed from the next latch (R291) -/
  | counterSnapshot (n : Fin 8)
  /-- FIO_APPLY: FIO_CMD APPLY checks and applies a field channel's two staged registers together (R306) -/
  | fioApply (n : Fin 32)
  /-- CLEAR_FAULT: FIO_CMD CLEAR_FAULT clears a latched output fault (R294) -/
  | clearFault (n : Fin 32)
  /-- SNAPSHOT: FIO_CMD SNAPSHOT requests a counter snapshot (R291) -/
  | snapshot (n : Fin 32)
  /-- FIO_CLEAR_ALL: FIO_CNT_CLEAR clears every field counter (R306) -/
  | fioClearAll
  /-- FIO_CLEAR_CHANNEL: FIO_CNT_CLEAR clears the counters of one field channel (R306) -/
  | fioClearChannel (n : Fin 32)
  /-- FIO_CLEAR_LINK: FIO_CNT_CLEAR clears the link counters (R306) -/
  | fioClearLink
  /-- BWK_SAMPLE: At each sample instant the Breakwater applies the last cycle's outputs, copies its inputs and evaluates the rules (R309) -/
  | bwkSample (clks : Nat)
  /-- BWK_HB_QM: A Quaymaster write of BWK_HB_QM kicks its heartbeat, accepted or discarded (R313) -/
  | bwkHbQm (seq : BitVec 8)
  /-- BWK_HB_CL: A cluster hart write of BWK_HB_CL kicks the cluster heartbeat, accepted or discarded (R313) -/
  | bwkHbCl (seq : BitVec 8)
  /-- BWK_FAULT: A clock, lockstep, supply or bank error puts the Breakwater in FAULT and presents safe states (R308) -/
  | bwkFault (cause : BwkFaultCause)
  /-- BWK_PATROL: The patrol reads every bank word, correcting single-bit errors (R307) -/
  | bwkPatrol (inactive : Bool) (o : Fin 8192) (r : PatrolRead)
  /-- CHECK: BWK_CMD CHECK checks the inactive bank (R324) -/
  | check
  /-- COMMIT: BWK_CMD COMMIT checks the inactive bank and makes it active at the next sample instant (R324) -/
  | commit
  /-- BWK_CLEAR: BWK_CNT_CLEAR clears every Breakwater counter (R328) -/
  | bwkClear
  /-- CORE_FAILURE: A core fails in service, is retired and its hart restarts on a spare (R333) -/
  | coreFailure (h : Fin 8) (hang : Bool) (bad : BitVec 10) (lost : List Nat)
  /-- CACHE_UE: An uncorrectable cache error refetches a clean line or poisons a dirty one (R330) -/
  | cacheUe (correctable dirty : Bool) (line : BitVec 56)
  /-- POISON_CONSUME: Poisoned data is consumed and raises a fault or READ_ERR (R330) -/
  | poisonConsume (who : PoisonUse) (addr : BitVec 56)
  /-- DRAM_ROW_REPAIR: The DRAM controller repairs a failing row by post-package repair (R331) -/
  | dramRowRepair (row : BitVec 24) (e : DramError)
  /-- MSI_WRITE: An MSI writes an identity to an interrupt file, making it pending (R338) -/
  | msiWrite (h : Fin 8) (f : Fin 9) (v : Word)
  /-- MTIMER_INTERRUPT: CLT_MTIME reaches a hart's compare value and its timer interrupt becomes pending (R339) -/
  | mtimerInterrupt (h : Fin 8)
  /-- CAPTURE: CLT_CAP_CMD.CAPTURE copies CLT_MTIME and device time in one clock (R340) -/
  | capture
  /-- CLT_WDOG_KICK: A write of 0x5A5A kicks the cluster watchdog (R341) -/
  | cltWdogKick (key : BitVec 16)
  /-- CLT_WDOG_EXPIRE: A watchdog period ends without a kick, warning first and then requesting a Cluster reset (R341) -/
  | cltWdogExpire
  /-- MEMORY_ACCESS: An access to a region-controlled memory is judged against its regions (R350) -/
  | memoryAccess (cls : Fin 7) (source : Fin 4096) (place : MemAt) (op : MemOp)
  /-- REGION_WRITE: A write of region word 3 applies the region's four words whole, or is refused (R352) -/
  | regionWrite (who : RegionWriter) (m : Fin 5) (r : Fin 64) (v : Word)
  /-- MAILBOX_POST: The owner writes a request header, posting the slot to the Lock (R347) -/
  | mailboxPost (who : Requester) (s : Fin 16) (header : Word)
  /-- MAILBOX_RESPONSE: The Lock writes a response and the slot becomes DONE (R347) -/
  | mailboxResponse
  /-- MAILBOX_TIMEOUT: A slot stays POSTED or TAKEN for 1 s and completes TIMEOUT (R347) -/
  | mailboxTimeout (s : Fin 16)
  /-- ACK: KEY_MBX_CTRL.ACK returns a DONE slot to FREE (R347) -/
  | ack (who : Requester) (s : Fin 16)
  /-- CANCEL: KEY_MBX_CTRL.CANCEL cancels a POSTED or TAKEN slot (R347) -/
  | cancel (who : Requester) (s : Fin 16)
  /-- HO_CLAIM: The Lock claims a block, starting HO_TIMEOUT (R353) -/
  | hoClaim (b : Fin 17)
  /-- HO_RELEASE: WLD_HO_CMD RELEASE starts the release of a claimed block (R354) -/
  | hoRelease (b : BitVec 5)
  /-- HO_TIMEOUT: HO_TIMEOUT expires and the release is forced (R353) -/
  | hoTimeout (b : Fin 17)
  /-- HO_WITHDRAW: The Lock withdraws its claim and the block returns to N_OWNED (R353) -/
  | hoWithdraw (b : Fin 17)
  /-- HO_RETURN: The Lock returns an S_OWNED block, releasing it to World N (R353) -/
  | hoReturn (b : Fin 17)
  /-- HO_GRANT: The Block reset of a hand-over ends and the block is granted to its new world (R354) -/
  | hoGrant (b : Fin 17)
  /-- DEBUG_ENABLE_LOWER: The manager writes 1 to N_INV or N_NINV, lowering a debug enable (R358) -/
  | debugEnableLower (v : Word)
  /-- DEBUG_LIFETIME_EXPIRE: A debug certificate's LIFETIME expires and its enables fall (R383) -/
  | debugLifetimeExpire
  /-- TAP_INSTRUCTION: A TAP instruction is taken, with terminal-driving ones acting only when allowed (R359) -/
  | tapInstruction (code : Fin 6)
  /-- WLD_CLEAR_LOG: WLD_CNT_CLEAR writes VALID 0 in every violation log entry (R361) -/
  | wldClearLog
  /-- WLD_CLEAR_COUNTERS: WLD_CNT_CLEAR clears every WLD counter (R361) -/
  | wldClearCounters
  /-- GENERATE: The Lock generates a key into a slot, creating or updating it (R371) -/
  | generate (fl : FlashOut)
  /-- IMPORT: The Lock imports a key wrapped under SLOT2 into a slot (R371) -/
  | keyImport (fl : FlashOut)
  /-- EXPORT: The Lock returns an exportable key wrapped under SLOT2 (R370) -/
  | keyExport
  /-- KEY_DESTROY: The Lock erases a slot's key and both its flash records (R371) -/
  | keyDestroy (fl : FlashOut)
  /-- PUBLIC: The Lock returns the public key of an ECC slot (R370) -/
  | keyPublic
  /-- SEAL: The Lock encrypts and tags data under an AES slot (R370) -/
  | seal
  /-- OPEN: The Lock checks and decrypts data under an AES slot (R370) -/
  | keyOpen
  /-- MAC: The Lock computes an HMAC tag (R370) -/
  | keyMac
  /-- MAC_CHECK: The Lock checks an HMAC tag (R370) -/
  | macCheck
  /-- SIGN: The Lock signs a digest with an ECC private slot (R370) -/
  | sign
  /-- VERIFY: The Lock verifies a signature with an ECC public slot (R370) -/
  | verify
  /-- HASH: The Lock returns a digest of the message (R370) -/
  | keyHash
  /-- DERIVE: The Lock derives a key into SLOT2 by HKDF (R371) -/
  | derive (fl : FlashOut)
  /-- AGREE: The Lock performs ECDH and stores the secret in SLOT2 (R371) -/
  | agree (fl : FlashOut)
  /-- RANDOM: The Lock returns random bytes (R370) -/
  | random
  /-- TUNNEL_KEY: The Lock derives a stream key and installs it in a tunnel stream under a key number (R372) -/
  | tunnelKey
  /-- MKA_ICV: The Lock computes the ICV of an MKPDU (R372) -/
  | mkaIcv
  /-- MKA_SAK: The Lock generates a SAK, installs it and returns it wrapped under the KEK (R372) -/
  | mkaSak
  /-- MKA_SAK_IN: The Lock unwraps a received SAK and installs it in the port (R372) -/
  | mkaSakIn
  /-- CHALLENGE: The Lock returns a new live challenge (R381) -/
  | challenge
  /-- CHALLENGE_EXPIRE: The live challenge lapses after 600 s (R381) -/
  | challengeExpire
  /-- TRANSITION: The Lock checks a transition token and moves the life-cycle state (R382) -/
  | transition (fl : FlashOut)
  /-- DEBUG: The Lock checks a debug certificate and sets the allowed debug enables (R383) -/
  | keyDebug
  /-- ATTEST: The Lock signs an attestation statement with slot 0 (R384) -/
  | attest
  /-- IDENTITY: The Lock returns the identity public key and its certificate (R384) -/
  | identity
  /-- KEY_CLEAR: KEY_CNT_CLEAR clears every key-store counter (R386) -/
  | keyClear
  /-- COLD_POWER_ON: The always-on rail falls below 2.7 V or first rises, asserting a Cold reach (R396) -/
  | coldPowerOn
  /-- RESET_PIN: A RESET_N low pulse is accepted and asserts source 2 (R397) -/
  | resetPin (us : Nat)
  /-- LOGIC_POWER_FAIL: Logic power-good falls and asserts source 3 at Module reach (R452) -/
  | logicPowerFail
  /-- POWER_FAIL_WARNING: The logic supply raises the power-fail warning and the wire guard and logs save (R452) -/
  | powerFailWarning
  /-- MAINS_RETURN: The mains returns before power-good falls and the warning is withdrawn (R452) -/
  | mainsReturn
  /-- RESET_MODULE: RST_CMD RESET_MODULE asserts a Module reach (R396) -/
  | resetModule (key : Byte)
  /-- RESET_FABRIC: RST_CMD RESET_FABRIC asserts a Fabric reach (R396) -/
  | resetFabric (key : Byte)
  /-- RESET_CLUSTER: RST_CMD RESET_CLUSTER asserts a Cluster reach (R396) -/
  | resetCluster
  /-- QM_KICK: A Quaymaster write of RST_QM_KICK kicks the Quaymaster watchdog (R396) -/
  | qmKick (who : Requester)
  /-- QM_WATCHDOG_EXPIRE: The Quaymaster watchdog sees no kick in time and asserts a Fabric reach (R396) -/
  | qmWatchdogExpire
  /-- RESET_SOURCE_RELEASE: A reset source releases and covered domains leave reset once every covering source has released (R398) -/
  | resetSourceRelease (c : Fin 16)
  /-- EXIT_STEP: A step of the exit sequence begins once its conditions hold and its domains leave reset (R399) -/
  | exitStep (k : Fin 6) (bad : BitVec 10) (damaged : List (Fin 256)) (found : StartRead)
  /-- CLOCK_CONFIRM_FAIL: A clock is not confirmed within its limit and the controller escalates or holds the domain (R401) -/
  | clockConfirmFail (k : Fin 6)
  /-- XTAL_FAIL: The crystal fails and the always-on domain moves to the RC oscillator (R388) -/
  | xtalFail
  /-- XTAL_RESTORED: The crystal is confirmed for 1 s and the always-on domain returns to it (R388) -/
  | xtalRestored
  /-- BERTH: RST_CMD BERTH starts parking the cluster (R391) -/
  | berth
  /-- BERTH_DONE: Parking ends and the module is BERTHED (R392) -/
  | berthDone
  /-- MOOR: RST_CMD MOOR is checked and starts MOORING (R393) -/
  | moor (key : Byte)
  /-- MOOR_DONE: MOORING ends and the module is MOORED or unmoors for a latched wake (R393) -/
  | moorDone
  /-- UNDERWAY: RST_CMD UNDERWAY in BERTHED starts UNBERTHING (R391) -/
  | underway
  /-- UNBERTH_DONE: UNBERTHING ends, harts resume and the module is UNDERWAY (R391) -/
  | unberthDone
  /-- WAKE: An enabled wake source acts, leaving BERTHED or MOORED or being latched (R394) -/
  | wake (cause : Fin 7) (chan : Fin 32)
  /-- FMAP_PROG: RST_CMD FMAP_PROG programs the next fuse-map row from RST_FMAP_STAGE (R407) -/
  | fmapProg (key : Byte) (torn : Bool)
  /-- BLKCTL_WRITE: A write of RST_BLKCTL gates a block's clock or power, or is refused (R408) -/
  | blkctlWrite (who : Option Requester) (b : Fin 19) (v : Word)
  /-- SUPERCAP_LOW: Less than 24 h of hold-up remains and SC_OK falls (R405) -/
  | supercapLow
  /-- RST_CLEAR: RST_CNT_CLEAR clears every reset counter (R410) -/
  | rstClear
  /-- PAIR_ENABLE: PAIR_CFG.EN written 1 makes a single module SEEKING (R415) -/
  | pairEnable (v : Word)
  /-- PAIR_DISABLE: PAIR_CFG.EN written 0 releases the line, stops heartbeats and makes the module SINGLE (R415) -/
  | pairDisable (v : Word)
  /-- PAIR_HEARTBEAT_TX: Every 250 µs the pairs engine sends a heartbeat (R418) -/
  | pairHeartbeatTx
  /-- PAIR_HEARTBEAT_RX: A received heartbeat is judged valid or not and may make the peer live (R419) -/
  | pairHeartbeatRx (h : PairHdr)
  /-- PAIR_HEARTBEAT_MISS: A 250-µs period passes without a valid heartbeat; after four the peer is not live (R419) -/
  | pairHeartbeatMiss
  /-- TAKEOVER_BIND: After takeover the Quaymaster creates the shadow slips and binds their resources (R423) -/
  | takeoverBind
  /-- JOIN_WAIT_EXPIRE: JOIN_WAIT expires in SEEKING and the module claims if allowed (R415) -/
  | joinWaitExpire
  /-- DOMINANCE_LOST: A Primary condition fails and hardware removes Primary (R412) -/
  | dominanceLost (loop : Bool)
  /-- LOOP_OPEN: The module's loop stays open for 1 ms and it becomes ISOLATED (R415) -/
  | loopOpen
  /-- LOOP_RESTORED: An isolated module's loop stays intact for 1 s and it returns to SEEKING (R415) -/
  | loopRestored
  /-- MIRROR_RECORD_RX: The Standby applies a mirror record in sequence and acknowledges it, or requests a resync (R420) -/
  | mirrorRecordRx (seq : Word) (m : Mirror)
  /-- MIRROR_ACK_RX: The Primary receives an acknowledgement of a mirror record (R420) -/
  | mirrorAckRx (seq : Word)
  /-- MIRROR_ACK_TIMEOUT: 5 ms pass without an acknowledgement and a resync follows (R420) -/
  | mirrorAckTimeout
  /-- RESYNC_REQUEST_RX: The Primary receives a resync request and sends the whole mirrored state (R421) -/
  | resyncRequestRx
  /-- HANDOVER_RX: A Standby receives a HANDOVER record and claims once the peer line is high (R415) -/
  | handoverRx (seq : Word)
  /-- HANDOVER: PAIR_CMD HANDOVER sends a HANDOVER record and releases the line after acknowledgement (R415) -/
  | handover
  /-- HANDOVER_TIMEOUT: The peer has not claimed 1 ms after handover, so the module claims again and reports FAILED (R415) -/
  | handoverTimeout
  /-- RESYNC: PAIR_CMD RESYNC starts a full mirror resync (R421) -/
  | resync
  /-- FORCE_SINGLE: PAIR_CMD FORCE_SINGLE makes an isolated module single (R415) -/
  | forceSingle (key : Byte)
  /-- PAIR_CLEAR: PAIR_CNT_CLEAR clears every pair counter (R437) -/
  | pairClear
  /-- STAGE: SVC_CMD STAGE reads an image into the inactive bank and checks it (R430) -/
  | stage (t : Fin 16) (image : StageRead)
  /-- ACTIVATE: SVC_CMD ACTIVATE makes a staged image active by type (R433) -/
  | activate (t : Fin 16)
  /-- REVERT: SVC_CMD REVERT makes the inactive firmware bank active (R435) -/
  | revert (t : Fin 16)
  /-- RAISE_SVN: SVC_CMD RAISE_SVN programs a fuse row raising the minimum SVN (R436) -/
  | raiseSvn (t : Fin 16) (key : Byte)
  /-- CONVERTER_PHASE_FAIL: A PFC or load-rail converter phase fails and a spare phase is brought in (R427) -/
  | converterPhaseFail (rail : Bool)
  /-- FLASH_BLOCK_FAIL: A flash erase block fails and a spare block is brought in (R427) -/
  | flashBlockFail
  /-- BULK_CAP_MEASURE: The daily measurement updates the bulk capacitance margin (R427) -/
  | bulkCapMeasure (percent : Nat)
  /-- OPEN_LOAD_CLEAR: The current of a channel reporting open load exceeds the threshold for OL_TIME ms and status bit OPEN_LOAD clears (R251) -/
  | openLoadClear (n : Fin 40) (cur : Int)
  /-- UNDER_CURRENT_CLEAR: The current of a channel reporting under-current exceeds UC_THR for UC_TIME ms and status bit UNDER_CURRENT clears (R252) -/
  | underCurrentClear (n : Fin 40) (cur : Int)
  /-- PEER_LINE_HIGH: The peer's dominance line goes high, letting a Standby whose peer is not live, or one that holds a HANDOVER record, claim and become Primary (R415) -/
  | peerLineHigh
  /-- DUP_SLOT_DETECTED: A module reads its own dominance line low while not driving it, sets DUP_SLOT and stops claiming until its next Module or Cold reach (R413) -/
  | dupSlotDetected
  /-- CANCELLED_SLOT_TIMEOUT: A CANCELLED mailbox slot reaches 1 s and returns to FREE (R347) -/
  | cancelledSlotTimeout (s : Fin 16)
  /-- CLOCK_RETRY: A domain held in reset for want of a confirmed clock is retried after 1 s, and leaves reset if the clock is now confirmed (R401) -/
  | clockRetry (k : Fin 6) (ok : Bool)
  /-- HOST_LINK_UP: The host link trains to L0, ending the WAKE_N drive after unmooring and letting the host return after a surprise removal (R393) -/
  | hostLinkUp
  /-- SUPERCAP_RECHARGED: The supercapacitor charges back above 24 h of hold-up and RST_STATUS.SC_OK rises again (R405) -/
  | supercapRecharged
  /-- DEBUG_HALT: A debugger holding an invasive enable halts a hart, or the Quaymaster under QM, through the Debug Module, which stops its heartbeat kicks and exempts it from core-failure detection (R357) -/
  | debugHalt (who : Fin 10) (op : DebugOp)
  deriving DecidableEq, Repr

end Sys2Proof
end

