-- ==== Sys2Proof/Config.lean ====
section
/-! DEFINITION. What one module fixes and the spec does not number (fuses, versions), and the values the
spec leaves open (free values). Every constant here is opaque: no proof can see a value of it. -/

namespace Sys2Proof.Config

/-- Fused serial number, DEV_SERIAL (01). -/
opaque serial : BitVec 64
/-- Fused base MAC address, DEV_MAC (01). -/
opaque baseMac : BitVec 48
/-- Silicon stepping, DEV_IDENT [15:8] (Table 1.10). -/
opaque stepping : Byte
/-- Vangern's JTAG manufacturer identity, IDCODE [11:1] (R462). -/
opaque jtagMaker : BitVec 11
/-- First and last granule of 4 KiB of the key-store area of flash (R363). -/
opaque keyArea : BitVec 21 × BitVec 21
/-- FREE VALUE: the lowest and highest mirror format that Quaymaster firmware of a DEV_VERSION speaks (R425). -/
opaque fmtsOf : BitVec 32 → Nat × Nat
/-- DEV_VERSION of the Quaymaster firmware in a bank (Table 1.11). -/
opaque qmVersion : Bool → Word
/-- FREE VALUE: a natural number the spec leaves open; the argument is the state's counter of free
values, so that no two draws are known to be equal or different. -/
opaque freeNat : Nat → Nat
/-- FREE VALUE: the device's random source (R88, RANDOM, GENERATE): draw `i`, byte `k`. -/
opaque freeByte : Nat → Nat → Byte
/-- FREE VALUE: the NODE that the pair peer with serial `bound` holds on channel `n`, which R223 keeps out of assignment;
the spec does not say how a module learns it. -/
opaque peerNode (bound n : Nat) : Nat
/-- FREE VALUE: PCIe routing ID of the physical function, which the host assigns (Table 5.17). -/
opaque routingId : BitVec 16
/-- FREE VALUE: the requester class recorded for a refused region write of a host (Table 12.17 names no
class of hosts). -/
opaque hostClass : BitVec 3
/-- FREE VALUE: byte `k` of the 16-byte frame description stored before the data of a CAN message (R20 names its
fields, not its layout). -/
opaque canDescription : CanMsg → Nat → Byte
/-- The cluster's boot ROM, by byte (R335). -/
opaque bootRom : Nat → Byte
/-- Whether a DRAM row, by number, holds a byte of a 4 KiB page of DRAM: the spec does not give the mapping (R331). -/
opaque rowInPage (row page : Nat) : Bool
/-- Manufacturing baseline of a segment in units of 10 µΩ (R231): channel, segment. -/
opaque segBase : Nat → Nat → BitVec 16
/-- The vendor's P-384 public key in fuses (R345, R381). -/
opaque vendorKey : List Byte
/-- The vendor certificate stored at manufacture of a TZ9-V, empty on a TZ9-B (R379). -/
opaque vendorCert : List Byte

end Sys2Proof.Config
end

