-- ==== Sys2Proof/Machine/RegMap.lean ====
section
/-! DEFINITION. The register maps of every block (R12, R15, R16, R35): which addresses hold a register,
which bits a write sets (RW) or clears (W1C), which registers hold a WO field, and the Reset column.
Keys are BAR0 offsets; a cluster register at CLT offset o has key 2^26 + o. -/

namespace Sys2Proof.Machine

/-- A register, or a one- or two-level array of registers of one layout. -/
structure RegRow where
  base : Nat
  n1 : Nat
  s1 : Nat
  n2 : Nat
  s2 : Nat
  rw : Word
  w1c : Word
  wo : Bool
  reset : Word
  deriving DecidableEq, Repr

/-- One register. -/
def reg1 (base : Nat) (rw w1c : Word) (wo : Bool) (reset : Word) : RegRow :=
  ⟨base, 1, 4, 1, 4, rw, w1c, wo, reset⟩

/-- `n` registers `s` bytes apart. -/
def regN (base n s : Nat) (rw reset : Word) : RegRow := ⟨base, n, s, 1, 4, rw, 0, false, reset⟩

/-- `n` groups `s` bytes apart of `m` consecutive registers each. -/
def regNM (base n s m : Nat) (rw reset : Word) : RegRow := ⟨base, n, s, m, 4, rw, 0, false, reset⟩

/-- `n` read-only registers `s` bytes apart. -/
def roN (base n s : Nat) : RegRow := ⟨base, n, s, 1, 4, 0, 0, false, 0⟩

/-- `n` 64-bit counters, lower half first (R39). -/
def cntN (base n : Nat) : RegRow := ⟨base, n, 8, 2, 4, 0, 0, false, 0⟩

/-- `n` groups `s` bytes apart of event registers with W1C bits. -/
def evN (base n s : Nat) (w1c : Word) : RegRow := ⟨base, n, s, 1, 4, 0, w1c, false, 0⟩

/-- Whether a row holds address `a`. -/
def RegRow.holds (r : RegRow) (a : Nat) : Bool :=
  decide (r.base ≤ a) &&
    (let o := a - r.base
     decide (o / r.s1 < r.n1) && decide ((o % r.s1) / r.s2 < r.n2) && decide (o % r.s1 % r.s2 = 0))

/-- Table 1.9. DEV_EVENT and DEV_STATUS live beside the state they show. -/
def devRows : List RegRow := [
  reg1 0x000 0 0 false 0, reg1 0x004 0 0 false 0,
  reg1 0x008 0 0 false 0x41F, reg1 0x00C 0 0 false 0x0E102028,
  reg1 0x010 0 0 false 0, reg1 0x014 0 0 false 0, reg1 0x018 0 0 false 0,
  reg1 0x01C 0 0x1E false 0, reg1 0x020 0x1E 0 false 0, reg1 0x024 0xFFFFFFFF 0 false 0,
  reg1 0x028 0 0 false 0, reg1 0x030 0 0 false 0, reg1 0x034 0 0 false 0]

/-- Tables 2.9–2.34 at 0x20_0000. -/
def swRows : List RegRow := [
  reg1 0x200000 0 0 false 0x00018000, reg1 0x200004 0 0 false 0, reg1 0x200008 0 0 false 0,
  reg1 0x20000C 0 0 false 0, reg1 0x200010 0xF 0 false 3,
  reg1 0x200014 0 0xFFF false 0, reg1 0x200018 0xFFF 0 false 0,
  reg1 0x20001C 0 0 true 0, reg1 0x200020 0 0 false 0x80FF0000, reg1 0x200030 0 0 true 0,
  regN 0x201000 112 4 0x1FFFF 0, regN 0x201200 112 4 0x1FFFF 0, regN 0x201400 8 4 0x1FFFF 0,
  roN 0x201800 112 4, roN 0x201A00 112 4, roN 0x201C00 8 4,
  roN 0x202000 112 4, roN 0x202200 112 4, roN 0x202400 8 4,
  regN 0x203000 8 0x40 0x9F003FFF 0x2400, regN 0x203200 3 0x40 0xFF003FFF 0x2400,
  regN 0x2032C0 3 0x40 0x0F000000 0x2400,
  regN 0x203004 14 0x40 0xFFF 1, regN 0x203008 14 0x40 0xFFFFFF 0xFAC688,
  roN 0x20300C 14 0x40,
  regN 0x203210 3 0x40 0xFFFF00FF 0x00640000, regN 0x203214 3 0x40 0xFFFFFFFF 0x0040011F,
  regN 0x203018 11 0x40 0x7F 1, regN 0x20301C 11 0x40 0xFFFFFFFF 1000000,
  regNM 0x203020 11 0x40 2 0xFFFFFFFF 0,
  ⟨0x203028, 11, 0x40, 1, 4, 0, 0, true, 0⟩, regN 0x20302C 11 0x40 0 0x80000000,
  roN 0x204000 2 4, reg1 0x204008 0xC0FF07FF 0 false 0x80F80400, reg1 0x20400C 0 0 false 0,
  reg1 0x204010 0 0 false 0,
  regN 0x205000 3 0x100 0x1311 0x1211, regN 0x205004 3 0x100 0xFFFFFFFF 0,
  roN 0x205008 3 0x100, regNM 0x205010 3 0x100 2 0 0,
  reg1 0x206000 0x800F3701 0 false 0x40000, reg1 0x206004 0xFFF 0 false 0,
  reg1 0x206008 0xFFFFFFFF 0 false 0, reg1 0x20600C 0xFFFFFFFF 0 false 0,
  reg1 0x206010 0 0 false 0x10000, reg1 0x206014 0 0 false 0,
  regN 0x206100 16 4 0x8000FFFF 1,
  ⟨0x208000, 11, 0x400, 64, 8, 0xFFFFFFFF, 0, false, 1000000⟩,
  ⟨0x208004, 11, 0x400, 64, 8, 0xFF, 0, false, 0xFF⟩,
  ⟨0x208200, 11, 0x400, 64, 8, 0, 0, false, 1000000⟩,
  ⟨0x208204, 11, 0x400, 64, 8, 0, 0, false, 0xFF⟩,
  regN 0x210000 4096 4 0x3FFF3FFF 0,
  cntN 0x21C000 112, cntN 0x21C400 112, cntN 0x21C800 8, cntN 0x21C840 3,
  ⟨0x21C900, 14, 0x80, 32, 4, 0, 0, false, 0⟩]

/-- Tables 3.8–3.18 at 0x40_0000. -/
def chtRows : List RegRow := [
  reg1 0x400000 0 0 false 0, reg1 0x400004 0 0x1F false 0, reg1 0x400008 0x1F 0 false 0,
  reg1 0x40000C 0x1FF 0 false 0x80, reg1 0x400010 0 0 true 0, reg1 0x400014 0 0 false 0x80000000,
  reg1 0x400018 0 0 false 0, reg1 0x400020 0 0 false 0, reg1 0x400024 0 0 false 0,
  reg1 0x400028 0 0 true 0,
  regN 0x400100 12 4 0xFFFFFFFF 0,
  cntN 0x400208 4, cntN 0x400240 4, cntN 0x400260 3, cntN 0x400300 16,
  regN 0x410000 4096 4 0xFFFFF9FF 0, regN 0x420000 4096 4 0x80070FFF 0,
  regN 0x430000 256 16 0xC0FFFFFF 0, regN 0x430004 256 16 0x00FFFFFF 0,
  regN 0x430008 256 16 0xFFFFFFFF 0,
  cntN 0x440000 8192,
  roN 0x500000 262144 4, roN 0x600000 16384 4, roN 0x610000 16 4]

/-- Tables 4.14–4.31 at 0x80_0000; slip windows from 0xA0_0000. -/
def slpRows : List RegRow := [
  reg1 0x800000 0 0 true 0, reg1 0x800004 0xF701FFFF 0 false 0, reg1 0x800008 0x1FFF1FFF 0 false 0,
  reg1 0x80000C 0 0 false 0x80000000, reg1 0x800010 0 0 false 0x7FF, reg1 0x800014 0 0 false 0,
  reg1 0x800018 0 0 false 0, reg1 0x80001C 0 0xF false 0, reg1 0x800020 0xF 0 false 0,
  cntN 0x800028 1, reg1 0x800030 0 0 true 0,
  roN 0x801000 4096 4, roN 0x805000 4096 4, roN 0x809000 88 4,
  roN 0xA00000 4096 0x200, regN 0xA00004 4096 0x200 0xC0000707 0,
  ⟨0xA00008, 4096, 0x200, 1, 4, 0, 0, true, 0⟩, evN 0xA0000C 4096 0x200 0xF,
  regN 0xA00010 4096 0x200 0xF 0, regNM 0xA00014 4096 0x200 3 0 0,
  regNM 0xA00020 4096 0x200 2 0 0,
  roN 0xA00170 4096 0x200]

/-- Registers inside a slip window that are themselves arrays (Tables 4.15, 4.16): the offset within
the window, the RW mask and the reset value. -/
def slipWinRow (o : Nat) : Option (Word × Word) :=
  if 0x40 ≤ o ∧ o < 0x140 then
    match (o - 0x40) % 0x20 / 4 with
    | 0 => some (0xFFFFFFFF, 0)
    | 1 => some (0xFFFFFFFF, 0)
    | 2 => some (0xFFFFFFFF, 0)
    | 3 => some (0xFFFFFFFF, 0)
    | 4 => some (0xCFFF0000, 0x04400000)
    | 5 => some (0, 0)
    | 6 => some (0xFF, 0)
    | _ => some (0, 0)
  else if 0x180 ≤ o ∧ o < 0x200 then
    match (o - 0x180) % 16 / 4 with
    | 0 => some (0xFFFFFFFC, 0)
    | 1 => some (0xFFFFFFFF, 0)
    | 2 => some (0xFFFFFFFF, 0)
    | _ => some (1, 1)
  else none

/-- Tables 5.9–5.19 at 0xC0_0000. -/
def brgRows : List RegRow := [
  reg1 0xC00000 0x80FF00FF 0 false 0x00020014, reg1 0xC00004 0 0 false 0,
  reg1 0xC00008 0 0xF false 0, reg1 0xC0000C 0xF 0 false 0, reg1 0xC00010 0 0 false 0,
  reg1 0xC00014 0 0 true 0, reg1 0xC00018 0xFFFFFFFF 0 false 0, reg1 0xC0001C 0xFFFF 0 false 0,
  regN 0xC00100 8 8 0x83FFFFC0 0, regN 0xC00104 8 8 0x03FFFFC0 0, roN 0xC00200 64 4,
  roN 0xC01000 128 4,
  regN 0xC02000 256 0x40 0xFFF71F0F 0, regN 0xC02004 256 0x40 0xFFF 1,
  regNM 0xC02008 256 0x40 2 0xFFFFFFFF 0, regN 0xC02010 256 0x40 0xFFFFFFFF 0,
  regN 0xC02014 256 0x40 0xFFFF 0,
  ⟨0xC02018, 256, 0x40, 1, 4, 0xFF, 0, true, 0⟩, regNM 0xC0201C 256 0x40 4 0 0,
  ⟨0xC08000, 256, 0x20, 8, 4, 0, 0, false, 0⟩, cntN 0xC0A008 5, cntN 0xC0A030 4]

/-- Tables 6.8–6.25, one channel at 0xD0_0000 + 0x1_0000 n. Rows marked XL exist on CA0–CA3 only. -/
def canRows : List RegRow := [
  regN 0xD00000 4 0x10000 0x8FC0FF00 0x02000000, regN 0xD40000 12 0x10000 0x8EC0FF00 0x02000000,
  roN 0xD00004 16 0x10000, evN 0xD00008 16 0x10000 0x3FF, regN 0xD0000C 16 0x10000 0x3FF 0,
  regN 0xD00010 16 0x10000 0xFFFF7FFF 0x1F7E1F00, regN 0xD00014 16 0x10000 0x0F1F0F1F 0x040D0400,
  regN 0xD00018 4 0x10000 0x0F1F0F1F 0x01040100, regN 0xD0001C 16 0x10000 0x807F007F 0x8004000F,
  roN 0xD00020 16 0x10000, roN 0xD00024 16 0x10000,
  regN 0xD00028 16 0x10000 0x870FFFFF 0x04020000, regN 0xD0002C 16 0x10000 0xC0000007 0,
  regN 0xD00030 16 0x10000 0x80000000 0, ⟨0xD00034, 16, 0x10000, 1, 4, 0, 0, true, 0⟩,
  regN 0xD00038 16 0x10000 0 0x80000000, regNM 0xD00040 16 0x10000 4 0 0,
  regN 0xD00050 16 0x10000 0x87070FFF 0, roN 0xD00054 16 0x10000,
  ⟨0xD00058, 16, 0x10000, 1, 4, 0, 0, true, 0⟩, regNM 0xD00100 16 0x10000 64 0 0,
  ⟨0xD01000, 16, 0x10000, 128, 16, 0x1FFFFFFF, 0, false, 0⟩,
  ⟨0xD01004, 16, 0x10000, 128, 16, 0x1FFFFFFF, 0, false, 0⟩,
  ⟨0xD01008, 16, 0x10000, 128, 16, 0x80F0001F, 0, false, 0⟩,
  ⟨0xD0100C, 16, 0x10000, 128, 16, 0, 0, false, 0⟩,
  ⟨0xD01800, 16, 0x10000, 16, 16, 0x1FFFFFFF, 0, false, 0⟩,
  ⟨0xD01804, 16, 0x10000, 16, 16, 0x1FFFFFFF, 0, false, 0⟩,
  ⟨0xD01808, 16, 0x10000, 16, 16, 0xC000001F, 0, false, 0⟩,
  ⟨0xD0180C, 16, 0x10000, 16, 16, 0, 0, false, 0⟩,
  regNM 0xD02000 16 0x10000 34 0 0]

/-- Tables 7.7–7.17 at 0xE0_0000. -/
def nwsRows : List RegRow := [
  reg1 0xE00000 0 0 false 0, reg1 0xE00010 0xFFF807FF 0 false 0xA0F007FF,
  reg1 0xE00014 0x87070FFF 0 false 0, reg1 0xE00018 0 0xF false 0, reg1 0xE0001C 0xF 0 false 0,
  regN 0xE00020 8 4 0xFFFFFFFF 0, regNM 0xE00100 11 24 6 0 0,
  regN 0xE01000 16 0x100 0xF3FF003F 0x40320000, regN 0xE01004 16 0x100 0xFFFFFF00 0x07D03200,
  regN 0xE01008 16 0x100 0xFFFFFFFF 0x025803E8, regN 0xE0100C 16 0x100 0x9FFFFFC0 0x700,
  regN 0xE01010 16 0x100 1 0, regN 0xE01014 16 0x100 0 0x20000000, evN 0xE01018 16 0x100 0xFF,
  regN 0xE0101C 16 0x100 0xFF 0, regNM 0xE01020 16 0x100 2 0 0,
  ⟨0xE01028, 16, 0x100, 2, 4, 0, 0xFFFFFFFF, false, 0⟩,
  regN 0xE01030 16 0x100 0x1FFFFFFF 0x700, regN 0xE01034 16 0x100 0x1FFFFFFF 0x7C0,
  regN 0xE01038 16 0x100 0xFF800000 0x98800000, regNM 0xE01040 16 0x100 2 0xFFFFFFFF 0xFFFFFFFF,
  roN 0xE01048 16 0x100, regNM 0xE01050 16 0x100 4 0 0,
  regN 0xE01060 16 0x100 0xFFFFF0E0 0x3C1430E0, ⟨0xE01064, 16, 0x100, 1, 4, 0, 0, true, 0⟩,
  regN 0xE01068 16 0x100 0 0x80000000, ⟨0xE0106C, 16, 0x100, 1, 4, 0, 0, true, 0⟩,
  regNM 0xE01080 16 0x100 20 0 0,
  roN 0xE10000 8192 4, ⟨0xE20000, 11, 0x80, 32, 4, 0, 0, false, 0⟩]

/-- Tables 8.9–8.22 at 0xF0_0000. -/
def ldcRows : List RegRow := [
  reg1 0xF00000 0 0x3F false 0, reg1 0xF00004 0x3F 0 false 0, roN 0xF00008 2 4,
  reg1 0xF00010 0 0 true 0, reg1 0xF00014 0 0 false 0x80000000, reg1 0xF00018 0x3F 0 false 0x3C,
  reg1 0xF0001C 0 0 true 0, roN 0xF00020 4 4,
  regN 0xF01000 40 0x40 0xFFFFFF00 0x0E0D0A00, regN 0xF01004 40 0x40 0xFFFFFFFF 0,
  regN 0xF01008 40 0x40 0xFFFFFF80 0x000A0A80, regN 0xF0100C 40 0x40 0xFFE03FFF 0x0C0003E8,
  regN 0xF01010 40 0x40 0 0x0E0D0A00, regN 0xF01014 40 0x40 0 0, regN 0xF01018 40 0x40 0 0x000A0A80,
  regN 0xF0101C 40 0x40 0 0x0C0003E8, roN 0xF01020 40 0x40, roN 0xF01024 40 0x40,
  evN 0xF01028 40 0x40 0x3FF, regN 0xF0102C 40 0x40 0x3FF 0, roN 0xF01030 40 0x40,
  roN 0xF01034 40 0x40, regNM 0xF04000 40 0x80 26 0 0, regNM 0xF08000 40 0x20 7 0 0]

/-- Tables 9.6–9.14 at 0x100_0000. -/
def wgsRows : List RegRow := [
  reg1 0x1000000 0xFF00FFFF 0 false 0x3C000258, reg1 0x1000004 0 0 false 0,
  reg1 0x1000008 0 0x1FF false 0, reg1 0x100000C 0x1FF 0 false 0, reg1 0x1000010 0 0 true 0,
  reg1 0x1000014 0 0 false 0x80000000, reg1 0x1000018 0 0 true 0, roN 0x1000020 2 4,
  reg1 0x1000100 0xFFFFFFFF 0 false 0x03410177, reg1 0x1000140 0xFFFFFFFF 0 false 0x05DC0000,
  regN 0x1000104 2 0x40 0xFFFFFFFF 0x0F0A01F4, roN 0x1000108 2 0x40, roN 0x100010C 2 0x40,
  regNM 0x1000110 2 0x40 10 0 0,
  regN 0x1001000 8 0x40 0xFFFFFEFF 0x99005000, regN 0x1001200 16 0x40 0xFFFFFEFF 0x81005000,
  regN 0x1001600 4 0x40 0xFFFFFEFF 0xA9005000, regN 0x1001700 12 0x40 0xFFFFFEFF 0x99005000,
  regN 0x1001004 40 0x40 0xFFFFFFFF 0x695F503C, regN 0x1001008 40 0x40 0xF7FFFFFF 0x64,
  regN 0x100100C 40 0x40 0x07FFFFFF 0,
  regN 0x1001010 8 0x40 0 0x99005000, regN 0x1001210 16 0x40 0 0x81005000,
  regN 0x1001610 4 0x40 0 0xA9005000, regN 0x1001710 12 0x40 0 0x99005000,
  regN 0x1001014 40 0x40 0 0x695F503C, regN 0x1001018 40 0x40 0 0x64,
  regN 0x100101C 40 0x40 0 0, roN 0x1001020 40 0x40, roN 0x1001024 40 0x40,
  regNM 0x1001028 40 0x40 4 0 0]

/-- Table 11.10 at 0x120_0000. -/
def bwkRows : List RegRow := [
  reg1 0x1200000 0 0 false 0, reg1 0x1200004 0 0x7F false 0, reg1 0x1200008 0x7F 0 false 0,
  reg1 0x120000C 0 0 true 0, reg1 0x1200010 0 0 false 0x80000000, reg1 0x1200014 0 0 false 0,
  reg1 0x1200018 0xFF 0 false 0, reg1 0x120001C 0xFF 0 false 0, reg1 0x1200020 0 0 false 0,
  reg1 0x1200024 0 0 false 0, reg1 0x1200028 0 0xFFFFFFFF false 0, reg1 0x120002C 0 0 false 0,
  roN 0x1200030 2 4, reg1 0x1200038 0 0 false 0, cntN 0x1200040 4, reg1 0x1200060 0 0 true 0,
  regN 0x1200100 72 4 0 0x04000000, roN 0x1200300 8 4, roN 0x1200320 32 4, roN 0x1200400 16 4,
  regN 0x1200440 16 4 0 0x7FFF0000, regN 0x1201000 256 4 0 0x7FFF0000,
  regN 0x1210000 8192 4 0xFFFFFFFF 0, roN 0x1218000 8192 4]

/-- Table 14.10 at 0x10_0000. -/
def rstRows : List RegRow := [
  reg1 0x100000 0 0 false 0, reg1 0x100004 0 0x7F false 0, reg1 0x100008 0x7F 0 false 0,
  reg1 0x10000C 0xE00007FF 0 false 0x60000700, reg1 0x100010 0 0 true 0,
  reg1 0x100014 0 0 false 0x80000000, reg1 0x100018 0 0 true 0, roN 0x10001C 7 4,
  regN 0x100038 2 4 0xFFFFFFFF 0xFFFFFFFF, reg1 0x100040 0xF001FFFF 0 false 0x4000FFFF,
  roN 0x100044 4 4, reg1 0x100054 0 0 true 0, regN 0x100080 19 4 3 0,
  regN 0x100100 32 4 0xFFFFFFFF 0, regN 0x100200 4 4 0xFFFFFFFF 0, reg1 0x100210 0xFFFF 0 false 0,
  roN 0x100220 5 4, cntN 0x100300 6]

/-- Tables 10.9–10.15 at 0x110_0000. -/
def fioRows : List RegRow := [
  reg1 0x1100000 0 0x3F false 0, reg1 0x1100004 0x3F 0 false 0, reg1 0x1100008 0 0 false 0,
  reg1 0x110000C 0 0 true 0, reg1 0x1100010 0 0 false 0x80000000, reg1 0x1100014 0 0 false 0,
  reg1 0x1100018 0 0 true 0, regN 0x1100020 4 4 0xFF 0x0A, roN 0x1100040 8 4, cntN 0x1100100 5,
  regN 0x1101000 32 0x40 0xFEFFC000 0x603C0000, regN 0x1101004 32 0x40 0xFC00FFFF 0x20000000,
  regN 0x1101008 32 0x40 0 0x603C0000, regN 0x110100C 32 0x40 0 0x20000000, roN 0x1101010 32 0x40,
  evN 0x1101014 32 0x40 0xF, regN 0x1101018 32 0x40 0xF 0, regNM 0x1101020 8 0x40 2 0 0,
  regNM 0x1101028 32 0x40 6 0 0]

/-- Tables 12.15–12.18 at 0x130_0000. -/
def wldRows : List RegRow := [
  reg1 0x1300000 0 0 false 0, reg1 0x1300004 0 0x7F false 0, reg1 0x1300008 0x7F 0 false 0,
  reg1 0x130000C 0xFFFF 0 false 0x0A, reg1 0x1300010 0 0 true 0, reg1 0x1300014 0 0 false 0x80000000,
  reg1 0x1300018 0xE7FD 0 false 0, reg1 0x130001C 0 0xC0000000 false 0, reg1 0x1300020 0 0 false 0,
  reg1 0x1300024 0 0 true 0, roN 0x1300040 17 4, roN 0x1300100 128 4, cntN 0x1300400 4,
  regNM 0x1310000 320 16 2 0xFFFFFFFF 0, regN 0x1310008 320 16 0xFFFF 0,
  regN 0x131000C 320 16 0xE0000000 0]

/-- Table 13.14 at 0x140_0000. -/
def keyRows : List RegRow := [
  reg1 0x1400000 0 0 false 0, reg1 0x1400004 0 0x3F false 0, reg1 0x1400008 0x3F 0 false 0,
  reg1 0x140000C 0 0 false 0, reg1 0x1400010 0 0 true 0, cntN 0x1400040 8,
  regNM 0x1401800 8 0x100 16 0xFFFFFFFF 0, regNM 0x1401840 8 0x100 16 0 0,
  ⟨0x1401880, 8, 0x100, 1, 4, 0, 0, true, 0⟩, roN 0x1401884 8 0x100, regNM 0x1404000 256 8 2 0 0]

/-- Tables 15.12, 15.13 at 0x150_0000. -/
def pairRows : List RegRow := [
  reg1 0x1500000 0x80FF0000 0 false 0x00050000, reg1 0x1500004 0 0 false 0,
  reg1 0x1500008 0 0xFF false 0, reg1 0x150000C 0xFF 0 false 0, reg1 0x1500010 0 0 true 0,
  reg1 0x1500014 0 0 false 0x80000000, reg1 0x1500018 0 0 false 0, roN 0x1500020 3 4,
  reg1 0x150002C 0 0 true 0, cntN 0x1500040 7, regN 0x1500100 72 4 0x8000007F 0]

/-- Tables 15.15–15.18 at 0x160_0000. -/
def svcRows : List RegRow := [
  reg1 0x1600000 0 0x7F false 0, reg1 0x1600004 0x7F 0 false 0, reg1 0x1600008 0 0 true 0,
  reg1 0x160000C 0 0 false 0x80000000, reg1 0x1600010 0 0 false 0, regN 0x1600018 2 4 0xFFFFFFFF 0,
  reg1 0x1600020 0x1FFFFFF 0 false 0, roN 0x1600030 2 4, regNM 0x1600050 4 16 4 0 0,
  regN 0x1600100 11 8 0xFFFF 0, roN 0x1600104 11 8]

/-- Table 12.5, at key 2^26 + offset. -/
def cltRows : List RegRow := [
  regNM 0x4000000 8 8 2 0xFFFFFFFF 0xFFFFFFFF, roN 0x4000100 2 4, reg1 0x4000108 0 0 true 0,
  reg1 0x400010C 0 0 false 0x80000000, roN 0x4000110 4 4, reg1 0x4000200 0x8000FFFF 0 false 0x3E8,
  reg1 0x4000204 0 0 true 0, reg1 0x4000208 0 0 false 0, reg1 0x4000300 0 0x3F false 0,
  reg1 0x4000304 0x3F 0 false 0, roN 0x4000308 3 4, roN 0x4000320 2 4]

/-- Last granule of memory `m` (Table 12.10; flash of Table 12.2). -/
def lastGranule (m : Nat) : Nat := [4194303, 104447, 511, 255, 2097151].getD m 0

/-- RD in [15:8] and WR in [7:0] of the boot set (Table 12.12). -/
def bootPerm (m : Nat) : Word := [0x3737, 0x3414, 0x2727, 0x3414, 0x2504].getD m 0

/-- Reset values that depend on the index: region 63 of each memory (Table 12.12) and SVC_RESERVE's LOW
(Table 15.15). -/
def resetIndexed (a : Nat) : Option Word :=
  if 0x1310000 ≤ a ∧ a < 0x1311400 ∧ (a - 0x1310000) % 0x400 / 16 = 63 then
    let m := (a - 0x1310000) / 0x400
    match a % 16 / 4 with
    | 0 => some 0
    | 1 => some (w32 (lastGranule m))
    | 2 => some (bootPerm m)
    | _ => some 0x80000000
  else if 0x1600100 ≤ a ∧ a < 0x1600158 ∧ a % 8 = 0 then
    some (w32 ([614, 8, 1, 8, 102, 0, 0, 20, 4, 1, 2].getD ((a - 0x1600100) / 8) 0))
  else none

end Sys2Proof.Machine
end

