-- ==== Sys2Proof/Machine/State.lean ====
section
/-! DEFINITION. The state of the block as plain data: every register, queue, buffer, counter, mode and
pin the spec gives it (INVENTORY.md lists them with their rules), the queue of waiting commands, and
the state after reset. -/

namespace Sys2Proof.Machine

/-! ## What the block sends out -/

/-- One outward effect. Host memory, the wires, the buses and the other module lie outside the block:
what it does to them is the list of these, newest first. -/
inductive Out
  /-- A frame sent on a wire port: bytes on the wire, FCS excluded, and whether MACsec protects it. -/
  | wireFrame (port : Nat) (bytes : List Byte) (protected_ : Bool) (good : Bool)
  /-- A PFC frame: XOFF with the maximum pause time, or XON. -/
  | pfc (port cls : Nat) (xoff : Bool)
  /-- A CAN frame sent on a bus, with the ESI sent. -/
  | canFrame (ch : Nat) (m : CanMsg)
  /-- A DMA write to the owner of a slip. -/
  | dma (slip : Nat) (addr : Nat) (bytes : List Byte)
  /-- Words 1–7 of a completion, then its word 0, each one posted write (R138). -/
  | compl1 (slip ring addr : Nat) (words : List Word)
  | compl0 (slip ring addr : Nat) (w0 : Word)
  /-- A read the device issues to the owner of a slip, under a tag of PCIe or of the fabric. -/
  | readReq (slip : Nat) (tag addr len : Nat)
  /-- An MSI-X message. -/
  | msix (slip vec : Nat) (addr : Nat) (data : Word)
  /-- The outcome of a strict or non-posted access (R161, R163). -/
  | busOk (who : Requester) (value : DWord)
  | busError (who : Requester)
  /-- The error that answers an AtomicOp or AMO a Block reset or hand-over aborts (R173). -/
  | opAborted (who : Requester)
  | unsupported (who : Requester)
  /-- An error message of a PCIe function (R161). -/
  | errorMessage (fn : Nat)
  | scResult (hart : Nat) (ok : Bool)
  /-- An interrupt or exception raised to a hart: 1 and 5–7 the exception codes of the spec, 64 its machine
  timer interrupt, 256 + 256 f + i identity i of its interrupt file f. -/
  | hartIrq (hart : Nat) (what : Nat)
  /-- A notice to the Lock: 0 mailbox slot posted, 1 violation of region, 2 refused clock or power write of
  block, 3 hand-over event of block, 4 claim of block refused. -/
  | lockIrq (what : Nat) (arg : Nat)
  /-- A frame received on a CAN channel that World S owns (R355). -/
  | lockCan (ch : Nat) (m : CanMsg)
  /-- A mailbox slot of the Quaymaster is DONE, or the wired APLIC source is raised. -/
  | qmIrq (slot : Nat)
  | aplic (source : Nat)
  /-- A hart, the Quaymaster (8) or the Lock (9) is halted or resumed by debug, or parked, stopped or started; a debug
  request without its enable ends with an error (R357). -/
  | halt (who : Nat) (halted : Bool)
  | debugError (who : Nat)
  /-- A halted processor runs one instruction; data the Debug Module reads of a processor (R357). -/
  | debugStep (who : Nat)
  | debugData (who : Nat) (value : DWord)
  | hartStart (hart cause : Nat)
  /-- A TAP instruction took effect (true) or acts as BYPASS; for IDCODE, the word it selects (R462). -/
  | tap (code : Nat) (acts : Bool)
  | idcode (w : Word)
  /-- A keep-alive, Hail or LLDP frame handed to a channel or port outside the Basin; for LLDP, whether MACsec
  protects it (R81). -/
  | keepAlive (ch : Nat) (m : CanMsg)
  | hail (ch : Nat) (m : CanMsg)
  | lldp (port : Nat) (bytes : List Byte) (protected_ : Bool)
  /-- Data written to, or programmed into, flash and fuses by the Quaymaster or reset controller: 0 the retirement map
  (R47), 1 the segment maps (R235), 2 the wear records (R466), 3 a key slot, 4 a destroyed slot, 5 a life-cycle row, 6
  the retired cores (R332), 9 a row of the fuse map, 15 an SVN row (R436). -/
  | flash (what : Nat) (arg : Nat)
  /-- Data read from a region-controlled memory, or the error of an access, for a requester class and its
  source. -/
  | memData (cls source : Nat) (bytes : List Byte)
  | memError (cls source : Nat)
  /-- A frame of the pairs engine on PL, of class 7, FCS excluded, and whether MACsec protects it (R416). -/
  | pairFrame (kind seq : Nat) (bytes : List Byte) (protected_ : Bool)
  /-- An 802.1AS Sync message sent on a port: the device time it carries, and whether MACsec protects it (R68, R81). -/
  | gptp (port time : Nat) (protected_ : Bool)
  /-- A mirror record sent to the Standby on PL, of class 7: its sequence number, what it mirrors (row of Table 15.3),
  which entry of it, the frame as far as the spec lays it out, the record's content, and whether MACsec protects it. -/
  | mirrored (seq : Word) (what arg : Nat) (frame : List Byte) (content : List Mirror) (protected_ : Bool)
  /-- A pin changed: 0 WAKE_N, 1 CLKREQ_N (R461), 2 VREF on (R462), 3 the mains-present contact closed (R451). -/
  | pin (p : Nat) (level : Bool)
  deriving DecidableEq, Repr

/-! ## Quaymaster, device log and time (01, 04) -/

/-- Hail work of a channel (R218–R223): a received ANNOUNCE, LEAVE or CALL of another caller, a received frame that asks
nothing, the command and period calls, FORGET, the end of a call's window and of the wait for a confirming ANNOUNCE. -/
inductive HailWork
  | announce (n uid : Nat) (session held kind : BitVec 8) (confirm : Bool) (ts : Nat)
  | leave (n uid : Nat)
  | foreign (n uid : Nat)
  | skip (n : Nat)
  | period (n : Nat)
  | call (n : Nat) (all : Bool)
  | forget (n m : Nat)
  | badOp (n : Nat)
  | close (n : Nat)
  | timeout (n m : Nat)
  deriving DecidableEq, Repr

/-- One item of the Quaymaster's work queue (R29): a punted frame or copy (R107), an SLP command with the snapshot of
its arguments (R126), a LOG_READ (R146), a move of log records to flash (R145), discovery by Hail and LLDP (R218, R224), or other work, which the model knows
by a number. -/
inductive QmWork
  | punt (uid : Nat) (copy : Bool)
  | slp (op n : Nat) (a0 a1 : Word)
  | logRead (n r idx : Nat)
  | logFlush
  | hail (w : HailWork)
  | lldpTx (p : Nat)
  | lldpRx (p : Nat) (pdu : List Byte)
  | other (id : Nat)
  deriving DecidableEq, Repr

/-- The Quaymaster's work queue and shedding (R29, R30, Table 1.16). Each entry is its class 1–5 and
its work, in order of arrival. -/
structure Qm where
  queue : List (Nat × QmWork) := []
  shed : Nat := 0
  peak : Nat := 0
  peakRun : Nat := 0
  shedCount : Nat := 0
  deriving DecidableEq, Repr

/-- A device-log record (Table 4.11a). -/
structure LogRec where
  seq : Word
  ts : Nat
  source : Nat
  code : Nat
  lost : Nat
  event : Word
  inst : Nat
  detail : Word
  deriving DecidableEq, Repr

/-- The device log: its next SEQ, the staging queue of 1,024 records, the records in flash, and the
records lost since the last one formed (R145). -/
structure DevLog where
  seq : Word := 0
  staging : List LogRec := []
  flash : List LogRec := []
  lost : Nat := 0
  deriving DecidableEq, Repr

/-- 802.1AS state (R68–R70): STATE, SLAVE_PORT, the offset still to be slewed, in ns, and the slewing
done since the last whole nanosecond. -/
structure AsTime where
  state : Nat := 0
  slavePort : Nat := 15
  slew : Int := 0
  slewAcc : Nat := 0
  deriving DecidableEq, Repr

/-! ## Basin and switch core (02) -/

/-- A destination queue of a frame (R64). -/
inductive Dest
  | wire
  | slip (n : Nat) (r : Nat)
  | can (n : Nat)
  | wrap (stream : Nat)
  | unwrap
  deriving DecidableEq, Repr

/-- One frame queued at one destination: its cells count against EOCC of `port` and `cls` (R63).
`sending` marks a frame in transmission or loaded at its destination. -/
structure QEntry where
  uid : Nat
  port : Nat
  cls : Nat
  cells : Nat
  dest : Dest
  untag : Bool := false
  sending : Bool := false
  miss : Bool := false
  ternary : Bool := false
  entry : Nat := 0
  deriving DecidableEq, Repr

/-- A Logbook copy queued for its record (R85, R87), with the header words the verdict fixed. -/
structure LbCopy where
  uid : Nat
  port : Nat
  cls : Nat
  cells : Nat
  cause : Nat
  w4 : Word
  w5 : Word
  w6 : Word
  deriving DecidableEq, Repr

/-- A punted frame or copy held by the Quaymaster (R107); `cause` fields are those of its verdict. -/
structure Punt where
  uid : Nat
  copy : Bool
  deriving DecidableEq, Repr

/-- A snapshot of the shadow limits awaiting application (R56). -/
structure LimitSnap where
  il : List (Nat × Word)
  el : List (Nat × Word)
  gr : List (Nat × Word)
  deriving DecidableEq, Repr

/-- The cell store, the frames charged to it and their queues, oldest first (R42–R67). -/
structure Basin where
  frames : List Frame := []
  nextUid : Nat := 1
  queues : List QEntry := []
  copies : List LbCopy := []
  punts : List Punt := []
  marching : Bool := true
  poolCells : Nat := 98304
  overcommit : Bool := false
  spares : Nat := 6144
  retired : Nat := 0
  savedRetired : List Nat := []
  retiredCells : List Nat := []
  ceCount : List (Nat × Nat) := []
  retirePending : List (Nat × Nat) := []
  bankNext : Nat := 0
  peak : Nat := 0
  limitPending : Option LimitSnap := none
  deriving DecidableEq, Repr

/-- A gate control list: entries (interval, gates), cycle and base time (R71, R73). -/
structure GateList where
  entries : List (Nat × BitVec 8) := []
  cycle : Nat := 1000000
  base : Nat := 0
  deriving DecidableEq, Repr

/-- One wire port: link, received pause, watchdog, sent XOFF, gates and the frame in transmission. `replaced` counts the
requests a later commit has replaced since the last result (R73); `egressTs` is the last egress timestamp (R69). -/
structure WirePort where
  link : Bool := false
  egressTs : Nat := 0
  replaced : Nat := 0
  xoff : BitVec 8 := 0
  paused : BitVec 8 := 0
  pauseStart : List (Nat × Nat) := []
  pauseEnd : List (Nat × Nat) := []
  ignoreAt : List (Nat × Nat) := []
  ignorePause : BitVec 8 := 0
  oper : Option GateList := none
  gateIdx : Nat := 0
  gateNext : Nat := 0
  pendList : Option GateList := none
  changeTime : Nat := 0
  deriving DecidableEq, Repr

/-- A secure association for transmission: its number, key and next PN, and whether that PN has passed the
threshold of R82 and the event has been set (R80, Table 2.6). -/
structure MsSa where
  an : Nat
  pn : Nat := 1
  key : List Byte
  warned : Bool := false
  deriving DecidableEq, Repr

/-- A secure association for reception: its number, key and the highest PN accepted. -/
structure MsRxSa where
  an : Nat
  last : Nat := 0
  key : List Byte
  deriving DecidableEq, Repr

/-- One receive secure channel: its SCI and its two associations. -/
structure MsRxSc where
  sci : Nat
  sas : List MsRxSa := []
  deriving DecidableEq, Repr

/-- One MACsec engine, k = 0 EU0, 1 EU1, 2 PL (R79–R82). `sas` are the two SAKs installed last, which a
receive channel that opens takes. -/
structure MsPort where
  txSa : Option MsSa := none
  xpn : Bool := true
  sas : List MsRxSa := []
  rx : List MsRxSc := []
  deriving DecidableEq, Repr

/-- The Logbook producer (R86, Table 2.33). `written` less `consumed` are the unconsumed records; `slip`, `base` and
`ctrl` are SW_LB_SLIP, SW_LB_BASE and SW_LB_CTRL as they stood when ENABLE went to 1, which copies still queued after
ENABLE = 0 follow (R84, R89). -/
structure Logbook where
  slip : Nat := 0
  base : Nat := 0
  ctrl : Word := 0
  index : Nat := 0
  phase : Bool := true
  seq : Nat := 0
  cons : Nat := 0
  consumed : Nat := 0
  written : Nat := 0
  deriving DecidableEq, Repr

/-! ## The Chart (03) -/

/-- One copy of a Chart entry: key, mask (ternary only) and actions (Tables 3.1, 3.2). -/
structure ChtCopy where
  valid : Bool := false
  k0 : Word := 0
  k1 : Word := 0
  k2 : Word := 0
  k3 : Word := 0
  m0 : Word := 0
  m1 : Word := 0
  m2 : Word := 0
  m3 : Word := 0
  a0 : Word := 0
  a1 : Word := 0
  a2 : Word := 0
  a3 : Word := 0
  deriving DecidableEq, Repr

/-- An entry in its two copies; `gen` selects the copy in use (R112). -/
structure ChtEntry where
  c0 : ChtCopy := {}
  c1 : ChtCopy := {}
  gen : Bool := false
  deriving DecidableEq, Repr

/-- An applied policer and its buckets (R102). Buckets hold credit in 10^-9 units of 1/8 byte or of a
frame; `at_` is the wall time of the last refill. -/
structure Policer where
  frames : Bool := false
  redPass : Bool := false
  cir : Nat := 0
  pir : Nat := 0
  cbs : Nat := 0
  pbs : Nat := 0
  tc : Nat := 0
  tp : Nat := 0
  at_ : Nat := 0
  deriving DecidableEq, Repr

/-- The Chart's entries and policers; samplers' counts (R88) are kept beside them. -/
structure Chart where
  exact : List (Nat × ChtEntry) := []
  tern : List (Nat × ChtEntry) := []
  miss : List (Nat × ChtEntry) := []
  pol : List (Nat × Policer) := []
  samp : List (Nat × Nat) := []
  seq : Nat := 0
  deriving DecidableEq, Repr

/-! ## Slips and rings (04) -/

/-- What a completion entry carries beside PHASE, SEQ, SQ_HEAD and TAG (Tables 4.9, 4.10). -/
structure Compl where
  status : Nat
  nodesc : Bool := false
  ts : Nat := 0
  c4 : Word := 0
  c5 : Word := 0
  c6 : Word := 0
  c7 : Word := 0
  deriving DecidableEq, Repr

/-- How far a fetched descriptor has come: its read is outstanding, it waits, a data read is
outstanding, its work has been handed on, or it has its outcome. -/
inductive DStage
  | fetching
  | ready
  | reading
  | started
  | done (c : Compl)
  deriving DecidableEq, Repr

/-- A fetched descriptor (R133, R147). `passed`: its data read has returned `data`; `parts` are the parts of it that have
returned, by offset; `uid` names its frame
once it has one; `named`, `sent`, `failed`, `collided` and `sof` gather a CONFIRM's outcome (Table 4.10).
For a LOAD_SET or FIELD_SET that waits, `sof` is the time of the last gate or drive change when it
started; `since` is the time a CONFIRM's verdict fell, or the count of field frames sent when a FIELD_SET
started. -/
structure Desc where
  idx : Nat
  words : List Word := []
  stage : DStage := .fetching
  passed : Bool := false
  uid : Nat := 0
  named : BitVec 16 := 0
  sent : BitVec 16 := 0
  failed : BitVec 16 := 0
  collided : Bool := false
  sof : Nat := 0
  c5 : Word := 0
  data : List Byte := []
  parts : List (Nat × List Byte) := []
  since : Nat := 0
  deriving DecidableEq, Repr

/-- One ring pair (R131–R138). `dbSq` and `dbCq` are the last values its doorbell registers accepted (R134). -/
structure Ring where
  dbSq : Nat := 0
  dbCq : Nat := 0
  active : Bool := false
  err : Nat := 0
  sqStop : Nat := 0
  sqTail : Nat := 0
  sqHead : Nat := 0
  cqTail : Nat := 0
  cqHead : Nat := 0
  phase : Bool := true
  seq : Nat := 0
  fetchOn : Bool := false
  inflight : List Desc := []
  held : Bool := false
  owed : Bool := false
  deriving DecidableEq, Repr

/-- The request that a slip reset answers (Table 4.12). -/
structure SlipReset where
  noMem : Bool := false
  destroy : Bool := false
  drained : Nat := 0
  squashed : Nat := 0
  deriving DecidableEq, Repr

/-- A read that waits for a tag (R148): a descriptor fetch of a ring, or `len` bytes from `off` on of the data read of
slot `idx`, which begins at `addr`. -/
structure ReadWait where
  slip : Nat
  ring : Nat
  fetch : Bool
  idx : Nat := 0
  addr : Nat := 0
  off : Nat := 0
  len : Nat := 0
  deriving DecidableEq, Repr

/-- A read request outstanding under a tag, on PCIe or on the fabric (R148): what it reads for, and whether the data is
still wanted when it arrives (R133, R151). -/
structure ReadOut where
  tag : Nat
  fabric : Bool
  slip : Nat
  ring : Nat
  idx : Nat
  off : Nat
  live : Bool := true
  deriving DecidableEq, Repr

/-- One slip (R121–R126, Table 4.25). `msixOn`, `msixMask` are a host slip's MSI-X capability;
`inc` is its incarnation (R166); `rr` is its ring whose read was issued last (R148). -/
structure Slip where
  state : SlipState := .free
  cls : Nat := 0
  classMax : Nat := 0
  rxq : Nat := 0
  min : Nat := 0
  max : Nat := 0
  report : Word := 0
  pba : BitVec 8 := 0
  inc : BitVec 8 := 0
  msixOn : Bool := false
  msixMask : Bool := false
  rr : Nat := 7
  reset : Option SlipReset := none
  deriving DecidableEq, Repr

/-- A resource of control slips (R129, Table 4.26). `applying`: a RELEASE waits for its output, and its
owner has given no command since. -/
structure Res where
  state : ResState := .unbound
  release : RelState := .off
  owner : Nat := 0
  applying : Bool := false
  deriving DecidableEq, Repr

/-- The slips, their rings (keyed 8n + r) and resources, VF Enable, NumVFs and the other settings of the physical
function's configuration space, the reads that wait for a tag, oldest first, those outstanding, and the slip whose read
was issued last (R148).
`cmdWait` is the SLP command whose outcome waits: RELEASE (5) with its resource, RESET (7) or DESTROY (2)
with its slip; `cmdSince` the count of field frames sent when a RELEASE began. -/
structure Slips where
  tab : List (Nat × Slip) := []
  rings : List (Nat × Ring) := []
  res : List (Nat × Res) := []
  cmdWait : Option (Nat × Nat) := none
  cmdSince : Nat := 0
  vfEnable : Bool := false
  numVfs : Nat := 0
  ctl : HostCtl := {}
  waits : List ReadWait := []
  outst : List ReadOut := []
  rrSlip : Nat := 4095
  deriving DecidableEq, Repr

/-! ## Bridges and tunnels (05) -/

/-- Who holds a semaphore (R169). -/
inductive SemKind
  | atomicOp
  | amo
  | lr
  deriving DecidableEq, Repr

/-- An AtomicOp or AMO in progress or waiting (R170, R172). -/
structure AtomicReq where
  who : Requester
  addr : Nat
  wide : Bool
  op : Rmw
  operand : DWord
  cmp : DWord
  far : FarSide := .responds
  deriving DecidableEq, Repr

/-- One semaphore (Table 5.16): `block` is the 8-byte block; `hart` the reserving hart of an LR;
`at_` the wall time it was taken; `req` the operation in progress. -/
structure Sem where
  held : Bool := false
  kind : SemKind := .atomicOp
  broken : Bool := false
  block : Nat := 0
  hart : Nat := 0
  at_ : Nat := 0
  req : Option AtomicReq := none
  deriving DecidableEq, Repr

/-- One part of a write: a 64-bit write is two of 32 bits, each performed or failed on its own (R11). -/
structure BusPart where
  off : Nat
  width : Nat
  value : DWord
  far : FarSide
  deriving DecidableEq, Repr

/-- What an access does: the parts of a write still to be performed and whether one has failed; an AtomicOp or AMO, and
whether it stays in progress until SEMAPHORE_FREED; an LR; an SC. -/
inductive BusOp
  | write (parts : List BusPart) (failed : Bool)
  | atomic (q : AtomicReq) (slow : Bool)
  | lr (wide : Bool) (far : FarSide)
  | sc (wide : Bool) (value : DWord) (far : FarSide)
  deriving DecidableEq, Repr

/-- An access the host bridge has accepted (R156–R166): its place in the order of acceptance, device time and wall time
of acceptance, the slip charged then and its incarnation, whether its window was strict then (R160), the bytes a write
was accepted with, and whether it has been issued and the far side is silent. -/
structure BusAcc where
  seq : Nat
  who : Requester
  target : Target
  op : BusOp
  ts : Nat
  wall : Nat
  slip : Nat
  inc : BitVec 8
  strict : Bool
  width : Nat := 0
  silent : Bool := false
  deriving DecidableEq, Repr

/-- The error state of one PCIe function (R161): Completer Abort in its Uncorrectable Error Status, and its header log: the
header of a memory write of that function, with its BAR0 offset and the bytes written. -/
structure Aer where
  abort : Bool := false
  addr : Nat := 0
  width : Nat := 0
  deriving DecidableEq, Repr

/-- A copy that a prefetch window serves reads from (R168): whose, of which 64-byte block, read when, its 16 words. -/
structure PfCopy where
  who : Requester
  block : Nat
  at_ : Nat
  words : List Word
  deriving DecidableEq, Repr

/-- One tunnel stream's counts and keys (R178–R182, Table 5.18). -/
structure Stream where
  txSeq : Nat := 0
  rxSeq : Nat := 0
  valid0 : Bool := false
  valid1 : Bool := false
  txNum : Bool := false
  txPn0 : Nat := 0
  txPn1 : Nat := 0
  rxPn0 : Nat := 0
  rxPn1 : Nat := 0
  key0 : List Byte := []
  key1 : List Byte := []
  deriving DecidableEq, Repr

/-- The bridges' semaphores, the accesses accepted and not yet resolved in order of acceptance with the number of the
next, the functions' error state, the prefetched copies, when BRG_CFG.ALL_STRICT last changed and what it was before
(R160), and the tunnel streams. -/
structure Brg where
  sems : List (Nat × Sem) := []
  queue : List BusAcc := []
  nextSeq : Nat := 0
  aer : List (Nat × Aer) := []
  pf : List PfCopy := []
  strictSince : Nat := 0
  strictWas : Bool := false
  streams : List (Nat × Stream) := []
  deriving DecidableEq, Repr

/-! ## CAN channels (06) -/

/-- The states of a channel (Table 6.10, codes 0–6). -/
inductive CanState
  | config
  | integrating
  | active
  | passive
  | busOff
  | recovering
  | offline
  deriving DecidableEq, Repr

/-- A frame loaded in a mailbox (`slot` 0–31) or the transmit FIFO (`slot` none), in order of loading;
`at_` is the time of loading, `coll` its collision count (R195, R203). -/
structure CanLoaded where
  slot : Option Nat
  uid : Nat
  msg : CanMsg
  cls : Nat
  at_ : Nat
  coll : Nat := 0
  abort : Bool := false
  deriving DecidableEq, Repr

/-- A frame waiting in the high-priority buffer (R193). -/
structure HpFrame where
  msg : CanMsg
  ts : Nat
  cls : Nat
  deriving DecidableEq, Repr

/-- One channel. `ctrl`, `nbt`, `dbt`, `xbt` and `tdc` are the settings taken on leaving CONFIG (R187); `onBus`
names the loaded frame of the attempt on the bus. -/
structure Can where
  state : CanState := .config
  cfgErr : Nat := 0
  tec : Nat := 0
  recv : Nat := 0
  warn : Bool := false
  tdcSat : Bool := false
  ctrl : Word := 0x02000000
  nbt : Word := 0
  dbt : Word := 0
  xbt : Word := 0
  tdc : Word := 0
  measured : Nat := 0
  recov : Nat := 0
  errCount : Nat := 0
  loaded : List CanLoaded := []
  onBus : Option Nat := none
  sof : Nat := 0
  hp : List HpFrame := []
  supplyFault : Bool := false
  thermalFault : Bool := false
  stopping : Bool := false
  boDue : Bool := false
  deriving DecidableEq, Repr

/-! ## Network sleep, Hail and LLDP (07) -/

/-- Network states (Table 7.10). -/
inductive NetState
  | awake
  | draining
  | asleep
  deriving DecidableEq, Repr

/-- Why a network was woken (Table 7.13, CAUSE). -/
inductive WakeCause
  | none
  | localNeed
  | wuf
  | wup
  | fec
  deriving DecidableEq, Repr

/-- One network (R206–R223). `switching`: the transceiver's switch into sleep has not ended; `waking`:
the wake command has been given and the controller is not online yet; `until_` is the end of the
running idle or drain timer, in wall time; `seen` the wall time of each node's last counted keep-alive;
`callDue` a CALL that is not sent yet; `callCmd` a call ordered by NWS_HAIL_CMD; `hailHeld` frames in the Hail buffer;
`fec` the transceiver's frame error counter. -/
structure Net where
  state : NetState := .awake
  confirmed : Bool := true
  frozen : Bool := false
  latched : Option WakeCause := none
  switching : Bool := false
  waking : Bool := false
  until_ : Nat := 0
  kaPending : Bool := false
  seen : List (Nat × Nat) := []
  causeCode : WakeCause := .none
  causeLatched : Bool := false
  causeNeed : Nat := 0
  causeNode : Nat := 0
  wakeTs : Nat := 0
  awakeTs : Nat := 0
  session : BitVec 8 := 0
  callOpen : Bool := false
  callAll : Bool := false
  callDue : Bool := false
  callCmd : Bool := false
  hailHeld : Nat := 0
  fec : Nat := 0
  deriving DecidableEq, Repr

/-- One LLDP neighbour (R226, Table 7.17): `expires` is the end of its TTL, in wall time. -/
structure Neighbour where
  chSub : Nat
  chassis : List Byte
  portSub : Nat
  portId : List Byte
  ttl : Nat
  expires : Nat
  pvid : Nat
  rest : List Byte
  deriving DecidableEq, Repr

/-- A copy of an LLDPDU that waits for an RX_BUF (R193, R225): port, frame, timestamp, PCP, VLAN and class. -/
structure LldpCopy where
  port : Nat
  bytes : List Byte
  ts : Nat
  pcp : Nat
  vid : Nat
  cls : Nat
  deriving DecidableEq, Repr

/-- Networks, partner tables (keyed 64n + m), neighbours (keyed 4p + k) and the LLDP copies that wait. -/
structure Nws where
  nets : List (Nat × Net) := []
  parts : List (Nat × Partner) := []
  nbrs : List (Nat × Option Neighbour) := []
  copies : List LldpCopy := []
  deriving DecidableEq, Repr

/-! ## Load channels, wire guard and Slalom (08, 09) -/

/-- Where Slalom has a channel (Table 9.13); a shed channel (code 5) is marked beside it. -/
inductive SlState
  | off
  | waiting
  | window
  | on
  | ramping
  deriving DecidableEq, Repr

/-- A retirement whose spare is being checked (R233): segment and cause. -/
structure SegSwap where
  seg : Nat
  cause : Nat
  deriving DecidableEq, Repr

/-- The open sample block of a channel (R256, Table 8.6). -/
structure Block where
  ts : Nat := 0
  samples : List Int := []
  lo : Int := 32767
  hi : Int := -32768
  sat : Bool := false
  trip : Bool := false
  ramp : Bool := false
  retired : Bool := false
  deriving DecidableEq, Repr

/-- One load channel with its Slalom and wire-guard state (R227–R279). `gate` is the gate of a channel
that is on; during a ramp it is false and `ramping` true; `clamping` marks a clamp that has not ended.
Currents are in mA, θ in units of 10^-9 °C. `retiredSegs` is a mask by segment; `spareIn` says the spare
serves; `windowRes` is the inrush reservation of the running window, `windowLen` its length in ns;
`changeTs` the device time at which the gate last began to change; `ungated` that the gate was on at
some time during the reset in progress (Table 9.2); `shaped` that a ceiling holds the current, and `shortHeld` that it
holds a short (R273), `windowAt` when the running window began. -/
structure Load where
  gate : Bool := false
  permit : Bool := false
  forced : Bool := false
  forceOn : Bool := false
  recorded : Bool := false
  trip : Nat := 0
  restartWait : Bool := false
  restarts : Nat := 0
  ramping : Bool := false
  clamping : Bool := false
  rampI0 : Nat := 0
  openLoad : Bool := false
  underCur : Bool := false
  reverse : Bool := false
  offTest : Nat := 0
  retiredSegs : BitVec 7 := 0
  spareIn : Bool := false
  lastCause : Nat := 0
  swap : Option SegSwap := none
  drift : List (Nat × Nat) := []
  openCnt : List (Nat × Nat) := []
  segLast : List (Nat × Nat) := []
  cur : Int := 0
  tj : Int := 25
  sampleTs : Nat := 0
  nowMa : Int := 0
  meanMa : Nat := 0
  block : Block := {}
  blockSeq : BitVec 16 := 0
  gap : Bool := false
  slState : SlState := .off
  shed : Bool := false
  unfit : Bool := false
  deferred : Bool := false
  windowEnd : Nat := 0
  windowLen : Nat := 0
  windowRes : Nat := 0
  onAt : Nat := 0
  windowAt : Nat := 0
  extended : Bool := false
  changeTs : Nat := 0
  theta : Int := 0
  warn : Bool := false
  ungated : Bool := false
  shaped : Bool := false
  shortHeld : Bool := false
  deriving DecidableEq, Repr

/-- One bank (R246, R270–R278): voltage in 10 mV, current in 10 mA; `held` blanks checks and holds
admissions from a dip's start to 200 µs after its end; `volts` are the sums of the 100 voltages
sampled in each 100 µs of the last 10 ms, whose mean `frozen` keeps during a dip that began at `dipAt`; `currs` the bank's
currents of the last 10 ms in mA, one for each 100 µs (R278); `queue` is the order of arrival of waiting channels. -/
structure Bank where
  outOfRange : Bool := false
  reversed : Bool := false
  volt : Int := 0
  curr : Int := 0
  inDip : Bool := false
  held : Bool := false
  lastAdmit : Option Nat := none
  lastDur : Nat := 0
  volts : List Int := []
  currs : List Int := []
  frozen : Int := 0
  dipAt : Nat := 0
  queue : List Nat := []
  deriving DecidableEq, Repr

/-- One saved wire-guard record (R268): the always-on count of the save, and θ, τ in s and the ambient in use of every
channel, θ and ambient in units of 10^-9 °C; `good` is whether its CRC-32C holds. -/
structure WgRecord where
  at_ : Nat
  good : Bool
  chans : List (Int × Nat × Int)
  deriving DecidableEq, Repr

/-- All load channels, both banks, the gate-drive rail, the always-on gate hold, the mains, and the wire
guard's records and restoration. `maps` and `wear` are the copies in flash of the segment maps (retired
mask, spare in, last cause) and of the wear records (ON_TIME, SWITCH_ONS, SEG_RETIRED); `recB` is the
record area written last when `recNext` is false. -/
structure Ldc where
  ch : List (Nat × Load) := []
  banks : List (Nat × Bank) := []
  gateUv : Bool := false
  gateHold : Bool := true
  resetDue : Bool := false
  mainsLow : Bool := false
  restore : Nat := 1
  elapsed : Nat := 0
  recNext : Bool := false
  recA : Option WgRecord := none
  recB : Option WgRecord := none
  maps : List (Nat × (Nat × Bool × Nat)) := []
  wear : List (Nat × (DWord × DWord × DWord)) := []
  deriving DecidableEq, Repr

/-! ## The Breakwater (11) -/

/-- EMPTY, RUNNING, FAULT (R323). -/
inductive BwkState
  | empty
  | running
  | fault
  deriving DecidableEq, Repr

/-- What is presented to one output (Table 11.5). -/
structure OutSig where
  permit : Bool := false
  forced : Bool := false
  forceOn : Bool := false
  deriving DecidableEq, Repr

/-- A timer's count and output, and its input in the last cycle (R317). -/
structure BwkTimer where
  count : Nat := 0
  out : Bool := false
  last : Bool := false
  deriving DecidableEq, Repr

/-- What one cycle computes (R309, R318–R322): flags, rule results, alarms, and for each output its signals,
whether its watch is active, and whether a watch or FAULT row holds. -/
structure BwkCycle where
  flags : List (Nat × Bool) := []
  results : List (Nat × Bool) := []
  alarms : Word := 0
  outs : List (Nat × OutSig) := []
  deriving DecidableEq, Repr

/-- One heartbeat source (R313): last accepted SEQ and the wall time of the last accepted kick. -/
structure Beat where
  seq : BitVec 8 := 0
  at_ : Option Nat := none
  live : Bool := false
  deriving DecidableEq, Repr

/-- The Breakwater (R307–R326). Banks are kept by byte offset of their words, `bad` the words of the
inactive bank with an uncorrectable error; `sigAt` and `wordAt` hold the wall time of the last write
(none: never written). `next` is what the cycle in progress will apply, `last` what the last cycle
applied; `held` is the row in effect of each output with its captured value c (R320); `commit` a bank
switch that waits for the next sample instant. `peerAt` is the wall time of the peer's last valid heartbeat, `peerSeen`
what the last sample made of it. `latch` is what the fault latch last read of each output, at the last sample instant:
GATE or DRIVE, and the safe state (R308, R320). `begun` says that a cycle is in progress, `fuseRow`
that the EMPTY row is presented. -/
structure Bwk where
  state : BwkState := .empty
  cause : Nat := 0
  active : Bool := false
  anchored : Bool := false
  bank0 : List (Nat × Word) := []
  bank1 : List (Nat × Word) := []
  bad : List Nat := []
  sig : List (Nat × Word) := []
  sigAt : List (Nat × Option Nat) := []
  word : List (Nat × BitVec 16) := []
  wordAt : List (Nat × Option Nat) := []
  qm : Beat := {}
  cl : Beat := {}
  peerAt : Option Nat := none
  peerSeen : Bool := false
  comps : List (Nat × Option Bool) := []
  timers : List (Nat × BwkTimer) := []
  cycles : Nat := 0
  next : BwkCycle := {}
  last : BwkCycle := {}
  presented : List (Nat × OutSig) := []
  held : List (Nat × (Nat × Bool)) := []
  watching : List (Nat × Bool) := []
  latch : List (Nat × Option (Bool × Nat)) := []
  begun : Bool := false
  fuseRow : Bool := true
  commit : Bool := false
  evalLast : Nat := 0
  evalMax : Nat := 0
  deriving DecidableEq, Repr

/-! ## Reset controller (14) -/

/-- Power states (Table 14.11, PSTATE codes 0–6). -/
inductive PState
  | underway
  | berthing
  | berthed
  | unberthing
  | mooring
  | moored
  | unmooring
  deriving DecidableEq, Repr

/-- One programmed row of the fuse map and whether its CRC is good (R406, R407). -/
structure FuseRow where
  words : List Word
  good : Bool
  deriving DecidableEq, Repr

/-- The reset controller (R387–R410). `inReset` is RST_DOMAIN; `sources` those asserted and
`srcReach` the reach each asserts; `epReach`, `epSources`, `escalated`, `escFabric` and `escCluster`
belong to the episode; `nextStep` is the exit step due (6: none);
`startDue` says the harts of a parked cluster start when UNBERTHING ends; `held` marks domains held for want of a
clock. `fmap` is the row in effect as last read. The always-on count runs since wall time `aonEpoch`, `aonAdj` ns more or
less; while the RC oscillator is in use, from `rcAt` on, at `rcRate` thousandths of its rate (R388). `parkAt` is when
BERTHING began. -/
structure Rst where
  inReset : BitVec 8 := 0xFF
  sources : BitVec 16 := 0
  srcReach : List (Nat × Nat) := []
  episode : Bool := true
  epReach : Nat := 4
  epSources : BitVec 16 := 2
  escalated : Bool := false
  escFabric : Bool := false
  escCluster : Bool := false
  nextStep : Nat := 0
  startDue : Bool := false
  causeTs : Nat := 0
  causeReach : Nat := 4
  causeSources : BitVec 16 := 2
  causeEsc : Bool := false
  pstate : PState := .underway
  wakeLatched : Bool := false
  wakeCause : Nat := 0
  wakeChan : Nat := 0
  wakeTs : Nat := 0
  wakeSeen : Bool := false
  cmdWait : Bool := false
  xtalFail : Bool := false
  clkFail : Bool := false
  held : BitVec 8 := 0
  scOk : Bool := true
  rows : List FuseRow := [⟨[0, 0, 0, 0, 0], true⟩]
  fmap : List Word := [0, 0, 0, 0, 0]
  fmapRow : Nat := 0
  qmRunning : Bool := false
  qmKick : Option Nat := none
  aonEpoch : Nat := 0
  aonAdj : Int := 0
  rcAt : Nat := 0
  rcRate : Nat := 1000
  parkAt : Nat := 0
  powerFail : Bool := false
  hostLink : Bool := false
  wakeN : Bool := false
  mainsHere : Bool := true
  deriving DecidableEq, Repr

/-! ## Pairs (15) -/

/-- PAIR_STATUS.ROLE codes 0–4 (Table 15.13). -/
inductive PairRole
  | single
  | seeking
  | standby
  | primary
  | isolated
  deriving DecidableEq, Repr

/-- The pairs engine (R411–R426). `strap` is the SLOT_ID pin; `domOwn` the line it drives, `peerLow` and
`loopOk` the levels it reads; `missed` the 250-µs periods since the last valid heartbeat; `bound` the
bound serial; `rebase` marks a Standby whose resync may begin at any sequence number; `handoverWait` a
HANDOVER without its result, sent as record `handoverSeq`; `takeover` shadow slips still to be created;
`slips`, `binds` and `outputs` the shadow of the Primary's slip table, bindings and recorded commands; `theta` its wire-guard state. -/
structure Pair where
  role : PairRole := .single
  strap : Bool := true
  dupSlot : Bool := false
  domOwn : Bool := false
  peerLow : Bool := false
  loopOk : Bool := false
  mirrorSync : Bool := false
  fmt : Nat := 0
  peerLive : Bool := false
  peerRole : Nat := 0
  peerSync : Bool := false
  missed : Nat := 0
  bound : Nat := 0
  hbTx : BitVec 16 := 0
  hbRx : BitVec 16 := 0
  peerVer : Word := 0
  mirrorSeq : Word := 0
  acked : Word := 0
  resyncing : Bool := false
  staged : List Mirror := []
  rebase : Bool := false
  joinAt : Nat := 0
  handoverHeld : Bool := false
  handoverWait : Bool := false
  handoverSeq : Word := 0
  takeover : Bool := false
  slips : List (Nat × ShadowSlip) := []
  binds : List (Nat × Res) := []
  outputs : List (Nat × Bool) := []
  theta : List (Int × Nat × Int) := []
  thetaAt : Nat := 0
  thetaSent : Nat := 0
  deriving DecidableEq, Repr

/-! ## Service life and images (15) -/

/-- One flash bank of an image type: `valid` when its checks passed; `ver`, `svn`, `gen`, `base`,
`fmtMin` and `fmtMax` are header fields (Table 15.6). -/
structure ImgBank where
  valid : Bool := false
  ver : Word := 0
  svn : Word := 0
  delta : Bool := false
  gen : Word := 0
  base : Word := 0
  fmtMin : Nat := 0
  fmtMax : Nat := 0
  image : List Byte := []
  deriving DecidableEq, Repr

/-- Both banks of one image type and which is active (Table 15.17). -/
structure ImgType where
  active : Bool := false
  fallback : Bool := false
  bank0 : ImgBank := {}
  bank1 : ImgBank := {}
  svnRows : Nat := 0
  svnMin : Word := 0
  deriving DecidableEq, Repr

/-- One piece of work of a configuration (Table 15.9): a WRITES record, the RULES section, the LEARN
section. -/
inductive CfgWork
  | write (off : Nat) (value : Word) (result : Nat) (mask : Word)
  | rules (words : List (Nat × Word))
  | learn (templates : List (List Byte))
  deriving DecidableEq, Repr

/-- A configuration being applied (R433): the work left with its section and record, the result word awaited
with its accepted outcomes and the SEQ before the command, and whether the store is being replayed. -/
structure CfgApply where
  work : List (Nat × Nat × CfgWork) := []
  wait : Option (Nat × Word × Nat) := none
  at_ : Nat × Nat := (0, 0)
  replay : Bool := false
  deriving DecidableEq, Repr

/-- Images, the configuration store, the learning templates and the Reserve (R427–R436). `used` counts
the spares brought in of each resource, `lost` the failures that found none; `inserted` the keys of
the learned entries of each template, oldest first, as numbers; `applying` a configuration being applied. -/
structure Svc where
  types : List (Nat × ImgType) := []
  cfgGen : Word := 0
  cfgState : Nat := 0
  store : List (List Byte) := []
  templates : List (List Byte) := []
  inserted : List (Nat × List Nat) := []
  used : List (Nat × Nat) := []
  lost : List (Nat × Nat) := []
  bulkCap : Nat := 100
  applying : Option CfgApply := none
  deriving DecidableEq, Repr

/-! ## Field I/O (10) -/

/-- An edge waiting on the field side (R299): channel, level after it, its time, and the ms spent at the
previous level. -/
structure FieldEdge where
  ch : Nat
  rising : Bool
  ts : Nat
  ms : Nat
  deriving DecidableEq, Repr

/-- A change of FAULT whose record is not formed yet (R297): channel, time, new code. -/
structure FieldFault where
  ch : Nat
  ts : Nat
  code : Nat
  deriving DecidableEq, Repr

/-- A counter's latch that a snapshot is formed from (R291): channel, instant, the 32-bit count and the time of its last
edge. -/
structure SnapLatch where
  ch : Nat
  ts : Nat
  count : BitVec 32
  edge : Nat
  deriving DecidableEq, Repr

/-- A frame from the field side (R287, R290, R291, R299): its count, every channel's qualified state or
terminal, every output's drive, at most 8 edges, the counters latched with the time of their last edge,
the latches of snapshots not yet reported, and the latch instant. -/
structure UpFrame where
  count : BitVec 4
  states : BitVec 32
  drives : BitVec 32
  edges : List FieldEdge
  snaps : List SnapLatch
  counts : List (Nat × (BitVec 32 × Nat))
  latch : Nat
  deriving DecidableEq, Repr

/-- A frame from the device side (R293, R303): its count and every output's drive request. -/
structure DownFrame where
  count : BitVec 4
  drives : BitVec 32
  deriving DecidableEq, Repr

/-- One field channel. Device side: the recorded command, the Breakwater's signals, the drive request,
what the last valid report said (`repState`, `repDrive`), the FAULT code, and records. Field side: the
qualified state and since when it stands, what the output should be and its drive, the latched fault,
the loop and mismatch conditions, and the counter. `state` is an output's terminal above 12 V; `snapDue` counts
the snapshots asked for since the last latch. -/
structure FieldCh where
  recorded : Bool := false
  permit : Bool := false
  forced : Bool := false
  forceOn : Bool := false
  req : Bool := false
  repState : Bool := false
  repDrive : Bool := false
  repFault : Nat := 0
  changeTs : Nat := 0
  evtSeq : BitVec 16 := 0
  lost : Bool := false
  edgeLost : Bool := false
  snapDue : Nat := 0
  count : DWord := 0
  countLast : BitVec 32 := 0
  lastEdge : Nat := 0
  snapEdge : Nat := 0
  state : Bool := false
  since : Nat := 0
  want : Bool := false
  drive : Bool := false
  latched : Nat := 0
  broken : Bool := false
  mismatch : Bool := false
  fsCount : BitVec 32 := 0
  fsEdge : Nat := 0
  deriving DecidableEq, Repr

/-- Field I/O as a whole: channels, the isolation link's two directions with the frames under way, the
groups' silence states and runs of valid frames, park, quads (`quadBad`, and `quadTold` as the device side last knew it), and the field side's queues of edges and of snapshot
latches that no valid frame has brought over. `sent`
counts the frames the device side sent; `reported` is that count, and `reportTs` the time, at the last
valid report. -/
structure Fio where
  ch : List (Nat × FieldCh) := []
  up : Bool := false
  upRun : Nat := 0
  rxCount : Option (BitVec 4) := none
  txCount : BitVec 4 := 0
  fsRxCount : Option (BitVec 4) := none
  fsTxCount : BitVec 4 := 0
  downFrame : Option DownFrame := none
  upFrame : Option UpFrame := none
  parked : Bool := false
  fsParked : Bool := false
  safe : BitVec 4 := 0
  goodRun : Nat := 0
  quadBad : BitVec 8 := 0
  quadTold : BitVec 8 := 0
  quadVolt : List (Nat × Nat) := []
  edges : List FieldEdge := []
  snaps : List SnapLatch := []
  faults : List FieldFault := []
  sent : Nat := 0
  reported : Nat := 0
  reportTs : Nat := 0
  deriving DecidableEq, Repr

/-! ## Cluster and worlds (12) -/

/-- The application cluster (R329–R343). `retired` marks physical cores; `map` holds each hart's core (15:
stopped) and `cause` its start cause; `halted` the harts halted by debug, `qmHalted` the Quaymaster, `lockHalted` the Lock;
`wdog` is 0 disabled, 1 RUNNING, 2 WARNED, its period running since wall time `wdogAt`; MTIME counts from wall
time `epoch`; `imsic` holds the pending identities of file f of hart h under 16h + f (0 machine, 1
supervisor, 1 + g guest file g); `poison` the poisoned 64-byte lines of memory and `cachePoison` those of the caches (R330), `dramCe` the wall times of
the corrected errors of the last 24 h of each DRAM row (R331); `timerPend` the harts whose machine timer interrupt is
pending; `rowsOut` the DRAM rows retired from the memory map (Table 15.5); `triggers` trigger i of hart h under 4h + i. -/
structure Clt where
  retired : BitVec 10 := 0
  map : List Nat := [15, 15, 15, 15, 15, 15, 15, 15]
  cause : List Nat := [0, 0, 0, 0, 0, 0, 0, 0]
  halted : BitVec 8 := 0
  qmHalted : Bool := false
  lockHalted : Bool := false
  wdog : Nat := 0
  epoch : Nat := 0
  imsic : List (Nat × BitVec 256) := []
  poison : List Nat := []
  cachePoison : List Nat := []
  dramCe : List (Nat × List Nat) := []
  rowsOut : List Nat := []
  wdogAt : Nat := 0
  timerPend : BitVec 8 := 0
  triggers : List (Nat × DWord) := []
  deriving DecidableEq, Repr

/-- The states of a hand-over block (Table 12.13, codes 0–4). -/
inductive HoState
  | nOwned
  | releaseReq
  | toS
  | sOwned
  | toN
  deriving DecidableEq, Repr

/-- One block that can be handed between worlds (R353): its state, whether the last release was forced,
its grants, when the Lock claimed it, and whether WLD_HO_RESULT waits for its grant. -/
structure HoBlock where
  state : HoState := .nOwned
  forced : Bool := false
  count : BitVec 16 := 0
  at_ : Nat := 0
  cmd : Bool := false
  deriving DecidableEq, Repr

/-- A memory region in effect (Table 12.18). -/
structure Region where
  base : Nat := 0
  last : Nat := 0
  rd : BitVec 8 := 0
  wr : BitVec 8 := 0
  enable : Bool := false
  owner : Bool := false
  locked : Bool := false
  deriving DecidableEq, Repr

/-- The boot set: region 63 of each memory, the whole of it (Table 12.12). -/
def bootRegions : List (Nat × Region) := [
  (63, { last := 4194303, rd := 0x37, wr := 0x37, enable := true }),
  (127, { last := 104447, rd := 0x34, wr := 0x14, enable := true }),
  (191, { last := 511, rd := 0x27, wr := 0x27, enable := true }),
  (255, { last := 255, rd := 0x34, wr := 0x14, enable := true }),
  (319, { last := 2097151, rd := 0x25, wr := 0x04, enable := true })]

/-- A debug certificate in force (R383): the enables it still grants, in the bits of Table 13.10, and the wall time at
which its LIFETIME ends (none: the next Module reset). -/
structure DebugCert where
  grants : BitVec 5
  ends : Option Nat
  deriving DecidableEq, Repr

/-- The worlds (R344–R361): regions keyed 64m + r, blocks, the violation log's count of entries, the
Lock's state, the four debug enables and QM, and the certificates that grant them. -/
structure Wld where
  regions : List (Nat × Region) := bootRegions
  ho : List (Nat × HoBlock) := []
  total : Nat := 0
  lockReady : Bool := false
  regionsSet : Bool := false
  nInv : Bool := false
  nNinv : Bool := false
  sInv : Bool := false
  sNinv : Bool := false
  qmDbg : Bool := false
  certs : List DebugCert := []
  deriving DecidableEq, Repr

/-! ## Keys and life cycle (13) -/

/-- The states of a mailbox slot (Table 12.9, codes 0–4). -/
inductive MbxState
  | free
  | posted
  | taken
  | done
  | cancelled
  deriving DecidableEq, Repr

/-- One mailbox slot (R346, R347). `at_` is the wall time of posting, `order` its place in the order of
posting, which no rule reads (R366 orders by the clock and the slot); an engine slot (0–7) holds its request and response and the descriptor it serves, the words of
the others are registers. `reading` marks an engine slot whose buffer is still being read. -/
structure Mbx where
  state : MbxState := .free
  at_ : Nat := 0
  order : Nat := 0
  reading : Bool := false
  slip : Nat := 0
  ring : Nat := 0
  idx : Nat := 0
  req : List Byte := []
  status : Nat := 0
  rsp : List Byte := []
  deriving DecidableEq, Repr

/-- One key slot (Table 13.16); `alg` 0 is an empty slot. `gen` outlives nothing: it is 0 when empty. -/
structure KeySlot where
  alg : Nat := 0
  usage : Nat := 0
  dom : Nat := 0
  exportable : Bool := false
  fault : Bool := false
  users : BitVec 4 := 0
  slip : Nat := 0
  gen : Word := 0
  copy : Bool := false
  key : List Byte := []
  deriving DecidableEq, Repr

/-- The request the Lock has taken and its answer, not yet written. `cut`: a power failure interrupted
its update, and no response follows. -/
structure LockJob where
  slot : Nat
  status : Nat
  out : List Byte
  cut : Bool := false
  deriving DecidableEq, Repr

/-- A flash record of a slot (R374): its GEN and ATTR and its key; `good`: its tag is good. -/
structure KeyRec where
  key : KeySlot
  good : Bool := true
  deriving DecidableEq, Repr

/-- A commit record of the journal (R374); `good`: its tag is good. -/
structure KeyCommit where
  slot : Nat
  gen : Word
  copy : Bool
  good : Bool := true
  deriving DecidableEq, Repr

/-- A programmed life-cycle row (R377): its state code; `good`: its check code fits. -/
structure LcRow where
  state : Nat
  good : Bool := true
  deriving DecidableEq, Repr

/-- The key store (R362–R386). `slots` is the key SRAM; `order` counts the requests posted; `recs` (2 · slot + copy)
holds the flash records, `journal` the commit records in the order written, `pending` the records that wait for a new
life-cycle state (R382), `torn` the slots with an uncommitted copy in flash; `seed` is the seed of the key SRAM's
masks (R363). `rows` are the programmed life-cycle rows, oldest first, `rowsUsed` their number, `lc` the state they
give, `prev` the one before the last transition. `tunFrom` (2s + number) and `msFrom` (4 · port + AN) name the slot an
engine key came from, plus 1. -/
structure Keys where
  ready : Bool := false
  slots : List (Nat × KeySlot) := []
  mbx : List (Nat × Mbx) := []
  order : Nat := 0
  job : Option LockJob := none
  recs : List (Nat × Option KeyRec) := []
  journal : List KeyCommit := []
  pending : List (Nat × KeySlot) := []
  torn : List Nat := []
  seed : List Byte := []
  lc : Nat := 0
  prev : Nat := 0
  killed : Bool := false
  rows : List LcRow := []
  rowsUsed : Nat := 0
  challenge : Option (List Byte) := none
  certificate : List Byte := []
  tunFrom : List (Nat × Nat) := []
  msFrom : List (Nat × Nat) := []
  deriving DecidableEq, Repr

/-! ## The device -/

/-- Everything the block holds except the region-controlled memories and the queue of commands.
`regs` holds every stored register by its address (a register not listed reads its reset value),
`cnts` every 64-bit counter; `wall` is the count of nanoseconds of the 100 MHz reference, `timeOff`
device time less `wall`; `aonTime` the always-on copy of device time, made at
the always-on count `aonAt` (R33); `free` counts the free values drawn (the model's own field); `out` is what
has been sent out, newest first. -/
structure Dev where
  wall : Nat := 0
  timeOff : Int := 0
  aonTime : Nat := 0
  aonAt : Nat := 0
  regs : List (Nat × Word) := []
  cnts : List (Nat × DWord) := []
  free : Nat := 0
  out : List Out := []
  qm : Qm := {}
  log : DevLog := {}
  as_ : AsTime := {}
  basin : Basin := {}
  ports : List (Nat × WirePort) := []
  ms : List (Nat × MsPort) := []
  lb : Logbook := {}
  cht : Chart := {}
  slips : Slips := {}
  brg : Brg := {}
  can : List (Nat × Can) := []
  nws : Nws := {}
  ldc : Ldc := {}
  bwk : Bwk := {}
  rst : Rst := {}
  pair : Pair := {}
  svc : Svc := {}
  fio : Fio := {}
  clt : Clt := {}
  wld : Wld := {}
  keys : Keys := {}
  deriving DecidableEq, Repr

/-- Why a step could stop with a fault. No command of this block faults: every effect the spec gives is
taken, and a command whose condition does not hold leaves the state unchanged. -/
inductive Fault
  /-- Raised by nobody: the spec names no stop of the block. Safe. -/
  | unreachable
  deriving DecidableEq, Repr

/-- Why a command could be refused. -/
inductive Refusal
  /-- Raised by exec for a row whose meaning is not written. Safe: nothing is claimed about it. -/
  | notModelled (mnemonic : String)
  deriving DecidableEq, Repr

/-- The block: the region-controlled memories as one sparse memory, the device, and the commands that
are waiting, first in, first out. -/
structure State where
  mem : List Host.Cell
  dev : Dev
  pending : List Instr
  deriving DecidableEq, Repr

/-- Slip 0 as every fabric-covering reset creates it (R125, Table 4.25). -/
def slip0 : Slip :=
  { state := .active, cls := 3, classMax := 7, rxq := 97268, min := 256, max := 4096 }

/-- The device right after reset: a Cold reach has just been released, no exit step has run, and the
only slip is slip 0. -/
def Dev.reset : Dev := { slips := { tab := [(0, slip0)] } }

/-- The block right after reset. -/
def State.reset : State := { mem := [], dev := Dev.reset, pending := [] }

end Sys2Proof.Machine
end

