-- ==== Sys2Proof/Machine/Tab.lean ====
section
/-! DEFINITION. Sparse tables: a list of (key, value) pairs with keys strictly rising, in which no
value equals the default an unlisted key reads as. Registers, counters and every indexed bank of the
device are held this way, so that equal banks are equal data. -/

namespace Sys2Proof.Machine

/-- What key `k` holds: its listed value, or the default. -/
def tget {α : Type} (dflt : α) : List (Nat × α) → Nat → α
  | [], _ => dflt
  | (k', v) :: t, k => if k' = k then v else tget dflt t k

/-- Put `v` at `k`, keeping the keys rising. -/
def tput {α : Type} : List (Nat × α) → Nat → α → List (Nat × α)
  | [], k, v => [(k, v)]
  | (k', v') :: t, k, v =>
      if k < k' then (k, v) :: (k', v') :: t
      else if k = k' then (k, v) :: t
      else (k', v') :: tput t k v

/-- Take key `k` out of the table. -/
def terase {α : Type} (t : List (Nat × α)) (k : Nat) : List (Nat × α) := t.filter fun e => e.1 != k

/-- Write `v` at `k`: writing the default removes the entry. -/
def tset {α : Type} [DecidableEq α] (dflt : α) (t : List (Nat × α)) (k : Nat) (v : α) :
    List (Nat × α) :=
  if v = dflt then terase t k else tput t k v

/-- Drop every entry whose key lies in `[lo, hi)`. -/
def tclear {α : Type} (t : List (Nat × α)) (lo hi : Nat) : List (Nat × α) :=
  t.filter fun e => !(decide (lo ≤ e.1) && decide (e.1 < hi))

end Sys2Proof.Machine
end

