-- ==== Sys2Proof/Machine/Ops.lean ====
section
/-! DEFINITION. The named operations over registers, counters, time, events, interrupts and the device
log that every meaning is built from. -/

namespace Sys2Proof.Machine

/-! ## Bit fields -/

/-- Field `[hi:lo]` of a word as a number. -/
def fld (w : Word) (hi lo : Nat) : Nat := (w.toNat >>> lo) % 2 ^ (hi - lo + 1)

/-- Bit `i` of a word. -/
def bit (w : Word) (i : Nat) : Bool := w.getLsbD i

/-- `v` placed at bit `lo`. -/
def at_ (v lo : Nat) : Word := w32 (v <<< lo)

/-- 1 at bit `lo` when `b` holds. -/
def flag (b : Bool) (lo : Nat) : Word := if b then w32 (1 <<< lo) else 0

/-- A field value read as signed. -/
def signed (v width : Nat) : Int := if v < 2 ^ (width - 1) then v else (v : Int) - 2 ^ width

/-- The low `width` bits of an integer. -/
def wrapInt (v : Int) (width : Nat) : Nat := (v % (2 ^ width : Int)).toNat

/-- The bytes of a number, little-endian. -/
def leBytes (v : Nat) : Nat → List Byte
  | 0 => []
  | n + 1 => BitVec.ofNat 8 v :: leBytes (v / 256) n

/-- The bytes of a number, big-endian. -/
def beBytes (v n : Nat) : List Byte := (leBytes v n).reverse

/-- The number bytes hold, little-endian. -/
def leNat : List Byte → Nat
  | [] => 0
  | b :: t => b.toNat + 256 * leNat t

/-- The number bytes hold, big-endian. -/
def beNat (l : List Byte) : Nat := leNat l.reverse

/-- Bytes as little-endian words, a short last word filled with zeros. -/
def leWord (l : List Byte) (i : Nat) : Word := w32 (leNat ((l.drop (4 * i)).take 4))

/-- The value kept between two bounds. -/
def clamp (lo hi v : Nat) : Nat := if v < lo then lo else if hi < v then hi else v

/-- 0 acts as 1. -/
def atLeast1 (v : Nat) : Nat := if v = 0 then 1 else v

/-! ## Registers and counters -/

/-- The rows that may hold address `a` (Table 1.8). -/
def rowsOf (a : Nat) : List RegRow :=
  if a < 0x100000 then devRows
  else if a < 0x200000 then rstRows
  else if a < 0x400000 then swRows
  else if a < 0x800000 then chtRows
  else if a < 0xC00000 then slpRows
  else if a < 0xD00000 then brgRows
  else if a < 0xE00000 then canRows
  else if a < 0xF00000 then nwsRows
  else if a < 0x1000000 then ldcRows
  else if a < 0x1100000 then wgsRows
  else if a < 0x1200000 then fioRows
  else if a < 0x1300000 then bwkRows
  else if a < 0x1400000 then wldRows
  else if a < 0x1500000 then keyRows
  else if a < 0x1600000 then pairRows
  else if a < 0x1700000 then svcRows
  else if a < 0x4000000 then []
  else cltRows

/-- How a register is accessed: RW mask, W1C mask, whether it has a WO field, reset value. -/
structure RegDesc where
  rw : Word
  w1c : Word
  wo : Bool
  reset : Word
  deriving DecidableEq, Repr

/-- The register at `a`, if there is one (R36). -/
def regDesc (a : Nat) : Option RegDesc :=
  match (if 0xA00000 ≤ a ∧ a < 0xC00000 then slipWinRow ((a - 0xA00000) % 0x200) else none) with
  | some (rw, rst) => some ⟨rw, 0, false, rst⟩
  | none =>
    match (rowsOf a).find? (·.holds a) with
    | some r => some ⟨r.rw, r.w1c, r.wo, r.reset⟩
    | none => none

/-- The Reset column, with the entries whose reset value depends on the index or on fuses
(Tables 2.5, 2.27; BRG_SMAC). -/
def regReset (a : Nat) : Word :=
  if a = 0x210004 then 0x3FFF3FFF
  else if a = 0x20115C ∨ a = 0x20117C ∨ a = 0x20119C then 74
  else if a = 0x20135C ∨ a = 0x20137C ∨ a = 0x20139C then 74
  else if a = 0x20195C ∨ a = 0x20197C ∨ a = 0x20199C then 74
  else if a = 0x201B5C ∨ a = 0x201B7C ∨ a = 0x201B9C then 74
  else if a = 0x20141C ∨ a = 0x201C1C then 222
  else if a = 0xC00018 then (Config.baseMac.toNat : Word)
  else if a = 0xC0001C then w32 (Config.baseMac.toNat >>> 32)
  else match resetIndexed a, regDesc a with
    | some v, _ => v
    | none, some r => r.reset
    | none, none => 0

/-- The stored content of the register at `a`. -/
def rd (d : Dev) (a : Nat) : Word := tget (regReset a) d.regs a

/-- Store `v` in the register at `a`. -/
def wr (d : Dev) (a : Nat) (v : Word) : Dev := { d with regs := tset (regReset a) d.regs a v }

/-- The bits of a register that a write sets (Table 0.7). -/
def rwMask (a : Nat) : Word :=
  match regDesc a with
  | some r => r.rw
  | none => 0

/-- A write that only acts on the fields of a register by their access codes (R12): RW bits take the value,
W1C bits fall where it has a 1, the others stay. -/
def plainWrite (d : Dev) (a : Nat) (v : Word) : Dev :=
  match regDesc a with
  | some r => wr d a (((rd d a &&& ~~~r.rw) ||| (v &&& r.rw)) &&& ~~~(v &&& r.w1c))
  | none => d

/-- The key of words 0 and 1 in effect of a CAN_ACC or CAN_HP entry at `a` (R191). -/
def heldAt (a : Nat) : Nat := 2 ^ 27 + a

/-- The 64-bit value of two consecutive registers. -/
def rd64 (d : Dev) (a : Nat) : Nat := (rd d a).toNat + 2 ^ 32 * (rd d (a + 4)).toNat

/-- Store a 64-bit value in two consecutive registers. -/
def wr64 (d : Dev) (a v : Nat) : Dev := wr (wr d a (w32 v)) (a + 4) (w32 (v >>> 32))

/-- The 64-bit counter whose lower half is at `a`. -/
def cnt (d : Dev) (a : Nat) : DWord := tget 0 d.cnts a

/-- Add to a counter. -/
def cntAdd (d : Dev) (a n : Nat) : Dev :=
  { d with cnts := tset 0 d.cnts a (cnt d a + BitVec.ofNat 64 n) }

/-- Count one. -/
def inc (d : Dev) (a : Nat) : Dev := cntAdd d a 1

/-- Set a counter. -/
def cntSet (d : Dev) (a : Nat) (v : DWord) : Dev := { d with cnts := tset 0 d.cnts a v }

/-- Zero every counter whose address lies in `[lo, hi)`. -/
def clearCnts (d : Dev) (lo hi : Nat) : Dev := { d with cnts := tclear d.cnts lo hi }

/-- Return every register in `[lo, hi)` to its reset value. -/
def resetRegs (d : Dev) (lo hi : Nat) : Dev := { d with regs := tclear d.regs lo hi }

/-! ## Result words (R40) -/

/-- A request begins: VALID falls, every other field keeps its previous outcome. -/
def resultBegin (d : Dev) (a : Nat) : Dev := wr d a (rd d a &&& 0x7FFFFFFF)

/-- Whether an outcome is written. -/
def resultValid (d : Dev) (a : Nat) : Bool := bit (rd d a) 31

/-- Write an outcome: VALID 1, the status bits `st` already in place, and the next SEQ. -/
def resultEnd (d : Dev) (a : Nat) (st : Word) : Dev :=
  wr d a (0x80000000 ||| st ||| at_ ((fld (rd d a) 15 0 + 1) % 65536) 0)

/-! ## Time, free values, output -/

/-- Device time: the 802.1AS count of nanoseconds (R18). -/
def devTime (d : Dev) : Nat := ((d.wall : Int) + d.timeOff).toNat

/-- Draw a free value. -/
def drawNat (d : Dev) : Nat × Dev := (Config.freeNat d.free, { d with free := d.free + 1 })

/-- Draw `n` random bytes. -/
def drawBytes (d : Dev) (n : Nat) : List Byte × Dev :=
  ((List.range n).map (Config.freeByte d.free), { d with free := d.free + 1 })

/-- Send something out. -/
def emit (d : Dev) (o : Out) : Dev := { d with out := o :: d.out }

/-- Entry `t` of the fuse-map row in effect (Table 14.8). -/
def fuseEntry (d : Dev) (t : Nat) : Nat := fld (d.rst.fmap.getD (t / 16) 0) (2 * (t % 16) + 1) (2 * (t % 16))

/-! ## Indexed banks -/

def slipOf (d : Dev) (n : Nat) : Slip := tget {} d.slips.tab n
def setSlip (d : Dev) (n : Nat) (s : Slip) : Dev :=
  { d with slips := { d.slips with tab := tset {} d.slips.tab n s } }
def ringOf (d : Dev) (n r : Nat) : Ring := tget {} d.slips.rings (8 * n + r)
def setRing (d : Dev) (n r : Nat) (x : Ring) : Dev :=
  { d with slips := { d.slips with rings := tset {} d.slips.rings (8 * n + r) x } }
def resOf (d : Dev) (k : Nat) : Res := tget {} d.slips.res k
def setRes (d : Dev) (k : Nat) (x : Res) : Dev :=
  { d with slips := { d.slips with res := tset {} d.slips.res k x } }
def portOf (d : Dev) (p : Nat) : WirePort := tget {} d.ports p
def setPort (d : Dev) (p : Nat) (x : WirePort) : Dev := { d with ports := tset {} d.ports p x }
def msOf (d : Dev) (k : Nat) : MsPort := tget {} d.ms k
def setMs (d : Dev) (k : Nat) (x : MsPort) : Dev := { d with ms := tset {} d.ms k x }
def canOf (d : Dev) (n : Nat) : Can := tget {} d.can n
def setCan (d : Dev) (n : Nat) (x : Can) : Dev := { d with can := tset {} d.can n x }
def netOf (d : Dev) (n : Nat) : Net := tget {} d.nws.nets n
def setNet (d : Dev) (n : Nat) (x : Net) : Dev :=
  { d with nws := { d.nws with nets := tset {} d.nws.nets n x } }
def partOf (d : Dev) (n m : Nat) : Partner := tget {} d.nws.parts (64 * n + m)
def setPart (d : Dev) (n m : Nat) (x : Partner) : Dev :=
  { d with nws := { d.nws with parts := tset {} d.nws.parts (64 * n + m) x } }
def nbrOf (d : Dev) (p k : Nat) : Option Neighbour := tget none d.nws.nbrs (4 * p + k)
def setNbr (d : Dev) (p k : Nat) (x : Option Neighbour) : Dev :=
  { d with nws := { d.nws with nbrs := tset none d.nws.nbrs (4 * p + k) x } }
def loadOf (d : Dev) (n : Nat) : Load := tget {} d.ldc.ch n
def setLoad (d : Dev) (n : Nat) (x : Load) : Dev :=
  { d with ldc := { d.ldc with ch := tset {} d.ldc.ch n x } }
def fieldOf (d : Dev) (n : Nat) : FieldCh := tget {} d.fio.ch n
def setField (d : Dev) (n : Nat) (x : FieldCh) : Dev :=
  { d with fio := { d.fio with ch := tset {} d.fio.ch n x } }
def bankOf (d : Dev) (b : Nat) : Bank := tget {} d.ldc.banks b
def setBank (d : Dev) (b : Nat) (x : Bank) : Dev :=
  { d with ldc := { d.ldc with banks := tset {} d.ldc.banks b x } }
def streamOf (d : Dev) (s : Nat) : Stream := tget {} d.brg.streams s
def setStream (d : Dev) (s : Nat) (x : Stream) : Dev :=
  { d with brg := { d.brg with streams := tset {} d.brg.streams s x } }
def semOf (d : Dev) (s : Nat) : Sem := tget {} d.brg.sems s
def setSem (d : Dev) (s : Nat) (x : Sem) : Dev :=
  { d with brg := { d.brg with sems := tset {} d.brg.sems s x } }

def hoOf (d : Dev) (b : Nat) : HoBlock := tget {} d.wld.ho b
def setHo (d : Dev) (b : Nat) (x : HoBlock) : Dev :=
  { d with wld := { d.wld with ho := tset {} d.wld.ho b x } }

/-- Block `b` is granted to World S (R353). -/
def sOwned (d : Dev) (b : Nat) : Bool := decide ((hoOf d b).state = .sOwned)

/-! ## Domains (Table 1.7, RST_DOMAIN) -/

/-- Whether domain bit `b` of RST_DOMAIN is out of reset. -/
def domUp (d : Dev) (b : Nat) : Bool := !d.rst.inReset.getLsbD b

/-- The fabric runs: out of reset and powered. -/
def fabricUp (d : Dev) : Bool := domUp d 6 && decide (d.rst.pstate ≠ .moored)

/-- A domain of the core rail (bit 4 CAN controllers, peripheral bridge and device side of field I/O; bit 5 the Lock
and key store) runs: out of reset, and not stopped in Moored (Table 1.7). -/
def coreUp (d : Dev) (b : Nat) : Bool := domUp d b && decide (d.rst.pstate ≠ .moored)

/-- The Lock runs: its domain is up, its block is clocked and powered (R408), and debug has not halted it (R357). -/
def lockUp (d : Dev) : Bool := coreUp d 5 && decide (rd d 0x1000C4 &&& 3 = 0) && !d.clt.lockHalted

/-- The cluster is parked (R392). -/
def parked (d : Dev) : Bool :=
  match d.rst.pstate with
  | .berthing | .berthed | .unberthing | .mooring => true
  | _ => false

/-- The cluster's harts run: out of reset, powered, and not parked. -/
def clusterRuns (d : Dev) : Bool := coreUp d 7 && !parked d

/-- A hart that executes: the cluster runs, the hart has a core and debug does not hold it. -/
def hartRuns (d : Dev) (h : Nat) : Bool :=
  clusterRuns d && decide (d.clt.map.getD h 15 ≠ 15) && !d.clt.halted.getLsbD h

/-- Whether any hart executes. -/
def someHart (d : Dev) : Bool := (List.range 8).any (hartRuns d)

/-- Wire port `p` is powered: in Berthed only the ports of BERTH_KEEP are (R390, R392). -/
def portPowered (d : Dev) (p : Nat) : Bool :=
  fabricUp d &&
    match d.rst.pstate with
    | .berthing | .berthed | .mooring => bit (rd d 0x10000C) p
    | _ => true

/-- How far always-on time has run ahead of the reference while the RC oscillator is in use, in ns (R388). -/
def rcDrift (d : Dev) : Int :=
  if d.rst.xtalFail then ((d.wall - d.rst.rcAt : Nat) : Int) * ((d.rst.rcRate : Int) - 1000) / 1000 else 0

/-- The always-on count of 32.768 kHz periods since the last Cold reach. -/
def aonCount (d : Dev) : Nat :=
  (((d.wall - d.rst.aonEpoch : Nat) : Int) + d.rst.aonAdj + rcDrift d).toNat * 32768 / 1000000000

/-! ## Interrupts (R150) -/

/-- SLP_HOSTVF.MAX: slips above it are internal (R122). -/
def hostMax (d : Dev) : Nat := fld (rd d 0x800010) 11 0

/-- Whether slip `n` is internal. -/
def internalSlip (d : Dev) (n : Nat) : Bool := decide (hostMax d < n)

/-- The base of slip `n`'s window in the SLP block (Table 4.14). -/
def slipWin (n : Nat) : Nat := 0xA00000 + 0x200 * n

/-- A slip reset from a PCIe source keeps every request from the owner's memory (R151, step 6). -/
def withheld (d : Dev) (n : Nat) : Bool :=
  match (slipOf d n).reset with
  | some z => z.noMem
  | none => false

/-- Whether MSI-X is enabled and not masked as a whole for slip `n` (R123). -/
def msixOpen (d : Dev) (n : Nat) : Bool :=
  !withheld d n &&
  if internalSlip d n then bit (rd d (slipWin n + 4)) 31 && !bit (rd d (slipWin n + 4)) 30
  else (slipOf d n).msixOn && !(slipOf d n).msixMask

/-- Send vector `v` of slip `n`, or set its pending bit while it is masked (R150). -/
def sendVec (d : Dev) (n v : Nat) : Dev :=
  let e := slipWin n + 0x180 + 16 * v
  if msixOpen d n && !bit (rd d (e + 12)) 0 then
    emit d (.msix n v (rd64 d e) (rd d (e + 8)))
  else setSlip d n { slipOf d n with pba := (slipOf d n).pba ||| (1#8 <<< v) }

/-- The manager's event vector: EVT_VEC of slip 0 (R91, R150). -/
def mgrVec (d : Dev) : Dev := sendVec d 0 (fld (rd d (slipWin 0 + 4)) 2 0)

/-! ## Device log and events (R145, R91) -/

/-- Form one device-log record, or lose it when the staging queue is full (R145). -/
def logRecord (d : Dev) (src code : Nat) (event : Word) (inst : Nat) (detail : Word) : Dev :=
  if 1024 ≤ d.log.staging.length then
    { d with log := { d.log with seq := d.log.seq + 1, lost := min 65535 (d.log.lost + 1) } }
  else
    { d with log := { d.log with
        seq := d.log.seq + 1, lost := 0,
        staging := d.log.staging ++ [⟨d.log.seq, devTime d, src, code, d.log.lost, event, inst, detail⟩] } }

/-- An event bit is set: if it was 0 it forms a log record, and if its enable is 1 it raises the
manager's event vector (R91, R145). `ev` and `en` are the event register and its enables. -/
def setEv (d : Dev) (src ev en b inst : Nat) (detail : Word) : Dev :=
  if bit (rd d ev) b then d
  else
    let v := rd d ev ||| flag true b
    let d1 := logRecord (wr d ev v) src b v inst detail
    if bit (rd d en) b then mgrVec d1 else d1

/-- A SLIP_EVENT bit of slip `n` (R150); these form no log record. -/
def setSlipEv (d : Dev) (n b : Nat) : Dev :=
  let w := slipWin n
  if bit (rd d (w + 0xC)) b then d
  else
    let d1 := wr d (w + 0xC) (rd d (w + 0xC) ||| flag true b)
    if bit (rd d (w + 0x10)) b then sendVec d1 n (fld (rd d (w + 4)) 2 0) else d1

def evDev (d : Dev) (b : Nat) : Dev := setEv d 0 0x1C 0x20 b 0 0
def evRst (d : Dev) (b : Nat) : Dev := setEv d 1 0x100004 0x100008 b 0 0
def evSw (d : Dev) (b inst : Nat) : Dev := setEv d 2 0x200014 0x200018 b inst 0
def evCht (d : Dev) (b inst : Nat) : Dev := setEv d 3 0x400004 0x400008 b inst 0
def evSlp (d : Dev) (b inst : Nat) : Dev := setEv d 4 0x80001C 0x800020 b inst 0
def evBrg (d : Dev) (b inst : Nat) : Dev := setEv d 5 0xC00008 0xC0000C b inst 0
def canBase (n : Nat) : Nat := 0xD00000 + 0x10000 * n
def evCan (d : Dev) (n b : Nat) : Dev := setEv d 6 (canBase n + 8) (canBase n + 0xC) b n 0
def netBase (n : Nat) : Nat := 0xE01000 + 0x100 * n
def evNws (d : Dev) (n b : Nat) : Dev := setEv d 7 (netBase n + 0x18) (netBase n + 0x1C) b n 0
def evLldp (d : Dev) (b p : Nat) : Dev := setEv d 7 0xE00018 0xE0001C b p 0
def evLdc (d : Dev) (b inst : Nat) : Dev := setEv d 8 0xF00000 0xF00004 b inst 0
def ldcBase (n : Nat) : Nat := 0xF01000 + 0x40 * n
def evWgs (d : Dev) (b inst : Nat) : Dev := setEv d 9 0x1000008 0x100000C b inst 0
def evBwk (d : Dev) (b inst : Nat) : Dev := setEv d 11 0x1200004 0x1200008 b inst 0

/-- A channel event of a load channel; DETAIL carries the TRIP code of a trip (Table 4.11a). -/
def evLoad (d : Dev) (n b : Nat) : Dev :=
  setEv d 8 (ldcBase n + 0x28) (ldcBase n + 0x2C) b n
    (if b = 1 then w32 (loadOf d n).trip else 0)

def evFio (d : Dev) (b : Nat) : Dev := setEv d 10 0x1100000 0x1100004 b 0 0
def fioBase (n : Nat) : Nat := 0x1101000 + 0x40 * n

/-- A channel event of a field channel; its DETAIL is zero (Table 4.11a). -/
def evField (d : Dev) (n b : Nat) : Dev := setEv d 10 (fioBase n + 0x14) (fioBase n + 0x18) b n 0

/-- A CLT_EVENT bit: the APLIC source of the bit rises while its enable is 1 (R338, Table 12.3). -/
def evClt (d : Dev) (b : Nat) : Dev :=
  if bit (rd d 0x4000300) b then d
  else
    let v := rd d 0x4000300 ||| flag true b
    let d1 := logRecord (wr d 0x4000300 v) 16 b v 0 0
    if bit (rd d 0x4000304) b then emit d1 (.aplic (b + 1)) else d1

def evWld (d : Dev) (b inst : Nat) : Dev := setEv d 12 0x1300004 0x1300008 b inst 0

/-- KEY_LC (Table 13.15). -/
def keyLc (d : Dev) : Word :=
  let k := d.keys
  at_ k.prev 29 ||| flag k.killed 28 ||| at_ (32 - k.rowsUsed) 16 ||| flag k.challenge.isSome 15

/-- A KEY_EVENT bit; DETAIL is KEY_LC (Table 4.11a). -/
def evKey (d : Dev) (b inst : Nat) : Dev := setEv d 13 0x1400004 0x1400008 b inst (keyLc d)

/-- PAIR_STATUS.ROLE codes (Table 15.13). -/
def roleCode : PairRole → Nat
  | .single => 0
  | .seeking => 1
  | .standby => 2
  | .primary => 3
  | .isolated => 4

/-- PAIR_STATUS (Table 15.13). -/
def pairStatus (d : Dev) : Word :=
  let p := d.pair
  at_ (roleCode p.role) 29 ||| flag p.strap 28 ||| flag p.peerLive 27 ||| flag p.domOwn 26
    ||| flag p.peerLow 25 ||| flag p.loopOk 24 ||| flag p.mirrorSync 23 ||| flag p.dupSlot 22
    ||| at_ p.fmt 8

/-- A PAIR_EVENT bit; DETAIL is PAIR_STATUS (Table 4.11a). -/
def evPair (d : Dev) (b : Nat) : Dev := setEv d 14 0x1500008 0x150000C b 0 (pairStatus d)

/-- An SVC_EVENT bit; DETAIL is SVC_RESULT (Table 4.11a). -/
def evSvc (d : Dev) (b inst : Nat) : Dev := setEv d 15 0x1600000 0x1600004 b inst (rd d 0x160000C)

/-! ## The Reserve (R427, Table 15.5) -/

/-- Spare at shipment of resource `r`. -/
def reserveTotal (r : Nat) : Nat := [6144, 40, 2, 64, 1024, 1, 1, 100, 32, 3, 16].getD r 0

/-- Spares of resource `r` brought in. -/
def reserveUsed (d : Dev) (r : Nat) : Nat := tget 0 d.svc.used r

/-- What remains of resource `r`; for r = 10, of the image type with the fewest rows left (R427). -/
def reserveLeft (d : Dev) (r : Nat) : Nat :=
  if r = 2 then 2 - ((List.range 10).filter fun c => d.clt.retired.getLsbD c).length
  else if r = 7 then d.svc.bulkCap
  else if r = 8 then 32 - d.keys.rowsUsed
  else if r = 9 then 4 - d.rst.rows.length
  else if r = 10 then d.svc.types.foldl (fun a e => min a (16 - e.2.svnRows)) 16
  else reserveTotal r - reserveUsed d r

/-- SVC_EVENT.RESERVE_LOW when what remains has fallen to LOW or below. -/
def reserveJudge (d : Dev) (r : Nat) : Dev :=
  if reserveLeft d r ≤ fld (rd d (0x1600100 + 8 * r)) 15 0 then evSvc d 1 r else d

/-- A spare is used: events and the low threshold of its resource (R427). -/
def reserveNote (d : Dev) (r : Nat) : Dev := reserveJudge (evDev (evSvc d 0 r) 3) r

/-- A spare of resource `r` is brought in. -/
def reserveBring (d : Dev) (r : Nat) : Dev :=
  reserveNote { d with svc := { d.svc with used := tput d.svc.used r (reserveUsed d r + 1) } } r

/-- Resource `r` failed with no spare left. -/
def reserveLost (d : Dev) (r : Nat) : Dev :=
  { d with svc := { d.svc with lost := tput d.svc.lost r (tget 0 d.svc.lost r + 1) } }

/-- Flash has no spare erase block left: only configuration and key records are written (Table 15.5). -/
def flashWorn (d : Dev) : Bool := decide (reserveLeft d 4 = 0)

/-- Write a record of another kind to flash, unless it is worn out. -/
def flashKeep (d : Dev) (x : Dev) : Dev := if flashWorn d then d else x

/-- The mains-present contact MP_A to MP_B is closed while the mains is present and open while it is absent (R451). -/
def mainsContact (d : Dev) (closed : Bool) : Dev :=
  if d.rst.mainsHere = closed then d
  else emit { d with rst := { d.rst with mainsHere := closed } } (.pin 3 closed)

/-- What a mains of `volts` rms does to the contact: present from 80 V, absent to 70 V, and between them as before
(Table 16.4). -/
def mainsAt (d : Dev) (volts : Nat) : Dev :=
  if volts ≤ 70 then mainsContact d false else if 80 ≤ volts then mainsContact d true else d

/-! ## Wire ports and MACsec (R49, R79–R82) -/

def aPcnt (p k : Nat) : Nat := 0x21C900 + 0x80 * p + 8 * k
def aPort (p o : Nat) : Nat := 0x203000 + 0x40 * p + o

/-- A wire port carries traffic: ENABLE is 1 and its link is up (R49). -/
def wireUp (d : Dev) (p : Nat) : Bool := bit (rd d (aPort p 0)) 31 && (portOf d p).link

/-- MACsec is enabled on port `p`. -/
def macsecOn (d : Dev) (p : Nat) : Bool := decide (8 ≤ p ∧ p ≤ 10) && bit (rd d (aPort p 0)) 29

/-- MACsec protects what port `p` sends, MKA and PFC frames apart (R81, Table 2.30). -/
def macsecTx (d : Dev) (p : Nat) : Bool := macsecOn d p && bit (rd d (0x205000 + 0x100 * (p - 8))) 4

/-- The PN space of an engine: 2^64 with XPN, 2^32 without. -/
def pnSpace (m : MsPort) : Nat := if m.xpn then 2 ^ 64 else 2 ^ 32

/-- A protected frame takes the next PN of port `p`'s association: none without one, or once the next PN is the
maximum. The frame that would carry the maximum PN is not sent: R82 stops "if the PN reaches its maximum" (DEDUCED,
assumption 82). -/
def takePn (d : Dev) (p : Nat) : Option Dev :=
  let m := msOf d (p - 8)
  match m.txSa with
  | none => none
  | some sa =>
    if pnSpace m ≤ sa.pn + 1 then none
    else some (setMs d (p - 8) { m with txSa := some { sa with pn := sa.pn + 1 } })

/-- Send a frame on port `p` outside the Basin's queues, protected unless MACsec is off: `out` says what goes out, given
whether it is protected. It is dropped and counted in TX_LINK_DISCARD for want of a PN (R82), and not sent while the
port carries no traffic (R49). -/
def sendAside (d : Dev) (p : Nat) (out : Bool → Out) : Dev :=
  if !wireUp d p then d
  else if macsecTx d p then
    match takePn d p with
    | some d1 => emit d1 (out true)
    | none => inc d (aPcnt p 9)
  else emit d (out false)

/-- SW_EVENT.PN_THR once the next PN of a port reaches three quarters of its space (R82). -/
def pnJudge (d : Dev) (p : Nat) : Dev :=
  let m := msOf d (p - 8)
  match (if macsecTx d p then m.txSa else none) with
  | none => d
  | some sa =>
    if !sa.warned && decide (pnSpace m / 4 * 3 ≤ sa.pn) then
      evSw (setMs d (p - 8) { m with txSa := some { sa with warned := true } }) 7 p
    else d

/-! ## Pairs frames (R416, R417) -/

def imgType (d : Dev) (t : Nat) : ImgType := tget {} d.svc.types t
/-- The active bank of an image type. -/
def ImgType.act (x : ImgType) : ImgBank := if x.active then x.bank1 else x.bank0

/-- DEV_VERSION: of the Quaymaster's active bank. -/
def devVersion (d : Dev) : Word :=
  let t := imgType d 1
  if t.act.valid then t.act.ver else Config.qmVersion t.active

/-- SLOT_ID: an open strap is slot 1 (R411). -/
def ownSlot (d : Dev) : Nat := if d.pair.strap then 1 else 0

/-- The mirror formats the running Quaymaster firmware speaks (Table 15.6). -/
def fmtMin (d : Dev) : Nat := (imgType d 1).act.fmtMin
def fmtMax (d : Dev) : Nat := (imgType d 1).act.fmtMax

/-- The 32-byte header of a pairs frame of a type, with a sequence (Table 15.2). -/
def pairHeader (d : Dev) (type seq : Nat) : List Byte :=
  let p := d.pair
  let flags : Nat := ownSlot d + (if p.mirrorSync then 2 else 0) + (if p.dupSlot then 4 else 0)
  leBytes type 1 ++ leBytes (roleCode p.role) 1 ++ leBytes flags 1
    ++ leBytes (if p.peerLive then p.fmt else fmtMax d) 1 ++ leBytes p.hbTx.toNat 2 ++ leBytes 0 2
    ++ leBytes seq 4 ++ leBytes (devVersion d).toNat 4 ++ leBytes Config.serial.toNat 8
    ++ leBytes (devTime d) 8

/-- BRG_SMAC. -/
def brgSmac (d : Dev) : Nat := (rd d 0xC00018).toNat + 2 ^ 32 * fld (rd d 0xC0001C) 15 0

/-- The Ethernet header and the pairs header of a pairs frame: to 03-00-00-00-00-09 from BRG_SMAC, EtherType 0x88B6. -/
def pairsHead (d : Dev) (type seq : Nat) : List Byte :=
  [0x03, 0, 0, 0, 0, 0x09] ++ beBytes (brgSmac d) 6 ++ [0x88, 0xB6] ++ pairHeader d type seq

/-- A pairs frame that is its header alone, padded to the 60 bytes of the shortest Ethernet frame (PRESUMED, assumption
116). -/
def pairsFrame (d : Dev) (type seq : Nat) : List Byte :=
  let f := pairsHead d type seq
  f ++ List.replicate (60 - f.length) 0

/-! ## Entries of the Chart -/

/-- The copy in use (R112). -/
def inCopy (e : ChtEntry) : ChtCopy := if e.gen then e.c1 else e.c0

def exactAt (d : Dev) (i : Nat) : ChtEntry := tget {} d.cht.exact i
def ternAt (d : Dev) (i : Nat) : ChtEntry := tget {} d.cht.tern i

/-- A miss entry: PUNT only until written (R116). -/
def missReset : ChtEntry := { c0 := { valid := true, a0 := 0x00400000 } }
def missAt (d : Dev) (k : Nat) : ChtEntry := tget missReset d.cht.miss k

/-! ## Mirroring (R420, Table 15.3) -/

/-- A Chart entry as the shadow words that a command writes it from. -/
def entryWords (c : ChtCopy) : List (Nat × Word) :=
  [c.k0, c.k1, c.k2, c.k3, c.m0, c.m1, c.m2, c.m3, c.a0, c.a1, c.a2, c.a3].mapIdx fun i w => (0x400100 + 4 * i, w)

/-- The record of a Chart command of operation `op` on entry `i`, numbered as CHT_RESULT_IDX. -/
def chartRecord (d : Dev) (op i : Nat) : Mirror :=
  let k := i % 32768
  if i / 65536 % 2 = 1 then .chart (entryWords { inCopy (missAt d k) with k3 := at_ k 28 }) op k
  else .chart (entryWords (inCopy (if i / 32768 % 2 = 1 then ternAt d k else exactAt d k))) op k

/-- The record of a table write at `a`: a policer's three words, else its own. -/
def tableRecord (d : Dev) (a : Nat) : Mirror :=
  if 0x430000 ≤ a ∧ a < 0x431000 then
    let b := a / 16 * 16
    .chart [(b, rd d b), (b + 4, rd d (b + 4)), (b + 8, rd d (b + 8))] 0 0
  else .chart [(a, rd d a)] 0 0

def slipRecord (d : Dev) (n : Nat) : Mirror :=
  let s := slipOf d n
  .slip n (if s.state = .free then none
    else some { cls := s.cls, classMax := s.classMax, rxq := s.rxq, min := s.min, max := s.max })

def bindRecord (d : Dev) (k : Nat) : Mirror :=
  let x := resOf d k
  .bind k x.owner x.release x.state

def outputRecord (d : Dev) (k : Nat) : Mirror :=
  .output k (if k < 40 then (loadOf d k).recorded else (fieldOf d (k - 40)).recorded)

/-- The whole Chart: its valid entries, extraction items, delivery sets and policers. -/
def chartRecords (d : Dev) : List Mirror :=
  ((d.cht.exact.filter fun e => (inCopy e.2).valid).map fun e => chartRecord d 1 e.1)
    ++ ((d.cht.tern.filter fun e => (inCopy e.2).valid).map fun e => chartRecord d 4 (32768 + e.1))
    ++ (d.cht.miss.map fun e => chartRecord d 6 (65536 + e.1))
    ++ ((d.regs.filter fun e => decide (0x410000 ≤ e.1 ∧ e.1 < 0x430000) ||
        decide (0x430000 ≤ e.1 ∧ e.1 < 0x431000 ∧ e.1 % 16 = 8)).map fun e => tableRecord d e.1)

/-- Stands for every entry of a row. -/
def wholeRow : Nat := 2 ^ 32

/-- The content of a record of a row of Table 15.3 and one entry of it, or the whole row. -/
def mirrorContent (d : Dev) (what arg : Nat) : List Mirror :=
  let all := decide (arg = wholeRow)
  match what with
  | 0 =>
    if all then chartRecords d
    else [if arg < 2 ^ 24 then tableRecord d arg else chartRecord d (arg / 2 ^ 24) (arg % 2 ^ 24)]
  | 1 => [.learn d.svc.templates]
  | 2 =>
    if all then
      (d.slips.tab.filter fun e => e.1 != 0 && decide (e.2.state ≠ .free)).map (fun e => slipRecord d e.1)
        ++ (List.range 88).map (bindRecord d)
    else [if arg < 4096 then slipRecord d arg else bindRecord d (arg - 4096)]
  | 3 => [.bank (if d.bwk.active then d.bwk.bank1 else d.bwk.bank0)]
  | 4 =>
    if all then (d.bwk.sig.map fun e => .signals e.1 e.2) ++ d.bwk.word.map fun e => .analog e.1 e.2
    else [if arg < 16 then .signals arg (tget 0 d.bwk.sig arg) else .analog (arg - 16) (tget 0 d.bwk.word (arg - 16))]
  | 5 => if all then (List.range 72).map (outputRecord d) else [outputRecord d arg]
  | 7 =>
    if all then d.nws.parts.map fun e => .partner (e.1 / 64) (e.1 % 64) e.2
    else [.partner (arg / 64) (arg % 64) (partOf d (arg / 64) (arg % 64))]
  | 8 => if all then d.svc.store.map .config else [.config (d.svc.store.getD arg [])]
  | 9 => [.marker]
  | _ => [.thetaBack d.pair.theta arg]

/-- A Primary with a live peer mirrors a change: the row of Table 15.3 (0 Chart, 1 templates, 2 slips, 3
rule bank, 4 signals and words, 5 outputs, 6 θ, 7 partners, 8 configuration), which entry, and the content. PN_THR for the
PN it takes is judged at the next clock or frame of the port (DEDUCED, assumption 82). -/
def mirrorSend (d : Dev) (what arg : Nat) (content : List Mirror) : Dev :=
  if d.pair.role = .primary ∧ d.pair.peerLive then
    let q := d.pair.mirrorSeq + 1
    sendAside (inc { d with pair := { d.pair with mirrorSeq := q } } 0x1500068) 10
      (.mirrored q what arg (pairsHead d 2 q.toNat) content)
  else d

/-- A change of an entry that the device holds is mirrored. -/
def mirrorNote (d : Dev) (what arg : Nat) : Dev := mirrorSend d what arg (mirrorContent d what arg)

/-! ## Signals of the Breakwater (R101, R311) -/

/-- Write a signal bit, whole, renewing its group's age. -/
def setSignal (d : Dev) (i : Nat) (v : Bool) : Dev :=
  let g := i / 32
  let w := tget 0 d.bwk.sig g
  let w' := (w &&& ~~~(flag true (i % 32))) ||| flag v (i % 32)
  mirrorNote { d with bwk := { d.bwk with
      sig := tset 0 d.bwk.sig g w'
      sigAt := tset none d.bwk.sigAt g (some d.wall) } } 4 g

/-- Write a signal group, whole. -/
def setGroup (d : Dev) (g : Nat) (v : Word) : Dev :=
  mirrorNote { d with bwk := { d.bwk with
      sig := tset 0 d.bwk.sig g v
      sigAt := tset none d.bwk.sigAt g (some d.wall) } } 4 g

/-- Write an analog word, whole, renewing its age. -/
def setAnalog (d : Dev) (i : Nat) (v : BitVec 16) : Dev :=
  mirrorNote { d with bwk := { d.bwk with
      word := tset 0 d.bwk.word i v
      wordAt := tset none d.bwk.wordAt i (some d.wall) } } 4 (16 + i)

/-! ## Authority of a pair (R415, R422) -/

/-- DEV_STATUS.PAIR_ROLE (R415). -/
def pairRole (d : Dev) : Nat :=
  match d.pair.role with
  | .single => 0
  | .seeking => 0
  | .primary => 1
  | .standby => 2
  | .isolated => 3

/-- Whether the device is single or Primary (Table 11.4, STATUS 4). -/
def hasAuthority (d : Dev) : Bool := decide (pairRole d < 2)

/-! ## Answers to requesters (R161, R163) -/

/-- Answer an access with an error: a Completion with Completer Abort for a PCIe function's non-posted request, a bus error
for a hart or the Quaymaster. -/
def answerError (d : Dev) (who : Requester) : Dev := emit d (.busError who)

/-- An access ends with an error that a hart takes as a precise access fault: code 5 of a load, 7 of a store or AMO
(R336). -/
def answerFault (d : Dev) (who : Requester) (code : Nat) : Dev :=
  answerError (match who with | .hart h => emit d (.hartIrq h.val code) | _ => d) who

/-- The PCIe function a requester is, if it is one. -/
def functionOf : Requester → Option Nat
  | .pf => some 0
  | .vf n => some n.val
  | _ => none

/-- What a command has sent out since state `d`, newest first. -/
def newOuts (d d1 : Dev) : List Out := d1.out.take (d1.out.length - d.out.length)

/-- Whether an error was answered to `who` since state `d`, and the state without that answer. -/
def takeError (d d1 : Dev) (who : Requester) : Bool × Dev :=
  let new := newOuts d d1
  if new.contains (.busError who) then (true, { d1 with out := new.filter (· != .busError who) ++ d.out }) else (false, d1)

/-- A failed strict write of a PCIe function, which is posted on the link: Completer Abort in the function's Uncorrectable
Error Status, the request's header in its header log, and an error message if one is enabled (R161). -/
def aerReport (d : Dev) (fn addr width : Nat) : Dev :=
  let d1 : Dev := { d with brg := { d.brg with aer := tset {} d.brg.aer fn ⟨true, addr, width⟩ } }
  if d.slips.ctl.errMsg then emit d1 (.errorMessage fn) else d1

/-- The outcome of a strict write at `addr`: a hart or the Quaymaster receives OK or an error, a PCIe function's failure is
reported by its error state (R161). -/
def strictOutcome (d : Dev) (who : Requester) (addr width : Nat) (failed : Bool) : Dev :=
  match functionOf who with
  | some fn => if failed then aerReport d fn addr width else d
  | none => if failed then answerFault d who 7 else emit d (.busOk who 0)

/-- A command that is a requester's strict write of the register at `addr`: its outcome is reported as R161 gives. -/
def strictRow (d d1 : Dev) (who : Requester) (addr : Nat) : Dev :=
  let x := takeError d d1 who
  strictOutcome x.2 who addr 4 x.1

/-! ## The outcome of a meaning -/

/-- What a meaning answers. -/
abbrev Answer := Host.Outcome State Fault Refusal

/-- A command whose effect is `f` on the device, memory unchanged. -/
def onDev (f : Dev → Dev) (s : State) : Host.Outcome State Fault Refusal :=
  .next { s with dev := f s.dev }

end Sys2Proof.Machine
end

