-- ==== Sys2Proof/Machine/Crypto.lean ====
section
/-! DEFINITION. The algorithms of Table 13.3 (R365), as the standards it names give them: AES-256 and its GCM, key-wrap and
CMAC modes, SHA-256, SHA-384 and SHA3-256, HMAC and HKDF, ECDSA and ECDH on P-256 and P-384. The spec names the standards;
what they say is taken from them (PRESUMED, assumption 14). -/

namespace Sys2Proof.Machine

/-! ## Bytes -/

def xorBytes (a b : List Byte) : List Byte := List.zipWith (· ^^^ ·) a b
/-- The first `n` bytes, zeros after the end of a shorter list. -/
def fitBytes (n : Nat) (l : List Byte) : List Byte := l.take n ++ List.replicate (n - l.length) 0
/-- A list in pieces of `n`, at most `fuel` of them. -/
def pieces (n : Nat) : Nat → List Byte → List (List Byte)
  | 0, _ => []
  | fuel + 1, l => if l = [] then [] else l.take n :: pieces n fuel (l.drop n)
def piecesOf (n : Nat) (l : List Byte) : List (List Byte) := pieces n l.length l

/-! ## SHA-256 and SHA-384 (FIPS 180-4) -/

/-- Three rotations, or two and a shift, joined by exclusive or. -/
def rot3 {w : Nat} (r : Nat × Nat × Nat) (x : BitVec w) : BitVec w :=
  x.rotateRight r.1 ^^^ x.rotateRight r.2.1 ^^^ x.rotateRight r.2.2
def rotShift {w : Nat} (r : Nat × Nat × Nat) (x : BitVec w) : BitVec w :=
  x.rotateRight r.1 ^^^ x.rotateRight r.2.1 ^^^ (x >>> r.2.2)

/-- What SHA-2 of a word size fixes: word bytes, Σ0, Σ1, σ0, σ1, and the round constants. -/
structure Sha2 (w : Nat) where
  bytes : Nat
  s0 : Nat × Nat × Nat
  s1 : Nat × Nat × Nat
  t0 : Nat × Nat × Nat
  t1 : Nat × Nat × Nat
  k : List (BitVec w)

/-- One round on the eight working variables and the 16 latest words of the schedule. -/
def sha2Round {w : Nat} (c : Sha2 w) (s : List (BitVec w) × List (BitVec w)) (k : BitVec w) :
    List (BitVec w) × List (BitVec w) :=
  match s with
  | ([a, b, d, e, f, g, h, i], m) =>
    let u := i + rot3 c.s1 f + ((f &&& g) ^^^ (~~~f &&& h)) + k + m.getD 0 0
    let v := rot3 c.s0 a + ((a &&& b) ^^^ (a &&& d) ^^^ (b &&& d))
    ([u + v, a, b, d, e + u, f, g, h],
      m.drop 1 ++ [m.getD 0 0 + rotShift c.t0 (m.getD 1 0) + m.getD 9 0 + rotShift c.t1 (m.getD 14 0)])
  | s => s

def sha2Block {w : Nat} (c : Sha2 w) (h : List (BitVec w)) (b : List Byte) : List (BitVec w) :=
  let m := (piecesOf c.bytes b).map fun x => BitVec.ofNat w (beNat x)
  List.zipWith (· + ·) h (c.k.foldl (sha2Round c) (h, m)).1

/-- The padded message: a 1 bit, zeros, and the length in bits in two words. -/
def sha2Pad (bytes : Nat) (m : List Byte) : List Byte :=
  m ++ [0x80] ++ List.replicate ((32 * bytes - 1 - 2 * bytes - m.length % (16 * bytes)) % (16 * bytes)) 0
    ++ beBytes (8 * m.length) (2 * bytes)

def sha2 {w : Nat} (c : Sha2 w) (h : List (BitVec w)) (m : List Byte) : List Byte :=
  ((piecesOf (16 * c.bytes) (sha2Pad c.bytes m)).foldl (sha2Block c) h).flatMap fun x => beBytes x.toNat c.bytes

def sha256K : List (BitVec 32) :=
  [0x428A2F98, 0x71374491, 0xB5C0FBCF, 0xE9B5DBA5, 0x3956C25B, 0x59F111F1, 0x923F82A4, 0xAB1C5ED5] ++
  [0xD807AA98, 0x12835B01, 0x243185BE, 0x550C7DC3, 0x72BE5D74, 0x80DEB1FE, 0x9BDC06A7, 0xC19BF174] ++
  [0xE49B69C1, 0xEFBE4786, 0x0FC19DC6, 0x240CA1CC, 0x2DE92C6F, 0x4A7484AA, 0x5CB0A9DC, 0x76F988DA] ++
  [0x983E5152, 0xA831C66D, 0xB00327C8, 0xBF597FC7, 0xC6E00BF3, 0xD5A79147, 0x06CA6351, 0x14292967] ++
  [0x27B70A85, 0x2E1B2138, 0x4D2C6DFC, 0x53380D13, 0x650A7354, 0x766A0ABB, 0x81C2C92E, 0x92722C85] ++
  [0xA2BFE8A1, 0xA81A664B, 0xC24B8B70, 0xC76C51A3, 0xD192E819, 0xD6990624, 0xF40E3585, 0x106AA070] ++
  [0x19A4C116, 0x1E376C08, 0x2748774C, 0x34B0BCB5, 0x391C0CB3, 0x4ED8AA4A, 0x5B9CCA4F, 0x682E6FF3] ++
  [0x748F82EE, 0x78A5636F, 0x84C87814, 0x8CC70208, 0x90BEFFFA, 0xA4506CEB, 0xBEF9A3F7, 0xC67178F2]
def sha256 (m : List Byte) : List Byte :=
  sha2 ⟨4, (2, 13, 22), (6, 11, 25), (7, 18, 3), (17, 19, 10), sha256K⟩
    [0x6A09E667, 0xBB67AE85, 0x3C6EF372, 0xA54FF53A, 0x510E527F, 0x9B05688C, 0x1F83D9AB, 0x5BE0CD19] m

def sha512K : List (BitVec 64) :=
  [0x428A2F98D728AE22, 0x7137449123EF65CD, 0xB5C0FBCFEC4D3B2F, 0xE9B5DBA58189DBBC] ++
  [0x3956C25BF348B538, 0x59F111F1B605D019, 0x923F82A4AF194F9B, 0xAB1C5ED5DA6D8118] ++
  [0xD807AA98A3030242, 0x12835B0145706FBE, 0x243185BE4EE4B28C, 0x550C7DC3D5FFB4E2] ++
  [0x72BE5D74F27B896F, 0x80DEB1FE3B1696B1, 0x9BDC06A725C71235, 0xC19BF174CF692694] ++
  [0xE49B69C19EF14AD2, 0xEFBE4786384F25E3, 0x0FC19DC68B8CD5B5, 0x240CA1CC77AC9C65] ++
  [0x2DE92C6F592B0275, 0x4A7484AA6EA6E483, 0x5CB0A9DCBD41FBD4, 0x76F988DA831153B5] ++
  [0x983E5152EE66DFAB, 0xA831C66D2DB43210, 0xB00327C898FB213F, 0xBF597FC7BEEF0EE4] ++
  [0xC6E00BF33DA88FC2, 0xD5A79147930AA725, 0x06CA6351E003826F, 0x142929670A0E6E70] ++
  [0x27B70A8546D22FFC, 0x2E1B21385C26C926, 0x4D2C6DFC5AC42AED, 0x53380D139D95B3DF] ++
  [0x650A73548BAF63DE, 0x766A0ABB3C77B2A8, 0x81C2C92E47EDAEE6, 0x92722C851482353B] ++
  [0xA2BFE8A14CF10364, 0xA81A664BBC423001, 0xC24B8B70D0F89791, 0xC76C51A30654BE30] ++
  [0xD192E819D6EF5218, 0xD69906245565A910, 0xF40E35855771202A, 0x106AA07032BBD1B8] ++
  [0x19A4C116B8D2D0C8, 0x1E376C085141AB53, 0x2748774CDF8EEB99, 0x34B0BCB5E19B48A8] ++
  [0x391C0CB3C5C95A63, 0x4ED8AA4AE3418ACB, 0x5B9CCA4F7763E373, 0x682E6FF3D6B2B8A3] ++
  [0x748F82EE5DEFB2FC, 0x78A5636F43172F60, 0x84C87814A1F0AB72, 0x8CC702081A6439EC] ++
  [0x90BEFFFA23631E28, 0xA4506CEBDE82BDE9, 0xBEF9A3F7B2C67915, 0xC67178F2E372532B] ++
  [0xCA273ECEEA26619C, 0xD186B8C721C0C207, 0xEADA7DD6CDE0EB1E, 0xF57D4F7FEE6ED178] ++
  [0x06F067AA72176FBA, 0x0A637DC5A2C898A6, 0x113F9804BEF90DAE, 0x1B710B35131C471B] ++
  [0x28DB77F523047D84, 0x32CAAB7B40C72493, 0x3C9EBE0A15C9BEBC, 0x431D67C49C100D4C] ++
  [0x4CC5D4BECB3E42B6, 0x597F299CFC657E2A, 0x5FCB6FAB3AD6FAEC, 0x6C44198C4A475817]
def sha384 (m : List Byte) : List Byte :=
  (sha2 ⟨8, (28, 34, 39), (14, 18, 41), (1, 8, 7), (19, 61, 6), sha512K⟩
    [0xCBBB9D5DC1059ED8, 0x629A292A367CD507, 0x9159015A3070DD17, 0x152FECD8F70E5939,
     0x67332667FFC00B31, 0x8EB44A8768581511, 0xDB0C2E0D64F98FA7, 0x47B5481DBEFA4FA4] m).take 48

/-! ## SHA3-256 (FIPS 202): 25 lanes, lane x + 5y at that place -/

def keccakRot : List Nat :=
  [0, 1, 62, 28, 27, 36, 44, 6, 55, 20, 3, 10, 43, 25, 39, 41, 45, 15, 21, 8, 18, 2, 61, 56, 14]
def keccakRC : List (BitVec 64) :=
  [0x0000000000000001, 0x0000000000008082, 0x800000000000808A, 0x8000000080008000, 0x000000000000808B, 0x0000000080000001] ++
  [0x8000000080008081, 0x8000000000008009, 0x000000000000008A, 0x0000000000000088, 0x0000000080008009, 0x000000008000000A] ++
  [0x000000008000808B, 0x800000000000008B, 0x8000000000008089, 0x8000000000008003, 0x8000000000008002, 0x8000000000000080] ++
  [0x000000000000800A, 0x800000008000000A, 0x8000000080008081, 0x8000000000008080, 0x0000000080000001, 0x8000000080008008]
def keccakRound (a : List (BitVec 64)) (rc : BitVec 64) : List (BitVec 64) :=
  let at_ (l : List (BitVec 64)) (i : Nat) : BitVec 64 := l.getD i 0
  let col := (List.range 5).map fun x => at_ a x ^^^ at_ a (x + 5) ^^^ at_ a (x + 10) ^^^ at_ a (x + 15) ^^^ at_ a (x + 20)
  let th := (List.range 25).map fun i => at_ a i ^^^ at_ col ((i + 4) % 5) ^^^ (at_ col ((i + 1) % 5)).rotateLeft 1
  let rp := (List.range 25).map fun i =>
    let j := (i % 5 + 3 * (i / 5)) % 5 + 5 * (i % 5)
    (at_ th j).rotateLeft (keccakRot.getD j 0)
  (List.range 25).map fun i =>
    let row := 5 * (i / 5)
    at_ rp i ^^^ (~~~(at_ rp (row + (i + 1) % 5)) &&& at_ rp (row + (i + 2) % 5)) ^^^ (if i = 0 then rc else 0)
/-- One block of 136 bytes taken in. -/
def keccakBlock (s : List (BitVec 64)) (b : List Byte) : List (BitVec 64) :=
  let m := (piecesOf 8 b).map fun x => BitVec.ofNat 64 (leNat x)
  keccakRC.foldl keccakRound ((List.range 25).map fun i => s.getD i 0 ^^^ m.getD i 0)
def sha3Pad (m : List Byte) : List Byte :=
  let n := 136 - m.length % 136
  m ++ if n = 1 then [0x86] else [0x06] ++ List.replicate (n - 2) 0 ++ [0x80]
def sha3 (m : List Byte) : List Byte :=
  (((piecesOf 136 (sha3Pad m)).foldl keccakBlock (List.replicate 25 0)).take 4).flatMap fun x => leBytes x.toNat 8

/-! ## Hashes by code, HMAC and HKDF (RFC 2104, RFC 5869) -/

/-- Hash codes: 0 SHA-256, 1 SHA-384, 2 SHA3-256; their lengths and block sizes in bytes. -/
def hashLen (h : Nat) : Nat := if h = 1 then 48 else 32
def hashBlock (h : Nat) : Nat := match h with | 0 => 64 | 1 => 128 | _ => 136
@[irreducible] def digest (h : Nat) (m : List Byte) : List Byte := match h with | 0 => sha256 m | 1 => sha384 m | _ => sha3 m

@[irreducible] def hmac (h : Nat) (key m : List Byte) : List Byte :=
  let k := fitBytes (hashBlock h) (if hashBlock h < key.length then digest h key else key)
  digest h (k.map (· ^^^ 0x5C) ++ digest h (k.map (· ^^^ 0x36) ++ m))

/-- The first `n` blocks T(1) … T(n), the last of them first. -/
def hkdfBlocks (h : Nat) (prk info : List Byte) : Nat → List (List Byte)
  | 0 => []
  | n + 1 =>
    let l := hkdfBlocks h prk info n
    hmac h prk (l.headD [] ++ info ++ [BitVec.ofNat 8 (n + 1)]) :: l
/-- HKDF of hash `h`: input key, salt (empty: zeros of the hash's length), info, and the bytes asked for. -/
@[irreducible] def hkdf (h : Nat) (ikm salt info : List Byte) (len : Nat) : List Byte :=
  let prk := hmac h (if salt = [] then List.replicate (hashLen h) 0 else salt) ikm
  ((hkdfBlocks h prk info ((len + hashLen h - 1) / hashLen h)).reverse.flatten).take len

/-! ## AES-256 (FIPS 197): the state in the order of the block's bytes -/

/-- Byte `x` of a table of 256 bytes, 32 to a number, the first lowest. -/
def tableByte (t : List Nat) (x : Byte) : Byte := BitVec.ofNat 8 (t.getD (x.toNat / 32) 0 >>> (8 * (x.toNat % 32)))
def sbox (x : Byte) : Byte := tableByte
    [0xC072A49CAFA2D4ADF04759FA7DC982CA76ABD7FE2B670130C56F6BF27B777C63,
     0x75B227EBE28012079A059618C323C7041531D871F1E5A534CCF73F362693FDB7,
     0xCF584C4A39BECB6A5BB1FC20ED00D153842FE329B3D63B52A05A6E1B1A2C8309,
     0xD2F3FF1021DAB6BCF5389D928F40A351A89F3C507F02F94585334D43FBAAEFD0,
     0xDB0B5EDE14B8EE4688902A22DC4F816073195D643D7EA7C41744975FEC130CCD,
     0x08AE7A65EAF4566CA94ED58D6D37C8E779E4959162ACD3C25C2406490A3A32E0,
     0x9E1DC186B95735610EF6034866B53E708A8BBD4B1F74DDE8C6B4A61C2E2578BA,
     0x16BB54B00F2D99416842E6BF0D89A18CDF2855CEE9871E9B948ED9691198F8E1] x
def sboxInv (x : Byte) : Byte := tableByte
    [0xCBE9DEC444438E3487FF2F9B8239E37CFBD7F3819EA340BF38A53630D56A0952,
     0x25D18B6D49A25B76B224D92866A12E084EC3FA420B954CEE3D23C2A632947B54,
     0x849D8DA75746155EDAB9EDFD5048706C92B6655DCC5CA4D41698688664F6F872,
     0x6B8A130103BDAFC1020F3FCA8F1E2CD00645B3B80558E4F70AD3BC8C00ABD890,
     0x6EDF751CE837F9E28535ADE72274AC9673E6B4F0CECFF297EADC674F4111913A,
     0xF45ACD78FEC0DB9A2079D2C64B3E56FC1BBE18AA0E62B76F89C5291D711AF147,
     0xEF9CC9939F7AE52D0D4AB519A97F51605FEC8027591012B131C7078833A8DD1F,
     0x7D0C2155631469E126D677BA7E042B17619953833CBBEBC8B0F52AAE4D3BE0A0] x

/-- Multiplication by 2 and by a small number in the field of AES. -/
def xtime (b : Byte) : Byte := (b <<< 1) ^^^ (if b.getLsbD 7 then 0x1B else 0)
def aesMul (n : Nat) (b : Byte) : Byte :=
  let b2 := xtime b
  let b4 := xtime b2
  let p (i : Nat) (x : Byte) : Byte := if n.testBit i then x else 0
  p 0 b ^^^ p 1 b2 ^^^ p 2 b4 ^^^ p 3 (xtime b4)

/-- The first `n + 8` words of the key schedule, the last first. -/
def aesWords (key : List Byte) : Nat → List (List Byte)
  | 0 => (piecesOf 4 (fitBytes 32 key)).reverse
  | n + 1 =>
    let l := aesWords key n
    let prev := l.headD []
    let t := if n % 8 = 0 then xorBytes ((prev.drop 1 ++ prev.take 1).map sbox) [(1 : Byte) <<< (n / 8), 0, 0, 0]
      else if n % 8 = 4 then prev.map sbox else prev
    xorBytes t (l.getD 7 []) :: l
/-- The 15 round keys. -/
def aesKeys (key : List Byte) : List (List Byte) := piecesOf 16 (aesWords key 52).reverse.flatten

/-- A column-wise product with the circulant matrix of a first row. -/
def aesMix (row : List Nat) (s : List Byte) : List Byte :=
  (List.range 16).map fun i =>
    (List.range 4).foldl (fun a j => a ^^^ aesMul (row.getD ((j + 4 - i % 4) % 4) 0) (s.getD (4 * (i / 4) + j) 0)) 0
/-- Row r turned left by r columns, or right where `k` is 3. -/
def aesShift (k : Nat) (s : List Byte) : List Byte :=
  (List.range 16).map fun i => s.getD (4 * ((i / 4 + k * (i % 4)) % 4) + i % 4) 0

def aesEncrypt (keys : List (List Byte)) (b : List Byte) : List Byte :=
  let s := (keys.drop 1).dropLast.foldl
    (fun s k => xorBytes (aesMix [2, 3, 1, 1] (aesShift 1 (s.map sbox))) k) (xorBytes b (keys.headD []))
  xorBytes (aesShift 1 (s.map sbox)) (keys.getLastD [])
def aesDecrypt (keys : List (List Byte)) (b : List Byte) : List Byte :=
  let s := (keys.drop 1).dropLast.reverse.foldl
    (fun s k => aesMix [14, 11, 13, 9] (xorBytes ((aesShift 3 s).map sboxInv) k)) (xorBytes b (keys.getLastD []))
  xorBytes ((aesShift 3 s).map sboxInv) (keys.headD [])

/-! ## AES-GCM (SP 800-38D), with a 96-bit IV and a 128-bit tag -/

def ghashMul (x y : BitVec 128) : BitVec 128 :=
  ((List.range 128).foldl (fun (s : BitVec 128 × BitVec 128) i =>
    (if x.getLsbD (127 - i) then s.1 ^^^ s.2 else s.1,
      (s.2 >>> 1) ^^^ (if s.2.getLsbD 0 then (0xE1 : BitVec 128) <<< 120 else 0))) (0, y)).1
def ghash (h : BitVec 128) (l : List Byte) : BitVec 128 :=
  (piecesOf 16 l).foldl (fun y b => ghashMul (y ^^^ BitVec.ofNat 128 (beNat (fitBytes 16 b))) h) 0
def pad16 (l : List Byte) : List Byte := l ++ List.replicate ((16 - l.length % 16) % 16) 0
/-- Counter mode from counter 2. -/
def gcmCtr (keys : List (List Byte)) (iv p : List Byte) : List Byte :=
  ((piecesOf 16 p).zipIdx).flatMap fun b => xorBytes b.1 (aesEncrypt keys (fitBytes 12 iv ++ beBytes (b.2 + 2) 4))
/-- The tag over additional data and ciphertext. -/
def gcmTag (keys : List (List Byte)) (iv aad c : List Byte) : List Byte :=
  let h := BitVec.ofNat 128 (beNat (aesEncrypt keys (List.replicate 16 0)))
  let y := ghash h (pad16 aad ++ pad16 c ++ beBytes (8 * aad.length) 8 ++ beBytes (8 * c.length) 8)
  xorBytes (beBytes y.toNat 16) (aesEncrypt keys (fitBytes 12 iv ++ [0, 0, 0, 1]))
/-- Encryption, the tag appended: key, IV, additional data, plaintext. -/
@[irreducible] def gcmSeal (key iv aad p : List Byte) : List Byte :=
  let c := gcmCtr (aesKeys key) iv p
  c ++ gcmTag (aesKeys key) iv aad c
/-- Decryption, none when the tag fails: key, IV, additional data, ciphertext, tag. -/
@[irreducible] def gcmOpen (key iv aad c tag : List Byte) : Option (List Byte) :=
  if gcmTag (aesKeys key) iv aad c = tag then some (gcmCtr (aesKeys key) iv c) else none
/-- The tag of a message that is additional data alone (R180). -/
@[irreducible] def gmac (key iv aad : List Byte) : List Byte := gcmTag (aesKeys key) iv aad []

/-! ## AES key wrap with padding (RFC 5649) -/

/-- One step of wrapping: the register A and the block R at place `i` of `n`, in round `j`. -/
def wrapStep (keys : List (List Byte)) (s : List Byte × List (List Byte)) (n j i : Nat) : List Byte × List (List Byte) :=
  let b := aesEncrypt keys (s.1 ++ s.2.getD i [])
  (xorBytes (b.take 8) (beBytes (n * j + i + 1) 8), s.2.set i (b.drop 8))
def unwrapStep (keys : List (List Byte)) (s : List Byte × List (List Byte)) (n j i : Nat) : List Byte × List (List Byte) :=
  let b := aesDecrypt keys (xorBytes s.1 (beBytes (n * j + i + 1) 8) ++ s.2.getD i [])
  (b.take 8, s.2.set i (b.drop 8))
/-- The alternative initial value for a key of `n` bytes. -/
def wrapIv (n : Nat) : List Byte := [0xA6, 0x59, 0x59, 0xA6] ++ beBytes n 4

/-- A key under a key-encryption key. -/
@[irreducible] def keyWrap (kek k : List Byte) : List Byte :=
  let r := piecesOf 8 (k ++ List.replicate ((8 - k.length % 8) % 8) 0)
  let keys := aesKeys kek
  if r.length ≤ 1 then aesEncrypt keys (wrapIv k.length ++ fitBytes 8 r.flatten)
  else
    let s := (List.range 6).foldl (fun s j => (List.range r.length).foldl (fun s i => wrapStep keys s r.length j i) s)
      (wrapIv k.length, r)
    s.1 ++ s.2.flatten
/-- The key of a wrapped one, none when the check fails. -/
@[irreducible] def keyUnwrap (kek c : List Byte) : Option (List Byte) :=
  let keys := aesKeys kek
  let n := c.length / 8 - 1
  if c.length % 8 ≠ 0 ∨ c.length < 16 then none
  else
    let x := if n = 1 then aesDecrypt keys c
      else
        let s := (List.range 6).reverse.foldl
          (fun s j => (List.range n).reverse.foldl (fun s i => unwrapStep keys s n j i) s) (c.take 8, piecesOf 8 (c.drop 8))
        s.1 ++ s.2.flatten
    let len := beNat ((x.drop 4).take 4)
    if x.take 8 = wrapIv len ∧ 8 * (n - 1) < len ∧ len ≤ 8 * n ∧ (x.drop (8 + len)).all (· == 0) then
      some ((x.drop 8).take len)
    else none

/-! ## AES-CMAC (SP 800-38B) and the key derivation of MKA -/

/-- Doubling in the field of CMAC. -/
def cmacDouble (l : List Byte) : List Byte :=
  let v := BitVec.ofNat 128 (beNat l)
  beBytes ((v <<< 1) ^^^ (if v.getLsbD 127 then 0x87 else 0)).toNat 16
@[irreducible] def cmac (key m : List Byte) : List Byte :=
  let keys := aesKeys key
  let k1 := cmacDouble (aesEncrypt keys (List.replicate 16 0))
  let b := piecesOf 16 m
  let last := b.getLastD []
  let e := if last.length = 16 then xorBytes last k1 else xorBytes (fitBytes 16 (last ++ [0x80])) (cmacDouble k1)
  aesEncrypt keys (xorBytes (b.dropLast.foldl (fun x p => aesEncrypt keys (xorBytes x p)) (List.replicate 16 0)) e)
/-- IEEE 802.1X key derivation with CMAC, for a 256-bit output: key, label, context. -/
@[irreducible] def mkaKdf (key label context : List Byte) : List Byte :=
  [(1 : Byte), 2].flatMap fun i => cmac key ([i] ++ label ++ [0] ++ context ++ [1, 0])

/-! ## P-256 and P-384 (FIPS 186-4): curve 0 and curve 1, of coefficient a = −3 -/

/-- Bytes of a coordinate. -/
def curveBytes (c : Nat) : Nat := if c = 1 then 48 else 32
/-- Prime, coefficient b, order and base point. -/
def curvePrime (c : Nat) : Nat :=
  if c = 1 then 2 ^ 384 - 2 ^ 128 - 2 ^ 96 + 2 ^ 32 - 1 else 2 ^ 256 - 2 ^ 224 + 2 ^ 192 + 2 ^ 96 - 1
def curveB (c : Nat) : Nat :=
  if c = 1 then
    0xB3312FA7E23EE7E4988E056BE3F82D19181D9C6EFE8141120314088F5013875AC656398D8A2ED19D2A85C8EDD3EC2AEF
  else 0x5AC635D8AA3A93E7B3EBBD55769886BC651D06B0CC53B0F63BCE3C3E27D2604B
def curveOrder (c : Nat) : Nat :=
  if c = 1 then
    0xFFFFFFFFFFFFFFFFFFFFFFFFFFFFFFFFFFFFFFFFFFFFFFFFC7634D81F4372DDF581A0DB248B0A77AECEC196ACCC52973
  else 0xFFFFFFFF00000000FFFFFFFFFFFFFFFFBCE6FAADA7179E84F3B9CAC2FC632551
def curveBase (c : Nat) : Nat × Nat :=
  if c = 1 then
    (0xAA87CA22BE8B05378EB1C71EF320AD746E1D3B628BA79B9859F741E082542A385502F25DBF55296C3A545E3872760AB7,
     0x3617DE4A96262C6F5D9E98BF9292DC29F8F41DBD289A147CE9DA3113B5F0B8C00A60B1CE1D7E819D7A431D7C90EA0E5F)
  else (0x6B17D1F2E12C4247F8BCE6E563A440F277037D812DEB33A0F4A13945D898C296,
    0x4FE342E2FE1A7F9B8EE7EB4A7C0F9E162BCE33576B315ECECBB6406837BF51F5)

/-- `b ^ e` modulo `p`, for `e` of at most `fuel` bits. -/
def powMod (p : Nat) : Nat → Nat → Nat → Nat
  | 0, _, _ => 1
  | fuel + 1, b, e =>
    let r := powMod p fuel (b * b % p) (e / 2)
    if e % 2 = 1 then r * b % p else r
/-- The inverse modulo a prime, and a difference. -/
def invMod (p a : Nat) : Nat := powMod p 384 (a % p) (p - 2)
def subMod (p a b : Nat) : Nat := (a + (p - b % p)) % p

/-- The y of the curve's point with this x whose parity is `odd`: a square root of x³ − 3x + b, the prime being 3
modulo 4. -/
def curveY (c x : Nat) (odd : Bool) : Nat :=
  let p := curvePrime c
  let r := powMod p 384 ((x * x * x + 3 * (p - x % p) + curveB c) % p) ((p + 1) / 4)
  if decide (r % 2 = 1) = odd then r else p - r
def onCurve (c x y : Nat) : Bool :=
  let p := curvePrime c
  decide (x < p) && decide (y < p) && decide (y * y % p = (x * x * x + 3 * (p - x % p) + curveB c) % p)

/-- Doubling and addition in Jacobian coordinates; z = 0 is the point at infinity. -/
def eccDouble (p : Nat) (a : Nat × Nat × Nat) : Nat × Nat × Nat :=
  let (x, y, z) := a
  let d := z * z % p
  let g := y * y % p
  let b := x * g % p
  let m := 3 * (subMod p x d) * (x + d) % p
  let x3 := subMod p (m * m) (8 * b)
  (x3, subMod p (m * subMod p (4 * b) x3) (8 * g * g), 2 * y * z % p)
def eccAdd (p : Nat) (a b : Nat × Nat × Nat) : Nat × Nat × Nat :=
  if a.2.2 = 0 then b
  else if b.2.2 = 0 then a
  else
    let (x1, y1, z1) := a
    let (x2, y2, z2) := b
    let u1 := x1 * (z2 * z2 % p) % p
    let u2 := x2 * (z1 * z1 % p) % p
    let s1 := y1 * (z2 * z2 % p * z2 % p) % p
    let s2 := y2 * (z1 * z1 % p * z1 % p) % p
    if u1 = u2 then (if s1 = s2 then eccDouble p a else (1, 1, 0))
    else
      let h := subMod p u2 u1
      let r := subMod p s2 s1
      let h2 := h * h % p
      let h3 := h2 * h % p
      let x3 := subMod p (r * r) (h3 + 2 * u1 * h2)
      (x3, subMod p (r * subMod p (u1 * h2) x3) (s1 * h3), h * z1 % p * z2 % p)
/-- `k` times a point, for `k` of at most `fuel` bits. -/
def eccMul (p : Nat) (a : Nat × Nat × Nat) : Nat → Nat → Nat × Nat × Nat
  | 0, _ => (1, 1, 0)
  | fuel + 1, k =>
    let q := eccDouble p (eccMul p a fuel (k / 2))
    if k % 2 = 1 then eccAdd p q a else q
/-- The point's x and y, none at infinity. -/
def eccAffine (p : Nat) (a : Nat × Nat × Nat) : Option (Nat × Nat) :=
  if a.2.2 = 0 then none
  else
    let i := invMod p a.2.2
    some (a.1 * (i * i % p) % p, a.2.1 * (i * i % p * i % p) % p)
def eccTimes (c k : Nat) (g : Nat × Nat) : Option (Nat × Nat) :=
  eccAffine (curvePrime c) (eccMul (curvePrime c) (g.1, g.2, 1) 384 (k % curveOrder c))

/-- A private key from random bytes: 1 to n − 1 (FIPS 186-4, B.4). -/
def eccPrivate (c : Nat) (b : List Byte) : List Byte := beBytes (beNat b % (curveOrder c - 1) + 1) (curveBytes c)
/-- The public key x ‖ y of a private key; zeros for one that is a multiple of the order, which has none. -/
@[irreducible] def eccPublic (c : Nat) (key : List Byte) : List Byte :=
  let q := (eccTimes c (beNat key) (curveBase c)).getD (0, 0)
  beBytes q.1 (curveBytes c) ++ beBytes q.2 (curveBytes c)

/-- The number that ECDSA takes from a digest: its leftmost bits, as many as the order has. -/
def eccDigest (c : Nat) (h : List Byte) : Nat := beNat (h.take (curveBytes c))
/-- r and s for nonce `k`, none if one of them is 0. -/
def eccSignWith (c : Nat) (key digest : List Byte) (k : Nat) : Option (Nat × Nat) :=
  let n := curveOrder c
  let r := ((eccTimes c k (curveBase c)).getD (0, 0)).1 % n
  let s := invMod n k * ((eccDigest c digest + r * beNat key) % n) % n
  if r = 0 ∨ s = 0 then none else some (r, s)
/-- ECDSA signature r ‖ s: curve, private key, digest, and the nonce's draw; of the nonces that follow it the first that
gives one, of four (the others come once in 2²⁵⁶). -/
@[irreducible] def ecdsaSign (c : Nat) (key digest : List Byte) (draw : Nat) : List Byte :=
  let q := ((List.range 4).findSome? fun i =>
    eccSignWith c key digest ((draw + i) % (curveOrder c - 1) + 1)).getD (0, 0)
  beBytes q.1 (curveBytes c) ++ beBytes q.2 (curveBytes c)
/-- ECDSA verification: curve, public key x ‖ y, digest, signature r ‖ s. -/
@[irreducible] def ecdsaVerify (c : Nat) (pub digest sig : List Byte) : Bool :=
  let n := curveOrder c
  let p := curvePrime c
  let x := beNat (pub.take (curveBytes c))
  let y := beNat (pub.drop (curveBytes c))
  let r := beNat (sig.take (curveBytes c))
  let s := beNat (sig.drop (curveBytes c))
  let w := invMod n s
  let a := eccMul p ((curveBase c).1, (curveBase c).2, 1) 384 (eccDigest c digest * w % n)
  let b := eccMul p (x, y, 1) 384 (r * w % n)
  onCurve c x y && decide (0 < r) && decide (r < n) && decide (0 < s) && decide (s < n) &&
    match eccAffine p (eccAdd p a b) with
    | some q => decide (q.1 % n = r)
    | none => false
/-- ECDH: the shared x of a private key and a peer's point x ‖ y, none for a point off the curve or at infinity. -/
@[irreducible] def ecdh (c : Nat) (key point : List Byte) : Option (List Byte) :=
  let x := beNat (point.take (curveBytes c))
  let y := beNat (point.drop (curveBytes c))
  if onCurve c x y then (eccTimes c (beNat key) (x, y)).map fun q => beBytes q.1 (curveBytes c) else none

end Sys2Proof.Machine
end

