-- ==== Sys2Proof/Machine/Mem.lean ====
section
/-! DEFINITION. The region-controlled memories of Table 12.10 as one sparse memory of bytes: byte `off` of
memory `m` has key m·2^36 + off. A byte that nothing has written reads 0 (DESIGN CHOICE, assumption 1). -/

namespace Sys2Proof.Machine

/-- What an unlisted byte reads as. -/
def memDefault : Byte := 0

/-- The key of a byte. -/
def memKey (m off : Nat) : Nat := m * 2 ^ 36 + off

/-- One byte of memory. -/
def memByte (l : List Host.Cell) (k : Nat) : Byte := tget memDefault l k

/-- Write one byte, keeping the canonical form. -/
def memSet (l : List Host.Cell) (k : Nat) (v : Byte) : List Host.Cell := tset memDefault l k v

/-- Read `n` bytes from key `k` upwards. -/
def memRead (l : List Host.Cell) (k : Nat) : Nat → List Byte
  | 0 => []
  | n + 1 => memByte l k :: memRead l (k + 1) n

/-- Write bytes from key `k` upwards. -/
def memWrite (l : List Host.Cell) (k : Nat) : List Byte → List Host.Cell
  | [] => l
  | b :: t => memWrite (memSet l k b) (k + 1) t

/-- Zero every byte of memory `m`. -/
def memZero (l : List Host.Cell) (m : Nat) : List Host.Cell := tclear l (memKey m 0) (memKey (m + 1) 0)

/-- Keys rise strictly, and no entry holds what an unlisted byte reads as. -/
def Memory.wf : List Host.Cell → Bool
  | [] => true
  | [e] => decide (e.2 ≠ memDefault)
  | e :: f :: t => decide (e.2 ≠ memDefault) && decide (e.1 < f.1) && Memory.wf (f :: t)

/-- Granule of memory `m` in bytes (Table 12.10). -/
def granule (m : Nat) : Nat := if m = 1 ∨ m = 3 then 256 else 4096

/-- Size of memory `m` in bytes (Table 12.10; Table 12.2 for flash). -/
def memSize (m : Nat) : Nat := [2 ^ 34, 104448 * 256, 2 ^ 21, 2 ^ 16, 2 ^ 33].getD m 0

/-- The memory and offset a cluster physical address names (Table 12.2), if it names one. -/
def clusterMem (a : Nat) : Option (Nat × Nat) :=
  if 0x08000000 ≤ a ∧ a < 0x08200000 then some (2, a - 0x08000000)
  else if 0x09000000 ≤ a ∧ a < 0x09010000 then some (3, a - 0x09000000)
  else if 0x200000000 ≤ a ∧ a < 0x400000000 then some (4, a - 0x200000000)
  else if 0x400000000 ≤ a ∧ a < 0x800000000 then some (0, a - 0x400000000)
  else none

end Sys2Proof.Machine
end

