-- ==== Sys2Proof/Machine/Net.lean ====
section
/-! DEFINITION. Network sleep (07): local need, keep-alives, the network states of Table 7.2, the wakes of R214, and
the Hail calls, which are local need. -/

namespace Sys2Proof.Machine

def netCfg (d : Dev) (n : Nat) : Word := rd d (netBase n)
def aNetCnt (n k : Nat) : Nat := netBase n + 0x80 + 8 * k
def netInc (d : Dev) (n k : Nat) : Dev := inc d (aNetCnt n k)

/-- The network machine runs: EN, effective while CAN_CTRL.ENABLE is 1 (Table 7.9). -/
def netRuns (d : Dev) (n : Nat) : Bool := bit (netCfg d n) 31 && bit (rd d (canBase n)) 31

/-- NWS_NEED.TX: a frame for the channel is queued at port 13 or loaded, with TX_WAKE (R208). -/
def txNeed (d : Dev) (n : Nat) : Bool :=
  bit (netCfg d n) 30 && d.basin.queues.any fun e => e.dest == Dest.can n

/-- NWS_NEED [2:0]: HAIL, TX, HOST (R208). -/
def needBits (d : Dev) (n : Nat) : Nat :=
  (if (netOf d n).callOpen then 4 else 0) + (if txNeed d n then 2 else 0)
    + fld (rd d (netBase n + 0x10)) 0 0

/-- Local need holds (R208). -/
def needHolds (d : Dev) (n : Nat) : Bool := decide (needBits d n ≠ 0)

/-- T_IDLE, T_FALSE and T_DRAIN in ms (Table 7.8). -/
def tIdle (d : Dev) (n : Nat) : Nat := max 10 (fld (rd d (netBase n + 4)) 31 16)
def tFalse (d : Dev) (n : Nat) : Nat := max 10 (fld (rd d (netBase n + 8)) 15 0)
def tDrain (d : Dev) (n : Nat) : Nat := atLeast1 (fld (rd d (netBase n + 4)) 15 8)

/-- Start the idle timer: T_IDLE while CONFIRMED, T_FALSE otherwise (R209). -/
def idleStart (d : Dev) (n : Nat) : Dev :=
  let x := netOf d n
  setNet d n { x with until_ := d.wall + 1000000 * (if x.confirmed then tIdle d n else tFalse d n) }

/-- A state is entered; a change sets NWS_EVENT.STATE (R209). -/
def netEnter (d : Dev) (n : Nat) (st : NetState) : Dev :=
  let x := netOf d n
  let d1 := setNet d n { x with state := st }
  if x.state = st then d1 else evNws d1 n 0

/-- The machine starts AWAKE and CONFIRMED with its timers (Table 7.2). -/
def netStart (d : Dev) (n : Nat) : Dev :=
  let d1 := netEnter d n .awake
  idleStart (setNet d1 n { netOf d1 n with confirmed := true }) n

/-- The machine stops: AWAKE, the transceiver commanded to normal mode (Table 7.2). A frozen controller stays frozen
until it is online again (R212). -/
def netStop (d : Dev) (n : Nat) : Dev :=
  let d1 := netEnter d n .awake
  setNet d1 n { netOf d1 n with latched := none, waking := false, kaPending := false, until_ := 0 }

/-- A keep-alive falls due: it waits in its own buffer, replaces one not yet sent, or is only counted in
the states that send none (R208). -/
def kaDue (d : Dev) (n : Nat) : Dev :=
  match (canOf d n).state with
  | .config | .busOff | .recovering | .offline => netInc d n 7
  | _ =>
    let x := netOf d n
    let d1 := if x.kaPending then netInc d n 7 else d
    setNet d1 n { netOf d1 n with kaPending := true }

/-- BASE of NWS_KA, of which EXT = 0 uses five bits (Table 7.8). -/
def kaBase (d : Dev) (n : Nat) : Nat :=
  let w := rd d (netBase n + 0xC)
  if bit w 31 then fld w 28 6 else fld w 10 6

/-- The device's own keep-alive (R206). -/
def ownKeepAlive (d : Dev) (n : Nat) : CanMsg :=
  let node := fld (netCfg d n) 5 0
  { id := BitVec.ofNat 29 (64 * kaBase d n + node)
    fmt := if bit (rd d (netBase n + 0xC)) 31 then 1 else 0
    data := leBytes (2 ^ node) 8 }

/-- The node number of a keep-alive in the range of R206. -/
def kaNode (d : Dev) (n : Nat) (m : CanMsg) : Option Nat :=
  let ext := bit (rd d (netBase n + 0xC)) 31
  if m.fmt.val = (if ext then 1 else 0) ∧ ¬ m.rtr ∧ m.id.toNat / 64 = kaBase d n then
    some (m.id.toNat % 64)
  else none

/-- NWS_HELD as a number. -/
def heldMap (d : Dev) (n : Nat) : Nat := rd64 d (netBase n + 0x28)

/-- NWS_SEEN: nodes whose counted keep-alive arrived in the last T_IDLE (Table 7.8). -/
def seenMap (d : Dev) (n : Nat) : Nat :=
  (netOf d n).seen.foldl (fun a e => if d.wall < e.2 + 1000000 * tIdle d n then a + 2 ^ e.1 else a) 0

/-- A keep-alive is counted: the network is confirmed AWAKE and the idle timer restarts (Table 7.2). -/
def kaCounted (d : Dev) (n : Nat) (received : Bool) : Dev :=
  let go := match (netOf d n).state with
    | .awake => true
    | .draining => received
    | .asleep => false
  if netRuns d n && go then
    let d1 := netEnter d n .awake
    idleStart (setNet d1 n { netOf d1 n with confirmed := true }) n
  else d

/-- A received keep-alive is judged by R207 and, if counted, marks its node seen. -/
def kaReceive (d : Dev) (n : Nat) (m : CanMsg) : Dev :=
  let x := netOf d n
  if !netRuns d n || x.frozen then d
  else
    match kaNode d n m with
    | none => d
    | some k =>
      if (leNat m.data).testBit k && !(heldMap d n).testBit k then
        kaCounted (setNet d n { x with seen := tput x.seen k d.wall }) n true
      else d

/-- The device's own keep-alive has been sent: KA_SENT, and it is counted (R207, R208). -/
def kaSent (d : Dev) (n : Nat) : Dev :=
  let d1 := netInc d n 6
  kaCounted (setNet d1 n { netOf d1 n with kaPending := false }) n false

/-- A wake in ASLEEP: latched while the transceiver switches into sleep, else served at once by the
wake command (R213, R214). -/
def netWake (d : Dev) (n : Nat) (c : WakeCause) (node : Nat) : Dev :=
  let x := netOf d n
  if x.state ≠ .asleep ∨ x.waking ∨ x.latched.isSome then d
  else
    let x1 := { x with
      causeCode := c
      causeLatched := x.switching
      causeNeed := if c = WakeCause.localNeed then needBits d n else 0
      causeNode := node
      wakeTs := devTime d }
    setNet d n (if x.switching then { x1 with latched := some c } else { x1 with waking := true })

/-- Local need arises (Table 7.2, R208). In CONFIG, where the machine is stopped, the keep-alive that is due is counted
in KA_SKIPPED (R208). -/
def needArises (d : Dev) (n : Nat) : Dev :=
  if !netRuns d n then
    if bit (netCfg d n) 31 && decide ((canOf d n).state = .config) then kaDue d n else d
  else
    match (netOf d n).state with
    | .awake => kaDue d n
    | .draining =>
      let d1 := netEnter d n .awake
      kaDue (idleStart (setNet d1 n { netOf d1 n with confirmed := true }) n) n
    | .asleep => netWake d n .localNeed 0

/-- What a change of state `d` into `d1` does to local need: where none held and some holds now, it arises (R208). -/
def needAfter (d d1 : Dev) (n : Nat) : Dev :=
  if !needHolds d n && needHolds d1 n then needArises d1 n else d1

/-- The idle timer expires (Table 7.2). -/
def idleExpire (d : Dev) (n : Nat) : Dev :=
  let x := netOf d n
  if !netRuns d n || decide (x.state ≠ .awake) || decide (d.wall < x.until_) then d
  else if needHolds d n then idleStart d n
  else
    let d1 := if x.confirmed then d else netInc d n 3
    let d2 := netEnter d1 n .draining
    setNet d2 n { netOf d2 n with until_ := d.wall + 1000000 * tDrain d n }

/-- T_DRAIN expires: at bus idle the transceiver is commanded into sleep and the counters freeze
(Table 7.2, R212). -/
def drainExpire (d : Dev) (n : Nat) (busIdle : Bool) : Dev :=
  if !netRuns d n || decide ((netOf d n).state ≠ .draining) || decide (d.wall < (netOf d n).until_) || !busIdle
      || (canOf d n).onBus.isSome then d
  else
    let d1 := netEnter (netInc d n 4) n .asleep
    setNet d1 n { netOf d1 n with frozen := true, switching := true, until_ := 0, fec := 0 }

/-- The T_max timer expires: every node seen but the own one is held (R211). -/
def tMaxExpire (d : Dev) (n : Nat) : Dev :=
  let x := netOf d n
  if !netRuns d n || decide (x.state = .asleep) || needHolds d n
      || decide (fld (rd d (netBase n + 8)) 31 16 = 0) then d
  else
    let own := fld (netCfg d n) 5 0
    let add := seenMap d n - (if (seenMap d n).testBit own then 2 ^ own else 0)
    evNws (netInc (wr64 d (netBase n + 0x28) (heldMap d n ||| add)) n 5) n 1

/-- The transceiver's switch into sleep ends; a latched wake is served (R214). -/
def sleepDone (d : Dev) (n : Nat) : Dev :=
  let x := netOf d n
  if !x.switching then d
  else
    let x1 := { x with switching := false, latched := none }
    setNet d n (if x.latched.isSome then { x1 with waking := true } else x1)

/-! ## Hail calls (R218, R219) -/

/-- ACTIVE or PASSIVE. -/
def canOnline (c : Can) : Bool := decide (c.state = .active ∨ c.state = .passive)

/-- The channel can put a frame of its own on the bus: ACTIVE or PASSIVE, in normal mode, online and running. -/
def canSend (d : Dev) (n : Nat) : Bool :=
  let c := canOf d n
  canOnline c && decide (fld c.ctrl 27 26 = 0 ∨ fld c.ctrl 27 26 = 3) && !(netOf d n).frozen && coreUp d 4

/-- The module may call and assign on a channel (R219). -/
def hailCaller (d : Dev) (n : Nat) : Bool := bit (netCfg d n) 29 && decide (pairRole d < 2)

def ownUid : Nat := Config.serial.toNat % 2 ^ 56

def hailWindow (d : Dev) (n : Nat) : Nat := atLeast1 (fld (rd d (netBase n + 0x60)) 23 16)

/-- A Hail frame (Table 7.5): TYPE, the UID it names, and data bytes 0–3. -/
def hailMsg (d : Dev) (n type uid b0 b1 b2 b3 : Nat) : CanMsg :=
  { id := BitVec.ofNat 29
      (fld (rd d (netBase n + 0x60)) 7 5 * 2 ^ 26 + type * 2 ^ 24 + uid % 2 ^ 24)
    fmt := 1
    data := [BitVec.ofNat 8 b0, BitVec.ofNat 8 b1, BitVec.ofNat 8 b2, BitVec.ofNat 8 b3]
      ++ beBytes (uid / 2 ^ 24) 4 }

/-- NWS_HAIL_RESULT. -/
def hailEnd (d : Dev) (n st : Nat) : Dev := resultEnd d (netBase n + 0x68) (at_ st 28)

/-- Whether a received Hail frame asks something of the caller: an ANNOUNCE, a LEAVE, or a CALL of neither this module
nor its peer, whole as Table 7.5 lays them out. -/
def hailAsks (d : Dev) (m : CanMsg) : Bool :=
  let uid := m.id.toNat % 2 ^ 24 + 2 ^ 24 * beNat (m.data.drop 4)
  decide (m.fmt = 1) && !m.rtr && decide (m.data.length = 8) &&
    match m.id.toNat / 2 ^ 24 % 4 with
    | 0 => decide (uid ≠ ownUid ∧ uid ≠ d.pair.bound % 2 ^ 56)
    | 1 => true
    | 3 => true
    | _ => false

/-- The Quaymaster takes one frame out of the Hail buffer (R218). -/
def hailTaken (d : Dev) (n : Nat) : Dev :=
  setNet d n { netOf d n with hailHeld := (netOf d n).hailHeld - 1 }

/-- A CALL is sent and its window opens (R219). -/
def openCall (d : Dev) (n : Nat) : Dev :=
  let x := netOf d n
  let d1 := (List.range 64).foldl (fun d m =>
    let e := partOf d n m
    if e.answered then setPart d n m { e with answered := false } else d) d
  let d2 := setNet d1 n { x with session := x.session + 1, callOpen := true, callDue := false }
  emit d2 (.hail n (hailMsg d2 n 0 ownUid (x.session + 1).toNat (hailWindow d n) 0 (if x.callAll then 1 else 0)))

/-- A waiting call that the module may no longer make is given up; its command ends WRONG_STATE (R219, Table 7.8). -/
def dropCall (d : Dev) (n : Nat) : Dev :=
  let x := netOf d n
  let d1 := setNet d n { x with callDue := false, callOpen := false, callCmd := false }
  if x.callCmd then hailEnd d1 n 1 else d1

/-- A waiting call is sent once the network is AWAKE and its channel can send; the call is local need (R208, R219). -/
def callGo (d : Dev) (n : Nat) : Dev :=
  let x := netOf d n
  if !x.callDue then d
  else if !hailCaller d n then dropCall d n
  else if (netRuns d n && decide (x.state = .asleep)) || !canSend d n then d
  else needAfter d (openCall d n) n

end Sys2Proof.Machine
end

