-- ==== Sys2Proof/Machine/Regions.lean ====
section
/-! DEFINITION. The region controllers (R348–R351): which access a memory's regions allow, the violation log, and the
refusal of an access. -/

namespace Sys2Proof.Machine

def regionOf (d : Dev) (m r : Nat) : Region := tget {} d.wld.regions (64 * m + r)

def setRegion (d : Dev) (m r : Nat) (x : Region) : Dev :=
  { d with wld := { d.wld with regions := tset {} d.wld.regions (64 * m + r) x } }

/-- Whether a region contains the byte at `off` of memory `m`. -/
def Region.contains (x : Region) (m off : Nat) : Bool :=
  decide (x.base ≤ off / granule m) && decide (off / granule m ≤ x.last)

/-- The enabled region with the lowest index that contains an access's first byte (R350). -/
def regionAt (d : Dev) (m off : Nat) : Option Nat :=
  (List.range 64).find? fun r => let x := regionOf d m r; x.enable && x.contains m off

/-- World of a requester class (Table 12.11): true for S. -/
def worldClass (cls : Nat) : Bool := cls == 3 || cls == 6

/-- Whether an access is allowed (R350). -/
def regionAllows (d : Dev) (cls m off len : Nat) (write : Bool) : Bool :=
  match regionAt d m off with
  | none => false
  | some r =>
    let x := regionOf d m r
    x.contains m (off + len - 1) && (if write then x.wr else x.rd).getLsbD cls && (!x.owner || worldClass cls)

/-- The Lock is notified over its private path (R345). -/
def lockNotice (d : Dev) (what arg : Nat) : Dev := emit d (.lockIrq what arg)

/-- An entry of the violation log (Table 12.17), counted, with WLD_EVENT.VIOL (R351, R352, R356). -/
def violation (d : Dev) (kind mem cls off region source : Nat) : Dev :=
  let total := d.wld.total
  let a := 0x1300100 + 32 * (total % 16)
  let ts := devTime d
  let d1 : Dev := { d with wld := { d.wld with total := total + 1 } }
  let w (d : Dev) (i : Nat) (v : Word) : Dev := wr d (a + 4 * i) v
  let d2 := w (w (w (w (w d1 1 (w32 off)) 2 (w32 (off >>> 32))) 3 (at_ region 24 ||| at_ source 0))
    4 (w32 ts)) 5 (w32 (ts >>> 32))
  let d3 := w d2 0 (flag true 31 ||| at_ kind 28 ||| at_ mem 24 ||| at_ cls 20 ||| at_ (total % 65536) 0)
  let d4 := wr d3 0x1300020 (at_ ((total + 1) % 65536) 16 ||| at_ ((total + 1) % 16) 0)
  evWld (inc d4 0x1300400) 3 0

/-- An access that the regions refuse (R351). -/
def accessRefused (d : Dev) (cls source m off : Nat) (write : Bool) : Dev :=
  let r := regionAt d m off
  let d1 := violation d (if write then 1 else 0) m cls off (r.getD 0xFF) (if cls ≤ 1 then source else 0)
  let d2 := if cls ≤ 1 then evClt d1 5 else d1
  match r with
  | some r => if (regionOf d m r).owner then lockNotice d2 1 r else d2
  | none => d2

end Sys2Proof.Machine
end

