-- ==== Sys2Proof/Machine/Basin.lean ====
section
/-! DEFINITION. The Basin and its queues (02): cells and stored lengths, admission, egress queueing,
freeing, cell retirement, limits, PFC and the counters they move. -/

namespace Sys2Proof.Machine

/-! ## Addresses (Table 2.9) -/

def aDrop (p c : Nat) : Nat := 0x21C000 + 8 * (8 * p + c)
def aEdrop (p c : Nat) : Nat := 0x21C400 + 8 * (8 * p + c)
def aGdrop (c : Nat) : Nat := 0x21C800 + 8 * c
def aLbLost : Nat := 0x21C840
def aCeCount : Nat := 0x21C848
def aPdrop : Nat := 0x21C850

/-! ## Frames and cells (R20) -/

/-- Stored bytes of a frame (R20). -/
def bodyLen : FrameBody → Nat
  | .eth b => b.length + 4
  | .can m _ _ => 16 + m.data.length
  | .fieldEdge _ _ r => r.length
  | .snapshot _ r => r.length
  | .fieldFault _ r => r.length
  | .samples _ r => r.length

def storedLen (f : Frame) : Nat := bodyLen f.body

/-- Cells of a frame: its stored bytes and the 32-byte header in whole cells (R20). -/
def cellsOf (f : Frame) : Nat := ceilDiv (storedLen f + 32) 256

/-- KIND of Table 2.7. -/
def kindCode : FrameBody → Nat
  | .eth _ => 0
  | .can m _ _ => if m.fmt.val < 2 then 1 else if m.fmt.val < 4 then 2 else 3
  | .fieldEdge _ _ _ => 4
  | .snapshot _ _ => 5
  | .samples _ _ => 6
  | .fieldFault _ _ => 7

def isEth (f : Frame) : Bool := match f.body with | .eth _ => true | _ => false
def isCan (f : Frame) : Bool := match f.body with | .can _ _ _ => true | _ => false

/-- Two bytes of an Ethernet frame, big-endian. -/
def eth16 (b : List Byte) (o : Nat) : Nat := beNat ((b.drop o).take 2)

/-- Whether an Ethernet frame carries a customer tag, TPID 0x8100 (R59). -/
def hasTag (b : List Byte) : Bool := eth16 b 12 == 0x8100

/-- The EtherType after the customer tag, if any. -/
def etherType (b : List Byte) : Nat := if hasTag b then eth16 b 16 else eth16 b 12

/-! ## Occupancy (R53, R63) -/

def sumCells (l : List Frame) : Nat := l.foldl (fun n f => n + cellsOf f) 0

def iocc (d : Dev) (p c : Nat) : Nat :=
  sumCells (d.basin.frames.filter fun f => f.inPort == p && f.cls == c)
def gocc (d : Dev) (c : Nat) : Nat := sumCells (d.basin.frames.filter fun f => f.cls == c)
def inUse (d : Dev) : Nat := sumCells d.basin.frames
def eocc (d : Dev) (p c : Nat) : Nat :=
  (d.basin.queues.foldl (fun n e => if e.port = p ∧ e.cls = c then n + e.cells else n) 0)
    + (d.basin.copies.foldl (fun n e => if e.port = p ∧ e.cls = c then n + e.cells else n) 0)

def limIL (d : Dev) (p c : Nat) : Nat := (rd d (0x201800 + 4 * (8 * p + c))).toNat
def limEL (d : Dev) (p c : Nat) : Nat := (rd d (0x201A00 + 4 * (8 * p + c))).toNat
def limGR (d : Dev) (c : Nat) : Nat := (rd d (0x201C00 + 4 * c)).toNat

def frameOf (d : Dev) (uid : Nat) : Option Frame := d.basin.frames.find? (·.uid == uid)

def setBasin (d : Dev) (b : Basin) : Dev := { d with basin := b }

/-! ## Cells and banks (R42)

Cell `c` lies in bank `c % 32`; the cells in service at shipment are those below 98,304, and spares come in by rising
number (DESIGN CHOICE, assumption 20). -/

/-- The frame that holds cell `c`. -/
def cellHolder (d : Dev) (c : Nat) : Option Frame := d.basin.frames.find? (·.cells.contains c)

/-- Cell `c` may be given to a frame: in service, not retired, free, and not among `taken`. -/
def cellFree (d : Dev) (taken : List Nat) (c : Nat) : Bool :=
  decide (c < 104448 - d.basin.spares) && !d.basin.retiredCells.contains c && !taken.contains c
    && (cellHolder d c).isNone

/-- The lowest free cell of bank `b` from row `r` upwards; the third argument bounds the rows looked at. -/
def bankCell (d : Dev) (taken : List Nat) (b r : Nat) : Nat → Option Nat
  | 0 => none
  | n + 1 => if cellFree d taken (32 * r + b) then some (32 * r + b) else bankCell d taken b (r + 1) n

/-- Byte `o` of a cell, when it is one of the stored bytes `b` of the frame that holds the cell: a cell holds 256 bytes of
the frame's 32-byte header and stored bytes (R20). -/
def storedIdx (f : Frame) (c o : Nat) : Option Nat :=
  match f.cells.findIdx? (· == c) with
  | some i => if 32 ≤ 256 * i + o then some (256 * i + o - 32) else none
  | none => none

/-- The next cell from bank `b` on: of the next bank that has one, should bank `b` be full. -/
def nextCell (d : Dev) (taken : List Nat) (b : Nat) : Option Nat :=
  (List.range 32).findSome? fun k => bankCell d taken ((b + k) % 32) 0 3264

/-- `n` cells for a frame from successive banks, and the bank after the last (R42). `taken` holds those already given,
last first. -/
def takeCells (d : Dev) : Nat → Nat → List Nat → List Nat × Nat
  | 0, b, taken => (taken.reverse, b)
  | n + 1, b, taken =>
    match nextCell d taken b with
    | some c => takeCells d n ((c + 1) % 32) (c :: taken)
    | none => (taken.reverse, b)

/-! ## Retirement of cells (R44, R45) -/

/-- Retire one cell: a spare comes in while any is left, then POOL_CELLS falls; the events of R44 and
the OVERCOMMIT of R45 follow. -/
def retireCell (d : Dev) (cell : Nat) : Dev :=
  let b := d.basin
  if b.retiredCells.contains cell then d else
  let b1 := { b with retiredCells := b.retiredCells ++ [cell], retired := b.retired + 1 }
  let d1 := if 0 < b.spares then setBasin d { b1 with spares := b.spares - 1 }
            else setBasin d { b1 with poolCells := b.poolCells - 1 }
  let d2 := if 0 < b.spares then reserveBring (evSw d1 0 0) 0 else evDev (evSw d1 0 0) 3
  let d3 := if 0 < b.spares ∧ d2.basin.spares ≤ 614 then evSw d2 1 0 else d2
  let reserves := ((List.range 8).map (limGR d3)).foldl (· + ·) 0
  if b.spares = 0 ∧ d3.basin.poolCells - 1036 < reserves ∧ ¬ d3.basin.overcommit then
    evSw (setBasin d3 { d3.basin with overcommit := true }) 2 0
  else d3

/-- A cell has shown its last error: it is retired when the frame it holds is freed, at once when it holds
none (R44). -/
def retireWhenFree (d : Dev) (cell : Nat) : Dev :=
  match cellHolder d cell with
  | some f => setBasin d { d.basin with retirePending := d.basin.retirePending ++ [(f.uid, cell)] }
  | none => retireCell d cell

/-- Account the outcome of reading cells (R43, R44, R48): corrected errors count against the cell and
in SW_CE_COUNT, CE_THR of them or one uncorrectable error retires it. -/
def cellRead (d : Dev) : CellRead → Dev
  | .clean => d
  | .corrected c =>
      let n := tget 0 d.basin.ceCount c + 1
      let d1 := inc (setBasin d { d.basin with ceCount := tset 0 d.basin.ceCount c n }) aCeCount
      if atLeast1 (fld (rd d 0x200010) 3 0) ≤ n then retireWhenFree d1 c else d1
  | .uncorrectable c => retireWhenFree (evSw d 9 0) c

/-- The first of some cells that the regions refuse to the fabric engines, class 4 (R349, R350). -/
def cellRefused (d : Dev) (l : List Nat) (write : Bool) : Option Nat :=
  l.find? fun c => !regionAllows d 4 1 (256 * c) 64 write

/-- A frame that cannot be read because a region refuses its cells, or refused them when it was stored. -/
def readRefused (d : Dev) (f : Frame) : Bool := f.torn || (cellRefused d f.cells false).isSome

/-- What reading a frame's cells finds: an error of a cell the frame does not lie in is no error of this
frame (R42, R44). -/
def readOf (f : Frame) (r : CellRead) : CellRead :=
  match r with
  | .corrected c | .uncorrectable c => if f.cells.contains c then r else .clean
  | .clean => .clean

/-- Whether the frame's cells could be read. -/
def readGood (d : Dev) (f : Frame) (r : CellRead) : Bool :=
  !readRefused d f &&
    match readOf f r with
    | .uncorrectable _ => false
    | _ => true

/-- A frame's cells are read. A refusal is logged and sets SW_EVENT.UE as an uncorrectable error does (R48, R351); the
cell is not faulty and is not retired (DEDUCED, assumption 35). -/
def frameRead (d : Dev) (f : Frame) (r : CellRead) : Dev :=
  if readRefused d f then
    evSw (match cellRefused d f.cells false with
      | some c => accessRefused d 4 0 1 (256 * c) false
      | none => d) 9 0
  else cellRead d (readOf f r)

/-! ## Priority flow control (R76) -/

def pfcOn (d : Dev) (p c : Nat) : Bool :=
  decide (8 ≤ p ∧ p ≤ 10) && bit (rd d (aPort p 0)) 30 && bit (rd d (aPort p 0x10)) c

/-- The threshold IL − HEADROOM of a class (R76). -/
def xoffThr (d : Dev) (p c : Nat) : Nat := limIL d p c - fld (rd d (aPort p 0x14)) 15 0

/-- The condition of XOFF: IOCC at the threshold, and some cell charged (R76). -/
def xoffDue (d : Dev) (p c : Nat) : Bool := decide (xoffThr d p c ≤ iocc d p c ∧ 0 < iocc d p c)

def sendPfc (d : Dev) (p c : Nat) (xoff : Bool) : Dev := inc (emit d (.pfc p c xoff)) (aPcnt p 12)

/-- XON below the hysteresis, XOFF at the threshold; a difference below zero is zero, and with
IL ≤ HEADROOM XOFF is held while any cell is charged (R76). With HYST = 0 both conditions hold at
IOCC = IL − HEADROOM: XOFF then stands. A class whose PFC is disabled while XOFF is held keeps XOFF_SENT, and no XON is
sent for it until it is enabled again (DESIGN CHOICE, assumption 79). -/
def pfcJudge (d : Dev) (p c : Nat) : Dev :=
  if pfcOn d p c && wireUp d p then
    let x := portOf d p
    if x.xoff.getLsbD c then
      if iocc d p c ≤ xoffThr d p c - fld (rd d (aPort p 0x14)) 31 16 ∧ xoffDue d p c = false then
        sendPfc (setPort d p { x with xoff := x.xoff &&& ~~~(1#8 <<< c) }) p c false
      else d
    else if xoffDue d p c then
      sendPfc (setPort d p { x with xoff := x.xoff ||| (1#8 <<< c) }) p c true
    else d
  else d

/-- PFC of every class of a port judged. -/
def pfcJudgeAll (d : Dev) (p : Nat) : Dev := (List.range 8).foldl (fun d c => pfcJudge d p c) d

/-! ## Admission (R46, R53) -/

/-- Which tests of Table 2.4 a frame of `n` cells from port `p` with class `c` fails:
(any, reserve test, pool test). -/
def admissionFails (d : Dev) (p c n : Nat) : Bool × Bool × Bool :=
  let il := decide (limIL d p c < iocc d p c + n)
  let gr := decide (limGR d c < gocc d c + n)
  let pool := d.basin.overcommit && decide (d.basin.poolCells - 1036 < inUse d + n)
  (il || gr || pool, gr, pool)

/-- Admit a frame or count its refusal (R46, R53). The frame is given its `uid`, its cells are charged,
it takes free cells of the next banks (R42), and PFC is judged. -/
def admitFrame (d : Dev) (f : Frame) : Option Nat × Dev :=
  let n := cellsOf f
  if d.basin.marching then (none, inc d (aDrop f.inPort f.cls))
  else
    let t := admissionFails d f.inPort f.cls n
    if t.1 then
      let d1 := inc d (aDrop f.inPort f.cls)
      let d2 := if t.2.1 then inc d1 (aGdrop f.cls) else d1
      (none, if t.2.2 then inc d2 aPdrop else d2)
    else
      let uid := d.basin.nextUid
      let t := takeCells d n d.basin.bankNext []
      let no := cellRefused d t.1 true
      let b := { d.basin with
        frames := d.basin.frames ++ [{ f with uid := uid, cells := t.1, torn := no.isSome }]
        nextUid := uid + 1, bankNext := t.2 }
      let d1 := setBasin d b
      let d2 := setBasin (match no with
        | some c => accessRefused d1 4 0 1 (256 * c) true
        | none => d1) { b with peak := max b.peak (inUse d1) }
      (some uid, pfcJudge d2 f.inPort f.cls)

/-! ## Freeing (R54) -/

/-- Whether any destination, Logbook copy or punt still holds the frame. -/
def frameHeld (d : Dev) (uid : Nat) : Bool :=
  d.basin.queues.any (·.uid == uid) || d.basin.copies.any (·.uid == uid)
    || d.basin.punts.any (·.uid == uid)

/-- Free a frame's cells all at once if nothing holds it any more (R54); cells due for retirement are
retired now (R44), and PFC is judged. -/
def freeIfDone (d : Dev) (uid : Nat) : Dev :=
  match frameOf d uid with
  | none => d
  | some f =>
    if frameHeld d uid then d
    else
      let due := d.basin.retirePending.filter (·.1 == uid)
      let d1 := setBasin d { d.basin with
        frames := d.basin.frames.filter (·.uid != uid)
        retirePending := d.basin.retirePending.filter (·.1 != uid) }
      pfcJudge (due.foldl (fun d e => retireCell d e.2) d1) f.inPort f.cls

/-- Take a queue entry away and free its frame if it was the last holder. -/
def leaveQueue (d : Dev) (e : QEntry) : Dev :=
  freeIfDone (setBasin d { d.basin with queues := d.basin.queues.filter (· != e) }) e.uid

/-- Replace a queue entry. -/
def setEntry (d : Dev) (e e' : QEntry) : Dev :=
  setBasin d { d.basin with queues := d.basin.queues.map fun x => if x = e then e' else x }

/-! ## Egress queueing (R60, R63, R64, R67, R144) -/

/-- Offer a frame for queueing at one destination; the answer says whether it was queued. R67 names a link that is down; a
port whose ENABLE is 0 carries no traffic either (R49), and its frames count in TX_LINK_DISCARD alike (DESIGN CHOICE,
assumption 80). -/
def offer (d : Dev) (f : Frame) (q : Nat) (dest : Dest) (miss tern : Bool) (entry : Nat) :
    Bool × Dev :=
  let n := cellsOf f
  let e : QEntry := { uid := f.uid, port := q, cls := f.cls, cells := n, dest := dest,
                      miss := miss, ternary := tern, entry := entry }
  let fits := decide (eocc d q f.cls + n ≤ limEL d q f.cls)
  let push (e : QEntry) : Dev := setBasin d { d.basin with queues := d.basin.queues ++ [e] }
  match dest with
  | .wire =>
      if !wireUp d q then (false, inc d (aPcnt q 9))
      else
        let v := rd d (0x210000 + 4 * f.vid)
        if !bit v q then (false, inc d (aPcnt q 11))
        else if !fits then (false, inc d (aEdrop q f.cls))
        else (true, push { e with untag := bit v (16 + q) })
  | .slip n _ =>
      let held := d.basin.queues.foldl
        (fun k x => match x.dest with | .slip m _ => if m = n then k + x.cells else k | _ => k) 0
      if !fits then
        (false, setSlipEv (inc (inc d (aEdrop q f.cls)) (slipWin n + 0x20)) n 3)
      else if (slipOf d n).rxq < held + cellsOf f then
        (false, setSlipEv (inc d (slipWin n + 0x20)) n 3)
      else (true, push e)
  | .can n => if !fits then (false, inc d (aEdrop q f.cls)) else (true, needAfter d (push e) n)
  | _ => if !fits then (false, inc d (aEdrop q f.cls)) else (true, push e)

/-! ## Limits (R55–R57) -/

def sumTo (n : Nat) (f : Nat → Nat) : Nat := ((List.range n).map f).foldl (· + ·) 0

/-- COMMIT: snapshot the shadow limits, or ignore the write while a commit runs (R56). -/
def limitCommit (d : Dev) : Dev :=
  if !resultValid d 0x200020 then evSw d 11 0
  else
    let snap (base n : Nat) : List (Nat × Word) :=
      (List.range n).map fun i => (i, rd d (base + 4 * i))
    resultBegin (setBasin d { d.basin with
      limitPending := some ⟨snap 0x201000 112, snap 0x201200 112, snap 0x201400 8⟩ }) 0x200020

/-- The bit set of guaranteed classes of the active limits (R55). -/
def guaranteed (d : Dev) : Nat :=
  sumTo 8 fun c => if sumTo 14 (fun p => limIL d p c) ≤ limGR d c then 2 ^ c else 0

/-- The snapshot is applied whole, or refused when the reserves exceed POOL_CELLS − 1,036 (R56); a
commit that fits ends OVERCOMMIT (R45). -/
def limitApplied (d : Dev) : Dev :=
  match d.basin.limitPending with
  | none => d
  | some s =>
    let d0 := setBasin d { d.basin with limitPending := none }
    let sum := s.gr.foldl (fun n e => n + e.2.toNat) 0
    if d.basin.poolCells - 1036 < sum then
      resultEnd d0 0x200020 (at_ 1 28 ||| (rd d 0x200020 &&& 0x00FF0000))
    else
      let put (base : Nat) (l : List (Nat × Word)) (d : Dev) : Dev :=
        l.foldl (fun d e => wr d (base + 4 * e.1) e.2) d
      let d1 := put 0x201C00 s.gr (put 0x201A00 s.el (put 0x201800 s.il d0))
      let d2 := setBasin d1 { d1.basin with overcommit := false }
      let d3 := ([8, 9, 10].flatMap fun p => (List.range 8).map fun c => (p, c)).foldl
        (fun d pc => pfcJudge d pc.1 pc.2) d2
      resultEnd d3 0x200020 (at_ (guaranteed d3) 16)

end Sys2Proof.Machine
end

