-- ==== Sys2Proof/Machine/Rings.lean ====
section
/-! DEFINITION. Rings (04): sizes and bases, the manifest, starting and finishing descriptors, writing
completions in index order, and the vectors that follow. -/

namespace Sys2Proof.Machine

/-- The ring group of ring `r` of slip `n` (Table 4.16). -/
def ringBase (n r : Nat) : Nat := slipWin n + 0x40 + 0x20 * r

def ringCfg (d : Dev) (n r : Nat) : Word := rd d (ringBase n r + 0x10)
def sqSize (d : Dev) (n r : Nat) : Nat := 2 ^ fld (ringCfg d n r) 27 24
def cqSize (d : Dev) (n r : Nat) : Nat := 2 ^ fld (ringCfg d n r) 23 20
def sqBase (d : Dev) (n r : Nat) : Nat := rd64 d (ringBase n r) / 4096 * 4096
def cqBase (d : Dev) (n r : Nat) : Nat := rd64 d (ringBase n r + 8) / 4096 * 4096

/-- Receive mode (R131). -/
def rxMode (d : Dev) (n r : Nat) : Bool := bit (ringCfg d n r) 30

/-- The fields of a descriptor (Tables 4.7, 4.8). -/
def dw (x : Desc) (i : Nat) : Word := x.words.getD i 0
def opOf (x : Desc) : Nat := fld (dw x 0) 31 24

/-- The address in D2 and D3. -/
def bufAddr (x : Desc) : Nat := (dw x 2).toNat + 2 ^ 32 * (dw x 3).toNat
def fenceOf (x : Desc) : Bool := bit (dw x 0) 18

/-- Manifest entries slip `n` holds (R147). -/
def inFlight (d : Dev) (n : Nat) : Nat := sumTo 8 fun r => (ringOf d n r).inflight.length

/-- Σ_k max(in-flight[k], MIN[k]) over the created slips (R147). -/
def reservedEntries (d : Dev) : Nat :=
  d.slips.tab.foldl (fun a e => a + max (inFlight d e.1) e.2.min) 0

/-- Manifest entries held in all. -/
def inFlightAll (d : Dev) : Nat := d.slips.rings.foldl (fun a e => a + e.2.inflight.length) 0

/-- Σ MIN over all created slips (R147). -/
def minSum (d : Dev) : Nat := d.slips.tab.foldl (fun a e => a + e.2.min) 0

/-- Slip `n` may issue a fetch (R147). -/
def manifestFree (d : Dev) (n : Nat) : Bool :=
  let s := slipOf d n
  decide (inFlight d n < s.min) ||
    (decide (inFlight d n < s.max) && decide (reservedEntries d < 4096))

/-- Completion slots reserved or unreturned (R136). -/
def cqUsed (d : Dev) (n r : Nat) : Nat :=
  let x := ringOf d n r
  (x.cqTail + cqSize d n r - x.cqHead) % cqSize d n r + x.inflight.length

/-- Make no request to the owner's memory (R151, step 6). -/
def noMem (d : Dev) (n : Nat) : Bool :=
  match (slipOf d n).reset with
  | some x => x.noMem
  | none => decide ((slipOf d n).state = .detached ∨ (slipOf d n).state = .free)

/-- Send the ring's vector after a completion, or owe it until the hold-off ends (R150). -/
def ringIrq (d : Dev) (n r : Nat) : Dev :=
  if bit (ringCfg d n r) 19 then
    let x := ringOf d n r
    if x.held then setRing d n r { x with owed := true }
    else
      let d1 := sendVec d n (fld (ringCfg d n r) 18 16)
      if fld (rd d (ringBase n r + 0x18)) 7 0 = 0 then d1
      else setRing d1 n r { ringOf d1 n r with held := true, owed := false }
  else d

/-- Write the completion of the descriptor at the front: words 1–7, then word 0 with PHASE and SEQ
(R138, Table 4.9), and count it when a slip reset runs. -/
def writeCompl (d : Dev) (n r : Nat) (x : Desc) (c : Compl) : Dev :=
  let g := ringOf d n r
  let g1 := { g with inflight := g.inflight.filter (·.idx != x.idx) }
  let d0 := match (slipOf d n).reset with
    | some z =>
      let z1 := if c.status = 1 then { z with squashed := z.squashed + 1 }
                else { z with drained := z.drained + 1 }
      setSlip d n { slipOf d n with reset := some z1 }
    | none => d
  if noMem d n then setRing d0 n r g1
  else
    let a := cqBase d n r + 32 * g.cqTail
    let tag : Nat := if c.nodesc then 0 else fld (dw x 0) 15 0
    let w0 := flag g.phase 31 ||| flag c.nodesc 30 ||| at_ c.status 16 ||| at_ g.seq 0
    let ws := [at_ g.sqHead 16 ||| at_ tag 0, w32 c.ts, w32 (c.ts >>> 32), c.c4, c.c5, c.c6, c.c7]
    let t := (g.cqTail + 1) % cqSize d n r
    let g2 := { g1 with cqTail := t, seq := (g.seq + 1) % 65536,
                        phase := if t = 0 then !g.phase else g.phase }
    ringIrq (emit (emit (setRing d0 n r g2) (.compl1 n r a ws)) (.compl0 n r a w0)) n r

/-- Write the completions at the front of the ring that have their outcome, in index order (R137). -/
def flushList (d : Dev) (n r : Nat) : List Desc → Dev
  | [] => d
  | x :: t =>
    match x.stage with
    | .done c => flushList (writeCompl d n r x c) n r t
    | _ => d

def flushRing (d : Dev) (n r : Nat) : Dev := flushList d n r (ringOf d n r).inflight

/-- What is read for the slots of ring `r` that `p` names is no longer wanted: parts not asked for are dropped, and data
of requests outstanding is discarded when it arrives (R133, R151). -/
def dropReads (d : Dev) (n r : Nat) (p : Nat → Bool) : Dev :=
  { d with slips := { d.slips with
    waits := d.slips.waits.filter fun w => !(w.slip == n && w.ring == r && !w.fetch && p w.idx)
    outst := d.slips.outst.map fun o => if o.slip == n && o.ring == r && p o.idx then { o with live := false } else o } }

/-- The descriptor of slot `idx`, if it is in flight. -/
def descOf (d : Dev) (n r idx : Nat) : Option Desc := (ringOf d n r).inflight.find? (·.idx == idx)

/-- Replace a descriptor in flight. -/
def setDesc (d : Dev) (n r : Nat) (x : Desc) : Dev :=
  let g := ringOf d n r
  setRing d n r { g with inflight := g.inflight.map fun y => if y.idx = x.idx then x else y }

/-- Give a descriptor its outcome and write what is due. -/
def finish (d : Dev) (n r idx : Nat) (c : Compl) : Dev :=
  match descOf d n r idx with
  | none => d
  | some x => flushRing (setDesc d n r { x with stage := .done c }) n r

/-- The first descriptor of a ring that is read and has not started (R137). -/
def nextReady (d : Dev) (n r : Nat) : Option Desc :=
  (ringOf d n r).inflight.find? fun x =>
    match x.stage with
    | .fetching => true
    | .ready => true
    | _ => false

/-- The resource a control operation acts on or reads, as SLP_RES numbers it. -/
def resKey (x : Desc) : Option Nat :=
  match opOf x with
  | 0x20 => some (fld (dw x 5) 5 0)
  | 0x21 => some (fld (dw x 5) 5 0)
  | 0x22 => some (40 + fld (dw x 5) 4 0)
  | 0x23 => some (40 + fld (dw x 5) 4 0)
  | 0x24 => some (72 + fld (dw x 5) 3 0)
  | _ => none

/-- The descriptor a ring may start now: read, with every earlier one started, with FENCE every earlier
one completed, and with no earlier one waiting on the same resource; its slip must be ACTIVE
(R137, R151). -/
def startable (d : Dev) (n r : Nat) : Option Desc :=
  match nextReady d n r with
  | some x =>
    let q := (ringOf d n r).inflight
    if x.stage = .ready ∧ (slipOf d n).state = .active ∧ (fenceOf x → q.head? = some x)
        ∧ ¬ ((resKey x).isSome ∧ q.any fun y => decide (y.stage = .started ∧ resKey y = resKey x)) then
      some x
    else none
  | none => none

/-- The startable descriptor if its operation is `op` and the ring is of command mode. -/
def startOp (d : Dev) (n r op : Nat) : Option Desc :=
  match startable d n r with
  | some x => if opOf x = op then some x else none
  | none => none

/-- The operations a class may submit (Table 4.3). -/
def opAllowed (cls op : Nat) : Bool :=
  match cls with
  | 0 => [0x00, 0x01, 0x10, 0x11].contains op
  | 1 => [0x00, 0x01, 0x20, 0x21, 0x22, 0x23, 0x24].contains op
  | 2 => [0x00, 0x30, 0x31].contains op
  | _ => [0x00, 0x01, 0x10, 0x11, 0x20, 0x21, 0x22, 0x23, 0x24, 0x30, 0x31].contains op

/-- Bits of the words each operation may use beside D0 [31:24], FENCE and TAG (Table 4.8, R139): the
masks of D0–D7; CONFIRM is D0 [19], for TX_CAN only. -/
def opMask (op : Nat) : List Word :=
  match op with
  | 0x01 => [0xFF04FFFF, 0, 0xFFFFFFFF, 0xFFFFFFFF, 0xFFFF, 0, 0, 0]
  | 0x10 => [0xFF04FFFF, 0xFFFF, 0xFFFFFFFF, 0xFFFFFFFF, 0x3FFF, 0xFFFF0007, 0, 0]
  | 0x11 => [0xFF0CFFFF, 0xFFFF, 0xFFFFFFFF, 0xFFFFFFFF, 0xFFF, 0x1FFFFFFF, 0xFFFF06F7, 0xFFFFFFFF]
  | 0x20 => [0xFF04FFFF, 0, 0, 0, 0, 0x33F, 0, 0]
  | 0x21 => [0xFF04FFFF, 0, 0, 0, 0, 0x3F, 0, 0]
  | 0x22 => [0xFF04FFFF, 0, 0, 0, 0, 0x11F, 0, 0]
  | 0x23 => [0xFF04FFFF, 0, 0, 0, 0, 0x1F, 0, 0]
  | 0x24 => [0xFF04FFFF, 0, 0, 0, 0, 0xF, 0xFFFFFFFF, 0xFFFFFFFF]
  | 0x30 => [0xFF04FFFF, 0, 0xFFFFFFFF, 0xFFFFFFFF, 0x1FFF, 0xFFFFFFFF, 0xFFFFFFFF, 0x1FFF]
  | 0x31 => [0xFF04FFFF, 0, 0xFFFFFFFF, 0xFFFFFFFF, 0xFFFF, 0xFFFFFFFF, 0, 0]
  | _ => [0xFF04FFFF, 0, 0, 0, 0, 0, 0, 0]

/-- Lengths a CAN FD frame may carry (Table 4.8). -/
def fdLens : List Nat := [0, 1, 2, 3, 4, 5, 6, 7, 8, 12, 16, 20, 24, 32, 48, 64]

/-- The field ranges of Table 4.8. -/
def opRangeOk (x : Desc) : Bool :=
  let f (i hi lo : Nat) : Nat := fld (dw x i) hi lo
  match opOf x with
  | 0x01 => decide (64 ≤ f 4 15 0)
  | 0x10 =>
      let ins := bit (dw x 5) 31
      let len := f 4 13 0
      decide (14 ≤ len) && decide (len ≤ if ins then 9208 else 9212)
        && (if ins then decide (1 ≤ f 5 27 16 ∧ f 5 27 16 ≤ 4094) else decide (f 5 30 16 = 0))
  | 0x11 =>
      let fmt := f 6 6 4
      let len := f 4 11 0
      let xl := fmt == 4
      let fd := fmt == 2 || fmt == 3
      decide (fmt ≤ 4)
        && (if xl then decide (1 ≤ len ∧ len ≤ 2048) else if fd then fdLens.contains len
            else decide (len ≤ 8))
        && (if fmt == 0 || fmt == 2 || xl then decide (f 5 28 0 ≤ 0x7FF) else true)
        && (xl || (decide (f 6 31 16 = 0) && !bit (dw x 6) 10 && decide (dw x 7 = 0)))
        && (fd || !bit (dw x 6) 9)
        && (decide (fmt ≤ 1) || !bit (dw x 6) 7)
  | 0x20 => decide (f 5 5 0 < 40) && decide (f 5 9 8 < 3)
  | 0x21 => decide (f 5 5 0 < 40)
  | 0x30 => decide (16 ≤ f 4 12 0 ∧ f 4 12 0 ≤ 4096) && decide (16 ≤ f 7 12 0 ∧ f 7 12 0 ≤ 4096)
  | 0x31 => decide (64 ≤ f 4 15 0)
  | _ => true

/-- The status with which a descriptor ends before its operation acts: BAD_OP (2) for an unknown
operation, one not permitted to the class, or the wrong ring mode; BAD_DESC (3) for a non-zero
reserved field or a field out of range (R121, R131, R139). -/
def descCheck (d : Dev) (n r : Nat) (x : Desc) : Option Nat :=
  let op := opOf x
  if !opAllowed (slipOf d n).cls op || (rxMode d n r != (op == 0x01)) then some 2
  else
    let m := opMask op
    let zero := (List.range 16).all fun i => decide (dw x i &&& ~~~(m.getD i 0) = 0)
    if zero && opRangeOk x then none else some 3

/-- A completion with only a status, at the present device time; C4–C7, which Table 4.10 gives for completed operations
only, are zero (DESIGN CHOICE, assumption 107). -/
def simpleCompl (d : Dev) (st : Nat) : Compl := { status := st, ts := devTime d }

/-- Start the descriptor at the front of a ring when it carries operation `op`: one that fails its
checks completes with BAD_OP or BAD_DESC, another is handed to `k`. A descriptor of another
operation, or none, leaves the state unchanged. -/
def withOp (d : Dev) (n r op : Nat) (k : Desc → Dev) : Dev :=
  match startOp d n r op with
  | none => d
  | some x =>
    match descCheck d n r x with
    | some st => finish d n r x.idx (simpleCompl d st)
    | none => k x

/-! ## Outcomes of transmitted frames (R140–R142) -/

/-- What a verdict reports to a transmit descriptor. -/
structure VReport where
  cause : Nat := 0
  c5 : Word := 0
  named : BitVec 16 := 0
  failed : BitVec 16 := 0

/-- Complete a CONFIRM whose every named channel has ended (R142). -/
def confirmJudge (d : Dev) (n r : Nat) (x : Desc) : Dev :=
  if (x.sent ||| x.failed) = x.named then
    let st := if x.collided then 0x0B else if x.failed ≠ 0 then 0x0C else 0
    let ts := if x.sent ≠ 0 then x.sof else devTime d
    finish d n r x.idx
      { status := st, ts := ts, c5 := x.c5,
        c6 := at_ x.sent.toNat 16 ||| at_ x.failed.toNat 0 }
  else d

/-- The verdict of a transmitted frame reaches its descriptor: without CONFIRM, or when no CAN channel
is named, it completes; otherwise it waits for its channels (R142). While its slip is being reset CONFIRM is disregarded
(R151 step 5). -/
def txVerdict (d : Dev) (f : Frame) (v : VReport) : Dev :=
  match f.src with
  | none => d
  | some s =>
    match descOf d s.slip s.ring f.descIdx with
    | none => d
    | some x =>
      let dropped := v.cause != 0
      if f.confirm && !dropped && v.named != 0 && decide ((slipOf d s.slip).state ≠ .resetting) then
        let x1 := { x with named := v.named, failed := v.failed, c5 := v.c5, uid := f.uid, since := devTime d }
        confirmJudge (setDesc d s.slip s.ring x1) s.slip s.ring x1
      else
        finish d s.slip s.ring f.descIdx
          { status := if dropped then 8 else 0, ts := devTime d,
            c4 := at_ v.cause 24, c5 := v.c5 }

/-- A channel has ended the transmission of a frame with CONFIRM: sent at `sof`, failed, or failed for
collisions (R142, R197). -/
def canReport (d : Dev) (uid ch : Nat) (ok collided : Bool) (sof : Nat) : Dev :=
  match frameOf d uid with
  | none => d
  | some f =>
    match f.src with
    | none => d
    | some s =>
      match descOf d s.slip s.ring f.descIdx with
      | none => d
      | some x =>
        if f.confirm && x.uid == uid && x.stage == .started then
          let b : BitVec 16 := 1#16 <<< ch
          let x1 := if ok then
              { x with sent := x.sent ||| b, sof := if x.sent = 0 then sof else min x.sof sof }
            else { x with failed := x.failed ||| b, collided := x.collided || collided }
          confirmJudge (setDesc d s.slip s.ring x1) s.slip s.ring x1
        else d

end Sys2Proof.Machine
end

