-- ==== Sys2Proof/Machine/Chart.lean ====
section
/-! DEFINITION. The Chart (03): keys and lookup, the verdict and its actions, punts and learning, the
Quaymaster's work queue with its shedding (R29, R30), and the Chart's commands. -/

namespace Sys2Proof.Machine

/-! ## CRC-32C (R96) -/

/-- One bit of the reflected CRC with polynomial 0x82F63B78. -/
def crcBit (c : Word) : Word := if c.getLsbD 0 then (c >>> 1) ^^^ 0x82F63B78 else c >>> 1

/-- One byte of the CRC. -/
def crcByte (c : Word) (b : Byte) : Word :=
  let x := c ^^^ (b.setWidth 32)
  crcBit (crcBit (crcBit (crcBit (crcBit (crcBit (crcBit (crcBit x)))))))

/-- CRC-32C of bytes from a seed, with the final XOR. -/
def crc32c (seed : Word) (l : List Byte) : Word := l.foldl crcByte seed ^^^ 0xFFFFFFFF

/-! ## Keys and entries -/

/-- A 128-bit lookup key (Table 3.1). -/
structure ChtKey where
  k0 : Word := 0
  k1 : Word := 0
  k2 : Word := 0
  k3 : Word := 0
  deriving DecidableEq, Repr

def keyBytes (k : ChtKey) : List Byte :=
  leBytes k.k0.toNat 4 ++ leBytes k.k1.toNat 4 ++ leBytes k.k2.toNat 4 ++ leBytes k.k3.toNat 4

/-- SEED_w of R96. -/
def chtSeed (w : Nat) : Word :=
  match w with
  | 0 => 0xFFFFFFFF
  | 1 => 0x5A5A5A5A
  | 2 => 0xA5A5A5A5
  | _ => 0

/-- The entry index of way `w` for a key (R96). -/
def bucketOf (k : ChtKey) (w : Nat) : Nat :=
  8192 * w + (crc32c (chtSeed w) (keyBytes k)).toNat % 8192

/-- Write the copy not in use, then invert GEN (R112). -/
def putCopy (e : ChtEntry) (c : ChtCopy) : ChtEntry :=
  if e.gen then { e with c0 := c, gen := false } else { e with c1 := c, gen := true }

def keyOf (c : ChtCopy) : ChtKey := ⟨c.k0, c.k1, c.k2, c.k3⟩

def setExact (d : Dev) (i : Nat) (e : ChtEntry) : Dev :=
  { d with cht := { d.cht with exact := tset {} d.cht.exact i e } }
def setTern (d : Dev) (i : Nat) (e : ChtEntry) : Dev :=
  { d with cht := { d.cht with tern := tset {} d.cht.tern i e } }
def setMiss (d : Dev) (k : Nat) (e : ChtEntry) : Dev :=
  { d with cht := { d.cht with miss := tset missReset d.cht.miss k e } }

/-- Valid exact entries, EXACT_USED (Table 3.9). -/
def exactUsed (d : Dev) : Nat := (d.cht.exact.filter fun e => (inCopy e.2).valid).length
def ternUsed (d : Dev) : Nat := (d.cht.tern.filter fun e => (inCopy e.2).valid).length

/-! ## The lookup key of a frame (R95, Table 3.1) -/

/-- The CAN key of a message on a channel. -/
def canKey (m : CanMsg) (ch : Nat) (tunnel : Bool) : ChtKey :=
  { k0 := at_ m.id.toNat 0
    k1 := (if m.fmt = 4 then at_ m.vcid.toNat 24 ||| at_ m.sdt.toNat 16 else 0) ||| flag tunnel 8 ||| flag m.rtr 7
      ||| at_ m.fmt.val 4 ||| at_ ch 0
    k3 := 0x10000000 }

/-- PCP of the key of an Ethernet frame: that of its tag, DEF_PCP of its ingress port without one. A wire frame took
DEF_PCP at reception (R59). -/
def keyPcp (d : Dev) (f : Frame) : Nat :=
  if f.tagged ∨ f.inPort < 11 then f.pcp else fld (rd d (aPort f.inPort 0)) 26 24

def lookupKey (d : Dev) (f : Frame) : ChtKey :=
  match f.src with
  | some s =>
    let canId := match f.body with | .can m _ _ => m.id.toNat | _ => 0
    let srcCode := match f.body with | .can _ _ _ => 2 | _ => if f.inPort = 11 then 0 else 1
    { k0 := at_ canId 0
      k1 := at_ s.ring 19 ||| at_ srcCode 16 ||| at_ s.flow 0
      k2 := at_ s.slip 0
      k3 := 0x30000000 }
  | none =>
    match f.body with
    | .eth b =>
      let dmac := beNat (b.take 6)
      { k0 := w32 dmac
        k1 := at_ (etherType b) 16 ||| at_ (dmac >>> 32) 0
        k2 := at_ f.inPort 16 ||| flag f.tagged 15 ||| at_ (keyPcp d f) 12 ||| at_ f.vid 0 }
    | .can m ch t => canKey m ch.val t
    | .fieldEdge ch falling _ => { k0 := flag falling 6 ||| at_ ch.val 0, k3 := 0x20000000 }
    | .snapshot ch _ => { k0 := at_ 2 6 ||| at_ ch.val 0, k3 := 0x20000000 }
    | .fieldFault ch _ => { k0 := at_ 3 6 ||| at_ ch.val 0, k3 := 0x20000000 }
    | .samples ch _ => { k1 := at_ 3 16 ||| at_ ch.val 0, k3 := 0x30000000 }

/-- What a lookup gives: the copy, and whether it is a miss or a ternary entry, and its index. -/
structure Hit where
  e : ChtCopy
  miss : Bool
  tern : Bool
  idx : Nat

/-- Ternary entry `i` is valid and matches key `k` (R94, point 2). -/
def ternMatches (d : Dev) (k : ChtKey) (i : Nat) : Bool :=
  let c := inCopy (ternAt d i)
  c.valid && (k.k0 &&& c.m0) == (c.k0 &&& c.m0) && (k.k1 &&& c.m1) == (c.k1 &&& c.m1)
    && (k.k2 &&& c.m2) == (c.k2 &&& c.m2) && (k.k3 &&& c.m3) == (c.k3 &&& c.m3)

/-- The lowest index of a ternary entry that matches `k` (R94). -/
def ternFirst (d : Dev) (k : ChtKey) : Option Nat :=
  d.cht.tern.foldl (fun b e => if ternMatches d k e.1 && (match b with | none => true | some j => decide (e.1 < j))
    then some e.1 else b) none

/-- The lookup of R94: exact, then the lowest matching ternary entry, then the miss entry. -/
def lookup (d : Dev) (k : ChtKey) : Hit :=
  match (List.range 4).find? fun w =>
      let c := inCopy (exactAt d (bucketOf k w)); c.valid && keyOf c == k with
  | some w => ⟨inCopy (exactAt d (bucketOf k w)), false, false, bucketOf k w⟩
  | none =>
    match ternFirst d k with
    | some i => ⟨inCopy (ternAt d i), false, true, i⟩
    | none => ⟨inCopy (missAt d (fld k.k3 31 28)), true, false, 0⟩

/-- Word 4 of a Logbook record and C5 of a completion (Tables 2.7, 4.10). -/
def hitWord (h : Hit) : Word := flag h.miss 16 ||| flag h.tern 15 ||| at_ (if h.miss then 0 else h.idx) 0

/-! ## Signal extraction (R99, R100) -/

/-- The payload of a frame for extraction (R99). -/
def payload : FrameBody → List Byte
  | .eth b => b.drop (if hasTag b then 18 else 14)
  | .can m _ _ => m.data
  | .fieldEdge _ _ r => r
  | .snapshot _ r => r
  | .fieldFault _ r => r
  | .samples _ r => r

/-- The value of one item over a payload, none when the payload is too short (R100). -/
def itemValue (item : Word) (p : List Byte) : Option Nat :=
  let width := fld item 25 22 + 1
  let shift := fld item 28 26
  let n := ceilDiv (shift + width) 8
  let from_ := fld item 21 11
  if p.length < from_ + n then none
  else
    let b := (p.drop from_).take n
    let raw := if bit item 29 then beNat b else leNat b
    some ((raw >>> shift) % 2 ^ width)

/-- Apply one extraction item. -/
def extractItem (d : Dev) (p : List Byte) (item : Word) : Dev :=
  match itemValue item p with
  | none => evCht (inc d 0x400270) 1 0
  | some v =>
    if bit item 31 then setSignal d (fld item 8 0) (decide (v ≠ 0))
    else
      let width := fld item 25 22 + 1
      let x := if bit item 30 then BitVec.ofInt 16 (signed v width) else BitVec.ofNat 16 v
      setAnalog d (fld item 7 0) x

/-- An extract action: XTR_LEN items from XTR_INDEX in index order, 4,095 followed by 0 (R99). -/
def extract (d : Dev) (idx len : Nat) (body : FrameBody) : Dev :=
  (List.range len).foldl
    (fun d k => extractItem d (payload body) (rd d (0x410000 + 4 * ((idx + k) % 4096)))) d

/-! ## Policing (R102) and sampling (R88) -/

/-- Credit units per byte or frame: rates are in kbit/s, so one byte is 8·10^6 units per
nanosecond-kbit; one frame at one frame/s is 10^9. -/
def polUnit (p : Policer) : Nat := if p.frames then 1000000000 else 8000000

/-- Refill both buckets to the present time. -/
def polRefill (d : Dev) (p : Policer) : Policer :=
  let dt := d.wall - p.at_
  let pir := max p.pir p.cir
  { p with tc := min (p.cbs * polUnit p) (p.tc + p.cir * dt),
           tp := min (p.pbs * polUnit p) (p.tp + pir * dt), at_ := d.wall }

/-- Meter a frame: colour 0 green, 1 yellow, 2 red, 3 for an unconfigured policer (RFC 2698,
colour-blind). -/
def meter (d : Dev) (k : Nat) (f : Frame) : Nat × Dev :=
  let p := tget {} d.cht.pol k
  if p.pbs = 0 then (3, d)
  else
    let q := polRefill d p
    let b := (if q.frames then 1 else storedLen f) * polUnit q
    let put (q : Policer) : Dev := { d with cht := { d.cht with pol := tset {} d.cht.pol k q } }
    if q.tp < b then (2, put q)
    else if q.tc < b then (1, put { q with tp := q.tp - b })
    else (0, put { q with tp := q.tp - b, tc := q.tc - b })

/-- A mirror action is selected: always, or by sampler MSEL[3:0], which counts frames or draws at
random with probability 1/PERIOD (R88). A write of SW_LB_SAMP[k] leaves the count as it stands (DESIGN CHOICE,
assumption 105). -/
def selected (d : Dev) (msel : Nat) : Bool × Dev :=
  if 16 ≤ msel then (true, d)
  else
    let w := rd d (0x206100 + 4 * msel)
    let period := atLeast1 (fld w 15 0)
    if bit w 31 then
      let x := drawNat d
      (decide (x.1 % period = 0), x.2)
    else
      let n := tget 0 d.cht.samp msel + 1
      let put (v : Nat) : Dev := { d with cht := { d.cht with samp := tset 0 d.cht.samp msel v } }
      if period ≤ n then (true, put 0) else (false, put n)

/-! ## Logbook copies (R87) -/

/-- The destination port set of a verdict (Table 2.7, PORTS): PORTS of a forward action, port 11 or 12 of each member of a
delivery set, port 13 of a tunnel action; none of a dropped frame (DESIGN CHOICE, assumption 83). -/
def verdictPorts (d : Dev) (e : ChtCopy) : Nat :=
  let fwd := if bit e.a0 0 then fld e.a0 21 8 else 0
  let dlv := if bit e.a0 1 then
      (List.range 4).foldl (fun a m =>
        let w := rd d (0x420000 + 16 * fld e.a1 25 16 + 4 * m)
        if bit w 31 then a ||| 2 ^ (if internalSlip d (fld w 11 0) then 12 else 11) else a) 0
    else 0
  fwd ||| dlv ||| if bit e.a0 3 then 2 ^ 13 else 0

/-- Queue a Logbook copy, or discard and count it when the egress limit refuses it. -/
def logbook (d : Dev) (f : Frame) (cause : Nat) (h : Hit) (colour dropCause : Nat) : Dev :=
  let ctrl := rd d 0x206000
  if !bit ctrl 31 then d
  else
    let port := if bit ctrl 0 then 12 else 11
    let cls := fld ctrl 10 8
    let n := cellsOf f
    if limEL d port cls < eocc d port cls + n then evSw (inc d aLbLost) 6 0
    else
      let a := h.e.a0
      let ports := if dropCause = 0 then verdictPorts d h.e else 0
      setBasin d { d.basin with copies := d.basin.copies ++
        [{ uid := f.uid, port := port, cls := cls, cells := n, cause := cause, w4 := hitWord h
           w5 := at_ colour 16 ||| at_ (if cause = 2 then dropCause else 0) 8 ||| at_ (fld a 7 0) 0
           w6 := at_ ports 0 }] }

/-! ## Destinations (R104, R105) -/

/-- Frame kinds that may be delivered to a slip's class (Table 4.3): a field fault record, KIND 7, only to a manager slip. -/
def mayDeliver (cls kind : Nat) : Bool :=
  match cls with
  | 0 => decide (kind ≤ 3)
  | 1 => decide (4 ≤ kind ∧ kind ≤ 6)
  | 2 => false
  | _ => true

/-- Deliver to one member of a set, or skip it (R143). -/
def deliverOne (d : Dev) (f : Frame) (h : Hit) (member : Word) : Dev :=
  if !bit member 31 then d
  else
    let n := fld member 11 0
    let r := fld member 18 16
    let s := slipOf d n
    if s.state = .active ∧ bit (ringCfg d n r) 31 ∧ rxMode d n r ∧ mayDeliver s.cls (kindCode f.body) then
      (offer d f (if internalSlip d n then 12 else 11) (.slip n r) h.miss h.tern h.idx).2
    else evSlp (inc d 0x800028) 1 n

def deliver (d : Dev) (f : Frame) (h : Hit) (dset : Nat) : Dev :=
  (List.range 4).foldl (fun d m => deliverOne d f h (rd d (0x420000 + 16 * dset + 4 * m))) d

/-- Send a frame to the tunnel engine to be wrapped, once; the refusals known here are counted
(R25, R105, R175). -/
def tunnelOnce (d : Dev) (f : Frame) (stream : Nat) : Dev :=
  if f.tunnelled then evBrg (inc d 0xC0A008) 2 stream
  else if !isCan f then evBrg (inc d 0xC0A010) 2 stream
  else (offer d f 13 (.wrap stream) false false 0).2

/-- The forward action on the wire ports and on port 13; the bits of channels named and refused are
answered for CONFIRM (R105, R142). -/
def forward (d : Dev) (f : Frame) (ports : Nat) (chset : Nat) : BitVec 16 × Dev :=
  match f.body with
  | .eth _ =>
    let d1 := (List.range 11).foldl
      (fun d p => if ports.testBit p then (offer d f p .wire false false 0).2 else d) d
    (0, if ports.testBit 13 then (offer d1 f 13 .unwrap false false 0).2 else d1)
  | .can _ _ _ =>
    if ports.testBit 13 then
      (List.range 16).foldl
        (fun (a : BitVec 16 × Dev) n =>
          if chset.testBit n then
            let x := offer a.2 f 13 (.can n) false false 0
            (if x.1 then a.1 else a.1 ||| (1#16 <<< n), x.2)
          else a) (0, d)
    else (0, d)
  | _ => (0, d)

/-! ## Quaymaster work (R29, R30) -/

/-- Level entered or left at the present number of entries (Table 1.6). -/
def shedLevel (old n : Nat) : Nat :=
  let up := if 95 * 2048 ≤ 100 * n then 2 else if 80 * 2048 ≤ 100 * n then 1 else 0
  if old < up then up
  else if old = 2 then
    (if 100 * n < 85 * 2048 then (if 100 * n < 70 * 2048 then 0 else 1) else 2)
  else if old = 1 then (if 100 * n < 70 * 2048 then 0 else 1)
  else 0

/-- Occupancy in per cent, rounded down (Table 1.16). -/
def qmOcc (d : Dev) : Nat := min 100 (100 * d.qm.queue.length / 2048)

def qmPeak (d : Dev) : Dev := { d with qm := { d.qm with peakRun := max d.qm.peakRun (qmOcc d) } }

/-! ## The verdict (R98) -/

/-- Put a frame or copy into the Quaymaster's hands (R107). -/
def holdPunt (d : Dev) (uid : Nat) (copy : Bool) : Dev :=
  inc (setBasin d { d.basin with punts := d.basin.punts ++ [⟨uid, copy⟩] }) 0x400260

/-- The tests of R108 that the Chart makes: room under MAX, shedding below 2 for a miss, and work of
class 5 not shed. -/
def puntRoom (d : Dev) (miss : Bool) : Bool :=
  decide (d.basin.punts.length < min 256 (fld (rd d 0x40000C) 8 0))
    && (!miss || decide (d.qm.shed < 2)) && decide (d.qm.shed < 1)
    && decide (d.qm.queue.length < 2048)

def puntRefused (d : Dev) : Dev := evCht (inc d 0x400268) 2 0

/-- A count action (R103). -/
def countPair (d : Dev) (k : Nat) (f : Frame) : Dev :=
  cntAdd (inc d (0x440000 + 16 * k)) (0x440000 + 16 * k + 8) (storedLen f)

/-- Whether the tunnel action would wrap the frame: a CAN frame that no stream has touched (R25, R105). -/
def wouldTunnel (f : Frame) : Bool := isCan f && !f.tunnelled

/-- Whether the entry would forward, deliver or tunnel the frame (R98): a forward action with a port, and for CAN a
channel, that acts on its kind (R105); a delivery set with a valid member; a tunnel action on a frame that can be
wrapped (DEDUCED, assumption 86). -/
def hasDest (d : Dev) (e : ChtCopy) (f : Frame) : Bool :=
  let ports := fld e.a0 21 8
  let wires := decide (ports % 2048 ≠ 0)
  let fwd := match f.body with
    | .eth _ => wires || ports.testBit 13
    | .can _ _ _ => (ports.testBit 13 && decide (fld e.a1 15 0 ≠ 0)) || (wires && wouldTunnel f)
    | _ => false
  (bit e.a0 0 && fwd) || (bit e.a0 3 && wouldTunnel f)
    || (bit e.a0 1 && (List.range 4).any fun m => bit (rd d (0x420000 + 16 * fld e.a1 25 16 + 4 * m)) 31)

/-- One verdict of an admitted frame. The Logbook copy is charged after the frame's own destinations, so that it never
takes their room (R87). `returned` marks a frame the Quaymaster has returned: it is
never punted again (R107). The answer is the frames to hand to the Quaymaster, as (uid, copy). -/
def verdict (d : Dev) (uid : Nat) (returned : Bool) : List (Nat × Bool) × Dev :=
  match frameOf d uid with
  | none => ([], d)
  | some f =>
    let k := lookupKey d f
    let h := lookup d k
    let e := h.e
    let d := if h.miss then inc d (0x400240 + 8 * fld k.k3 31 28) else d
    let impostor := bit e.a0 24 && f.src.isNone &&
      (match f.body with | .can _ _ t => !t | _ => false)
    let m := if !impostor && bit e.a0 5 then meter d (fld e.a2 23 16) f else (3, d)
    let colour := m.1
    let d := m.2
    let cause := if impostor then 3
      else if colour = 2 ∧ ¬ (tget {} d.cht.pol (fld e.a2 23 16)).redPass then 2
      else if bit e.a0 7 then 1 else 0
    let wantPunt := decide (cause = 0) && h.miss && bit e.a0 22 && !returned
    if wantPunt && puntRoom d true then ([(uid, false)], d)
    else
      let d := if wantPunt then puntRefused d else d
      let cause := if cause = 0 ∧ h.miss ∧ ¬ hasDest d e f then 4 else cause
      let d := if bit e.a0 6 then countPair d (fld e.a3 11 0) f else d
      let s := if bit e.a0 2 then selected d (fld e.a2 28 24) else (false, d)
      let copy (d : Dev) : Dev :=
        if s.1 then logbook d f (if cause ≠ 0 then 2 else if 16 ≤ fld e.a2 28 24 then 0 else 1) h colour cause
        else d
      let d := s.2
      if cause ≠ 0 then
        let d := copy d
        let d := inc d (0x400200 + 8 * cause)
        let d :=
          if cause = 3 then
            match f.body with
            | .can mm ch _ =>
              let d := inc d (0x400300 + 8 * ch.val)
              let d := wr (wr d 0x400020 (at_ mm.id.toNat 0)) 0x400024 (at_ mm.fmt.val 4 ||| at_ ch.val 0)
              evCht d 0 ch.val
            | _ => d
          else d
        ([], freeIfDone (txVerdict d f { cause := cause, c5 := hitWord h }) uid)
      else
        let d := if bit e.a0 4 then extract d (fld e.a2 11 0) (fld e.a2 15 12) f.body else d
        let ports := fld e.a0 21 8
        let d := if bit e.a0 3 || (bit e.a0 0 && !isEth f && decide (ports % 2048 ≠ 0)) then
          tunnelOnce d f (fld e.a3 19 12) else d
        let fw := if bit e.a0 0 then forward d f ports (fld e.a1 15 0) else (0, d)
        let named : BitVec 16 := if bit e.a0 0 && isCan f && ports.testBit 13
          then BitVec.ofNat 16 (fld e.a1 15 0) else 0
        let d := if bit e.a0 1 then deliver fw.2 f h (fld e.a1 25 16) else fw.2
        let wantCopy := bit e.a0 22 && !h.miss && !returned
        let d := copy (txVerdict d f { c5 := hitWord h, named := named, failed := fw.1 })
        if wantCopy && puntRoom d false then ([(uid, true)], d)
        else
          let d := if wantCopy then puntRefused d else d
          ([], freeIfDone d uid)

/-- Refuse late a punt that shedding discards: a copy is released, a whole frame is returned for its
second lookup (R108). -/
def refuseLate (d : Dev) (uid : Nat) (copy : Bool) : Dev :=
  let d1 := puntRefused (setBasin d { d.basin with
    punts := d.basin.punts.filter fun p => p != ⟨uid, copy⟩ })
  if copy then freeIfDone d1 uid else (verdict d1 uid true).2

/-- The shedding level follows the occupancy; each change sets SHED_EVT (R30). -/
def qmLevel (d : Dev) : Dev :=
  let lvl := shedLevel d.qm.shed d.qm.queue.length
  if lvl = d.qm.shed then d else evDev { d with qm := { d.qm with shed := lvl } } 1

/-- Queued class-5 work is discarded and counted as shed, punts among it refused late (R30, R108). -/
def qmDiscard (d : Dev) : Dev :=
  let dropped := d.qm.queue.filter (·.1 == 5)
  let d1 := { d with qm := { d.qm with
    queue := d.qm.queue.filter (·.1 != 5), shedCount := d.qm.shedCount + dropped.length } }
  dropped.foldl (fun d e => match e.2 with
    | .punt uid copy => refuseLate d uid copy
    | _ => d) d1

/-- Judge the shedding level after a change of the queue; a rise from level 0 discards the queued class-5 work,
after which the level is judged again (R30). -/
def qmJudge (d : Dev) : Dev :=
  let d1 := qmLevel (qmPeak d)
  if d.qm.shed = 0 ∧ 0 < d1.qm.shed then qmLevel (qmDiscard d1) else d1

/-- Queue work for the Quaymaster; class-5 work is shed and counted at level 1 and above. Work of classes 1–4 is never
turned away: what finds the 2,048 entries taken waits behind them (DESIGN CHOICE, assumption 29). -/
def qmEnqueue (d : Dev) (cls : Nat) (w : QmWork) : Dev :=
  if cls = 5 ∧ (0 < d.qm.shed ∨ 2048 ≤ d.qm.queue.length) then
    { d with qm := { d.qm with shedCount := d.qm.shedCount + 1 } }
  else qmJudge { d with qm := { d.qm with queue := d.qm.queue ++ [(cls, w)] } }

/-- The next work item: the lowest class number, then the order of arrival (R29). -/
def qmNext (d : Dev) : Option (Nat × QmWork) :=
  let c := d.qm.queue.foldl (fun m e => min m e.1) 6
  d.qm.queue.find? (·.1 == c)

/-- Whether the Quaymaster runs: its fabric is out of reset, its start step has passed and debug has not halted it. -/
def qmAwake (d : Dev) : Bool := fabricUp d && d.rst.qmRunning && !d.clt.qmHalted

/-- Take an item out of the queue. -/
def qmTake (d : Dev) (e : Nat × QmWork) : Dev :=
  qmJudge { d with qm := { d.qm with queue := d.qm.queue.erase e } }

/-- Work for the Quaymaster whose service is `k`: it serves it at once when it runs and nothing stands before it, and
otherwise in its turn, by QM_WORK_SERVE (R29; that a command carries no service time is a DESIGN CHOICE,
assumption 29). -/
def qmPost (d : Dev) (cls : Nat) (w : QmWork) (k : Dev → Dev) : Dev :=
  let d1 := qmEnqueue d cls w
  if qmAwake d1 && decide (qmNext d1 = some (cls, w)) then k (qmTake d1 (cls, w)) else d1

/-- Hand the punts a verdict asks for to the Quaymaster. -/
def takePunts (x : List (Nat × Bool) × Dev) : Dev :=
  x.1.foldl (fun d p => qmEnqueue (holdPunt d p.1 p.2) 5 (.punt p.1 p.2)) x.2

/-- Classify an admitted frame. -/
def classify (d : Dev) (uid : Nat) : Dev := takePunts (verdict d uid false)

/-- A frame reaches the Basin: admission, then classification. The answer is its uid if admitted. -/
def enterBasin (d : Dev) (f : Frame) : Option Nat × Dev :=
  match admitFrame d f with
  | (some uid, d1) => (some uid, classify d1 uid)
  | (none, d1) => (none, d1)

/-! ## Commands (R111–R113) -/

def shadowKey (d : Dev) : ChtKey :=
  ⟨rd d 0x400100, rd d 0x400104, rd d 0x400108, rd d 0x40010C⟩

def shadowCopy (d : Dev) (tern : Bool) : ChtCopy :=
  let m (a : Nat) : Word := if tern then rd d a else 0
  { valid := true
    k0 := rd d 0x400100, k1 := rd d 0x400104, k2 := rd d 0x400108, k3 := rd d 0x40010C
    m0 := m 0x400110, m1 := m 0x400114, m2 := m 0x400118, m3 := m 0x40011C
    a0 := rd d 0x400120, a1 := rd d 0x400124, a2 := rd d 0x400128
    a3 := rd d 0x40012C &&& 0x3FFFFFFF }

/-- BAD_KEY: KIND 4–15, or a zero field of Table 3.1 non-zero. W0 [31:29] of an internal-source key, which has no row in
Table 3.1, is taken as a zero field (DESIGN CHOICE, assumption 106). -/
def keyBad (k : ChtKey) : Bool :=
  decide (k.k3 &&& 0x0FFFFFFF ≠ 0) ||
  match fld k.k3 31 28 with
  | 0 => decide (k.k2 &&& 0xFFF00000 ≠ 0)
  | 1 => decide (k.k0 &&& 0xE0000000 ≠ 0) || decide (k.k1 &&& 0x0000FE00 ≠ 0) || decide (k.k2 ≠ 0)
  | 2 => decide (k.k0 &&& 0xFFFFFF20 ≠ 0) || decide (k.k1 ≠ 0) || decide (k.k2 ≠ 0)
  | 3 => decide (k.k0 &&& 0xE0000000 ≠ 0) || decide (k.k1 &&& 0xFFC00000 ≠ 0)
      || decide (k.k2 &&& 0xFFFFF000 ≠ 0)
  | _ => true

/-- BAD_ACTION: PORTS bit 11 or 12, or a zero field of Table 3.2 non-zero. -/
def actBad (c : ChtCopy) : Bool :=
  decide (c.a0 &&& 0xFE800000 ≠ 0) || bit c.a0 19 || bit c.a0 20
    || decide (c.a1 &&& 0xFC000000 ≠ 0) || decide (c.a2 &&& 0xE0000000 ≠ 0)
    || decide (c.a3 &&& 0x1FF00000 ≠ 0)

/-- The index of the valid exact entry with a key. -/
def findExact (d : Dev) (k : ChtKey) : Option Nat :=
  ((List.range 4).map (bucketOf k)).find? fun i =>
    let c := inCopy (exactAt d i); c.valid && keyOf c == k

def bucketFree (d : Dev) (i : Nat) : Bool := !(inCopy (exactAt d i)).valid

/-- Buckets a chain may move the entry of bucket `i` to. -/
def movesOf (d : Dev) (i : Nat) : List Nat :=
  ((List.range 4).map (bucketOf (keyOf (inCopy (exactAt d i))))).filter (· != i)

/-- Breadth-first search, `n` moves deep, for a chain of buckets whose last is free: each chain is
listed from the bucket to be freed. Of chains of one length the one through the lowest ways, level by level, is
taken (DESIGN CHOICE, assumption 106). -/
def findChain (d : Dev) : Nat → List (List Nat) → Option (List Nat)
  | 0, _ => none
  | n + 1, chains =>
    let next := chains.flatMap fun c =>
      match c.getLast? with
      | some i => (movesOf d i).map fun j => c ++ [j]
      | none => []
    match next.find? fun c => match c.getLast? with
        | some i => bucketFree d i | none => false with
    | some c => some c
    | none => findChain d n next

/-- Move entries along a chain, from its end backwards: each is valid in its new bucket before its old
one is overwritten (R113), the first of the chain by the entry being inserted. Each bucket is written once, so its GEN
inverts once (R112). -/
def moveChain (d : Dev) : List Nat → Dev
  | i :: j :: t =>
    let d1 := moveChain d (j :: t)
    setExact d1 j (putCopy (exactAt d1 j) (inCopy (exactAt d1 i)))
  | _ => d

/-- End a manager's Chart command (Tables 3.13, 3.14). -/
def chtEnd (d : Dev) (st : Nat) : Dev := resultEnd d 0x400014 (at_ st 27)

/-- A Chart command of operation `op` ends OK, and is mirrored with its entry (R420). -/
def chtDone (d : Dev) (op : Nat) : Dev :=
  let d1 := chtEnd d 0
  mirrorNote d1 0 (op * 2 ^ 24 + fld (rd d1 0x400018) 16 0)

def chtIdx (d : Dev) (miss tern : Bool) (i : Nat) : Dev :=
  wr d 0x400018 (flag miss 16 ||| flag tern 15 ||| at_ i 0)

def exactHigh (d : Dev) (before : Nat) : Dev :=
  if before < 31130 ∧ 31130 ≤ exactUsed d then evCht d 3 0 else d

/-- Place a new exact entry (R113): the lowest empty way, else along a chain of at most four moves. The
answer is its index, none when the table is full for it. -/
def placeExact (d : Dev) (c : ChtCopy) : Option Nat × Dev :=
  let bs := (List.range 4).map (bucketOf (keyOf c))
  let put (d : Dev) (i : Nat) : Dev := setExact d i (putCopy (exactAt d i) c)
  match bs.find? (bucketFree d) with
  | some i => (some i, exactHigh (put d i) (exactUsed d))
  | none =>
    match findChain d 4 (bs.map fun b => [b]) with
    | some (i :: t) => (some i, exactHigh (put (moveChain d (i :: t)) i) (exactUsed d))
    | _ => (none, d)

/-- A command is ignored while one runs (R114), and ends BAD_OP while the module is STANDBY or ISOLATED
(R422); otherwise it runs whole. -/
def chtCmd (d : Dev) (run : Dev → Dev) : Dev :=
  if !resultValid d 0x400014 then evCht d 4 0
  else if hasAuthority d then run d
  else chtEnd d 5

/-- INSERT (R111, R113). Where several refusals apply it ends BAD_KEY, BAD_ACTION, EXISTS, FULL in this order (DESIGN
CHOICE, assumption 106). -/
def runInsert (d : Dev) : Dev :=
  let c := shadowCopy d false
  if keyBad (shadowKey d) then chtEnd d 4
  else if actBad c then chtEnd d 6
  else if (findExact d (shadowKey d)).isSome then chtEnd d 2
  else match placeExact d c with
    | (some i, d1) => chtDone (chtIdx d1 false false i) 1
    | (none, d1) => chtEnd d1 1

def chtInsert (d : Dev) : Dev := chtCmd d runInsert

/-- UPDATE (R111): BAD_ACTION before NOT_FOUND (DESIGN CHOICE, assumption 106). -/
def runUpdate (d : Dev) : Dev :=
  let c := shadowCopy d false
  if actBad c then chtEnd d 6
  else match findExact d (shadowKey d) with
    | some i => chtDone (chtIdx (setExact d i (putCopy (exactAt d i) c)) false false i) 2
    | none => chtEnd d 3

def chtUpdate (d : Dev) : Dev := chtCmd d runUpdate

def runDelete (d : Dev) : Dev :=
  match findExact d (shadowKey d) with
  | some i =>
    let e := exactAt d i
    chtDone (chtIdx (setExact d i (putCopy e { inCopy e with valid := false })) false false i) 3
  | none => chtEnd d 3

def chtDelete (d : Dev) : Dev := chtCmd d runDelete

def runTwrite (d : Dev) (i : Nat) : Dev :=
  let c := shadowCopy d true
  if keyBad (shadowKey d) || decide (fld c.m3 31 28 ≠ 15) then chtEnd d 4
  else if actBad c then chtEnd d 6
  else chtDone (chtIdx (setTern d i (putCopy (ternAt d i) c)) false true i) 4

def chtTwrite (d : Dev) (i : Nat) : Dev := chtCmd d (runTwrite · i)

def runTdelete (d : Dev) (i : Nat) : Dev :=
  let e := ternAt d i
  chtDone (chtIdx (setTern d i (putCopy e { inCopy e with valid := false })) false true i) 5

def chtTdelete (d : Dev) (i : Nat) : Dev := chtCmd d (runTdelete · i)

def runMwrite (d : Dev) : Dev :=
  let k := shadowKey d
  let c := shadowCopy d false
  if decide (k.k3 &&& 0x0FFFFFFF ≠ 0) || decide (3 < fld k.k3 31 28) then chtEnd d 4
  else if actBad c then chtEnd d 6
  else
    let m := fld k.k3 31 28
    let c1 : ChtCopy := { valid := true, a0 := c.a0, a1 := c.a1, a2 := c.a2, a3 := c.a3 }
    chtDone (chtIdx (setMiss d m (putCopy (missAt d m) c1)) true false m) 6

def chtMwrite (d : Dev) : Dev := chtCmd d runMwrite

/-- An undefined OP (Table 3.5). -/
def chtBadOp (d : Dev) : Dev := chtCmd d fun d => chtEnd d 5

/-- A write of policer word 2 applies words 0–2 whole and refills both buckets (R115). -/
def policerWrite (d : Dev) (k : Nat) (w2 : Word) : Dev :=
  let d1 := wr d (0x430008 + 16 * k) w2
  let w0 := rd d (0x430000 + 16 * k)
  let p : Policer := {
    frames := bit w0 31, redPass := bit w0 30, cir := fld w0 23 0
    pir := fld (rd d (0x430004 + 16 * k)) 23 0, cbs := fld w2 15 0, pbs := fld w2 31 16, at_ := d.wall }
  let q := { p with tc := p.cbs * polUnit p, tp := p.pbs * polUnit p }
  { d1 with cht := { d1.cht with pol := tset {} d1.cht.pol k q } }

end Sys2Proof.Machine
end

