-- ==== Sys2Proof/Machine/Switch.lean ====
section
/-! DEFINITION. The switch core's own operations (02): transmission, links, device time, gates, PFC
reception, the Logbook, the Basin's tests and the counter clears. -/

namespace Sys2Proof.Machine

/-! ## Links (R67, R467) and the gPTP role (R68, R70) -/

/-- STATE and SLAVE_PORT the gPTP instance takes (R68, R70): it follows a master heard on an 802.1AS port that carries
traffic, unless it may be grandmaster and its PRIORITY1 is better; with no such master it is grandmaster or runs free.
What the best master clock algorithm compares after PRIORITY1 is the operand's word (DESIGN CHOICE, assumption 77). -/
def asRole (d : Dev) (slavePort state prio : Nat) : Nat × Nat :=
  let w := rd d 0x204008
  let heard := bit w slavePort && decide (slavePort < 11 ∧ (state = 1 ∨ state = 2)) && wireUp d slavePort
  let own := bit w 30 && decide (fld w 23 16 < prio)
  if bit w 31 && heard && !own then (state, slavePort)
  else if bit w 31 && bit w 30 then (3, 15) else (0, 15)

/-- The gPTP role after its settings or its port changed: what no longer allows it ends it (R68, R70). -/
def asJudge (d : Dev) : Dev :=
  let r := asRole d d.as_.slavePort d.as_.state 0
  if d.as_.state = 0 ∨ r.1 = d.as_.state then d
  else evSw (wr { d with as_ := { d.as_ with state := r.1, slavePort := r.2, slew := 0, slewAcc := 0 } } 0x204010 0) 5 0

/-- Discard every queued frame of a wire port, one in transmission included, each counted in
TX_LINK_DISCARD (R67). -/
def discardPort (d : Dev) (p : Nat) : Dev :=
  (d.basin.queues.filter fun e => e.port == p && e.dest == Dest.wire).foldl
    (fun d e => leaveQueue (inc d (aPcnt p 9)) e) d

/-- ENABLE written 0 (R67). -/
def portDisable (d : Dev) (p : Nat) : Dev :=
  asJudge (discardPort (wr d (aPort p 0) (rd d (aPort p 0) &&& 0x7FFFFFFF)) p)

/-- The link is lost: the queue is discarded, LINK changes, neighbours of the port go (R67, R226). A class that received
PFC has paused stays paused until its pause ends (DESIGN CHOICE, assumption 103). -/
def portLinkLoss (d : Dev) (p : Nat) : Dev :=
  if (portOf d p).link then
    let d1 := discardPort (evSw (setPort d p { portOf d p with link := false }) 8 p) p
    let had := (List.range 4).any fun k => (nbrOf d1 p k).isSome
    let d2 := (List.range 4).foldl (fun d k => setNbr d p k none) d1
    asJudge (if had then evLldp d2 1 p else d2)
  else d

/-- Training ends and the link comes up (R49, R467); what the occupancy asks of PFC by then is sent (R76). -/
def portLinkUp (d : Dev) (p : Nat) : Dev :=
  if (portOf d p).link || !portPowered d p then d
  else pfcJudgeAll (evSw (setPort d p { portOf d p with link := true }) 8 p) p

/-! ## Gates (R71–R74) -/

/-- The gate states in effect: all open without Qbv or before a list is operative (R71). -/
def gatesNow (d : Dev) (p : Nat) : BitVec 8 :=
  if bit (rd d (aPort p 0)) 28 then
    match (portOf d p).oper with
    | some g => (g.entries.getD (portOf d p).gateIdx (0, 0xFF)).2
    | none => 0xFF
  else 0xFF

/-- The list cut at the cycle's end, or its last entry stretched to it (R71). -/
def fitList (cycle : Nat) : List (Nat × BitVec 8) → List (Nat × BitVec 8)
  | [] => []
  | [(_, g)] => [(cycle, g)]
  | (i, g) :: t => if cycle ≤ i then [(cycle, g)] else (i, g) :: fitList (cycle - i) t

/-- The longest run of consecutive intervals, over two cycles, with class `c` open. -/
def longestOpen (c : Nat) (l : List (Nat × BitVec 8)) : Nat :=
  ((l ++ l).foldl (fun (a : Nat × Nat) e =>
    let run := if e.2.getLsbD c then a.1 + e.1 else 0
    (run, max a.2 run)) (0, 0)).2

def alwaysOpen (c : Nat) (l : List (Nat × BitVec 8)) : Bool := l.all fun e => e.2.getLsbD c

/-- The length of the open intervals of class `c` that a list begins with. -/
def openRun (c : Nat) (l : List (Nat × BitVec 8)) : Nat :=
  ((l.takeWhile fun e => e.2.getLsbD c).map (·.1)).foldl (· + ·) 0

/-- The time until the operative list closes class `c`'s gate: what is left of this interval and the open intervals
that follow it; none if it never does. -/
def operOpen (d : Dev) (p c : Nat) : Option Nat :=
  match (portOf d p).oper with
  | none => none
  | some g =>
    let l := fitList g.cycle g.entries
    if alwaysOpen c l then none
    else
      let x := portOf d p
      some ((x.gateNext - devTime d) + openRun c (l.drop (x.gateIdx + 1) ++ l))

/-- The time until class `c`'s gate next closes: by the operative list before the change time, by the pending list from
then on (R72, R73); none if it never does. -/
def openFor (d : Dev) (p c : Nat) : Option Nat :=
  if bit (rd d (aPort p 0)) 28 then
    let a := operOpen d p c
    match (portOf d p).pendList with
    | none => a
    | some g =>
      let tc := (portOf d p).changeTime - devTime d
      let l := fitList g.cycle g.entries
      if (match a with | some t => decide (t < tc) | none => false) then a
      else if alwaysOpen c l then none
      else some (tc + openRun c (l ++ l))
  else none

/-- The gates change to the next interval of the list, the first one following the last (R71). -/
def gateChange (d : Dev) (p : Nat) : Dev :=
  match (portOf d p).oper with
  | none => d
  | some g =>
    let l := fitList g.cycle g.entries
    let x := portOf d p
    if devTime d < x.gateNext then d else
    let i := if x.gateIdx + 1 < l.length then x.gateIdx + 1 else 0
    setPort d p { x with gateIdx := i, gateNext := x.gateNext + (l.getD i (g.cycle, 0)).1 }

def aGcl (p i : Nat) : Nat := 0x208000 + 0x400 * p + 8 * i
def aGclOper (p i : Nat) : Nat := 0x208200 + 0x400 * p + 8 * i

/-- The first instant base + k × cycle, k ≥ 0, that is at least `t`. -/
def cycleStart (base cycle t : Nat) : Nat :=
  if t ≤ base then base else base + ceilDiv (t - base) cycle * cycle

/-- The outcome of the latest request of port `p`: its SEQ counts the requests it replaced (R40, R73). -/
def qbvEnd (d : Dev) (p : Nat) (st : Word) : Dev :=
  let a := aPort p 0x2C
  let k := (portOf d p).replaced
  let d1 := wr d a ((rd d a &&& 0xFFFF0000) ||| at_ ((fld (rd d a) 15 0 + k) % 65536) 0)
  resultEnd (setPort d1 p { portOf d1 p with replaced := 0 }) a st

/-- COMMIT copies the administrative list as the pending request, or refuses it (R73, Table 2.26); a request still
pending is replaced, and keeps its own sequence number. -/
def qbvCommit (d : Dev) (p : Nat) : Dev :=
  let n := fld (rd d (aPort p 0x18)) 6 0
  let cyc := (rd d (aPort p 0x1C)).toNat
  let es := (List.range n).map fun i =>
    ((rd d (aGcl p i)).toNat, BitVec.ofNat 8 (fld (rd d (aGcl p i + 4)) 7 0))
  let x := portOf d p
  let x := { x with pendList := none, replaced := x.replaced + if x.pendList.isSome then 1 else 0 }
  let d1 := resultBegin d (aPort p 0x2C)
  if n < 1 ∨ 64 < n ∨ es.any (fun e => decide (e.1 < 64)) then qbvEnd (setPort d1 p x) p (at_ 1 28)
  else if cyc < 1000 ∨ 1000000000 < cyc then qbvEnd (setPort d1 p x) p (at_ 2 28)
  else
    let base := rd64 d (aPort p 0x20)
    setPort d1 p { x with
      pendList := some ⟨es, cyc, base⟩, changeTime := cycleStart base cyc (devTime d + 2000) }

/-- The change time arrives: the pending list becomes operative, its first interval starting (R73). -/
def qbvChangeTime (d : Dev) (p : Nat) : Dev :=
  match (portOf d p).pendList with
  | none => d
  | some g =>
    let x := portOf d p
    if devTime d < x.changeTime then d else
    let l := fitList g.cycle g.entries
    let d1 := setPort d p { x with
      oper := some g, pendList := none, gateIdx := 0
      gateNext := x.changeTime + (l.getD 0 (g.cycle, 0)).1 }
    let d2 := (List.range g.entries.length).foldl (fun d i =>
      let e := g.entries.getD i (0, 0)
      wr (wr d (aGclOper p i) (w32 e.1)) (aGclOper p i + 4) (at_ e.2.toNat 0)) d1
    qbvEnd d2 p 0

/-! ## Device time (R70, R74) -/

/-- Each gate list restarts at the next base + k × cycle in the new time (R74). Until then its last entry's gates hold, and
the change time of a pending list stays as computed (DESIGN CHOICE, assumption 78). -/
def gatesRestart (d : Dev) : Dev :=
  (List.range 11).foldl (fun d p =>
    match (portOf d p).oper with
    | none => d
    | some g =>
      let l := fitList g.cycle g.entries
      setPort d p { portOf d p with
        gateIdx := l.length - 1, gateNext := cycleStart g.base g.cycle (devTime d) }) d

/-- An 802.1AS Sync message on every port of SW_AS_CTRL.PORTS but `except` (R68). -/
def asSend (d : Dev) (except : Nat) : Dev :=
  (List.range 11).foldl (fun d q =>
    if bit (rd d 0x204008) q && decide (q ≠ except) && portPowered d q then pnJudge (sendAside d q (.gptp q (devTime d))) q else d) d

/-- One synchronisation: from a master, an offset of 1 ms or less is slewed and a larger one is removed by a step, which
sets TIME_STEP and restarts the gate lists; as grandmaster or free-running there is nothing to remove
(R68, R70, R74). What a master sends is relayed to the other ports of PORTS (R68); the offset is the one link delay has
been taken out of (DESIGN CHOICE, assumption 77). -/
def asSync (d : Dev) (offset : Int) (slavePort state prio : Nat) : Dev :=
  let r := asRole d slavePort state prio
  let d1 := { d with as_ := { d.as_ with state := r.1, slavePort := r.2 } }
  let d2 := wr d1 0x204010 (if r.1 = 1 ∨ r.1 = 2 then BitVec.ofInt 32 offset else 0)
  let d3 := if r.1 = d.as_.state then d2 else evSw d2 5 0
  if r.1 = 0 ∨ r.1 = 3 then { d3 with as_ := { d3.as_ with slew := 0, slewAcc := 0 } }
  else
    let d4 := if offset.natAbs ≤ 1000000 then { d3 with as_ := { d3.as_ with slew := -offset } }
      else gatesRestart (evSw { d3 with
        timeOff := d3.timeOff - offset, as_ := { d3.as_ with slew := 0, slewAcc := 0 } } 4 0)
    asSend d4 r.2

/-- The 802.1AS time is copied to the always-on domain, with the always-on count at that moment (R33). -/
def timeAonCopy (d : Dev) : Dev := { d with aonTime := devTime d, aonAt := aonCount d }

/-! ## Transmission (R66, R72, R79–R82) -/

/-- Rate of a wire port in bits per second. -/
def portRate (p : Nat) : Nat :=
  if p < 8 then 1000000000 else if p < 10 then 10000000000 else 25000000000

/-- The bytes a frame leaves with: its tag removed, kept or inserted (R60, R61). The DEI bit of a tag it came with stays,
that of a tag inserted here is 0, and a frame that a removed tag leaves shorter than 64 bytes is not padded (DESIGN
CHOICE, assumption 102). -/
def wireBytes (f : Frame) (untag : Bool) : List Byte :=
  match f.body with
  | .eth b =>
    let bare := if hasTag b then b.take 12 ++ b.drop 16 else b
    let dei := if hasTag b && (b.getD 14 0).getLsbD 4 then 4096 else 0
    if untag then bare
    else bare.take 12 ++ [0x81, 0x00] ++ beBytes (f.pcp * 8192 + dei + f.vid) 2 ++ bare.drop 12
  | _ => []

/-- Time on the wire in nanoseconds, preamble, FCS, MACsec expansion and gap included (R72). -/
def wireTime (p len : Nat) (ms : Bool) : Nat :=
  ceilDiv ((len + 4 + 20 + (if ms then 32 else 0)) * 8 * 1000000000) (portRate p)

/-- Whether MACsec protects a frame that leaves port `p`: on a protecting port, every frame but MKA frames (R81). -/
def msProtects (d : Dev) (p : Nat) (f : Frame) : Bool :=
  macsecTx d p && (match f.body with | .eth b => etherType b != 0x888E | _ => true)

/-- MACsec of a frame about to start: it passes unprotected, takes the next PN, or is dropped (none) for want
of a usable association (R81, R82). -/
def msSend (d : Dev) (p : Nat) (f : Frame) : Option Dev :=
  if msProtects d p f then (takePn d p).map (pnJudge · p) else some d

/-- The head of the queue of class `c` at wire port `p`. -/
def wireHead (d : Dev) (p c : Nat) : Option QEntry :=
  d.basin.queues.find? fun e => e.port == p && e.cls == c && e.dest == Dest.wire && !e.sending

/-- A head longer than the longest open interval of its class is dropped (R72); the answer is the
state without such heads, one class at a time. -/
def gateDrop (d : Dev) (p c : Nat) : Dev :=
  match wireHead d p c, (portOf d p).oper with
  | some e, some g =>
    match frameOf d e.uid with
    | some f =>
      let l := fitList g.cycle g.entries
      let t := wireTime p (wireBytes f e.untag).length (msProtects d p f)
      if bit (rd d (aPort p 0)) 28 && !alwaysOpen c l && decide (longestOpen c l < t) then
        leaveQueue (inc d (aPcnt p 10)) e
      else d
    | none => d
  | _, _ => d

/-- Whether the head of class `c` may start: queued, gate open long enough, not paused (R66, R72). -/
def classEligible (d : Dev) (p c : Nat) : Bool :=
  match wireHead d p c with
  | none => false
  | some e =>
    match frameOf d e.uid with
    | none => false
    | some f =>
      (gatesNow d p).getLsbD c && !(portOf d p).paused.getLsbD c &&
      match openFor d p c with
      | none => true
      | some t => decide (wireTime p (wireBytes f e.untag).length (msProtects d p f) ≤ t)

/-- A wire port starts the next frame: from the highest eligible class (R66). `ts` is the egress timestamp the port
takes (R69). -/
def txFrameStart (d : Dev) (p ts : Nat) : Dev :=
  if d.basin.queues.any (fun e => e.port == p && e.dest == Dest.wire && e.sending) || !wireUp d p then d
  else
    let d := (List.range 8).foldl (fun d c => gateDrop d p c) d
    match [7, 6, 5, 4, 3, 2, 1, 0].find? (classEligible d p) with
    | none => d
    | some c =>
      match wireHead d p c with
      | none => d
      | some e =>
        match frameOf d e.uid with
        | none => d
        | some f =>
          match msSend d p f with
          | none => leaveQueue (inc d (aPcnt p 9)) e
          | some d1 => setPort (setEntry d1 e { e with sending := true }) p { portOf d1 p with egressTs := ts }

/-- The frame in transmission leaves the port, with its FCS inverted when its cells could not be read
(R48, R54). -/
def txFrameEnd (d : Dev) (p : Nat) (c : CellRead) : Dev :=
  match d.basin.queues.find? fun e => e.port == p && e.dest == Dest.wire && e.sending with
  | none => d
  | some e =>
    match frameOf d e.uid with
    | none => d
    | some f =>
      let d1 := frameRead d f c
      let b := wireBytes f e.untag
      let good := readGood d f c
      let d2 := emit d1 (.wireFrame p b (msProtects d p f) good)
      let d3 := if good then cntAdd (inc d2 (aPcnt p 6)) (aPcnt p 7) (b.length + 4)
                else inc d2 (aPcnt p 8)
      leaveQueue d3 e

/-! ## Received PFC (R75, R77) -/

/-- A pause time of `q` quanta in ns, rounded up: 512 bit times each, at 10 Gbit/s on EU0 and EU1 and 25 Gbit/s on PL
(R75, IEEE 802.3 Annex 31B, 802.1Q clause 36). -/
def pauseNs (p q : Nat) : Nat := if p = 10 then (512 * q + 24) / 25 else (512 * q + 9) / 10

/-- A received MAC control frame, already counted in PFC_RX: a PFC frame pauses or resumes the enabled
classes it names on ports 8–10. `times` gives each named class its pause time. A class that is paused when
PFC_ENABLE or its CLASS_EN bit is cleared stays paused until its pause time expires, since PFC frames are ignored for it
from then on (DESIGN CHOICE, assumption 79). -/
def pfcObey (d : Dev) (p opcode : Nat) (classes : BitVec 8) (times : List Nat) : Dev :=
  if opcode = 0x0101 ∧ 8 ≤ p ∧ p ≤ 10 then
    (List.range 8).foldl (fun d c =>
      if classes.getLsbD c && pfcOn d p c then
        let x := portOf d p
        let m : BitVec 8 := 1#8 <<< c
        if times.getD c 0 = 0 then
          setPort d p { x with paused := x.paused &&& ~~~m, ignorePause := x.ignorePause &&& ~~~m }
        else if x.ignorePause.getLsbD c then d
        else
          let x1 := if x.paused.getLsbD c then x
            else { x with pauseStart := tset 0 x.pauseStart c d.wall }
          setPort d p { x1 with
            paused := x1.paused ||| m, pauseEnd := tset 0 x1.pauseEnd c (d.wall + pauseNs p (times.getD c 0)) }
      else d) d
  else d

/-- A MAC control frame is taken by the MAC after check 1 of Table 2.3 (R75), on a port that carries traffic (R49). -/
def pfcFrameRx (d : Dev) (p opcode : Nat) (classes : BitVec 8) (times : List Nat) : Dev :=
  if portPowered d p && wireUp d p then pfcObey (inc d (aPcnt p 13)) p opcode classes times else d

/-- The pause time of a class expires (R77). -/
def pfcPauseExpire (d : Dev) (p c : Nat) : Dev :=
  if tget 0 (portOf d p).pauseEnd c ≤ d.wall then
    setPort d p { portOf d p with paused := (portOf d p).paused &&& ~~~(1#8 <<< c) }
  else d

/-- A class has stayed paused for WATCHDOG ms: received pause is ignored for it (R77). -/
def pfcWatchdog (d : Dev) (p c : Nat) : Dev :=
  let x := portOf d p
  let w := fld (rd d (aPort p 0x10)) 31 16
  if x.paused.getLsbD c && decide (w ≠ 0) && decide (8 ≤ p ∧ p ≤ 10)
      && decide (tget 0 x.pauseStart c + 1000000 * w ≤ d.wall) then
    evSw (inc (setPort d p { x with
      paused := x.paused &&& ~~~(1#8 <<< c), ignorePause := x.ignorePause ||| (1#8 <<< c)
      ignoreAt := tset 0 x.ignoreAt c d.wall })
      (aPcnt p 14)) 3 p
  else d

/-- 1 s after a watchdog expiry received pause is obeyed again (R77). -/
def pfcWatchdogEnd (d : Dev) (p c : Nat) : Dev :=
  if tget 0 (portOf d p).ignoreAt c + 1000000000 ≤ d.wall then
    setPort d p { portOf d p with ignorePause := (portOf d p).ignorePause &&& ~~~(1#8 <<< c) }
  else d

/-- Half a pause time passes while XOFF is held: it is sent again while its condition holds (R76). -/
def pfcXoffRepeat (d : Dev) (p c : Nat) : Dev :=
  if (portOf d p).xoff.getLsbD c && pfcOn d p c && wireUp d p && xoffDue d p c then sendPfc d p c true
  else pfcJudge d p c

/-! ## Basin tests (R46, R47) -/

/-- The march ends: the cells that failed are retired and admission begins (R46). -/
def basinMarchEnd (d : Dev) (failed : List Nat) : Dev :=
  if d.basin.marching then
    failed.foldl retireCell (setBasin d { d.basin with marching := false })
  else d

/-- The patrol tests one free cell in service (R46): an error counts, or retires it. An uncorrectable error it finds sets
SW_EVENT.UE like any other (DESIGN CHOICE, assumption 81). -/
def basinPatrol (d : Dev) (c : CellRead) : Dev :=
  match c with
  | .clean => d
  | .corrected k | .uncorrectable k => if cellFree d [] k then cellRead d c else d

/-- The retirement map is copied to flash (R47). -/
def retireMapSave (d : Dev) : Dev :=
  flashKeep d (emit (setBasin d { d.basin with savedRetired := d.basin.retiredCells }) (.flash 0 d.basin.retired))

/-! ## The Logbook (R83–R89) -/

def lbSlip (d : Dev) : Nat := fld (rd d 0x206004) 11 0
/-- Size, SNAP and base of the ring as ENABLE found them. -/
def lbSize (d : Dev) : Nat := 2 ^ clamp 4 16 (fld d.lb.ctrl 19 16)
def lbSnap (d : Dev) : Nat := match fld d.lb.ctrl 13 12 with | 0 => 64 | 1 => 128 | _ => 256
def lbSnapCode (d : Dev) : Nat := min 2 (fld d.lb.ctrl 13 12)

/-- SW_LB_PROD (Table 2.33). -/
def lbProdWord (d : Dev) : Word := flag d.lb.phase 16 ||| at_ d.lb.index 0

/-- A copy that is queued no more is a lost record: counted, with LB_LOST (R87, Table 2.14; for a copy lost because the
slip left ACTIVE R84 names the count alone: DESIGN CHOICE, assumption 83). -/
def lbLose (d : Dev) (c : LbCopy) : Dev :=
  freeIfDone (evSw (inc (setBasin d { d.basin with copies := d.basin.copies.filter (· != c) }) aLbLost) 6 0) c.uid

/-- The Logbook's slip leaves ACTIVE: ENABLE is written 0, and copies still queued are discarded (R84). -/
def lbStop (d : Dev) : Dev :=
  let d1 := wr d 0x206000 (rd d 0x206000 &&& 0x7FFFFFFF)
  evSw (d1.basin.copies.foldl lbLose d1) 10 0

/-- A slip leaves ACTIVE: if it owns the Logbook, enabled or with copies still to be written, the Logbook stops
first (R84, R153). -/
def lbSlipLeaves (d : Dev) (n : Nat) : Dev :=
  if (bit (rd d 0x206000) 31 || !d.basin.copies.isEmpty) && decide (d.lb.slip = n) then lbStop d else d

/-- A write of SW_LB_CTRL: ENABLE 1 only for a slip that can own the Logbook; while ENABLE is 1 only
ENABLE 0 acts (R84, R89). Copies of an earlier session still queued are written to the new session's slip and ring, with
its SNAP (DESIGN CHOICE, assumption 104). -/
def logbookEnable (d : Dev) (v : Word) : Dev :=
  let old := rd d 0x206000
  let v := v &&& 0x800F3701
  if bit old 31 then (if bit v 31 then d else wr d 0x206000 (old &&& 0x7FFFFFFF))
  else if !bit v 31 then wr d 0x206000 v
  else
    let n := lbSlip d
    let s := slipOf d n
    let okSlip := decide (n = 0) || (decide (s.state = .active) && decide (s.cls = 2))
    let okPort := (bit v 0) == (decide (n ≠ 0) && internalSlip d n)
    if okSlip && okPort then
      let d1 := wr d 0x206000 v
      { d1 with lb := { d1.lb with
          index := 0, phase := true, cons := 0, written := 0, consumed := 0
          slip := n, base := rd64 d 0x206008 / 4096 * 4096, ctrl := v } }
    else evSw (wr d 0x206000 (v &&& 0x7FFFFFFF)) 10 0

/-- One bit, and one byte, of the reflected CRC-32 of IEEE 802.3. -/
def fcsBit (c : Word) : Word := if c.getLsbD 0 then (c >>> 1) ^^^ 0xEDB88320 else c >>> 1
def fcsByte (c : Word) (b : Byte) : Word :=
  let x := c ^^^ b.setWidth 32
  fcsBit (fcsBit (fcsBit (fcsBit (fcsBit (fcsBit (fcsBit (fcsBit x)))))))

/-- The frame check sequence of an Ethernet frame, in the order of its bytes on the wire. -/
def fcsOf (b : List Byte) : List Byte := leBytes (b.foldl fcsByte 0xFFFFFFFF ^^^ 0xFFFFFFFF).toNat 4

/-- The stored bytes of a frame (R20), which a record copies: an Ethernet frame to the last byte of its FCS, a CAN
frame's description and data. The description's layout is not stated (Config.canDescription). -/
def storedBytes : FrameBody → List Byte
  | .eth b => b ++ fcsOf b
  | .can m _ _ => (List.range 16).map (Config.canDescription m) ++ m.data
  | .fieldEdge _ _ r => r
  | .snapshot _ r => r
  | .fieldFault _ r => r
  | .samples _ r => r

/-- One record (Table 2.7): its eight header words and SNAP bytes. -/
def lbRecord (d : Dev) (f : Frame) (c : LbCopy) : List Byte :=
  let len := storedLen f
  let snap := lbSnap d
  let w2 := at_ len 16 ||| at_ (kindCode f.body) 12 ||| at_ f.inPort 8 ||| at_ f.cls 5
    ||| flag (decide (snap < len)) 4 ||| at_ (lbSnapCode d) 2 ||| at_ c.cause 0
  let w3 := flag d.lb.phase 31 ||| at_ d.lb.seq 0
  let w7 := match f.src with | some s => flag true 12 ||| at_ s.slip 0 | none => 0
  let hdr := [w32 f.ts, w32 (f.ts >>> 32), w2, w3, c.w4, c.w5, c.w6, w7]
  let data := (storedBytes f.body).take snap
  (hdr.flatMap fun w => leBytes w.toNat 4) ++ data ++ List.replicate (snap - data.length) 0

/-- A record is written: all of it but word 3 of its header, then word 3 (R86). -/
def lbWrite (d : Dev) (a : Nat) (r : List Byte) : Dev :=
  let put (d : Dev) (o n : Nat) : Dev := emit d (.dma d.lb.slip (a + o) ((r.drop o).take n))
  put (put (put d 0 12) 16 (r.length - 16)) 12 4

/-- The oldest queued copy is written to the ring as a record, or discarded when the ring is full or
its cells cannot be read (R48, R86, R87). The ring is full with 2^LOG2SIZE unconsumed records (DESIGN CHOICE,
assumption 83). -/
def logbookRecordWrite (d : Dev) (cr : CellRead) : Dev :=
  match d.basin.copies with
  | [] => d
  | c :: rest =>
    match frameOf d c.uid with
    | none => setBasin d { d.basin with copies := rest }
    | some f =>
      let d1 := frameRead (setBasin d { d.basin with copies := rest }) f cr
      let full := decide (lbSize d ≤ d.lb.written - d.lb.consumed)
      let d2 :=
        if full || !readGood d f cr then evSw (inc d1 aLbLost) 6 0
        else
          let a := d.lb.base + d.lb.index * (32 + lbSnap d)
          let i := (d.lb.index + 1) % lbSize d
          let d2 := lbWrite d1 a (lbRecord d f c)
          { d2 with lb := { d2.lb with
              index := i, phase := if i = 0 then !d2.lb.phase else d2.lb.phase
              seq := (d2.lb.seq + 1) % 65536, written := d2.lb.written + 1 } }
      freeIfDone d2 c.uid

/-- The hold-off ends with unconsumed records: the Logbook interrupt is raised (R89). -/
def logbookInterrupt (d : Dev) : Dev :=
  if d.lb.consumed < d.lb.written then
    sendVec d (lbSlip d)
      (fld (rd d (slipWin (lbSlip d) + 4)) 10 8)
  else d

/-- LB_CONS: accepted only from the owning slip, within the records written, whatever ENABLE holds (R86, R134,
Table 4.6). With the ring full, the index received last returns every record (DESIGN CHOICE, assumption 83). -/
def lbCons (d : Dev) (n v : Nat) : Dev :=
  let i := v % 65536
  let size := lbSize d
  let left := d.lb.written - d.lb.consumed
  let apart := (i + size - d.lb.cons % size) % size
  let span := if apart = 0 ∧ size ≤ left then left else apart
  if lbSlip d = n ∧ i < size ∧ span ≤ left then
    { d with lb := { d.lb with cons := i, consumed := d.lb.consumed + span } }
  else setSlipEv d n 1

/-! ## Counter clears (Table 2.17, R92) -/

def swClearPeaks (d : Dev) : Dev := setBasin d { d.basin with peak := inUse d }
def swClearPcnt (d : Dev) : Dev := clearCnts d 0x21C900 0x21D000
def swClearGdrop (d : Dev) : Dev := clearCnts (clearCnts d 0x21C800 0x21C840) aPdrop (aPdrop + 8)
def swClearEdrop (d : Dev) : Dev := clearCnts d 0x21C400 0x21C800
def swClearDrop (d : Dev) : Dev := clearCnts (clearCnts d 0x21C000 0x21C400) aLbLost aPdrop

/-! ## Meanings -/

def execTimeAonCopy (s : State) : Answer := onDev timeAonCopy s
def execPfcXoffRepeat (p : Fin 11) (c : Fin 8) (s : State) : Answer := onDev (pfcXoffRepeat · p c) s
def execTxFrameStart (p : Fin 11) (ts : Nat) (s : State) : Answer := onDev (txFrameStart · p ts) s
def execTxFrameEnd (p : Fin 11) (c : CellRead) (s : State) : Answer := onDev (txFrameEnd · p c) s
def execBasinMarchEnd (failed : List Nat) (s : State) : Answer := onDev (basinMarchEnd · failed) s
def execBasinPatrol (c : CellRead) (s : State) : Answer := onDev (basinPatrol · c) s
def execRetireMapSave (s : State) : Answer := onDev retireMapSave s
def execLimitCommit (s : State) : Answer := onDev limitCommit s
def execLimitApplied (s : State) : Answer := onDev limitApplied s
def execPortDisable (p : Fin 11) (s : State) : Answer := onDev (portDisable · p) s
def execPortLinkLoss (p : Fin 11) (s : State) : Answer := onDev (portLinkLoss · p) s
def execPortLinkUp (p : Fin 11) (s : State) : Answer := onDev (portLinkUp · p) s
def execAsSync (offset : Int) (slavePort : Fin 16) (state : Fin 4) (prio : Byte) (s : State) : Answer :=
  onDev (asSync · offset slavePort state prio.toNat) s
def execGateChange (p : Fin 11) (s : State) : Answer := onDev (gateChange · p) s
def execQbvCommit (p : Fin 11) (s : State) : Answer := onDev (qbvCommit · p) s
def execQbvChangeTime (p : Fin 11) (s : State) : Answer := onDev (qbvChangeTime · p) s
def execPfcFrameRx (p : Fin 11) (opcode : BitVec 16) (classes : BitVec 8) (times : List (BitVec 16)) (s : State) :
    Answer := onDev (pfcFrameRx · p opcode.toNat classes (times.map (·.toNat))) s
def execPfcPauseExpire (p : Fin 11) (c : Fin 8) (s : State) : Answer := onDev (pfcPauseExpire · p c) s
def execPfcWatchdog (p : Fin 11) (c : Fin 8) (s : State) : Answer := onDev (pfcWatchdog · p c) s
def execPfcWatchdogEnd (p : Fin 11) (c : Fin 8) (s : State) : Answer := onDev (pfcWatchdogEnd · p c) s
def execLogbookEnable (v : Word) (s : State) : Answer := onDev (logbookEnable · v) s
def execLogbookRecordWrite (c : CellRead) (s : State) : Answer := onDev (logbookRecordWrite · c) s
def execLogbookInterrupt (s : State) : Answer := onDev logbookInterrupt s
def execSwClearPeaks (s : State) : Answer := onDev swClearPeaks s
def execSwClearPcnt (s : State) : Answer := onDev swClearPcnt s
def execSwClearGdrop (s : State) : Answer := onDev swClearGdrop s
def execSwClearEdrop (s : State) : Answer := onDev swClearEdrop s
def execSwClearDrop (s : State) : Answer := onDev swClearDrop s

end Sys2Proof.Machine
end

