-- ==== Sys2Proof/Machine/Can.lean ====
section
/-! DEFINITION. CAN channels (06): leaving CONFIG, reception and the high-priority buffer, loading and
arbitration, errors and bus-off, collisions, faults and the channel commands. -/

namespace Sys2Proof.Machine

def aCanCnt (n k : Nat) : Nat := canBase n + 0x2000 + 8 * k
def canInc (d : Dev) (n k : Nat) : Dev := inc d (aCanCnt n k)

/-- MODE of CAN_CTRL in effect: 0 normal, 1 bus monitoring, 2 restricted operation; 3 acts as 0. -/
def canMode (c : Can) : Nat := match fld c.ctrl 27 26 with | 1 => 1 | 2 => 2 | _ => 0
def canFd (c : Can) : Bool := bit c.ctrl 25
def canXl (n : Nat) (c : Can) : Bool := bit c.ctrl 24 && decide (n < 4)

/-- Whether a channel can decode a frame of this format: CAN FD with FD_EN, CAN XL on CA0–CA3 with XL_EN (R201). -/
def canDecodes (n : Nat) (c : Can) (m : CanMsg) : Bool :=
  match m.fmt.val with
  | 2 => canFd c
  | 3 => canFd c
  | 4 => canXl n c
  | _ => true

/-! ## Leaving CONFIG (R187, Tables 6.3, 6.4) -/

/-- Bit length in time quanta and rate bounds of a setting: BRP, TSEG1, TSEG2, SJW. -/
structure BitTime where
  brp : Nat
  t1 : Nat
  t2 : Nat
  sjw : Nat

def nomTime (w : Word) : BitTime := ⟨fld w 7 0 + 1, fld w 23 16 + 1, fld w 14 8 + 1, fld w 30 24 + 1⟩
def dataTime (w : Word) : BitTime := ⟨fld w 4 0 + 1, fld w 20 16 + 1, fld w 11 8 + 1, fld w 27 24 + 1⟩

/-- Clocks of one bit at 80 MHz. -/
def bitClocks (t : BitTime) : Nat := t.brp * (1 + t.t1 + t.t2)

/-- A rate within Table 6.3: nominal 10 kbit/s to 1 Mbit/s, data from the nominal rate up to `top`. -/
def nomRateOk (t : BitTime) : Bool := decide (80 ≤ bitClocks t) && decide (bitClocks t ≤ 8000)
def dataRateOk (nom t : BitTime) (top : Nat) : Bool :=
  decide (80000000 ≤ top * bitClocks t) && decide (bitClocks t ≤ bitClocks nom)

/-- The first failing check of Table 6.4, 0 for none. -/
def cfgCheck (n : Nat) (ctrl nbt dbt xbt tdc : Word) : Nat :=
  let nom := nomTime nbt
  let fd := dataTime dbt
  let xl := dataTime xbt
  let useFd := bit ctrl 25
  let useXl := bit ctrl 24 && decide (n < 4)
  let tdcOn := bit tdc 31
  if nom.t1 < 2 ∨ nom.t2 < 2 then 1
  else if !(nomRateOk nom) || (useFd && !dataRateOk nom fd 8000000)
      || (useXl && !dataRateOk nom xl 10000000) then 2
  else if nom.t2 < nom.sjw ∨ (useFd ∧ fd.t2 < fd.sjw) ∨ (useXl ∧ xl.t2 < xl.sjw) then 3
  else if bit nbt 31 && (decide (bitClocks nom < 640) || decide (nom.t1 < 3)) then 4
  else
    let fast (t : BitTime) : Bool := decide (bitClocks t < 40)
    let bad (use : Bool) (t : BitTime) : Bool :=
      use && ((fast t && !tdcOn) || (tdcOn && decide (2 < t.brp)))
    if bad useFd fd || bad useXl xl then 5 else 0

/-! ## States and counters (R199, R200) -/

/-- WARN follows the counters; its rise sets the event. -/
def canWarn (d : Dev) (n : Nat) : Dev :=
  let c := canOf d n
  let w := decide (96 ≤ c.tec ∨ 96 ≤ c.recv)
  let d1 := setCan d n { c with warn := w }
  if w && !c.warn then evCan d1 n 0 else d1

/-- TEC added when the sender of a frame finds an error (R199): 8 as it sends its error flag, unless it is error passive
and finds no acknowledgement and no dominant bit during its flag, or finds the stuff error in arbitration that ISO
11898-1 excepts; 8 more for each run of eight dominant bits after a flag. -/
def tecRise (passive : Bool) (code : Nat) (x : ErrDetail) : Nat :=
  (if (decide (code = 4) && passive && x.quiet) || (decide (code = 2) && x.arbStuff) then 0 else 8) + 8 * x.runs.val

/-- REC added when a receiver finds an error (R199): 1, or 8 for a bit error while it sends an active error or overload
flag; 8 for a dominant bit right after its flag, and for each run of eight dominant bits after it. -/
def recRise (code : Nat) (x : ErrDetail) : Nat :=
  (if code = 1 ∧ x.inFlag then 8 else 1) + (if x.domAfter then 8 else 0) + 8 * x.runs.val

/-- A loaded frame leaves the channel abandoned: TX_FAILED, its confirmation, its cells (R197). -/
def canAbandon (d : Dev) (n : Nat) (x : CanLoaded) (collided : Bool) : Dev :=
  let c := canOf d n
  let d1 := setCan d n { c with
    loaded := c.loaded.filter (·.uid != x.uid)
    onBus := if c.onBus = some x.uid then none else c.onBus }
  let d2 := canReport (canInc d1 n 4) x.uid n false collided 0
  match d2.basin.queues.find? fun e => e.uid == x.uid && e.dest == Dest.can n && e.sending with
  | some e => leaveQueue d2 e
  | none => d2

/-- Every loaded frame is abandoned (Table 6.5, channel stops). -/
def canAbandonAll (d : Dev) (n : Nat) : Dev :=
  (canOf d n).loaded.foldl (fun d x => canAbandon d n x false) d

/-- Every loaded frame but the one on the bus is abandoned; that one's attempt runs to its end, and if it fails the
frame is abandoned then (R197). -/
def canAbandonOff (d : Dev) (n : Nat) : Dev :=
  let c := canOf d n
  let mark (x : CanLoaded) : CanLoaded := if c.onBus = some x.uid then { x with abort := true } else x
  let d1 := setCan d n { c with loaded := c.loaded.map mark }
  (c.loaded.filter fun x => c.onBus != some x.uid).foldl (fun d x => canAbandon d n x false) d1

/-- The state the counters call for among ACTIVE, PASSIVE and BUS_OFF (Table 6.6). -/
def canJudge (d : Dev) (n : Nat) : Dev :=
  let d := canWarn d n
  let c := canOf d n
  if canOnline c then
    if 255 < c.tec then
      canAbandonAll (evCan (canInc (setCan d n { c with state := .busOff, tec := 256 }) n 13) n 2) n
    else if c.state = .active ∧ (128 ≤ c.tec ∨ 128 ≤ c.recv) then
      evCan (setCan d n { c with state := .passive }) n 1
    else if c.state = .passive ∧ c.tec < 128 ∧ c.recv < 128 then
      setCan d n { c with state := .active }
    else d
  else d

/-- The counters change only in normal mode and while the transceiver listens (R199, R212). -/
def canCounts (d : Dev) (n : Nat) : Bool := decide (canMode (canOf d n) = 0) && !(netOf d n).frozen

/-! ## ENABLE (R187, R200) -/

/-- ENABLE written 1 in CONFIG: the checks pass and the channel integrates, or the code is written. The
other fields of the write are taken as written. While an ordered stop waits for the frame on the bus, ENABLE stays 0
(DESIGN CHOICE, assumption 41). -/
def canEnable (d : Dev) (n : Nat) (v : Word) : Dev :=
  let v := v &&& rwMask (canBase n)
  let c := canOf d n
  let d := wr d (canBase n) (if c.stopping then v &&& 0x7FFFFFFF else v ||| 0x80000000)
  if c.state = .config then
    let ctrl := rd d (canBase n)
    let nbt := rd d (canBase n + 0x10)
    let dbt := rd d (canBase n + 0x14)
    let xbt := rd d (canBase n + 0x18)
    let tdc := rd d (canBase n + 0x1C)
    match cfgCheck n ctrl nbt dbt xbt tdc with
    | 0 =>
      let d1 := setCan d n { c with
        state := .integrating, cfgErr := 0, tec := 0, recv := 0, warn := false
        ctrl := ctrl, nbt := nbt, dbt := dbt, xbt := xbt, tdc := tdc }
      if bit (netCfg d1 n) 31 then netStart d1 n else d1
    | k => evCan (setCan (wr d (canBase n) (v &&& 0x7FFFFFFF)) n { c with cfgErr := k }) n 9
  else d

/-- The channel enters CONFIG: loaded frames are abandoned; its network machine stops awake with the transceiver in
normal mode (Tables 6.6, 7.2). -/
def canConfig (d : Dev) (n : Nat) : Dev :=
  let d1 := canAbandonAll d n
  let d2 := setCan d1 n { canOf d1 n with state := .config, onBus := none, stopping := false, boDue := false }
  if bit (netCfg d2 n) 31 then netStop d2 n else d2

/-- Once the attempt on the bus has ended, a stop that waited for it is made (Table 6.6). -/
def canEnded (d : Dev) (n : Nat) : Dev :=
  if (canOf d n).stopping && (canOf d n).onBus.isNone then canConfig d n else d

/-- ENABLE written 0: the channel goes to CONFIG, where its loaded frames are abandoned; a frame on the bus ends first
(Tables 6.5, 6.6). -/
def canDisable (d : Dev) (n : Nat) : Dev :=
  let d := wr d (canBase n) (rd d (canBase n) &&& 0x7FFFFFFF)
  let c := canOf d n
  if c.state = .config then d
  else if c.onBus.isSome then setCan d n { c with stopping := true }
  else canConfig d n

/-- 11 consecutive recessive bits end integration (Table 6.6); a call that waited is sent (R219). -/
def canBusIntegrated (d : Dev) (n : Nat) : Dev :=
  let c := canOf d n
  if c.state = .integrating ∧ (netOf d n).frozen = false ∧ coreUp d 4 = true then
    callGo (setCan d n { c with state := .active }) n
  else d

/-! ## Bus errors (R199, R203) -/

/-- CAN_ERRLAST after an error (Table 6.16). -/
def canErrLast (d : Dev) (n code : Nat) (sending : Bool) (phase : Nat) : Dev :=
  let c := canOf d n
  let k := (c.errCount + 1) % 65536
  wr (setCan d n { c with errCount := k }) (canBase n + 0x24)
    (at_ code 29 ||| flag sending 28 ||| at_ phase 26 ||| at_ k 0)

/-- The counter of an error code (Table 6.25). -/
def errCounter (code : Nat) : Nat :=
  match code with | 1 => 8 | 2 => 9 | 3 => 10 | 4 => 11 | _ => 12

/-- A bus error (R199, R203): `code` 1 bit, 2 stuff, 3 form, 4 acknowledgement, 5 CRC; the sender's TEC or the
receiver's REC rises as ISO 11898-1 gives; `window` says a bit error fell in the collision window after
arbitration was won. -/
def canBusError (d : Dev) (n code : Nat) (phase : Nat) (window : Bool) (x : ErrDetail) : Dev :=
  let c := canOf d n
  if !canOnline c || (netOf d n).frozen || !coreUp d 4 then d
  else
    let sending := c.onBus.isSome || (x.inFlag && x.sender)
    let coll := c.onBus.isSome && window && decide (code = 1)
    let d := canErrLast (canInc d n (errCounter code)) n (if coll then 6 else code) sending phase
    let d := if canCounts d n then
        let c := canOf d n
        setCan d n (if sending then { c with tec := c.tec + tecRise (decide (c.state = .passive)) code x }
          else { c with recv := min 255 (c.recv + recRise code x) })
      else d
    let c := canOf d n
    let cfg := rd d (canBase n + 0x28)
    match c.onBus.bind fun u => c.loaded.find? (·.uid == u) with
    | none => canEnded (canJudge (setCan d n { c with onBus := none }) n) n
    | some x =>
      let x1 := if coll then { x with coll := x.coll + 1 } else x
      let d1 := setCan d n { c with
        onBus := none, loaded := c.loaded.map fun y => if y.uid = x.uid then x1 else y }
      if coll && decide (atLeast1 (fld cfg 19 16) ≤ x1.coll) then
        let d2 := canInc d1 n 7
        let d3 := wr (wr d2 (canBase n + 0x40) (at_ x.msg.id.toNat 0)) (canBase n + 0x44)
          (at_ x.msg.fmt.val 4)
        let d4 := evCan (wr64 d3 (canBase n + 0x48) c.sof) n 5
        canEnded (canJudge (canAbandon d4 n x1 true) n) n
      else if (bit cfg 31 || x.abort) = true then canEnded (canJudge (canAbandon d1 n x1 false) n) n
      else canEnded (canJudge d1 n) n

/-! ## Reception (R190–R194) -/

/-- Whether an entry of the acceptance or high-priority table matches (R191). -/
def canMatch (d : Dev) (a : Nat) (m : CanMsg) : Bool :=
  let w2 := rd d (a + 8)
  bit w2 31 && bit w2 m.fmt.val &&
    decide (at_ m.id.toNat 0 &&& rd d (heldAt a + 4) = rd d (heldAt a) &&& rd d (heldAt a + 4))

def aAcc (n k : Nat) : Nat := canBase n + 0x1000 + 16 * k
def aHp (n k : Nat) : Nat := canBase n + 0x1800 + 16 * k

/-- The acceptance test: the class of the accepted frame, none when it is rejected (R192). -/
def acceptTest (d : Dev) (n : Nat) (m : CanMsg) : Option Nat :=
  let cfg := rd d (canBase n + 0x2C)
  let dflt := fld cfg 2 0
  let hits := (List.range 128).filter fun k => canMatch d (aAcc n k) m
  match fld cfg 31 30 with
  | 1 =>
    if hits = [] then none
    else match hits.find? fun k => bit (rd d (aAcc n k + 8)) 23 with
      | some k => some (fld (rd d (aAcc n k + 8)) 22 20)
      | none => some dflt
  | 2 => if hits = [] then some dflt else none
  | _ => some dflt

/-- Whether the high-priority destination can take frames (R193). -/
def hpTakes (d : Dev) (dest : Word) : Bool :=
  let n := fld dest 11 0
  let r := fld dest 18 16
  let s := slipOf d n
  decide (s.state = .active) && (decide (s.cls = 0) || decide (s.cls = 3)) &&
    bit (ringCfg d n r) 31 && rxMode d n r

/-- A frame for the high-priority buffer: stored, or counted as overrun or skipped (R193). -/
def hpStore (d : Dev) (n : Nat) (m : CanMsg) (ts : Nat) : Dev :=
  let c := canOf d n
  if !hpTakes d (rd d (canBase n + 0x50)) then canInc d n 15
  else if 32 ≤ c.hp.length then evCan (canInc d n 14) n 6
  else setCan d n { c with hp := c.hp ++ [⟨m, ts, fld (rd d (canBase n + 0x2C)) 2 0⟩] }

/-- Frames waiting for a destination that has stopped taking them leave the buffer counted (R193), and so do the LLDP
copies waiting for it, for which no counter is named (R225). -/
def hpPurge (d : Dev) (slip ring : Nat) (whole : Bool) : Dev :=
  let goes (dest : Word) : Bool := decide (fld dest 11 0 = slip ∧ (whole ∨ fld dest 18 16 = ring))
  let d1 := (List.range 16).foldl (fun d n =>
    if goes (rd d (canBase n + 0x50)) then
      let c := canOf d n
      setCan (cntAdd d (aCanCnt n 15) c.hp.length) n { c with hp := [] }
    else d) d
  if goes (rd d1 0xE00014) then { d1 with nws := { d1.nws with copies := [] } } else d1

/-- Whether the identifier carries the Hail prefix in extended format (R218). -/
def isHail (d : Dev) (n : Nat) (m : CanMsg) : Bool :=
  decide (m.fmt.val = 1 ∨ m.fmt.val = 3) && decide (m.id.toNat >>> 26 = fld (rd d (netBase n + 0x60)) 7 5)

/-- A received Hail frame takes a place in the 64-frame buffer, or overruns it; one that asks nothing of the caller is
taken out as the Quaymaster comes to it (R218). -/
def hailStore (d : Dev) (n : Nat) (m : CanMsg) : Dev :=
  let x := netOf d n
  if 64 ≤ x.hailHeld then evNws (inc d (netBase n + 0x80 + 8 * 8)) n 7
  else
    let d1 := setNet d n { x with hailHeld := x.hailHeld + 1 }
    if hailAsks d m then d1 else qmPost d1 3 (.hail (.skip n)) (hailTaken · n)

/-- A frame the channel cannot decode: with PEX it enters bus integration, without it is a form error
(R201). -/
def canUndecoded (d : Dev) (n : Nat) (err : Dev → Dev) : Dev :=
  let c := canOf d n
  if bit c.ctrl 23 then evCan (canInc (setCan d n { c with state := .integrating }) n 16) n 8
  else err d

/-- A frame becomes valid at a channel (R190): Hail frames are passed to the Quaymaster's buffer (R218),
then the high-priority buffer, the acceptance test and the Basin; with the fabric in reset it is
counted in RX_DISCARD (R33). A successful reception lowers REC (R199). The frames of a channel of World S
go to the Lock alone (R355). -/
def canFrameRx (d : Dev) (n : Nat) (m : CanMsg) (ts : Nat) : Dev :=
  let c := canOf d n
  if !canOnline c || (netOf d n).frozen || !coreUp d 4 then d
  else if !canDecodes n c m then canUndecoded d n (canBusError · n 3 0 false {})
  else
    let d := canInc d n 0
    let d := if canCounts d n then
        let c := canOf d n
        canJudge (setCan d n { c with
          recv := if 127 < c.recv then 119 else c.recv - 1 }) n
      else d
    if sOwned d n then emit d (.lockCan n m) else
    let d := if bit (rd d (netBase n)) 31 && isHail d n m then hailStore d n m else d
    let hit := if bit (rd d (canBase n + 0x50)) 31 then
        (List.range 16).find? fun k => canMatch d (aHp n k) m else none
    let d := if hit.isSome then hpStore d n m ts else d
    let pass := match hit with | some k => bit (rd d (aHp n k + 8)) 30 | none => true
    if pass then
      match acceptTest d n m with
      | none => canInc d n 1
      | some cls =>
        if fabricUp d then
          (enterBasin d { uid := 0, body := .can m (Fin.ofNat 16 n) false, inPort := 13, cls := cls,
                          ts := ts, vid := fld (rd d (aPort 13 4)) 11 0, pcp := cls }).2
        else canInc d n 2
    else d

/-- The bytes a CAN delivery writes (R143). -/
def canDelivered (m : CanMsg) : List Byte :=
  if m.fmt = 4 then leBytes m.af.toNat 4 ++ m.data else m.data

/-- C7 of a delivered CAN frame (Table 4.10). -/
def canC7 (m : CanMsg) (ch : Nat) : Word :=
  at_ m.vcid.toNat 24 ||| at_ m.sdt.toNat 16 ||| at_ (if m.rtr then m.dlc else 0) 11 ||| flag m.sec 10
    ||| flag m.brs 9 ||| flag m.esi 8 ||| flag m.rtr 7 ||| at_ m.fmt.val 4 ||| at_ ch 0

/-- The oldest frame of the high-priority buffer is written into the next fetched RX_BUF of its ring and
its vector is sent at once (R193). -/
def hpDeliver (d : Dev) (n : Nat) : Dev :=
  let dest := rd d (canBase n + 0x50)
  let s := fld dest 11 0
  let r := fld dest 18 16
  match (canOf d n).hp, startOp d s r 1 with
  | h :: t, some x =>
    let b := canDelivered h.msg
    let room := fld (dw x 4) 15 0
    let d1 := setCan d n { canOf d n with hp := t }
    let d2 := emit d1 (.dma s (bufAddr x) (b.take room))
    let kind := kindCode (.can h.msg (Fin.ofNat 16 n) false)
    let d3 := finish d2 s r x.idx
      { status := if room < b.length then 0x0A else 0, ts := h.ts,
        c4 := at_ b.length 16 ||| at_ kind 12 ||| at_ 13 8 ||| at_ h.cls 5,
        c5 := 0x00010000, c6 := at_ h.msg.id.toNat 0, c7 := canC7 h.msg n }
    sendVec d3 s (fld dest 26 24)
  | _, _ => d

/-! ## Transmission (R195–R198) -/

/-- Why a channel refuses to load a frame (R198). -/
def canRefuses (n : Nat) (c : Can) (m : CanMsg) : Bool :=
  !(c.state == .integrating || canOnline c) || canMode c != 0 ||
    (decide (m.fmt = 4) && !canXl n c) || (decide (m.fmt.val = 2 ∨ m.fmt.val = 3) && !canFd c)

/-- The network lets frames load: AWAKE, or no network machine (R215). -/
def netAwake (d : Dev) (n : Nat) : Bool :=
  !bit (rd d (netBase n)) 31 || (decide ((netOf d n).state = .awake) && !(netOf d n).waking)

def fifoUsed (c : Can) : Nat := (c.loaded.filter (·.slot.isNone)).length
def mbFree (c : Can) : Option Nat :=
  (List.range 32).find? fun m => !c.loaded.any fun x => x.slot == some m

/-- The queue entry to act on next: highest class first, among those a place of their kind is free for
(R195). -/
def canHead (d : Dev) (n : Nat) : Option QEntry :=
  let c := canOf d n
  let mb := fld (rd d (canBase n + 0x28)) 26 24
  [7, 6, 5, 4, 3, 2, 1, 0].findSome? fun k =>
    if (if mb ≤ k then (mbFree c).isSome else decide (fifoUsed c < 16)) then
      d.basin.queues.find? fun e => e.dest == Dest.can n && e.cls == k && !e.sending
    else none

/-- The first queued frame a channel would discard without loading, whatever places are free. -/
def canDoomed (d : Dev) (n : Nat) : Option QEntry :=
  d.basin.queues.find? fun e => e.dest == Dest.can n && !e.sending &&
    match frameOf d e.uid with
    | some f => (match f.body with | .can m _ _ => canRefuses n (canOf d n) m | _ => false)
    | none => false

/-- A queued frame is discarded without loading: counted and reported FAILED (R198). -/
def canDiscard (d : Dev) (n : Nat) (e : QEntry) : Dev :=
  leaveQueue (canReport (canInc d n 5) e.uid n false false 0) e

/-- A queued frame is loaded into a mailbox or the FIFO, or discarded and reported FAILED (R195, R198);
while the network is not awake it waits (R215). For a channel of World S it is discarded and counted in
S_DISCARD (R355). `cr` is how its cells read (R43); a frame that cannot be read is discarded as R198 discards one: R48
names no destination on port 13 (DESIGN CHOICE, assumption 84). -/
def canTxLoad (d : Dev) (n : Nat) (cr : CellRead) : Dev :=
  if (canOf d n).stopping || !coreUp d 4 then d
  else if sOwned d n then
    match d.basin.queues.find? fun e => e.dest == Dest.can n && !e.sending with
    | some e => leaveQueue (canReport (inc d 0x1300418) e.uid n false false 0) e
    | none => d
  else if !netAwake d n then d
  else
    match canDoomed d n with
    | some e => canDiscard d n e
    | none =>
      match canHead d n with
      | none => d
      | some e =>
        match frameOf d e.uid with
        | none => d
        | some f =>
          let good := readGood d f cr
          let d := frameRead d f cr
          if !good then canDiscard d n e
          else
          match f.body with
          | .can m _ _ =>
            let c := canOf d n
            let mb := fld (rd d (canBase n + 0x28)) 26 24
            let slot := if mb ≤ e.cls then mbFree c else none
            setCan (setEntry d e { e with sending := true }) n
              { c with loaded := c.loaded ++ [⟨slot, e.uid, m, e.cls, d.wall, 0, false⟩] }
          | _ => d

/-- The arbitration key of a message: base identifier, format, extension, data before remote
(R196). -/
def arbKey (m : CanMsg) : Nat :=
  let ext := m.fmt = 1 ∨ m.fmt = 3
  let base := if ext then m.id.toNat >>> 18 else m.id.toNat % 2048
  let rest := if ext then m.id.toNat % 262144 else 0
  ((base * 2 + (if ext then 1 else 0)) * 262144 + rest) * 2 + (if m.rtr then 1 else 0)

/-- The candidates: every mailbox and the head of the FIFO. -/
def canCandidates (c : Can) : List CanLoaded :=
  c.loaded.filter fun x => x.slot.isSome ||
    (c.loaded.find? fun y => y.slot.isNone).any fun y => y.uid == x.uid

/-- The candidate with the highest arbitration priority; ties in order of loading (R196). -/
def canOffer (c : Can) : Option CanLoaded :=
  (canCandidates c).foldl (fun a x =>
    match a with
    | none => some x
    | some y => if arbKey x.msg < arbKey y.msg then some x else some y) none

/-- The waiting keep-alive is offered before the loaded frames when it has the highest arbitration
priority (R196, R208). -/
def kaFirst (d : Dev) (n : Nat) : Bool :=
  (netOf d n).kaPending &&
    match canOffer (canOf d n) with
    | none => true
    | some y => decide (arbKey (ownKeepAlive d n) < arbKey y.msg)

/-- A start-of-frame opportunity: the best candidate goes on the bus. With `lost` it loses arbitration,
counts, and with ONE_SHOT is abandoned. A frame sent with a data phase (CAN FD with BRS, CAN XL) has its loop delay
`delay` measured, in mtq (R189, R196). -/
def canTxAttempt (d : Dev) (n : Nat) (lost : Bool) (delay : Nat) (sof : Nat) : Dev :=
  let c := canOf d n
  if !canOnline c || c.onBus.isSome || (netOf d n).frozen || !coreUp d 4 then d
  else if kaFirst d n && decide (canMode c = 0) then
    if lost then canInc d n 6 else setCan d n { c with onBus := some 0, sof := sof }
  else
    match canOffer c with
    | none => d
    | some x =>
      let dataPhase := decide (x.msg.fmt = 4) || (decide (2 ≤ x.msg.fmt.val) && x.msg.brs)
      let c1 :=
        if bit c.tdc 31 && dataPhase && !lost && decide (fld c.tdc 22 16 ≤ delay) then
          { c with measured := min 127 delay, tdcSat := decide (127 < delay + fld c.tdc 6 0) }
        else c
      if lost then
        let d1 := canInc (setCan d n c1) n 6
        if bit (rd d (canBase n + 0x28)) 31 then canAbandon d1 n x false else d1
      else setCan d n { c1 with onBus := some x.uid, sof := sof }

/-- The ESI a channel sends is its own error state (R464). -/
def sentMsg (c : Can) (m : CanMsg) : CanMsg :=
  { m with esi := decide (m.fmt.val = 2 ∨ m.fmt.val = 3) && decide (c.state = .passive) }

/-- The attempt on the bus succeeds (a frame, or the keep-alive, which `onBus` names 0): TX_OK, TEC falls, the frame leaves its place (R197). -/
def canTxOk (d : Dev) (n : Nat) : Dev :=
  let c := canOf d n
  let tec := if canCounts d n then c.tec - 1 else c.tec
  match (if coreUp d 4 then c.onBus else none) with
  | none => d
  | some uid =>
    match c.loaded.find? (·.uid == uid) with
    | none =>
      let d1 := emit (canInc (setCan d n { c with onBus := none, tec := tec }) n 3)
        (.keepAlive n (ownKeepAlive d n))
      canEnded (canJudge (kaSent d1 n) n) n
    | some x =>
      let d1 := setCan d n { c with
        onBus := none, tec := tec, loaded := c.loaded.filter (·.uid != uid) }
      let d2 := canReport (emit (canInc d1 n 3) (.canFrame n (sentMsg c x.msg))) uid n true false c.sof
      let d3 := canJudge d2 n
      canEnded (match d3.basin.queues.find? fun e => e.uid == uid && e.dest == Dest.can n && e.sending with
        | some e => leaveQueue d3 e
        | none => d3) n

/-- A loaded frame reaches TX_TIMEOUT with no attempt on the bus (Table 6.5). -/
def canTxTimeout (d : Dev) (n i : Nat) : Dev :=
  let c := canOf d n
  match c.loaded[i]? with
  | none => d
  | some x =>
    let ms := fld (rd d (canBase n + 0x28)) 15 0
    if ms = 0 ∨ d.wall < x.at_ + 1000000 * ms ∨ c.onBus.isSome ∨ coreUp d 4 = false then d
    else canAbandon (evCan d n 4) n x false

/-! ## Bus-off, faults, commands (R200–R202) -/

/-- BO_DELAY passes with automatic recovery (Table 6.6); while the network is frozen the channel keeps its state, and the
passage is acted on when the controller is online again (R212; DESIGN CHOICE, assumption 89). -/
def canBoDelayExpire (d : Dev) (n : Nat) : Dev :=
  let c := canOf d n
  if c.state = .busOff ∧ ¬ bit c.ctrl 22 then
    if (netOf d n).frozen then setCan d n { c with boDue := true }
    else if !coreUp d 4 then d
    else setCan d n { c with state := .recovering, recov := 0 }
  else d

/-- One sequence of 11 recessive bits in RECOVERING; the 128th ends recovery (Table 6.6). -/
def canRecovered (d : Dev) (n : Nat) : Dev :=
  let c := canOf d n
  if c.state = .recovering ∧ (netOf d n).frozen = false ∧ coreUp d 4 = true then
    callGo (evCan (setCan d n { c with state := .active, tec := 0, recv := 0, warn := false, recov := 128 }) n 3) n
  else d

def canEnd (d : Dev) (n st : Nat) : Dev := resultEnd d (canBase n + 0x38) (at_ st 28)

/-- CAN_CMD RECOVER (Table 6.6). A frozen channel keeps its state (R212): the command ends WRONG_STATE (DESIGN CHOICE,
assumption 89). -/
def canRecover (d : Dev) (n : Nat) : Dev :=
  let c := canOf d n
  if !resultValid d (canBase n + 0x38) then d
  else if c.state = .busOff ∧ (netOf d n).frozen = false then
    canEnd (setCan d n { c with state := .recovering, recov := 0, boDue := false }) n 0
  else canEnd d n 1

/-- CAN_CMD ABORT_TX (Table 6.5): an attempt on the bus runs to its end first, and if it fails its frame is abandoned
then. -/
def canAbortTx (d : Dev) (n : Nat) : Dev :=
  if !resultValid d (canBase n + 0x38) then d else canEnd (canAbandonOff d n) n 0

def canBadOp (d : Dev) (n : Nat) : Dev :=
  if resultValid d (canBase n + 0x38) then canEnd d n 2 else d

/-- A channel goes OFFLINE: the attempt is cut and every loaded frame abandoned (R202, Table 6.6); a stop that waited
for the attempt is then made. A frozen channel keeps its state until its controller is online (R212). -/
def canOffline (d : Dev) (n : Nat) : Dev :=
  let c := canOf d n
  if c.state = .config ∨ c.state = .offline ∨ (netOf d n).frozen = true then d
  else
    let d1 := canAbandonAll (setCan d n { c with onBus := none }) n
    canEnded (evCan (setCan d1 n { canOf d1 n with state := .offline, boDue := false }) n 7) n

/-- An OFFLINE channel with no fault left integrates again (Table 6.6), when it is not frozen (R212). -/
def canOnlineAgain (d : Dev) (n : Nat) : Dev :=
  let c := canOf d n
  if c.state = .offline ∧ ¬ c.supplyFault ∧ ¬ c.thermalFault ∧ (netOf d n).frozen = false then
    setCan d n { c with state := .integrating, tec := 0, recv := 0, warn := false }
  else d

/-- A channel goes OFFLINE or integrates again by the faults that stand. A controller without clock or power keeps its
state until its clock is back (Table 14.2, R393). -/
def canFaultJudge (d : Dev) (n : Nat) : Dev :=
  if !coreUp d 4 then d
  else if (canOf d n).supplyFault || (canOf d n).thermalFault then canOffline d n
  else canOnlineAgain d n

/-- A supply fault takes the four channels of the group OFFLINE, a thermal shutdown its own (R202). -/
def canTrcvFault (d : Dev) (n : Nat) (supply : Bool) : Dev :=
  if supply then
    [0, 1, 2, 3].foldl (fun d k =>
      let m := n / 4 * 4 + k
      canFaultJudge (setCan d m { canOf d m with supplyFault := true }) m) d
  else canFaultJudge (setCan d n { canOf d n with thermalFault := true }) n

/-- A supply or thermal fault clears. -/
def canTrcvFaultClear (d : Dev) (n : Nat) (supply : Bool) : Dev :=
  if supply then
    [0, 1, 2, 3].foldl (fun d k =>
      let m := n / 4 * 4 + k
      canFaultJudge (setCan d m { canOf d m with supplyFault := false }) m) d
  else canFaultJudge (setCan d n { canOf d n with thermalFault := false }) n

/-- The controller of a frozen channel is online again: its counters are released, and a fault, a cleared fault or a
BO_DELAY that came meanwhile takes effect (R212; DESIGN CHOICE, assumption 89). -/
def canRelease (d : Dev) (n : Nat) : Dev :=
  let d := setNet d n { netOf d n with frozen := false }
  let c := canOf d n
  let d1 := setCan d n { c with boDue := false }
  if c.supplyFault || c.thermalFault then canOffline d1 n
  else if c.boDue && decide (c.state = .busOff) then canBoDelayExpire d1 n
  else canOnlineAgain d1 n

/-- A frame the channel cannot decode is received (R201). -/
def canPex (d : Dev) (n : Nat) : Dev :=
  if !canOnline (canOf d n) || (netOf d n).frozen || !coreUp d 4 then d
  else canUndecoded d n (canBusError · n 3 0 false {})

/-- CAN_CNT_CLEAR. -/
def canClear (d : Dev) (n : Nat) : Dev := clearCnts d (canBase n + 0x2000) (canBase n + 0x2088)

/-! ## Meanings -/

def execCanFrameRx (n : Fin 16) (m : CanMsg) (ts : Nat) (s : State) : Answer := onDev (canFrameRx · n m ts) s
def execCanBusIntegrated (n : Fin 16) (s : State) : Answer := onDev (canBusIntegrated · n) s
def execCanTxLoad (n : Fin 16) (c : CellRead) (s : State) : Answer := onDev (canTxLoad · n c) s
def execCanTxAttempt (n : Fin 16) (lost : Bool) (delay sof : Nat) (s : State) : Answer :=
  onDev (canTxAttempt · n lost delay sof) s
def execCanTxOk (n : Fin 16) (s : State) : Answer := onDev (canTxOk · n) s
def execCanBusError (n : Fin 16) (code : Fin 5) (phase : Fin 3) (window : Bool) (x : ErrDetail) (s : State) : Answer :=
  onDev (canBusError · n (code.val + 1) phase window x) s
def execCanTxTimeout (n : Fin 16) (i : Fin 48) (s : State) : Answer := onDev (canTxTimeout · n i) s
def execCanBoDelayExpire (n : Fin 16) (s : State) : Answer := onDev (canBoDelayExpire · n) s
def execCanRecovered (n : Fin 16) (s : State) : Answer := onDev (canRecovered · n) s
def execCanTrcvFault (n : Fin 16) (supply : Bool) (s : State) : Answer := onDev (canTrcvFault · n supply) s
def execCanTrcvFaultClear (n : Fin 16) (supply : Bool) (s : State) : Answer :=
  onDev (canTrcvFaultClear · n supply) s
def execCanPex (n : Fin 16) (s : State) : Answer := onDev (canPex · n) s

end Sys2Proof.Machine
end

