-- ==== Sys2Proof/Machine/Load.lean ====
section
/-! DEFINITION. Load channels and Slalom (08, 09): the gate decision of R236, turning off by clamp or
ramp, the turn-on queue of each bank, trips, supplies, segments, diagnostics and sample blocks. -/

namespace Sys2Proof.Machine

/-! ## Freshness of signals (R311) -/

/-- The word at byte offset `o` of the active bank. -/
def bankWord (d : Dev) (o : Nat) : Word := tget 0 (if d.bwk.active then d.bwk.bank1 else d.bwk.bank0) o

/-- Fresh at this moment: written, and for less than MAX_AGE ms, or MAX_AGE is 0. -/
def freshAt (d : Dev) (at_ : Option Nat) (age : Word) : Bool :=
  match at_ with
  | none => false
  | some t => decide (fld age 15 0 = 0) || decide (d.wall - t < 1000000 * fld age 15 0)

def wordFresh (d : Dev) (w : Nat) : Bool := freshAt d (tget none d.bwk.wordAt w) (bankWord d (0x400 + 4 * w))
def groupFresh (d : Dev) (g : Nat) : Bool := freshAt d (tget none d.bwk.sigAt g) (bankWord d (0x800 + 4 * g))

/-! ## Classes (Tables 8.1, 8.2) -/

/-- The figures of a class: rated mA, active segments, typical on-resistance at 25 °C of a segment and of the channel in
units of 10 µΩ, full scale in A, short-circuit threshold in mA, clamp energy in mJ, ramp power in W, open-load
threshold in counts. -/
structure LoadClass where
  rated : Nat
  segs : Nat
  segRes : Nat
  chanRes : Nat
  full : Nat
  short : Nat
  e85 : Nat
  pRamp : Nat
  openThr : Int

def classH : LoadClass := ⟨30000, 6, 1800, 300, 80, 150000, 1200, 600, 128⟩
def classM : LoadClass := ⟨10000, 4, 3200, 800, 25, 50000, 400, 200, 128⟩
def classS : LoadClass := ⟨3000, 2, 6000, 3000, 8, 16000, 120, 60, 128⟩

def loadClass (n : Nat) : LoadClass :=
  if n < 8 then classM else if n < 24 then classS else if n < 28 then classH else classM

def bankIdx (n : Nat) : Nat := if n < 24 then 0 else 1
def bankChans (b : Nat) : List Nat := if b = 0 then List.range 24 else (List.range 16).map (· + 24)

/-! ## Settings in effect -/

def actCfg (d : Dev) (n : Nat) : Word := rd d (ldcBase n + 0x10)
def actLoad (d : Dev) (n : Nat) : Word := rd d (ldcBase n + 0x14)
def actDiag (d : Dev) (n : Nat) : Word := rd d (ldcBase n + 0x18)
def actSample (d : Dev) (n : Nat) : Word := rd d (ldcBase n + 0x1C)
def wgsBase (n : Nat) : Nat := 0x1001000 + 0x40 * n
def actWg (d : Dev) (n : Nat) : Word := rd d (wgsBase n + 0x10)
def actTemp (d : Dev) (n : Nat) : Word := rd d (wgsBase n + 0x14)
def actSl (d : Dev) (n : Nat) : Word := rd d (wgsBase n + 0x18)
def actShape (d : Dev) (n : Nat) : Word := rd d (wgsBase n + 0x1C)
def aLdcCnt (n k : Nat) : Nat := 0xF04000 + 0x80 * n + 8 * k
def ldcInc (d : Dev) (n k : Nat) : Dev := inc d (aLdcCnt n k)
def bankBase (b : Nat) : Nat := 0x1000100 + 0x40 * b
def aBcnt (b k : Nat) : Nat := bankBase b + 0x10 + 8 * k

/-- I_DECL in mA: 0 means the rated current (Table 8.12). -/
def declOf (n : Nat) (w : Word) : Nat :=
  if fld w 31 24 = 0 then (loadClass n).rated else 125 * fld w 31 24
def iDecl (d : Dev) (n : Nat) : Nat := declOf n (actLoad d n)

/-- The inrush reservation of a turn-on, in mA (Table 9.3). -/
def inrushRes (d : Dev) (n : Nat) : Nat :=
  if bit (actSl d n) 31 then 125 * fld (actShape d n) 26 16
  else if fld (actSl d n) 26 16 = 0 then (loadClass n).rated else 125 * fld (actSl d n) 26 16

/-- The inrush window in ns (R271). -/
def inrushLen (d : Dev) (n : Nat) : Nat :=
  100000 * (if bit (actSl d n) 31 then fld (actShape d n) 15 0 else atLeast1 (fld (actSl d n) 15 0))

/-! ## The status word (Table 8.14) -/

/-- Bank or gate-drive supply out of range, or Bank B reversed (R246). -/
def supplyOff (d : Dev) (n : Nat) : Bool :=
  let b := bankOf d (bankIdx n)
  b.outOfRange || b.reversed || d.ldc.gateUv

/-- The mask of segments in service: the active ones not retired, and the spare once brought in. -/
def inService (n : Nat) (x : Load) : BitVec 7 :=
  let k := (loadClass n).segs
  let base : BitVec 7 := BitVec.ofNat 7 (2 ^ k - 1)
  let withSpare := if x.spareIn then base ||| (1#7 <<< k) else base
  withSpare &&& ~~~x.retiredSegs

def popCount (m : BitVec 7) : Nat := sumTo 7 fun i => if m.getLsbD i then 1 else 0
def activeSegs (n : Nat) (x : Load) : Nat := popCount (inService n x)

/-- A spare remains: fitted, not in service, not retired, and not being checked. -/
def spareLeft (n : Nat) (x : Load) : Bool :=
  !x.spareIn && !x.retiredSegs.getLsbD (loadClass n).segs && x.swap.isNone

/-- GATE: conducting, ramp included. -/
def gateBit (x : Load) : Bool := x.gate || x.ramping

def loadStatus (d : Dev) (n : Nat) : Word :=
  let x := loadOf d n
  flag (gateBit x) 31 ||| flag x.permit 30 ||| flag x.forced 29 ||| flag x.forceOn 28
    ||| flag x.recorded 27 ||| flag x.ramping 26
    ||| flag (decide (x.slState = .waiting) || x.shed) 25 ||| flag x.restartWait 24
    ||| at_ x.trip 20 ||| flag x.openLoad 19 ||| flag x.underCur 18 ||| flag x.reverse 17
    ||| flag (supplyOff d n) 16 ||| at_ (x.restarts % 16) 12 ||| at_ (activeSegs n x) 9
    ||| flag (spareLeft n x) 8 ||| flag d.ldc.gateHold 7 ||| at_ x.offTest 5
    ||| flag (bit (actCfg d n) 31) 4

/-- LDC_CUR (Table 8.20): the junction temperature and the latest sample. -/
def loadCur (d : Dev) (n : Nat) : Word :=
  at_ (wrapInt (loadOf d n).tj 9) 16 ||| at_ (wrapInt (loadOf d n).cur 16) 0

/-! ## Sample blocks (R256, R257) -/

def sampleEn (d : Dev) (n : Nat) : Bool := bit (actSample d n) 31

/-- The bytes of a block closed now (Table 8.6). -/
def blockBytes (d : Dev) (n : Nat) : List Byte :=
  let x := loadOf d n
  let b := x.block
  let flags := (if b.sat then 1 else 0) + (if x.gap then 2 else 0) + (if b.trip then 4 else 0)
    + (if b.ramp then 8 else 0) + (if b.retired then 16 else 0) + (if gateBit x then 32 else 0)
  leBytes b.ts 8 ++ leBytes n 1 ++ leBytes b.samples.length 1
    ++ leBytes (fld (actSample d n) 13 0) 2 ++ leBytes x.blockSeq.toNat 2 ++ leBytes flags 2
    ++ leBytes (loadStatus d n).toNat 4 ++ leBytes (wrapInt b.lo 16) 2 ++ leBytes (wrapInt b.hi 16) 2
    ++ leBytes 0 8 ++ b.samples.flatMap fun v => leBytes (wrapInt v 16) 2

/-- Close the open block: it enters the Basin, or is lost and counted (R256). A block with no sample yet is not closed:
what has happened during it is flagged in it (R257). -/
def closeBlock (d : Dev) (n : Nat) : Dev :=
  let x := loadOf d n
  let next : Block := { ramp := x.ramping }
  if x.block.samples = [] then d
  else
    let f : Frame :=
      { uid := 0, body := .samples (Fin.ofNat 40 n) (blockBytes d n), inPort := 13
        cls := fld (actSample d n) 30 28, ts := devTime d, vid := fld (rd d (aPort 13 4)) 11 0
        pcp := fld (actSample d n) 30 28 }
    let lose (d : Dev) : Dev :=
      evLoad (ldcInc (setLoad d n { loadOf d n with
        block := next, blockSeq := x.blockSeq + 1, gap := true }) n 9) n 0
    if !fabricUp d then lose d
    else
      match enterBasin d f with
      | (some _, d1) => setLoad d1 n { loadOf d1 n with
          block := next, blockSeq := x.blockSeq + 1, gap := false }
      | (none, d1) => lose d1

/-! ## Slalom (R270–R279) -/

/-- The budget in effect, in mA (R270, Table 9.13); halved when a converter phase has failed with no
spare left (Table 15.5). -/
def budget (d : Dev) (b : Nat) : Nat :=
  let w := rd d (bankBase b)
  if b = 0 then
    let v := 100 * (if d.ldc.mainsLow then min 375 (fld w 15 0) else min 833 (fld w 31 16))
    if 0 < tget 0 d.svc.lost 5 + tget 0 d.svc.lost 6 then v / 2 else v
  else 100 * min 1500 (fld w 31 16)

/-- A channel's reservation in mA (Table 9.3). -/
def reservation (d : Dev) (n : Nat) : Nat :=
  let x := loadOf d n
  match x.slState with
  | .window => x.windowRes
  | .on => max (iDecl d n) x.meanMa
  | .ramping => x.rampI0
  | _ => 0

def reserved (d : Dev) (b : Nat) : Nat := (bankChans b).foldl (fun a n => a + reservation d n) 0

/-- Whether a request comes before another in its bank's queue, arrival apart (R272). -/
def before (d : Dev) (m n : Nat) : Bool :=
  let f (k : Nat) : Bool := (loadOf d k).forced && (loadOf d k).forceOn
  let p (k : Nat) : Nat := fld (actSl d k) 30 28
  if f m != f n then f m else decide (p n < p m)

def isUnfit (d : Dev) (n : Nat) : Bool := decide (budget d (bankIdx n) < inrushRes d n)

/-- The first request in queue order that is fit (R272, condition 4). -/
def firstFit (d : Dev) (b : Nat) : Option Nat :=
  ((bankOf d b).queue.filter fun n => !isUnfit d n).foldl (fun a n =>
    match a with
    | none => some n
    | some m => if before d n m then some n else some m) none

/-- Conditions 1 and 2 of R272: no dip holds the bank, and GAP has passed since its last admission. -/
def gapOk (d : Dev) (b : Nat) : Bool :=
  match (bankOf d b).lastAdmit with
  | none => true
  | some t => decide (t + 1000 * fld (rd d (bankBase b + 4)) 15 0 ≤ d.wall)

/-- The unfit marks of a bank's requests; the event is set when a request first becomes unfit. -/
def judgeUnfit (d : Dev) (b : Nat) : Dev :=
  (bankChans b).foldl (fun d n =>
    let x := loadOf d n
    let u := (bankOf d b).queue.contains n && isUnfit d n
    let d1 := if x.unfit = u then d else setLoad d n { x with unfit := u }
    if u && !x.unfit then evWgs d1 4 n else d1) d

/-- A turn-on request enters its bank's queue (R239, R272); whether it met conditions 2 to 4 on arrival
is kept for DEFERRED. -/
def slalomRequest (d : Dev) (n : Nat) : Dev :=
  let b := bankIdx n
  let k := bankOf d b
  if k.queue.contains n then d
  else
    let d1 := setBank d b { k with queue := k.queue ++ [n] }
    let ok := gapOk d b && decide (firstFit d1 b = some n) &&
      decide (reserved d b + inrushRes d n ≤ budget d b)
    judgeUnfit (setLoad d1 n { loadOf d1 n with slState := .waiting, shed := false, deferred := !ok }) b

/-- A waiting turn-on is withdrawn (R239); a shed channel no longer waits to re-enter. -/
def withdraw (d : Dev) (n : Nat) : Dev :=
  let b := bankIdx n
  let k := bankOf d b
  let x := loadOf d n
  let d1 := setBank d b { k with queue := k.queue.filter (· != n) }
  setLoad d1 n { x with
    slState := if x.slState = .waiting then .off else x.slState, shed := false, unfit := false }

/-! ## Turning off (R247–R249) -/

/-- The four effects of a retirement (R233). -/
def retireMarks (d : Dev) (n seg cause : Nat) : Dev :=
  let x := loadOf d n
  let d1 := setLoad d n { x with
    retiredSegs := x.retiredSegs ||| (1#7 <<< seg), lastCause := cause
    block := { x.block with retired := true } }
  evDev (evLdc (evLoad (ldcInc d1 n 12) n 9) 0 n) 3

/-- The channel has turned off with a spare check running: the decided retirement is made in the map alone (R233). -/
def swapSettle (d : Dev) (n : Nat) : Dev :=
  match (loadOf d n).swap with
  | none => d
  | some w =>
    reserveBring (retireMarks (setLoad d n { loadOf d n with swap := none, spareIn := true }) n w.seg w.cause) 1

/-- LDC_RAMP (Table 8.20). -/
def rampWrite (d : Dev) (n : Nat) (ramped capped : Bool) (t : Nat) : Dev :=
  wr d (ldcBase n + 0x34) (flag ramped 31 ||| flag capped 30 ||| at_ (min 65535 t) 0)

/-- The whole milliseconds the gate has been on and ON_TIME does not count yet (Table 8.22). -/
def onTimeDue (d : Dev) (n : Nat) : Nat :=
  if gateBit (loadOf d n) then (d.wall - (loadOf d n).onAt) / 1000000 else 0

/-- ON_TIME takes the time the gate has been on (Table 8.22). -/
def onTimeAdd (d : Dev) (n : Nat) : Dev :=
  let ms := onTimeDue d n
  cntAdd (setLoad d n { loadOf d n with onAt := (loadOf d n).onAt + 1000000 * ms }) (aLdcCnt n 10) ms

/-- The gate has turned off by the clamp; it ends with TURN_OFF_END. -/
def clampOff (d : Dev) (n : Nat) : Dev :=
  let d1 := onTimeAdd d n
  let d2 := setLoad d1 n { loadOf d1 n with
    gate := false, ramping := false, clamping := true, slState := .off, reverse := false
    changeTs := devTime d, shaped := false, shortHeld := false }
  swapSettle (closeBlock (rampWrite d2 n false false 0) n) n

/-- The outcome of R248 for inductance `ind` µH, current `i0` mA, bank voltage `v` in 10 mV and junction
temperature `tj`: none for the clamp, or the ramp's length in ns and whether it is capped. -/
def rampChoice (n : Nat) (ind : Nat) (i0 : Int) (v tj : Int) : Option (Nat × Bool) :=
  let c := loadClass n
  if ind = 0 ∨ i0 ≤ 0 then none
  else
    let e2 : Int := ind * i0 * i0
    let fits := if tj ≤ 85 then decide (e2 ≤ 2000000000 * c.e85)
      else decide (90 * e2 ≤ 2000000000 * c.e85 * max 0 (175 - tj))
    if fits then none
    else
      let d4 : Int := 400000 * c.pRamp - v * i0
      if d4 ≤ 0 ∨ v = 7000 then some (50000000, true)
      else
        let t := max (max (400 * e2 / d4) (100 * ind * i0 / (7000 - v))) 20000
        if 50000000 < t then some (50000000, true) else some (t.toNat, false)

/-- Turn a channel off by the choice of R248; a short circuit or reverse current takes `clampOff`. -/
def turnOff (d : Dev) (n : Nat) : Dev :=
  let x := loadOf d n
  match rampChoice n (fld (actLoad d n) 23 0) x.nowMa (bankOf d (bankIdx n)).volt x.tj with
  | none => clampOff d n
  | some (t, capped) =>
    let d1 := setLoad d n { x with
      gate := false, ramping := true, rampI0 := x.nowMa.toNat, slState := .ramping
      changeTs := devTime d, shaped := false, shortHeld := false }
    let d2 := rampWrite d1 n true capped (t / 10000)
    let d3 := if capped then evLoad (ldcInc d2 n 6) n 7 else d2
    let d4 := closeBlock d3 n
    swapSettle (setLoad d4 n { loadOf d4 n with block := { (loadOf d4 n).block with ramp := true } }) n

/-! ## The gate decision (R236) -/

/-- want_on of R236. -/
def wantOn (d : Dev) (n : Nat) : Bool :=
  let x := loadOf d n
  if d.ldc.gateHold || supplyOff d n then false
  else if decide (x.trip ≠ 0) || x.restartWait then false
  else if !x.permit then false
  else if x.forced then x.forceOn
  else x.recorded

/-- step of R236, with the withdrawal of R239. -/
def loadJudge (d : Dev) (n : Nat) : Dev :=
  let x := loadOf d n
  if wantOn d n then
    if !x.gate && !x.ramping && !x.shed && decide (x.slState ≠ .waiting) then slalomRequest d n else d
  else if x.gate then turnOff (withdraw d n) n
  else if x.slState = .waiting ∨ x.shed then withdraw d n
  else d

def loadJudgeAll (d : Dev) : Dev := (List.range 40).foldl loadJudge d

/-! ## Commands and releases (R129, R130, Table 8.4) -/

/-- Record the command of a channel and act on it; an off command ends a restart wait and returns the restart
count to 0 (R243). -/
def loadRecord (d : Dev) (n : Nat) (on : Bool) : Dev :=
  let x := loadOf d n
  let d1 := setLoad d n { x with
    recorded := on, restarts := if on then x.restarts else 0, restartWait := on && x.restartWait }
  loadJudge (if x.recorded = on then d1 else mirrorNote d1 5 n) n

/-- The rows of Table 8.4 for off and on: the status when the outcome is at once, none when it waits for
the gate. -/
def loadApply (d : Dev) (n : Nat) (on : Bool) : Option Nat × Dev :=
  let x := loadOf d n
  if x.forced then (some 6, loadRecord d n on)
  else if on then
    if !x.permit then (some 5, d)
    else if x.trip ≠ 0 then (some 0, d)
    else if supplyOff d n ∨ x.restartWait then (some 0, loadRecord d n true)
    else if x.gate then (some 0, loadRecord d n true)
    else (none, loadRecord d n true)
  else if !x.gate && !x.ramping then (some 0, loadRecord d n false)
  else (none, loadRecord d n false)

/-- The outcome of a waiting turn-on or turn-off once it is decided (Table 8.4). -/
def loadDecided (d : Dev) (n : Nat) (on : Bool) : Option Nat :=
  let x := loadOf d n
  if on then
    if x.gate then some 0 else if !x.permit then some 5 else if !x.recorded then some 0 else none
  else if !x.ramping && !x.clamping then some 0 else none

/-- End an SLP command (Table 4.20). -/
def slpEnd (d : Dev) (st : Nat) : Dev :=
  resultEnd { d with slips := { d.slips with cmdWait := none } } 0x80000C (at_ st 27)

/-- The release of resource `k` has been applied: RELEASED unless its owner has commanded it since, and
the command ends OK (R129, R130). -/
def releaseEnd (d : Dev) (k : Nat) : Dev :=
  let x := resOf d k
  slpEnd (setRes d k { x with
    state := if x.applying then .released else x.state, applying := false }) 0

/-- A RELEASE of a load channel that waits for its gate ends when the outcome is decided (R130). -/
def loadReleaseJudge (d : Dev) : Dev :=
  match d.slips.cmdWait with
  | some (5, k) =>
    if k < 40 ∧ (loadDecided d k (decide ((resOf d k).release = .on))).isSome then releaseEnd d k else d
  | _ => d

/-- A clamp or ramp ends with the current at zero: counted, and a request that waited for it is made
(R239, R249). -/
def turnOffEnd (d : Dev) (n : Nat) : Dev :=
  let x := loadOf d n
  if !x.ramping && !x.clamping then d
  else if !domUp d 1 then
    setLoad d n { x with ramping := false, clamping := false, rampI0 := 0
                         slState := if x.slState = .ramping then .off else x.slState }
  else
    let d1 := if x.ramping then onTimeAdd (ldcInc d n 5) n else ldcInc d n 4
    loadJudge (setLoad d1 n { loadOf d1 n with
      ramping := false, clamping := false, rampI0 := 0
      slState := if x.slState = .ramping then .off else x.slState }) n

/-- The gate turns on: its inrush window begins (R271, R272). -/
def gateOn (d : Dev) (n : Nat) : Dev :=
  let b := bankIdx n
  let d0 := if (loadOf d n).clamping then turnOffEnd d n else d
  let k := bankOf d0 b
  let x := loadOf d0 n
  let d1 := setBank d0 b { k with
    queue := k.queue.filter (· != n), lastAdmit := some d.wall }
  let d2 := setLoad d1 n { x with
    gate := true, ungated := true, slState := .window, unfit := false, extended := false
    windowLen := inrushLen d n, windowEnd := d.wall + inrushLen d n, windowRes := inrushRes d n
    shaped := bit (actSl d n) 31, shortHeld := false, onAt := d.wall, windowAt := d.wall, changeTs := devTime d, openLoad := x.openLoad }
  let d3 := inc (ldcInc d2 n 11) (aBcnt b 0)
  closeBlock (if x.deferred then inc d3 (aBcnt b 1) else d3) n

/-- Slalom admits the first fit request of a bank that meets R272. -/
def slalomAdmit (d : Dev) (b : Nat) : Dev :=
  if (bankOf d b).held || !gapOk d b || !domUp d 1 || d.ldc.resetDue then d
  else
    match firstFit d b with
    | none => d
    | some n => if reserved d b + inrushRes d n ≤ budget d b then gateOn d n else d

/-! ## Trips (R242–R244, R266) -/

/-- A trip latches: the recorded command becomes off (R238). Code 5 cannot be cleared, so no later trip replaces it
(R234). -/
def latchMark (d : Dev) (n code : Nat) : Dev :=
  let x := loadOf d n
  let d1 := setLoad d n { x with
    trip := if x.trip = 5 then 5 else code, recorded := false, block := { x.block with trip := true } }
  evLoad (if x.recorded then mirrorNote d1 5 n else d1) n 1

/-- A trip latches and the channel judges its gate; the open block closes (R236, R256). -/
def latchTrip (d : Dev) (n code : Nat) : Dev := closeBlock (loadJudge (latchMark d n code) n) n

/-- The short-circuit trip (R242): the clamp, code 1, SC_TRIPS; the reservation is gone with the turn-off. -/
def shortCut (d : Dev) (n : Nat) : Dev := clampOff (latchMark (ldcInc d n 0) n 1) n

/-- Whether a current in mA crosses the class's short-circuit threshold, in either direction. The threshold is exact to
±10 % (Table 8.2): within the tolerance either outcome, as the free value `c` says. -/
def shortCrossed (n : Nat) (ma : Int) (c : Nat) : Bool :=
  let thr := (loadClass n).short
  let a := ma.natAbs
  if 110 * thr ≤ 100 * a then true else if 100 * a < 90 * thr then false else decide (c % 2 = 0)

/-- The ceiling of a shaped turn-on in mA: from I_CEIL / 4 to I_CEIL over the first quarter of T_SHAPED, then I_CEIL
(R273). -/
def ceiling (d : Dev) (n : Nat) : Nat :=
  let x := loadOf d n
  let t := d.wall - x.windowAt
  if 4 * t < x.windowLen then (x.windowRes * x.windowLen + 12 * x.windowRes * t) / (4 * x.windowLen) else x.windowRes

/-- A channel's current, were nothing to hold it, comes to `ma` and is compared with its short-circuit threshold (R242).
While a shaped turn-on regulates the current, what is compared is the current the ceiling leaves: a short it holds waits, and
trips when the ceiling is lifted, unless the current has fallen before (R273). -/
def shortTrip (d : Dev) (n : Nat) (ma : Int) : Dev :=
  let x := loadOf d n
  if !gateBit x then d
  else
    let (c, d1) := drawNat d
    if !x.shaped then if shortCrossed n ma c then shortCut d1 n else d1
    else
      let held := min ma (ceiling d n : Int)
      if shortCrossed n held c then shortCut d1 n
      else setLoad d1 n { x with shortHeld := shortCrossed n ma c, nowMa := held }

/-- The inrush window of a channel ends, unless a dip is in progress (R271, R276). T_SHAPED has ended: a ceiling is
lifted, and a short it held trips (R273). -/
def windowEnd (d : Dev) (n : Nat) : Dev :=
  let x := loadOf d n
  if x.slState ≠ .window ∨ d.wall < x.windowEnd then d
  else if x.shortHeld then shortCut d n
  else setLoad d n { x with
    shaped := false, slState := if (bankOf d (bankIdx n)).inDip then .window else .on }

/-- Clear trip codes 1–3 and the restart count; code 4 only at or below T_CLEAR (Table 8.4, R266). -/
def clearTrip (d : Dev) (n : Nat) : Dev :=
  let x := loadOf d n
  let hot := decide ((fld (actTemp d n) 15 8 : Int) * 1000000000 < x.theta)
  let d1 := setLoad d n { x with
    restarts := 0, trip := if x.trip = 5 ∨ (x.trip = 4 ∧ hot = true) then x.trip else 0 }
  loadJudge (if x.trip = 4 ∧ hot = true then evWgs d1 7 n else d1) n

/-- A junction at 175 °C or above (R243). -/
def thermalTrip (d : Dev) (n : Nat) (tj : Int) : Dev :=
  let x0 := loadOf d n
  if (!x0.gate && !x0.ramping) || decide (tj < 175) then d
  else
    let d1 := ldcInc (setLoad d n { x0 with tj := tj }) n 1
    let off (d : Dev) : Dev := if x0.gate then turnOff d n else closeBlock d n
    if ¬ bit (actCfg d n) 30 ∧ x0.restarts < fld (actCfg d n) 29 26 then
      let d2 := if x0.gate then turnOff d1 n else d1
      setLoad d2 n { loadOf d2 n with restartWait := true }
    else off (latchMark d1 n 2)

/-- Every in-service segment is below 150 °C: the restart is requested (R243). -/
def thermalRestart (d : Dev) (n : Nat) (tj : Int) : Dev :=
  let x := loadOf d n
  if !x.restartWait || decide (150 ≤ tj) then d
  else
    let d1 := setLoad d n { x with restartWait := false, restarts := x.restarts + 1, tj := tj }
    loadJudge (evLoad (ldcInc d1 n 2) n 2) n

def restartReset (d : Dev) (n : Nat) : Dev :=
  if (loadOf d n).gate then setLoad d n { loadOf d n with restarts := 0 } else d

/-- A current of `cur` counts has lasted REV_TIME ms with TWIN = 0: reverse current when it is more negative than
−REV_THR × 128 counts (R244). -/
def reverseCurrent (d : Dev) (n : Nat) (cur : Int) : Dev :=
  let x := loadOf d n
  if bit (actCfg d n) 31 || !x.gate || decide (-128 * (atLeast1 (fld (actCfg d n) 23 16) : Int) ≤ cur) then d
  else
    let d1 := evLoad (cntAdd (setLoad d n { x with reverse := true }) (aLdcCnt n 3) (2 ^ 32)) n 3
    if bit (actCfg d n) 25 then clampOff (latchMark (ldcInc d1 n 3) n 3) n else d1

/-- The current of an on TWIN channel, in counts, falls below −1 % of full scale: it blocks (R245). -/
def twinBlock (d : Dev) (n : Nat) (cur : Int) : Dev :=
  if bit (actCfg d n) 31 && (loadOf d n).gate && decide (100 * cur < -32768) then
    setLoad d n { loadOf d n with reverse := true }
  else d

/-- The forward voltage across a blocking TWIN channel, in mV, exceeds 20 mV: it conducts again (R245). -/
def twinForward (d : Dev) (n : Nat) (mv : Int) : Dev :=
  if bit (actCfg d n) 31 && (loadOf d n).reverse && decide (20 < mv) then
    setLoad d n { loadOf d n with reverse := false }
  else d

/-! ## Supplies (R246) -/

/-- A supply leaves or returns to its range: 0 Bank A, 1 Bank B, 2 Bank B reversed, 3 gate drive. -/
def supplySet (d : Dev) (k : Nat) (bad : Bool) : Dev :=
  match k with
  | 0 => setBank d 0 { bankOf d 0 with outOfRange := bad }
  | 1 => setBank d 1 { bankOf d 1 with outOfRange := bad }
  | 2 => setBank d 1 { bankOf d 1 with reversed := bad }
  | _ => { d with ldc := { d.ldc with gateUv := bad } }

/-- A voltage in 10 mV out of a supply's range (Table 8.5). The gate-drive rail's range is not given, and its monitor
alone judges it. -/
def supplyOut (k : Nat) (v : Int) : Bool :=
  match k with
  | 0 => decide (v < 1800)
  | 1 => decide (v < 1600 ∨ 6300 < v)
  | 2 => decide (v < -100)
  | _ => true

/-- A voltage in 10 mV in a supply's range again (Table 8.5). -/
def supplyIn (k : Nat) (v : Int) : Bool :=
  match k with
  | 0 => decide (2100 ≤ v)
  | 1 => decide (1700 ≤ v ∧ v ≤ 6100)
  | 2 => decide (0 ≤ v)
  | _ => true

/-- A supply has been at `v` for its time out of range (R246). -/
def supplyFault (d : Dev) (k : Nat) (v : Int) : Dev :=
  if supplyOut k v then loadJudgeAll (evLdc (supplySet d k true) (k + 1) 0) else d

/-- A supply is back at `v`: the channels that want to be on request turn-on (R246). -/
def supplyRestored (d : Dev) (k : Nat) (v : Int) : Dev :=
  if supplyIn k v then loadJudgeAll (supplySet d k false) else d

/-! ## Segments (R231–R235) -/

/-- Fewer than half the nominal segments in service: trip code 5 (R234). -/
def segsJudge (d : Dev) (n : Nat) : Dev :=
  if 2 * activeSegs n (loadOf d n) < (loadClass n).segs ∧ (loadOf d n).trip ≠ 5 then latchTrip d n 5 else d

/-- No spare remains: a drifted segment stays in service, another is taken out (R234). -/
def retireNoSpare (d : Dev) (n seg cause : Nat) : Dev :=
  if cause = 1 then evLoad d n 8 else segsJudge (evLoad (retireMarks d n seg cause) n 8) n

/-- A retirement with the channel off: only the map changes. -/
def retireOff (d : Dev) (n seg cause : Nat) : Dev :=
  let x := loadOf d n
  if seg = (loadClass n).segs ∧ ¬ x.spareIn then retireMarks d n seg cause
  else if spareLeft n x then
    reserveBring (retireMarks (setLoad d n { x with spareIn := true }) n seg cause) 1
  else retireNoSpare d n seg cause

/-- A segment is retired; on an on channel the spare is first turned on to be checked (R233). -/
def retireSeg (d : Dev) (n seg cause : Nat) : Dev :=
  let x := loadOf d n
  if x.retiredSegs.getLsbD seg then d
  else if x.gate then
    if spareLeft n x then setLoad d n { x with swap := some ⟨seg, cause⟩ } else retireNoSpare d n seg cause
  else retireOff d n seg cause

/-- 100 µs after the spare turned on: `spare` and `mean` are its current and the mean segment current. A spare that fails
is retired too, and with none left for the retiring segment NO_SPARE is set (R233, R234). -/
def spareCheck (d : Dev) (n spare mean : Nat) : Dev :=
  let x := loadOf d n
  match x.swap with
  | none => d
  | some w =>
    let d1 := setLoad d n { x with swap := none }
    if mean ≤ 4 * spare then
      reserveBring (retireMarks (setLoad d1 n { loadOf d1 n with spareIn := true }) n w.seg w.cause) 1
    else
      segsJudge (evLoad (retireMarks (retireMarks d1 n (loadClass n).segs 2) n w.seg w.cause) n 8) n

/-- One measured segment: resistance in units of 10 µΩ, junction in °C, current in mA. -/
def normR (r : Nat) (tj : Int) : Nat := (1000 * (r : Int) / max 1 (1000 + 4 * (tj - 25))).toNat

/-- The measurement of one segment of a set with `k` in service carrying `sum` mA (R231, R232). -/
def measureSeg (n k sum : Nat) (d : Dev) (seg : Nat) (r : Nat) (tj : Int) (ma : Nat) : Dev :=
  let x := loadOf d n
  if !(inService n x).getLsbD seg then d
  else
    let v := normR r tj
    let drift := if 140 * (Config.segBase n seg).toNat ≤ 100 * v then tget 0 x.drift seg + 1 else 0
    let open_ := if 2 * ma * k < sum then tget 0 x.openCnt seg + 1 else 0
    let d1 := setLoad d n { x with
      segLast := tset 0 x.segLast seg v, drift := tset 0 x.drift seg drift
      openCnt := tset 0 x.openCnt seg open_ }
    if 8 ≤ open_ then retireSeg d1 n seg 2
    else if 8 ≤ drift then retireSeg d1 n seg 1
    else d1

def measureAll (n k sum : Nat) : Nat → List SegMeas → Dev → Dev
  | _, [], d => d
  | i, m :: t, d => measureAll n k sum (i + 1) t (measureSeg n k sum d i m.res m.tj m.ma)

/-- Every 10 s on an on channel carrying 20 % of its rated current (R231). -/
def segmentMeasure (d : Dev) (n : Nat) (ms : List SegMeas) : Dev :=
  let x := loadOf d n
  if x.gate ∧ ((loadClass n).rated : Int) ≤ 5 * x.nowMa then
    let sum := ms.foldl (fun a m => a + m.ma) 0
    measureAll n (activeSegs n x) sum 0 ms d
  else d

/-- The off-state segment test: `bad` is a segment that does not block (R232, cause 3). -/
def segmentTest (d : Dev) (n : Nat) (bad : Option (Fin 7)) : Dev :=
  let x := loadOf d n
  if x.gate || x.ramping || x.clamping then d
  else
    match bad with
    | some s => if s.val ≤ (loadClass n).segs then retireSeg d n s.val 3 else d
    | none => d

/-- Copy the segment maps to flash (R235). -/
def mapSave (d : Dev) : Dev :=
  let m := (List.range 40).map fun n =>
    (n, (((loadOf d n).retiredSegs.toNat, (loadOf d n).spareIn, (loadOf d n).lastCause)))
  flashKeep d (emit { d with ldc := { d.ldc with maps := m } } (.flash 1 0))

/-- Copy the wear records to flash, with the time the gates have been on up to now (R466). -/
def wearSave (d0 : Dev) : Dev :=
  let d := (List.range 40).foldl onTimeAdd d0
  let w := (List.range 40).map fun n => (n, (cnt d (aLdcCnt n 10), cnt d (aLdcCnt n 11), cnt d (aLdcCnt n 12)))
  flashKeep d (emit { d with ldc := { d.ldc with wear := w } } (.flash 2 0))

/-! ## Diagnostics (R251–R254) -/

/-- The open-load and under-current checks run: on, after the window, not blanked (R253). -/
def checksRun (d : Dev) (n : Nat) : Bool :=
  (loadOf d n).gate && decide ((loadOf d n).slState = .on) && !(bankOf d (bankIdx n)).held

/-- A current of `cur` counts has lasted OL_TIME ms: below the open-load threshold it is reported (R251). -/
def openLoad (d : Dev) (n : Nat) (cur : Int) : Dev :=
  if checksRun d n && bit (actDiag d n) 7 && !(loadOf d n).openLoad && decide (cur < (loadClass n).openThr) then
    evLoad (ldcInc (setLoad d n { loadOf d n with openLoad := true }) n 7) n 4
  else d

/-- A current of `cur` counts has lasted OL_TIME ms: above the open-load threshold it clears the status bit (R251). -/
def openLoadClear (d : Dev) (n : Nat) (cur : Int) : Dev :=
  if (loadOf d n).openLoad && decide ((loadClass n).openThr < cur) then
    setLoad d n { loadOf d n with openLoad := false }
  else d

/-- UC_THR in counts, 0 for none (Table 8.13). -/
def underThr (d : Dev) (n : Nat) : Int := 32 * (fld (actDiag d n) 31 24 : Int)

/-- A current of `cur` counts has lasted UC_TIME ms: below UC_THR it is reported (R252). -/
def underCurrent (d : Dev) (n : Nat) (cur : Int) : Dev :=
  if checksRun d n && decide (underThr d n ≠ 0) && !(loadOf d n).underCur && decide (cur < underThr d n) then
    evLoad (ldcInc (setLoad d n { loadOf d n with underCur := true }) n 8) n 5
  else d

/-- A current of `cur` counts has lasted UC_TIME ms: above UC_THR it clears the status bit (R252). -/
def underCurrentClear (d : Dev) (n : Nat) (cur : Int) : Dev :=
  if (loadOf d n).underCur && decide (underThr d n < cur) then setLoad d n { loadOf d n with underCur := false } else d

/-- The outcome of the off-state test at an output voltage in mV; between two bands either neighbour,
as the free value `c` says (R254, R19). -/
def offOutcome (mv : Int) (c : Nat) : Nat :=
  if mv < 1500 then 1
  else if mv < 3500 then (if c % 2 = 0 then 1 else 2)
  else if mv ≤ 5500 then 2
  else if mv ≤ 6000 then (if c % 2 = 0 then 2 else 3)
  else 3

def offStateTest (d : Dev) (n : Nat) (mv : Int) : Dev :=
  let x := loadOf d n
  if !bit (actCfg d n) 24 || x.gate || x.ramping || x.clamping then d
  else
    let (c, d1) := drawNat d
    let o := offOutcome mv c
    let d2 := setLoad d1 n { x with offTest := o }
    if o = x.offTest then d2 else evLoad d2 n 6

/-! ## Samples (R255) -/

/-- A sample interval ends: `mean` is the sample, `lo` and `hi` the extreme raw values, in counts. -/
def sampleEnd (d : Dev) (n : Nat) (mean lo hi tj : Int) : Dev :=
  let sat := decide (hi > 32767 ∨ lo < -32767)
  let cl (v : Int) : Int := max (-32767) (min 32767 v)
  let x := loadOf d n
  let b := x.block
  let b1 : Block :=
    if sampleEn d n then
      { b with
        ts := if b.samples = [] then devTime d else b.ts
        samples := b.samples ++ [cl mean]
        lo := if b.samples = [] then cl lo else min b.lo (cl lo)
        hi := if b.samples = [] then cl hi else max b.hi (cl hi)
        sat := b.sat || sat, ramp := b.ramp || x.ramping }
    else b
  let d1 := setLoad d n { x with
    cur := cl mean, tj := tj, sampleTs := devTime d, block := b1
    reverse := if bit (actCfg d n) 31 ∨ mean < 0 then x.reverse else false }
  if sampleEn d n && decide (fld (actSample d n) 27 21 ≤ b1.samples.length) then closeBlock d1 n else d1

/-! ## LDC commands (Tables 8.16, 8.17) -/

def ldcEnd (d : Dev) (st : Nat) : Dev := resultEnd d 0xF00014 (at_ st 28)

/-- Run an LDC command, or ignore it while another runs (R260). -/
def ldcCommand (d : Dev) (k : Dev → Dev) : Dev :=
  if resultValid d 0xF00014 then k d else evLdc d 5 0

/-- The check of R250: the declared load would cap its ramp, or is above the rated current. -/
def rampRangeBad (d : Dev) (n : Nat) (w : Word) : Bool :=
  let v : Int := if n < 24 then 2640 else 100 * clamp 18 60 (fld (rd d 0xF00018) 5 0)
  decide ((loadClass n).rated < declOf n w) ||
    (decide (fld w 23 0 ≠ 0) &&
      match rampChoice n (fld w 23 0) (declOf n w) v 85 with
      | some (_, capped) => capped
      | none => false)

def ldcApply (d : Dev) (n : Nat) : Dev :=
  ldcCommand d fun d =>
    if 40 ≤ n then ldcEnd d 1
    else
      let a := ldcBase n
      let sw := rd d (a + 0xC)
      let count := fld sw 27 21
      let intv := fld sw 13 0
      if count < 1 ∨ 96 < count ∨ intv < 10 ∨ 10000 < intv ∨ count * intv < 100 then ldcEnd d 2
      else if rampRangeBad d n (rd d (a + 4)) then ldcEnd d 3
      else
        let d0 := if sw = actSample d n then d else closeBlock d n
        let d1 := [0, 4, 8, 0xC].foldl (fun d o => wr d (a + 0x10 + o) (rd d (a + o))) d0
        ldcEnd d1 0

def ldcClearTrip (d : Dev) (n : Nat) : Dev :=
  ldcCommand d fun d => if 40 ≤ n then ldcEnd d 1 else ldcEnd (clearTrip d n) 0

def ldcSegTest (d : Dev) (n : Nat) (bad : Option (Fin 7)) : Dev :=
  ldcCommand d fun d =>
    if 40 ≤ n then ldcEnd d 1
    else
      let x := loadOf d n
      if x.gate || x.ramping || x.clamping then ldcEnd d 5 else ldcEnd (segmentTest d n bad) 0

def ldcRetire (d : Dev) (n seg : Nat) : Dev :=
  ldcCommand d fun d =>
    if 40 ≤ n then ldcEnd d 1
    else
      let x := loadOf d n
      let after := if spareLeft n x then activeSegs n x else activeSegs n x - 1
      if !(inService n x).getLsbD seg || decide (2 * after < (loadClass n).segs) then ldcEnd d 5
      else ldcEnd (retireSeg d n seg 4) 0

def ldcBadOp (d : Dev) : Dev := ldcCommand d fun d => ldcEnd d 4

/-- LDC_CNT_CLEAR of one channel keeps the wear records (R261, R466). -/
def ldcClearCh (d : Dev) (n : Nat) : Dev := clearCnts d (aLdcCnt n 0) (aLdcCnt n 10)
def ldcClearAll (d : Dev) : Dev := (List.range 40).foldl ldcClearCh d

/-! ## Shedding (R278, R279) -/

/-- Whether channel `m` is shed before channel `n` (R278). -/
def shedBefore (d : Dev) (m n : Nat) : Bool :=
  let f (k : Nat) : Nat := if (loadOf d k).forced && (loadOf d k).forceOn then 1 else 0
  let p (k : Nat) : Nat := fld (actSl d k) 30 28
  let w (k : Nat) : Nat := if (loadOf d k).slState = .window ∨ (loadOf d k).ramping then 1 else 0
  if f m ≠ f n then decide (f m < f n)
  else if p m ≠ p n then decide (p m < p n)
  else if w m ≠ w n then decide (w m < w n)
  else decide (n < m)

/-- What can be shed: a channel that is on, or one ramping off whose turn-on waits for the ramp to end. -/
def sheddable (d : Dev) (n : Nat) : Bool :=
  (loadOf d n).gate || ((loadOf d n).ramping && wantOn d n && !(loadOf d n).shed)

/-- The next channel of a bank to shed. -/
def shedNext (d : Dev) (b : Nat) : Option Nat :=
  ((bankChans b).filter (sheddable d)).foldl (fun a n =>
    match a with
    | none => some n
    | some m => if shedBefore d n m then some n else some m) none

/-- One channel is shed: off by R248, no trip, its command kept (R279). -/
def shedOne (d : Dev) (n : Nat) : Dev :=
  let d1 := if (loadOf d n).gate then turnOff d n else d
  evWgs (inc (setLoad d1 n { loadOf d1 n with shed := true }) (aBcnt (bankIdx n) 4)) 5 n

/-- Shed channels of Bank A until its reserved current is within the budget (R278). -/
def shedAll (d : Dev) : Nat → Dev
  | 0 => d
  | k + 1 =>
    if reserved d 0 ≤ budget d 0 then d
    else
      match shedNext d 0 with
      | some n => shedAll (shedOne d n) k
      | none => d

/-- The mains at `volts` over 20 ms is below 180 V (R270, R278), and may be absent (R451). -/
def mainsLow (d0 : Dev) (volts : Nat) : Dev :=
  let d := mainsAt d0 volts
  if d.ldc.mainsLow || decide (180 ≤ volts) then d
  else shedAll (judgeUnfit (evWgs { d with ldc := { d.ldc with mainsLow := true } } 6 0) 0) 24

/-- A shed channel's request re-enters the queue, after its ramp if one runs (R239, R279). -/
def shedReturn (d : Dev) (n : Nat) : Dev :=
  let x := loadOf d n
  if x.shed then loadJudge (setLoad d n { x with shed := false }) n else d

/-- The mains has stayed at or above `volts` for 1 s: at 180 V MAINS_LOW clears and the shed requests re-enter (R270,
R279). -/
def mainsLowClear (d0 : Dev) (volts : Nat) : Dev :=
  let d := mainsAt d0 volts
  if !d.ldc.mainsLow || decide (volts < 180) then d
  else
    let d1 := judgeUnfit (evWgs { d with ldc := { d.ldc with mainsLow := false } } 6 0) 0
    (List.range 40).foldl shedReturn d1

/-- The 10-ms mean of a bank's current in mA (R278). -/
def bankMeanMa (d : Dev) (b : Nat) : Int :=
  (bankOf d b).currs.foldl (· + ·) 0 / (max 1 (bankOf d b).currs.length : Nat)

/-- The bank's mean current has stayed above its budget for 100 ms: one channel is shed (R278). -/
def bankOvercurrent (d : Dev) (b : Nat) : Dev :=
  if bankMeanMa d b ≤ budget d b then d
  else
    match shedNext d b with
    | some n => shedOne d n
    | none => d

/-! ## Dips (R275, R276) -/

/-- The bank's 10-ms mean voltage in 10 mV, frozen during a dip (R275). -/
def bankMean (d : Dev) (b : Nat) : Int :=
  let k := bankOf d b
  if k.inDip then k.frozen else k.volts.foldl (· + ·) 0 / (100 * max 1 k.volts.length : Nat)

/-- DIP_THR in 10 mV (Table 9.13). -/
def dipThr (d : Dev) (b : Nat) : Int := 10 * (atLeast1 (fld (rd d (bankBase b + 4)) 31 24) : Int)

/-- The bank's voltage is sampled at `v`, more than DIP_THR below its mean: a dip begins and the mean is frozen (R275). -/
def dipBegin (d : Dev) (b : Nat) (v : Int) : Dev :=
  let k := bankOf d b
  if k.inDip || decide (bankMean d b - v ≤ dipThr d b) then d
  else setBank d b { k with inDip := true, held := true, frozen := bankMean d b, dipAt := d.wall }

/-- The bank's voltage is sampled at `v`, within DIP_THR / 2 of the frozen mean: the dip ends and is counted, and running
windows not yet extended are extended by its duration, at most their own length (R275, R276). -/
def dipEnd (d : Dev) (b : Nat) (v : Int) : Dev :=
  let k := bankOf d b
  if !k.inDip || decide (dipThr d b < 2 * (k.frozen - v)) || decide (dipThr d b < 2 * (v - k.frozen)) then d
  else
    let us := (d.wall - k.dipAt) / 1000
    let d1 := evWgs (inc (setBank d b { k with inDip := false, lastDur := min 65535 us }) (aBcnt b 2)) (2 + b) b
    (bankChans b).foldl (fun d n =>
      let x := loadOf d n
      if x.slState = .window ∧ ¬ x.extended then
        inc (setLoad d n { x with
          extended := true, windowEnd := x.windowEnd + min (1000 * us) x.windowLen }) (aBcnt b 3)
      else d) d1

def dipBlankEnd (d : Dev) (b : Nat) : Dev :=
  let k := bankOf d b
  if k.inDip then d else setBank d b { k with held := false }

end Sys2Proof.Machine
end

