-- ==== Sys2Proof/Machine/Field.lean ====
section
/-! DEFINITION. Field I/O (10): drive requests, faults, records, the isolation link in both directions,
silence and recovery, and the field commands. -/

namespace Sys2Proof.Machine

def actField (d : Dev) (n : Nat) : Word := rd d (fioBase n + 8)
def actEv (d : Dev) (n : Nat) : Word := rd d (fioBase n + 0xC)
def fieldMode (d : Dev) (n : Nat) : Nat := fld (actField d n) 31 30
def quadBad (d : Dev) (n : Nat) : Bool := d.fio.quadBad.getLsbD (n / 4)
def groupSafe (d : Dev) (n : Nat) : Bool := d.fio.safe.getLsbD (n / 8)
def aFieldCnt (n k : Nat) : Nat := fioBase n + 0x28 + 8 * k
def aLinkCnt (k : Nat) : Nat := 0x1100100 + 8 * k

/-! ## Terms and status (R287, R296) -/

/-- An input is stale: the link is down, or a wire break is reported on it (R287). -/
def fieldStale (d : Dev) (n : Nat) : Bool :=
  decide (fieldMode d n = 1 ∨ fieldMode d n = 3) && (!d.fio.up || (fieldOf d n).broken)

/-- The field-input term presented to the Breakwater (R287). -/
def fieldTerm (d : Dev) (n : Nat) : Bool :=
  decide (fieldMode d n ≠ 0) && !fieldStale d n && (fieldOf d n).repState

/-- The status word (Table 10.5). -/
def fieldStatus (d : Dev) (n : Nat) : Word :=
  let x := fieldOf d n
  flag d.fio.up 31 ||| flag (fieldStale d n) 30 ||| at_ (fieldMode d n) 28 ||| flag x.repState 27
    ||| flag (x.repDrive && decide (x.latched = 0)) 26 ||| flag x.recorded 25 ||| flag x.permit 24 ||| flag x.forced 23
    ||| flag x.forceOn 22 ||| flag (groupSafe d n || d.fio.parked) 21 ||| at_ x.repFault 18
    ||| at_ x.evtSeq.toNat 0

/-! ## Records (R297, R298) -/

/-- A record of channel `n` is formed: `body` builds its bytes from the sequence number and the LOST
flag. It enters the Basin or is lost and counted. -/
def formRecord (d : Dev) (n ts : Nat) (edge : Bool) (body : BitVec 16 → Bool → FrameBody) : Dev :=
  let x := fieldOf d n
  let seq := x.evtSeq + 1
  let cls := fld (actEv d n) 28 26
  let f : Frame :=
    { uid := 0, body := body seq (x.lost || (edge && x.edgeLost)), inPort := 13, cls := cls, ts := ts
      vid := fld (rd d (aPort 13 4)) 11 0, pcp := cls }
  let d1 := setField d n { x with
    evtSeq := seq, lost := false, edgeLost := if edge then false else x.edgeLost }
  let lose (d : Dev) : Dev :=
    evField (inc (setField d n { fieldOf d n with lost := true }) (aFieldCnt n 1)) n 0
  if !fabricUp d then lose d1
  else
    match enterBasin d1 f with
    | (some _, d2) => d2
    | (none, d2) => lose d2

/-- Bytes 0–15 of an edge or fault record (Table 10.6). -/
def recordBytes (ts n event b10 : Nat) (lost stale : Bool) (seq : BitVec 16) (ms : Nat) : List Byte :=
  leBytes ts 8 ++ leBytes n 1 ++ leBytes event 1 ++ leBytes b10 1
    ++ leBytes ((if lost then 1 else 0) + (if stale then 2 else 0)) 1 ++ leBytes seq.toNat 2 ++ leBytes ms 2

def edgeRecord (d : Dev) (e : FieldEdge) : Dev :=
  let st := fieldStale d e.ch
  formRecord d e.ch e.ts true fun seq lost =>
    .fieldEdge (Fin.ofNat 32 e.ch) (!e.rising)
      (recordBytes e.ts e.ch (if e.rising then 0 else 1) (if e.rising then 1 else 0) lost st seq e.ms)

/-- A snapshot record of a latch, with its 64-bit count (R291, Table 10.6). -/
def snapRecord (d : Dev) (l : SnapLatch) (count : BitVec 64) : Dev :=
  let n := l.ch
  let x := fieldOf d n
  let noEdge := decide (l.edge = x.snapEdge)
  let latch := l.ts
  let d1 := setField d n { x with snapEdge := l.edge }
  formRecord d1 n latch false fun seq lost =>
    .snapshot (Fin.ofNat 32 n)
      (leBytes latch 8 ++ leBytes n 1 ++ leBytes 2 1 ++ leBytes (fld (actField d n) 15 14) 1
        ++ leBytes ((if lost then 1 else 0) + (if noEdge then 2 else 0)) 1 ++ leBytes seq.toNat 2
        ++ leBytes 0 2 ++ leBytes count.toNat 8 ++ leBytes l.edge 8)

/-! ## Faults (R284, R288, R294) -/

/-- The FAULT code that holds: for an output the latched fault, the quad, then a mismatch; for an input a
wire break. -/
def faultOf (d : Dev) (n : Nat) : Nat :=
  let x := fieldOf d n
  match fieldMode d n with
  | 2 => if x.latched ≠ 0 then x.latched else if quadBad d n then 4 else if x.mismatch then 5 else 0
  | 1 => if x.broken then 1 else 0
  | _ => 0

/-- A change of FAULT sets the event and, with FAULT_EN, asks for a fault record, which is formed with the other records
of its frame period (R297). The device side, stopped in MOORED, judges when it is clocked again (R393). -/
def faultJudge (d : Dev) (n : Nat) : Dev :=
  let x := fieldOf d n
  let c := faultOf d n
  if c = x.repFault ∨ !coreUp d 4 then d
  else
    let d1 := evField (setField d n { x with repFault := c }) n 1
    if bit (actEv d n) 29 then
      { d1 with fio := { d1.fio with faults := d1.fio.faults ++ [⟨n, devTime d, c⟩] } }
    else d1

/-- A fault record (R297, Table 10.6). -/
def faultRecord (d : Dev) (e : FieldFault) : Dev :=
  let st := fieldStale d e.ch
  formRecord d e.ch e.ts false fun seq lost =>
    .fieldFault (Fin.ofNat 32 e.ch) (recordBytes e.ts e.ch 3 e.code lost st seq 0)

/-! ## Outputs (R293) -/

/-- drive of R293: the request to be sent in the next frame. -/
def driveReq (d : Dev) (n : Nat) : Bool :=
  let x := fieldOf d n
  if fieldMode d n ≠ 2 then false
  else if !d.fio.up || groupSafe d n || d.fio.parked then x.req
  else if quadBad d n then false
  else if x.latched ≠ 0 then false
  else if !x.permit then false
  else if x.forced then x.forceOn
  else x.recorded

def fieldJudge (d : Dev) (n : Nat) : Dev := setField d n { fieldOf d n with req := driveReq d n }
def fieldJudgeAll (d : Dev) : Dev := (List.range 32).foldl fieldJudge d

/-- The field side drives an output as it should be unless its own protection, or the hold before the
first rule bank (R403), keeps it off. -/
def fieldDrive (d : Dev) (n : Nat) (want : Bool) : Dev :=
  let x := fieldOf d n
  let on := want && decide (x.latched = 0) && !quadBad d n && decide (fieldMode d n = 2)
    && !d.ldc.gateHold
  setField d n { x with
    want := want, drive := on, changeTs := if on = x.drive then x.changeTs else devTime d }

/-- The safe state of an output: off, on, or hold-last of the present drive (R301). -/
def safeState (d : Dev) (n : Nat) : Bool :=
  match fld (actField d n) 27 26 with
  | 1 => true
  | 2 => (fieldOf d n).drive
  | _ => false

/-- Every output of a group takes its safe state (R301). -/
def groupToSafe (d : Dev) (g : Nat) : Dev :=
  (List.range 8).foldl (fun d i =>
    let n := 8 * g + i
    if fieldMode d n = 2 then
      let v := safeState d n
      evField (setField (fieldDrive d n v) n { fieldOf (fieldDrive d n v) n with req := v }) n 2
    else d) d

/-- A group receives no valid frame for T_SILENCE (R301). -/
def fieldSilence (d : Dev) (g : Nat) : Dev :=
  if d.fio.fsParked || d.fio.safe.getLsbD g then d
  else
    let d1 := { d with fio := { d.fio with safe := d.fio.safe ||| (1#4 <<< g), goodRun := 0 } }
    groupToSafe (evFio (inc d1 (aLinkCnt 3)) 2) g

/-- A group leaves its safe state: each output's recorded command becomes the drive left (R302). -/
def groupResume (d : Dev) (g : Nat) : Dev :=
  if !d.fio.safe.getLsbD g then d
  else
    let d1 := { d with fio := { d.fio with safe := d.fio.safe &&& ~~~(1#4 <<< g) } }
    (List.range 8).foldl (fun d i =>
      let n := 8 * g + i
      if fieldMode d n = 2 then
        evField (fieldJudge (setField d n { fieldOf d n with recorded := (fieldOf d n).drive }) n) n 3
      else d) d1

/-- Park on entry to Moored (R303). -/
def fieldPark (d : Dev) : Dev :=
  let d1 := { d with fio := { d.fio with parked := true, fsParked := true } }
  [0, 1, 2, 3].foldl groupToSafe d1

/-- The end of park: recovery follows R302 after 3 valid frames. -/
def fieldUnpark (d : Dev) : Dev :=
  if d.fio.fsParked then
    { d with fio := { d.fio with parked := false, fsParked := false, safe := 0xF, goodRun := 0 } }
  else d

/-- The device side takes note of a latched fault: the recorded command is off, and the fault is counted (R294). -/
def latchTaken (d : Dev) (n : Nat) : Dev :=
  let x := fieldOf d n
  let d1 := setField d n { x with recorded := false }
  let d2 := if x.recorded then mirrorNote d1 5 (40 + n) else d1
  fieldJudge (faultJudge (inc d2 (aFieldCnt n 2)) n) n

/-- A latched fault of an output: off at once on the field side, recorded off, counted (R294). -/
def outputLatch (d : Dev) (n code : Nat) : Dev :=
  let x := fieldOf d n
  if fieldMode d n ≠ 2 ∨ ¬ x.drive then d
  else
    let d1 := setField d n { x with latched := code, drive := false, changeTs := devTime d }
    if coreUp d 4 then latchTaken d1 n else d1

/-- The device side is clocked again after MOORED: what the field side met meanwhile is taken note of (R393; DEDUCED,
assumption 113). -/
def fieldWake (d : Dev) : Dev :=
  let d1 := if d.fio.quadTold = d.fio.quadBad then d
    else evFio { d with fio := { d.fio with quadTold := d.fio.quadBad } } 3
  (List.range 32).foldl (fun d n =>
    let x := fieldOf d n
    if fieldMode d n = 2 ∧ x.latched ≠ 0 ∧ x.latched ≠ x.repFault then latchTaken d n
    else fieldJudge (faultJudge d n) n) d1

/-- The latch is cleared (R294). -/
def outputUnlatch (d : Dev) (n : Nat) : Dev :=
  let d1 := setField d n { fieldOf d n with latched := 0 }
  fieldJudge (fieldDrive (faultJudge d1 n) n ((fieldOf d n).want && (fieldOf d n).recorded)) n

/-- The terminal of an output driven off has stayed above 12 V for 2 ms, or at or below it (R294). -/
def outputMismatch (d : Dev) (n : Nat) (on : Bool) : Dev :=
  let x := fieldOf d n
  if fieldMode d n ≠ 2 ∨ (on = true ∧ x.drive = true) then d
  else faultJudge (setField d n { x with mismatch := on, state := on }) n

/-- A loop current says break or whole (R288). -/
def wireBreak (d : Dev) (n : Nat) : Dev :=
  let w := actField d n
  if fieldMode d n = 1 ∧ bit w 29 ∧ bit w 28 ∧ ¬ quadBad d n ∧ ¬ (fieldOf d n).broken then
    faultJudge (setField d n { fieldOf d n with broken := true }) n
  else d

def wireBreakClear (d : Dev) (n : Nat) : Dev :=
  if (fieldOf d n).broken ∧ ¬ quadBad d n then
    faultJudge (setField d n { fieldOf d n with broken := false }) n
  else d

/-- A quad has been at `volt`, in 10 mV, for its time: below 18.0 V or above 32.0 V it is out of range, at 19.0–31.0 V in
range again (R284); FIO_SUPPLY reads the voltage. -/
def quadSet (d0 : Dev) (q : Nat) (bad : Bool) (volt : BitVec 16) : Dev :=
  let d : Dev := { d0 with fio := { d0.fio with quadVolt := tset 0 d0.fio.quadVolt q volt.toNat } }
  let v := volt.toNat
  let judged := if bad then decide (v < 1800 ∨ 3200 < v) else decide (1900 ≤ v ∧ v ≤ 3100)
  if d.fio.quadBad.getLsbD q = bad ∨ judged = false then d
  else
    let m : BitVec 8 := 1#8 <<< q
    let q1 := if bad then d.fio.quadBad ||| m else d.fio.quadBad &&& ~~~m
    let d1 := if coreUp d 4 then evFio { d with fio := { d.fio with quadBad := q1, quadTold := q1 } } 3
      else { d with fio := { d.fio with quadBad := q1 } }
    (List.range 4).foldl (fun d i =>
      let n := 4 * q + i
      let d2 := faultJudge (fieldDrive d n (fieldOf d n).want) n
      if coreUp d 4 then fieldJudge d2 n else d2) d1

/-! ## Inputs (R286, R290, R299) -/

/-- An input's qualified state changes, or a counting input sees an edge, first sampled at `ts`; of an output, its
terminal crosses 12 V (R296). -/
def inputEdge (d : Dev) (n : Nat) (level : Bool) (ts : Nat) : Dev :=
  let x := fieldOf d n
  if x.state = level then d
  else if !domUp d 2 then setField d n { x with state := level, since := ts }
  else
    match fieldMode d n with
    | 1 =>
      let d0 := setField d n { x with state := level, since := ts }
      let d1 := if coreUp d 4 then inc d0 (aFieldCnt n 0) else d0
      let want := if level then bit (actEv d n) 31 else bit (actEv d n) 30
      if !want then d1
      else if 64 ≤ d.fio.edges.length then
        let d2 := setField d1 n { fieldOf d1 n with edgeLost := true }
        if coreUp d 4 then evFio (inc d2 (aLinkCnt 4)) 4 else d2
      else
        { d1 with fio := { d1.fio with
            edges := d1.fio.edges ++ [⟨n, level, ts, min 65535 ((ts - x.since) / 1000000)⟩] } }
    | 3 =>
      let k := fld (actField d n) 15 14
      let hit := decide (2 ≤ k) || (if level then k == 0 else k == 1)
      setField d n { x with
        state := level, since := ts
        fsCount := if hit then x.fsCount + 1 else x.fsCount
        fsEdge := if hit then ts else x.fsEdge }
    | _ => setField d n { x with state := level, since := ts }

/-! ## The isolation link (R300) -/

def bits32 (f : Nat → Bool) : BitVec 32 :=
  (List.range 32).foldl (fun (a : BitVec 32) n => if f n then a ||| (1#32 <<< n) else a) 0

/-- Each side that runs sends its frame; the field side latches its counters, and every snapshot that is due is formed from
that latch, which goes with each frame until a valid one has brought it over (R291, R300; DESIGN CHOICE, assumption 110). The device side lies in the core domain, which reset and Moored stop, the field side in its own
(Table 1.7). -/
def isolationTx (d : Dev) : Dev :=
  let f := d.fio
  let dev := coreUp d 4
  let fs := domUp d 2
  let down : DownFrame := { count := f.txCount + 1, drives := bits32 fun n => (fieldOf d n).req }
  let latch (n : Nat) : SnapLatch := ⟨n, devTime d, (fieldOf d n).fsCount, (fieldOf d n).fsEdge⟩
  let snaps := f.snaps ++ (List.range 8).flatMap fun n => List.replicate (fieldOf d n).snapDue (latch n)
  let up : UpFrame :=
    { count := f.fsTxCount + 1
      states := bits32 fun n => (fieldOf d n).state
      drives := bits32 fun n => (fieldOf d n).drive
      edges := f.edges.take 8
      snaps := snaps
      counts := (List.range 8).map fun n => (n, ((fieldOf d n).fsCount, (fieldOf d n).fsEdge))
      latch := devTime d }
  let d1 : Dev := { d with fio := { f with
    txCount := if dev then f.txCount + 1 else f.txCount, downFrame := if dev then some down else f.downFrame
    sent := if dev then f.sent + 1 else f.sent
    fsTxCount := if fs then f.fsTxCount + 1 else f.fsTxCount, upFrame := if fs then some up else f.upFrame
    snaps := if fs then snaps else f.snaps } }
  if fs then
    (List.range 8).foldl (fun d n => setField d n { fieldOf d n with snapDue := 0 }) d1
  else d1

/-- A record that a frame period asks for, with its time. -/
inductive FieldRec
  | edge (e : FieldEdge)
  | fault (e : FieldFault)
  | snap (l : SnapLatch) (count : BitVec 64)

def FieldRec.time : FieldRec → Nat
  | .edge e => e.ts
  | .fault e => e.ts
  | .snap l _ => l.ts

/-- Put a record in its place by time, after those of the same time. -/
def recInsert (r : FieldRec) : List FieldRec → List FieldRec
  | [] => [r]
  | x :: t => if r.time < x.time then r :: x :: t else x :: recInsert r t

def recSort (l : List FieldRec) : List FieldRec := l.foldl (fun a r => recInsert r a) []

/-- Form a record. -/
def recForm (d : Dev) : FieldRec → Dev
  | .edge e => edgeRecord d e
  | .fault e => faultRecord d e
  | .snap l c => if fieldMode d l.ch = 3 then snapRecord d l c else d

/-- The device side takes over what a valid frame reports (R287, R290); the records of the frame period enter in
timestamp order (R297). -/
def upTake (d : Dev) (u : UpFrame) : Dev :=
  let d1 := (List.range 32).foldl (fun d n =>
    let x := fieldOf d n
    setField d n { x with
      repState := u.states.getLsbD n, repDrive := u.drives.getLsbD n }) d
  let d2 := u.counts.foldl (fun d c =>
    if fieldMode d c.1 = 3 then
      let x := fieldOf d c.1
      setField d c.1 { x with
        count := x.count + BitVec.ofNat 64 (c.2.1 - x.countLast).toNat, countLast := c.2.1
        lastEdge := c.2.2 }
    else d) d1
  let now (e : FieldFault) : Bool := decide (e.ts ≤ u.latch)
  let d3 : Dev := { d2 with fio := { d2.fio with
    edges := d2.fio.edges.drop u.edges.length, snaps := d2.fio.snaps.drop u.snaps.length
    faults := d2.fio.faults.filter fun e => !now e } }
  let recs := u.edges.map FieldRec.edge ++ (d2.fio.faults.filter now).map FieldRec.fault
    ++ u.snaps.map fun l =>
      let x := fieldOf d1 l.ch
      FieldRec.snap l (x.count + BitVec.ofNat 64 (l.count - x.countLast).toNat)
  (recSort recs).foldl recForm d3

/-- The device side receives a field-side frame: `crc` says its CRC is good (R300). Stopped, it takes none. -/
def fieldFrameRx (d : Dev) (crc : Bool) : Dev :=
  match d.fio.upFrame with
  | none => d
  | some u =>
    if !coreUp d 4 then { d with fio := { d.fio with upFrame := none } } else
    let ok := crc && (match d.fio.rxCount with | none => true | some c => u.count == c + 1)
    let d0 := { d with fio := { d.fio with upFrame := none } }
    if ok then
      let run := d.fio.upRun + 1
      let rise := !d.fio.up && decide (3 ≤ run)
      let d1 := { d0 with fio := { d0.fio with
        rxCount := some u.count, upRun := run, up := d.fio.up || rise, reported := d.fio.sent
        reportTs := devTime d } }
      let d2 := upTake d1 u
      if rise then fieldJudgeAll (evFio d2 1) else d2
    else inc { d0 with fio := { d0.fio with upRun := 0 } } (aLinkCnt 0)

/-- 3 periods pass without a valid frame (R300). -/
def fieldLinkDown (d : Dev) : Dev :=
  if d.fio.up ∧ coreUp d 4 then
    evFio (inc { d with fio := { d.fio with up := false, upRun := 0 } } (aLinkCnt 2)) 0
  else d

/-- The field side receives a device-side frame and applies each drive request (R293, R300, R302). -/
def fieldSideFrameRx (d : Dev) (crc : Bool) : Dev :=
  match d.fio.downFrame with
  | none => d
  | some u =>
    if !domUp d 2 then { d with fio := { d.fio with downFrame := none } } else
    let ok := crc && (match d.fio.fsRxCount with | none => true | some c => u.count == c + 1)
    let d0 := { d with fio := { d.fio with downFrame := none } }
    if ok then
      let run := d.fio.goodRun + 1
      let d1 := { d0 with fio := { d0.fio with fsRxCount := some u.count, goodRun := run } }
      let d2 := if d1.fio.fsParked then d1
        else (List.range 32).foldl (fun d n =>
          if groupSafe d n ∨ fieldMode d n ≠ 2 then d else fieldDrive d n (u.drives.getLsbD n)) d1
      if 3 ≤ run ∧ ¬ d2.fio.fsParked then [0, 1, 2, 3].foldl groupResume d2 else d2
    else inc { d0 with fio := { d0.fio with goodRun := 0 } } (aLinkCnt 1)

/-! ## FIELD_SET and RELEASE (R295, Table 10.4, R130) -/

/-- Record the command of an output and request its drive. -/
def fieldRecord (d : Dev) (n : Nat) (on : Bool) : Dev :=
  let x := fieldOf d n
  let d1 := setField d n { x with recorded := on }
  fieldJudge (if x.recorded = on then d1 else mirrorNote d1 5 (40 + n)) n

/-- The rows of Table 10.4: the status when the outcome is at once, none when it waits for a report. -/
def fieldApply (d : Dev) (n : Nat) (on : Bool) : Option Nat × Dev :=
  let x := fieldOf d n
  if x.forced then (some 6, fieldRecord d n on)
  else if on && !x.permit then (some 5, d)
  else if !d.fio.up || groupSafe d n then (some 0, d)
  else if x.latched = 2 ∨ x.latched = 3 then
    (some 0, if on then d else fieldRecord (outputUnlatch d n) n false)
  else if quadBad d n || x.repDrive == on then (some 0, fieldRecord d n on)
  else (none, fieldRecord d n on)

/-- A RELEASE of a field output that waits ends with the first report after its request (R130, R295). -/
def fieldReleaseJudge (d : Dev) : Dev :=
  match d.slips.cmdWait with
  | some (5, k) =>
    if 40 ≤ k ∧ k < 72 ∧ d.slips.cmdSince < d.fio.reported then releaseEnd d k else d
  | _ => d

/-! ## Commands (R306, Table 10.13) -/

def fioEnd (d : Dev) (st : Nat) : Dev := resultEnd d 0x1100010 (at_ st 28)
def fioCommand (d : Dev) (k : Dev → Dev) : Dev := if resultValid d 0x1100010 then k d else evFio d 5

/-- The mode a channel has is applied: what a change of mode starts and ends; a count latched before it is not taken
(R290, R306). -/
def modeApplied (d : Dev) (n old : Nat) : Dev :=
  let x := fieldOf d n
  let m := fieldMode d n
  let x1 := if m = 3 then { x with
      count := 0, countLast := x.fsCount, lastEdge := x.fsEdge, snapEdge := x.fsEdge, snapDue := 0 }
    else { x with snapDue := 0 }
  let x2 := if m = 1 ∧ old = 1 then x1 else { x1 with broken := false }
  let x3 := if m = 2 ∧ old = 2 then x2
    else { x2 with want := false, drive := false, req := false, latched := 0, mismatch := false }
  let old (u : UpFrame) : UpFrame :=
    { u with counts := u.counts.filter (·.1 != n), snaps := u.snaps.filter (·.ch != n) }
  let d1 : Dev := { d with fio := { d.fio with
    upFrame := d.fio.upFrame.map old, snaps := d.fio.snaps.filter (·.ch != n) } }
  fieldJudge (faultJudge (setField d1 n x3) n) n

def fioApply (d : Dev) (n : Nat) : Dev :=
  fioCommand d fun d =>
    let w := rd d (fioBase n)
    let m := fld w 31 30
    let wbBad := bit w 28 && (decide (m = 2 ∨ m = 3) || (decide (m = 1) && !bit w 29))
    if (m = 3 ∧ 8 ≤ n) ∨ wbBad then fioEnd d 1
    else if fld w 27 26 = 3 then fioEnd d 2
    else if m ≠ fieldMode d n ∧ (resOf d (40 + n)).state ≠ .unbound then fioEnd d 3
    else
      let old := fieldMode d n
      let d1 := wr (wr d (fioBase n + 8) w) (fioBase n + 0xC) (rd d (fioBase n + 4))
      fioEnd (modeApplied d1 n old) 0

def fioClearFault (d : Dev) (n : Nat) : Dev :=
  fioCommand d fun d =>
    if (fieldOf d n).latched = 0 then fioEnd d 5 else fioEnd (outputUnlatch d n) 0

def fioSnapshot (d : Dev) (n : Nat) : Dev :=
  fioCommand d fun d =>
    if fieldMode d n ≠ 3 then fioEnd d 5
    else fioEnd (setField d n { fieldOf d n with snapDue := (fieldOf d n).snapDue + 1 }) 0

def fioBadOp (d : Dev) : Dev := fioCommand d fun d => fioEnd d 4

/-- A multiple of SNAP_PERIOD passes (R291). -/
def counterSnapshot (d : Dev) (n : Nat) : Dev :=
  if fieldMode d n = 3 ∧ fld (actEv d n) 15 0 ≠ 0 then
    setField d n { fieldOf d n with snapDue := (fieldOf d n).snapDue + 1 }
  else d

def fioClearCh (d : Dev) (n : Nat) : Dev := clearCnts d (aFieldCnt n 0) (aFieldCnt n 3)
def fioClearLink (d : Dev) : Dev := clearCnts d (aLinkCnt 0) (aLinkCnt 5)
def fioClearAll (d : Dev) : Dev := (List.range 32).foldl fioClearCh (fioClearLink d)

/-! ## Meanings -/

def execFieldInputEdge (n : Fin 32) (level : Bool) (ts : Nat) (s : State) : Answer :=
  onDev (inputEdge · n level ts) s
def execIsolationFrameTx (s : State) : Answer := onDev isolationTx s
def execFieldFrameRx (crc : Bool) (s : State) : Answer := onDev (fun d => fieldReleaseJudge (fieldFrameRx d crc)) s
def execFieldSideFrameRx (crc : Bool) (s : State) : Answer := onDev (fieldSideFrameRx · crc) s
def execFieldLinkDown (s : State) : Answer := onDev fieldLinkDown s
def execFieldSilence (g : Fin 4) (s : State) : Answer := onDev (fieldSilence · g) s
def execWireBreak (n : Fin 32) (s : State) : Answer := onDev (wireBreak · n) s
def execWireBreakClear (n : Fin 32) (s : State) : Answer := onDev (wireBreakClear · n) s
def execOutputOverload (n : Fin 32) (s : State) : Answer := onDev (outputLatch · n 2) s
def execOutputThermalShutdown (n : Fin 32) (s : State) : Answer := onDev (outputLatch · n 3) s
def execOutputMismatch (n : Fin 32) (s : State) : Answer := onDev (outputMismatch · n true) s
def execOutputMismatchClear (n : Fin 32) (s : State) : Answer := onDev (outputMismatch · n false) s
def execQuadSupplyFault (q : Fin 8) (volt : BitVec 16) (s : State) : Answer := onDev (quadSet · q true volt) s
def execQuadSupplyRestored (q : Fin 8) (volt : BitVec 16) (s : State) : Answer := onDev (quadSet · q false volt) s
def execCounterSnapshot (n : Fin 8) (s : State) : Answer := onDev (counterSnapshot · n) s

end Sys2Proof.Machine
end

