-- ==== Sys2Proof/Machine/Nws.lean ====
section
/-! DEFINITION. Network commands, Hail discovery and LLDP (07). -/

namespace Sys2Proof.Machine

/-! ## Network commands (Table 7.2) -/

/-- A write of NWS_CFG with EN 1: from EN 0 the machine starts AWAKE and CONFIRMED. -/
def nwsEnable (d : Dev) (n : Nat) (v : Word) : Dev :=
  let was := bit (netCfg d n) 31
  let d1 := wr d (netBase n) ((v &&& 0x73FF003F) ||| 0x80000000)
  if was then needAfter d d1 n
  else
    let d2 := netStart d1 n
    if netRuns d2 n && needHolds d2 n then kaDue d2 n else d2

/-- A write of NWS_CFG with EN 0 stops the machine; HELD is unchanged. A call that waited for AWAKE is sent. -/
def nwsDisable (d : Dev) (n : Nat) (v : Word) : Dev :=
  let was := bit (netCfg d n) 31
  let d1 := wr d (netBase n) (v &&& 0x73FF003F)
  if was then callGo (netStop d1 n) n else d1

/-- A write of NWS_NEED: HOST; the first bit of need to become 1 is local need arising (R208). -/
def needWrite (d : Dev) (n : Nat) (v : Word) : Dev := needAfter d (wr d (netBase n + 0x10) (v &&& 1)) n

/-- Local need arises: the manager sets HOST. Need by a queued frame arises as the frame is queued (`needAfter`); given
again for it, the command finds it served, but for a network that sleeps or drains with need held (R208). -/
def localNeed (d : Dev) (n : Nat) (host : Bool) : Dev :=
  if host then needWrite d n 1
  else if needHolds d n && decide ((netOf d n).state ≠ .awake) then needArises d n else d

/-- KA_PERIOD passes under local need; in CONFIG the keep-alive that is due is counted in KA_SKIPPED (R208). -/
def keepAliveDue (d : Dev) (n : Nat) : Dev :=
  let stopped := bit (netCfg d n) 31 && decide ((canOf d n).state = .config)
  if (netRuns d n || stopped) && needHolds d n && decide ((netOf d n).state = .awake) then kaDue d n else d

/-! ## Wakes from the bus (R213, Table 7.3) -/

/-- The wake-up frame filter (R213): a data frame of the format, the identifier under mask, DLC, and data under the mask
in effect, which leaves held nodes out (R211). -/
def wufMatch (d : Dev) (n : Nat) (m : CanMsg) : Bool :=
  let cfg := rd d (netBase n + 0x38)
  let mask := rd d (netBase n + 0x34)
  let dlc := min 8 (fld cfg 27 24)
  let dmask := rd64 d (netBase n + 0x40) &&& (2 ^ 64 - 1 - heldMap d n)
  decide (m.fmt.val = (if bit cfg 29 then 1 else 0)) && !m.rtr && decide (m.data.length = dlc)
    && decide (at_ m.id.toNat 0 &&& mask = rd d (netBase n + 0x30) &&& mask)
    && (decide (dlc = 0) || decide (leNat m.data &&& dmask ≠ 0))

/-- The transceiver decodes frames at 125, 250, 500 and 1,000 kbit/s, taken from CAN_NBT. -/
def wufRate (d : Dev) (n : Nat) : Bool := [640, 320, 160, 80].contains (bitClocks (nomTime (canOf d n).nbt))

/-- The frame error counter rises; its overflow at 32 restarts it and, with FEC_WAKE, wakes the network (that a good
frame lowers it, and that it starts at 0 with each sleep, is ISO 11898-2's: PRESUMED, assumption 90). -/
def fecRise (d : Dev) (n : Nat) : Dev :=
  let x := netOf d n
  if x.fec < 31 then setNet d n { x with fec := x.fec + 1 }
  else
    let d1 := setNet d n { x with fec := 0 }
    if bit (rd d (netBase n + 0x38)) 23 then netWake d1 n .fec 0 else d1

/-- What the transceiver of a sleeping network does with what it sees on the bus (R213): a wake-up pattern wakes with
WUP_EN; at the rates it decodes, a CC frame that the filter matches wakes with WUF_EN, a CAN FD frame is tolerated
with FD_TOL, and every other frame error counts. -/
def busWake (d : Dev) (n : Nat) (c : BusSeen) (m : CanMsg) : Dev :=
  let w := rd d (netBase n + 0x38)
  let x := netOf d n
  if !netRuns d n || decide (x.state ≠ .asleep) then d
  else
    match c with
    | .wup => if bit w 30 then netWake d n .wup 0 else d
    | .frame =>
      if !wufRate d n then d
      else
        let d1 := setNet d n { x with fec := x.fec - 1 }
        if bit w 31 && wufMatch d n m then netWake d1 n .wuf ((kaNode d n m).getD 0) else d1
    | .fdFrame => if wufRate d n && !bit w 28 then fecRise d n else d
    | .error => if wufRate d n then fecRise d n else d

/-! ## Hail (R218–R223) -/

/-- ASSIGN number `m` to `uid`, when the channel can send it (Table 7.5). -/
def sendAssign (d : Dev) (n uid m : Nat) : Dev :=
  if canSend d n then emit d (.hail n (hailMsg d n 2 uid (netOf d n).session.toNat m 0 0)) else d

/-- The partner table as it is used and shown: while Hail runs on the channel, the module's own NODE is its OWN entry and
its peer's NODE the PEER entry (R223). -/
def partView (d : Dev) (n m : Nat) : Partner :=
  if bit (netCfg d n) 29 then
    if m = fld (netCfg d n) 5 0 then { state := .own, uid := ownUid }
    else if d.pair.bound = 0 then partOf d n m
    else if m = Config.peerNode d.pair.bound n then { state := .peer, uid := d.pair.bound % 2 ^ 56 }
    else partOf d n m
  else partOf d n m

/-- The entry that holds `uid` in one of the states given by `ok`. -/
def partFind (d : Dev) (n uid : Nat) (ok : PartState → Bool) : Option Nat :=
  (List.range 64).find? fun m => ok (partView d n m).state && (partView d n m).uid == uid

/-- Write an entry that the Standby mirrors (Table 15.3). -/
def putPart (d : Dev) (n m : Nat) (e : Partner) : Dev := mirrorNote (setPart d n m e) 7 (64 * n + m)

/-- An entry becomes LOST (R222). -/
def partLose (d : Dev) (n m : Nat) : Dev :=
  evNws (putPart d n m { partOf d n m with state := .lost, tries := 0 }) n 3

/-- A call closes: with ALL = 1 every PRESENT entry that did not answer misses (R222); the command that
ordered it completes (Table 7.8). -/
def windowClose (d : Dev) (n : Nat) : Dev :=
  let x := netOf d n
  if !x.callOpen || x.callDue then d
  else
    let limit := atLeast1 (fld (rd d (netBase n + 0x60)) 15 12)
    let miss (d : Dev) (m : Nat) : Dev :=
      let e := partView d n m
      if e.state = .present ∧ ¬ e.answered then
        let d1 := putPart d n m { e with misses := min 15 (e.misses + 1) }
        if limit ≤ e.misses + 1 then partLose d1 n m else d1
      else d
    let d1 := if x.callAll then (List.range 64).foldl miss d else d
    let d2 := setNet d1 n { netOf d1 n with callOpen := false, callCmd := false }
    if x.callCmd then hailEnd d2 n 0 else d2

/-- A call falls due: it is sent as soon as the channel can send it; in ASLEEP it waits, waking the network only with
HAIL_WAKE (R219). A call still open closes first. A call that still waits becomes one with the new: it is sent with
ALL = 1 if either asks for it, and answers NWS_HAIL_CMD if either was ordered (DESIGN CHOICE, assumption 34). -/
def callDue (d : Dev) (n : Nat) (all cmd : Bool) : Dev :=
  let d1 := windowClose d n
  let o := netOf d1 n
  let x : Net := { o with callAll := all || (o.callDue && o.callAll), callCmd := cmd || (o.callDue && o.callCmd), callDue := true }
  if netRuns d1 n && decide (x.state = .asleep) && bit (netCfg d1 n) 28 then
    netWake (setNet d1 n { x with callOpen := true }) n .localNeed 0
  else callGo (setNet d1 n x) n

/-- PERIOD passes (R219): a call with ALL = 1 falls due. -/
def callPeriod (d : Dev) (n : Nat) : Dev :=
  if hailCaller d n && decide (fld (rd d (netBase n + 0x60)) 31 24 ≠ 0) then
    callDue d n true false
  else d

/-- NWS_HAIL_CMD CALL (Table 7.8). -/
def callOrdered (d : Dev) (n : Nat) (all : Bool) : Dev :=
  if hailCaller d n then callDue d n all true else hailEnd d n 1

/-- NWS_HAIL_CMD FORGET (Table 7.8). -/
def forgetRun (d : Dev) (n m : Nat) : Dev :=
  if hailCaller d n ∧ (partView d n m).state = .lost then hailEnd (putPart d n m {}) n 0 else hailEnd d n 1

/-- Numbers that may be given out: OWN and PEER entries are not FREE (R223). -/
def partFree (d : Dev) (n m : Nat) : Bool := decide ((partView d n m).state = .free)

/-- The number chosen for a new UID (R221, step 2). -/
def partChoose (d : Dev) (n held : Nat) : Option Nat :=
  if held < 64 ∧ partFree d n held then some held
  else
    match (List.range 64).find? fun m => partFree d n m with
    | some m => some m
    | none =>
      (List.range 64).foldl (fun a m =>
        if (partView d n m).state = .lost then
          match a with
          | none => some m
          | some b => if (partOf d n m).seen < (partOf d n b).seen then some m else a
        else a) none

/-- A known partner announces: under its own number it is PRESENT; under another it is sent ASSIGN of its own, at most
three in all while it is ASSIGNING, and a PRESENT one that announced another UID's number is a CONFLICT (R221). -/
def announceKnown (d : Dev) (n k uid held : Nat) (e : Partner) (ts : Nat) : Dev :=
  if held = k then
    putPart d n k { e with
      state := .present, misses := 0, tries := 0
      first := if e.state = .assigning then ts else e.first }
  else
    let counted := decide (e.state = .assigning)
    let d1 := putPart d n k (if counted then { e with tries := min 3 (e.tries + 1) } else e)
    let d2 := if counted && decide (3 ≤ e.tries) then d1 else sendAssign d1 n uid k
    let h := partView d n held
    let other := decide (held < 64) && decide (h.state ≠ .free) && decide (h.uid ≠ uid)
    if e.state = .present ∧ other then evNws d2 n 4 else d2

/-- An ANNOUNCE received (R221). -/
def announce (d : Dev) (n uid : Nat) (session held kind : BitVec 8) (confirm : Bool) (ts : Nat) : Dev :=
  let d := hailTaken d n
  let x := netOf d n
  if !hailCaller d n || !(confirm || (x.callOpen && !x.callDue && session == x.session)) then d
  else
    match partFind d n uid fun st => st == .present || st == .assigning || st == .lost with
    | some k =>
      announceKnown d n k uid held.toNat
        { partOf d n k with kind := kind.toNat, session := session.toNat, seen := ts, answered := true } ts
    | none =>
      match partChoose d n held.toNat with
      | none => evNws d n 5
      | some k =>
        let d1 := putPart d n k
          { state := .assigning, uid := uid, kind := kind.toNat, session := session.toNat, seen := ts,
            answered := true, tries := 1 }
        evNws (sendAssign d1 n uid k) n 2

/-- A LEAVE received (R222). -/
def leave (d : Dev) (n uid : Nat) : Dev :=
  let d := hailTaken d n
  if !hailCaller d n then d
  else
    match partFind d n uid fun st => st == .present || st == .assigning with
    | some k => partLose d n k
    | none => d

/-- A CALL received from a caller that is neither this module nor its peer (R223). -/
def foreignCall (d : Dev) (n uid : Nat) : Dev :=
  if uid = ownUid ∨ uid = d.pair.bound % 2 ^ 56 then d else evNws (netInc (hailTaken d n) n 9) n 6

/-- 100 ms pass with no confirming ANNOUNCE: only a caller assigns, and a channel that cannot send waits (R219, R221;
DESIGN CHOICE, assumption 91). -/
def assignTimeout (d : Dev) (n m : Nat) : Dev :=
  let e := partView d n m
  if e.state ≠ .assigning ∨ hailCaller d n = false then d
  else if 3 ≤ e.tries then evNws (putPart d n m {}) n 4
  else if canSend d n then sendAssign (putPart d n m { e with tries := e.tries + 1 }) n e.uid m
  else d

/-- The Quaymaster does a piece of Hail work. -/
def hailServe (d : Dev) : HailWork → Dev
  | .announce n uid session held kind confirm ts => announce d n uid session held kind confirm ts
  | .leave n uid => leave d n uid
  | .foreign n uid => foreignCall d n uid
  | .skip n => hailTaken d n
  | .period n => callPeriod d n
  | .call n all => callOrdered d n all
  | .forget n m => forgetRun d n m
  | .badOp n => hailEnd d n 2
  | .close n => windowClose d n
  | .timeout n m => assignTimeout d n m

/-- Hail runs in the Quaymaster as class-3 work (Table 1.5). -/
def hailPost (d : Dev) (w : HailWork) : Dev := qmPost d 3 (.hail w) (hailServe · w)

/-- Work of a Hail frame heard on channel `n`: frames of a channel that World S owns go to the Lock alone (R355). -/
def hailHeard (d : Dev) (n : Nat) (w : HailWork) : Dev := if sOwned d n then d else hailPost d w

/-- A write of NWS_HAIL_CMD: ignored while a command runs, else given to the Quaymaster (R40, Table 7.8). -/
def hailOrder (d : Dev) (n : Nat) (w : HailWork) : Dev :=
  if resultValid d (netBase n + 0x68) then hailPost (resultBegin d (netBase n + 0x68)) w else d

def hailBadOp (d : Dev) (n : Nat) : Dev := hailOrder d n (.badOp n)

/-- The controller sees 11 recessive bits with its transceiver in normal mode: the counters are released (R212). After a
wake the network is AWAKE, confirmed only by what follows, and with local need its keep-alive is sent (Table 7.2). A
call that waited is sent. -/
def controllerOnline (d : Dev) (n : Nat) : Dev :=
  let x := netOf d n
  if !x.frozen || x.switching || !coreUp d 4 || (decide (x.state = .asleep) && !x.waking) then d
  else
    let d1 := canRelease d n
    if x.state ≠ .asleep then callGo d1 n
    else
      let lcl := decide (x.causeCode = WakeCause.localNeed)
      let d2 := netEnter (netInc d1 n (if lcl then 1 else 0)) n .awake
      let d3 := setNet d2 n { netOf d2 n with waking := false, confirmed := false, awakeTs := devTime d }
      let d4 := idleStart (if x.causeLatched then netInc d3 n 2 else d3) n
      let d5 := if needHolds d4 n then kaDue d4 n else d4
      callGo d5 n

/-! ## LLDP (R224–R226) -/

/-- Whether the agent of a port runs (Table 7.16). -/
def lldpOn (d : Dev) (p : Nat) : Bool :=
  let w := rd d 0xE00010
  bit w 31 && decide (p < 11) && bit w p

def aLldp (p k : Nat) : Nat := 0xE00100 + 24 * p + 8 * k

/-- The TLVs of an LLDPDU up to its end, none when one runs over: type and value. -/
def lldpTlvs : Nat → List Byte → Option (List (Nat × List Byte))
  | 0, _ => none
  | _ + 1, [] => some []
  | f + 1, a :: b :: t =>
    let ty := a.toNat / 2
    let len := (a.toNat % 2) * 256 + b.toNat
    if ty = 0 then some []
    else if t.length < len then none
    else
      match lldpTlvs f (t.drop len) with
      | some l => some ((ty, t.take len) :: l)
      | none => none
  | _ + 1, [_] => none

/-- The neighbour a well-formed LLDPDU describes: chassis ID, port ID and TTL first, in order. -/
def lldpParse (b : List Byte) : Option Neighbour :=
  match lldpTlvs (b.length + 1) b with
  | some ((1, c) :: (2, q) :: (3, t) :: rest) =>
    let cs := (c.headD 0).toNat
    let ps := (q.headD 0).toNat
    if 2 ≤ c.length ∧ c.length ≤ 256 ∧ 2 ≤ q.length ∧ q.length ≤ 256 ∧ 2 ≤ t.length
        ∧ 1 ≤ cs ∧ cs ≤ 7 ∧ 1 ≤ ps ∧ ps ≤ 7 then
      let pvid := match rest.find? fun e =>
          e.1 == 127 && e.2.take 4 == [0x00, 0x80, 0xC2, 0x01] with
        | some e => beNat ((e.2.drop 4).take 2)
        | none => 0
      some { chSub := cs, chassis := c.drop 1, portSub := ps, portId := q.drop 1, ttl := beNat (t.take 2),
             expires := 0, pvid := pvid % 4096, rest := rest.flatMap (·.2) }
    else none
  | _ => none

/-- The same (chassis ID, port ID) pair. -/
def sameNbr (a b : Neighbour) : Bool :=
  a.chSub == b.chSub && a.chassis == b.chassis && a.portSub == b.portSub && a.portId == b.portId

/-- The neighbour table after a well-formed LLDPDU (R226). -/
def lldpTable (d : Dev) (p : Nat) (m : Neighbour) : Dev :=
  let m1 := { m with expires := d.wall + 1000000000 * m.ttl }
  match (List.range 4).find? fun k => (nbrOf d p k).any (sameNbr m) with
  | some k =>
    if m.ttl = 0 then evLldp (setNbr d p k none) 1 p
    else
      let changed := (nbrOf d p k).any fun o => o.pvid != m.pvid || o.rest != m.rest
      let d1 := setNbr d p k (some m1)
      if changed then evLldp d1 3 p else d1
  | none =>
    if m.ttl = 0 then d
    else
      match (List.range 4).find? fun k => (nbrOf d p k).isNone with
      | some k => evLldp (setNbr d p k (some m1)) 0 p
      | none => evLldp d 2 p

/-- The copy that NWS_LLDP_DEST asks for waits for the next RX_BUF of its ring as a high-priority frame does: 32 places,
and a destination that cannot take it or a full buffer loses it, for which the spec names no counter (R193, R225;
DESIGN CHOICE, assumption 92). -/
def lldpCopy (d : Dev) (p : Nat) (bytes : List Byte) (ts : Nat) : Dev :=
  let dest := rd d 0xE00014
  if !(bit dest 31 && hpTakes d dest) || decide (32 ≤ d.nws.copies.length) then d
  else
    let pcp := fld (rd d (aPort p 0)) 26 24
    let c : LldpCopy := { port := p, bytes := bytes, ts := ts, pcp := pcp, vid := fld (rd d (aPort p 4)) 11 0
                          cls := fld (rd d (aPort p 8)) (3 * pcp + 2) (3 * pcp) }
    { d with nws := { d.nws with copies := d.nws.copies ++ [c] } }

/-- The oldest LLDP copy is written into the next fetched RX_BUF of its ring and its vector sent at once (R193, R225). -/
def lldpDeliver (d : Dev) : Dev :=
  let dest := rd d 0xE00014
  let s := fld dest 11 0
  let r := fld dest 18 16
  match d.nws.copies, startOp d s r 1 with
  | c :: t, some x =>
    let room := fld (dw x 4) 15 0
    let d1 : Dev := { d with nws := { d.nws with copies := t } }
    let d2 := emit d1 (.dma s (bufAddr x) (c.bytes.take room))
    let d3 := finish d2 s r x.idx
      { status := if room < c.bytes.length then 0x0A else 0, ts := c.ts
        c4 := at_ c.bytes.length 16 ||| at_ c.port 8 ||| at_ c.cls 5
        c5 := 0x00010000
        c6 := at_ 0x88CC 16 ||| at_ c.pcp 12 ||| at_ c.vid 0 }
    sendVec d3 s (fld dest 26 24)
  | _, _ => d

/-- The Quaymaster takes an LLDPDU that port `p` has received into the neighbour table (R224–R226). -/
def lldpServeRx (d : Dev) (p : Nat) (pdu : List Byte) : Dev :=
  match lldpParse pdu with
  | none => inc d (aLldp p 2)
  | some m => lldpTable d p m

/-- An LLDPDU received on a port that carries traffic (R49) is counted and copied; `pdu` follows the EtherType, `frame` is
the whole frame. Its handling is class-3 work of the Quaymaster (R29, R225). -/
def lldpReceive (d : Dev) (p : Nat) (pdu frame : List Byte) (ts : Nat) : Dev :=
  if !(lldpOn d p && wireUp d p && portPowered d p) then d
  else
    qmPost (lldpCopy (inc d (aLldp p 1)) p frame ts) 3 (.lldpRx p pdu) (lldpServeRx · p pdu)

/-- A TLV of type `t`. -/
def tlv (t : Nat) (v : List Byte) : List Byte := beBytes (t * 512 + v.length) 2 ++ v

/-- The Port ID of a port (Table 7.6): "EP0"–"EP7", "EU0", "EU1", "PL". -/
def portName (p : Nat) : List Byte :=
  if p < 8 then [0x45, 0x50, BitVec.ofNat 8 (0x30 + p)]
  else if p < 10 then [0x45, 0x55, BitVec.ofNat 8 (0x28 + p)]
  else [0x50, 0x4C]

/-- NWS_LLDP_NAME up to its first zero byte (Table 7.7). -/
def sysName (d : Dev) : List Byte :=
  ((List.range 8).flatMap fun k => leBytes (rd d (0xE00020 + 4 * k)).toNat 4).takeWhile (· != 0)

/-- The TTL sent (R225). -/
def lldpTtl (d : Dev) : Nat :=
  atLeast1 (fld (rd d 0xE00010) 26 19) * atLeast1 (fld (rd d 0xE00010) 30 27) + 1

/-- The frame a port sends (Table 7.6). -/
def lldpFrame (d : Dev) (p : Nat) : List Byte :=
  let mac := beBytes Config.baseMac.toNat 6
  [0x01, 0x80, 0xC2, 0x00, 0x00, 0x0E] ++ mac ++ [0x88, 0xCC] ++ tlv 1 (0x04 :: mac)
    ++ tlv 2 (0x07 :: portName p) ++ tlv 3 (beBytes (lldpTtl d) 2) ++ tlv 4 (portName p)
    ++ tlv 5 (sysName d) ++ tlv 7 [0x00, 0x04, 0x00, 0x04]
    ++ tlv 127 ([0x00, 0x80, 0xC2, 0x01] ++ beBytes (fld (rd d (aPort p 4)) 11 0) 2) ++ [0x00, 0x00]

/-- The Quaymaster sends the LLDPDU of port `p` (R224). -/
def lldpServeTx (d : Dev) (p : Nat) : Dev :=
  if lldpOn d p && wireUp d p && portPowered d p then
    pnJudge (sendAside (inc d (aLldp p 0)) p (.lldp p (lldpFrame d p))) p
  else d

/-- msgTxInterval passes: sending is class-3 work of the Quaymaster (R29, R224). -/
def lldpSend (d : Dev) (p : Nat) : Dev :=
  if lldpOn d p && wireUp d p && portPowered d p then qmPost d 3 (.lldpTx p) (lldpServeTx · p) else d

/-- A neighbour's TTL runs out (R226). -/
def lldpExpire (d : Dev) (p k : Nat) : Dev :=
  if (nbrOf d p k).any fun m => decide (m.expires ≤ d.wall) then evLldp (setNbr d p k none) 1 p else d

/-- NWS_CNT_CLEAR. -/
def nwsClear (d : Dev) (n : Nat) : Dev := clearCnts d (netBase n + 0x80) (netBase n + 0xD0)

/-! ## Meanings -/

def execKeepAliveRx (n : Fin 16) (m : CanMsg) (s : State) : Answer := onDev (fun d => if sOwned d n then d else kaReceive d n m) s
def execKeepAliveDue (n : Fin 16) (s : State) : Answer := onDev (keepAliveDue · n) s
def execLocalNeed (n : Fin 16) (host : Bool) (s : State) : Answer := onDev (localNeed · n host) s
def execIdleTimerExpire (n : Fin 16) (s : State) : Answer := onDev (idleExpire · n) s
def execDrainTimerExpire (n : Fin 16) (busIdle : Bool) (s : State) : Answer :=
  onDev (drainExpire · n busIdle) s
def execTMaxExpire (n : Fin 16) (s : State) : Answer := onDev (tMaxExpire · n) s
def execTransceiverSleepDone (n : Fin 16) (s : State) : Answer := onDev (sleepDone · n) s
def execBusWake (n : Fin 16) (c : BusSeen) (m : CanMsg) (s : State) : Answer := onDev (busWake · n c m) s
def execControllerOnline (n : Fin 16) (s : State) : Answer := onDev (controllerOnline · n) s
def execHailPeriodExpire (n : Fin 16) (s : State) : Answer := onDev (hailPost · (.period n)) s
def execAnnounce (n : Fin 16) (uid : BitVec 56) (session held kind : BitVec 8) (confirm : Bool) (ts : Nat)
    (s : State) : Answer := onDev (hailHeard · n (.announce n uid.toNat session held kind confirm ts)) s
def execLeave (n : Fin 16) (uid : BitVec 56) (s : State) : Answer := onDev (hailHeard · n (.leave n uid.toNat)) s
def execForeignCall (n : Fin 16) (uid : BitVec 56) (s : State) : Answer :=
  onDev (hailHeard · n (.foreign n uid.toNat)) s
def execHailWindowClose (n : Fin 16) (s : State) : Answer := onDev (hailPost · (.close n)) s
def execHailAssignTimeout (n : Fin 16) (m : Fin 64) (s : State) : Answer := onDev (hailPost · (.timeout n m)) s
/-- HP_DELIVER: the buffer of a CAN channel, or with 16 that of the LLDP copies. -/
def execHpDeliver (n : Fin 17) (s : State) : Answer :=
  onDev (fun d => if n.val < 16 then hpDeliver d n else lldpDeliver d) s
def execLldpRx (p : Fin 11) (frame : List Byte) (ts : Nat) (s : State) : Answer :=
  onDev (lldpReceive · p (frame.drop 14) frame ts) s
def execLldpTx (p : Fin 11) (s : State) : Answer := onDev (lldpSend · p) s
def execLldpTtlExpire (p : Fin 11) (k : Fin 4) (s : State) : Answer := onDev (lldpExpire · p k) s

end Sys2Proof.Machine
end

