-- ==== Sys2Proof/Machine/Bwk.lean ====
section
/-! DEFINITION. The Breakwater (11): heartbeats, terms and rules, the cycle, what is presented to each
output, bank checks and switches, and FAULT. -/

namespace Sys2Proof.Machine

def bwkInc (d : Dev) (k : Nat) : Dev := inc d (0x1200040 + 8 * k)

/-! ## Heartbeats (R313) -/

/-- Live at this moment: a kick was accepted less than `ms` ms ago. -/
def beatLive (d : Dev) (b : Beat) (ms : Nat) : Bool :=
  match b.at_ with
  | none => false
  | some t => decide (d.wall - t < 1000000 * ms)

def qmTimeout (d : Dev) : Nat := fld (bankWord d 0x40) 15 0
def clTimeout (d : Dev) : Nat := fld (bankWord d 0x40) 31 16

/-- The Quaymaster kicks (R313, R328). -/
def beatQm (d : Dev) (seq : BitVec 8) : Dev :=
  let b := d.bwk.qm
  if seq = b.seq + 1 ∨ ¬ beatLive d b (qmTimeout d) then
    { d with bwk := { d.bwk with qm := { b with seq := seq, at_ := some d.wall } } }
  else bwkInc d 1

/-- A cluster hart kicks. -/
def beatCl (d : Dev) (seq : BitVec 8) : Dev :=
  let b := d.bwk.cl
  if seq = b.seq + 1 ∨ ¬ beatLive d b (clTimeout d) then
    { d with bwk := { d.bwk with cl := { b with seq := seq, at_ := some d.wall } } }
  else bwkInc d 1

/-! ## Comparators and timers (R316, R317) -/

/-- The source value of comparator SRC, whether it is read as signed, and whether it is stale. `io` is the device as
the sample instant found its channels. -/
def compSource (d io : Dev) (src : Nat) (sgn : Bool) : Int × Bool × Bool :=
  if src < 256 then
    let w := (tget 0 d.bwk.word src).toNat
    (if sgn then signed w 16 else w, sgn, !wordFresh d src)
  else ((loadOf io (src - 256)).cur, true, false)

/-- The output of comparator `c` in this cycle; without memory it is 1 exactly on the 1 side of K
(R325). -/
def compOut (d io : Dev) (c : Nat) : Bool :=
  let w0 := bankWord d (0x1000 + 8 * c)
  let w1 := bankWord d (0x1004 + 8 * c)
  let (v, sgn, stale) := compSource d io (fld w0 24 16) (bit w0 31)
  let k : Int := if sgn then signed (fld w1 15 0) 16 else fld w1 15 0
  let h : Int := fld w0 15 0
  if stale then bit w0 29
  else
    let old := tget none d.bwk.comps c
    if bit w0 30 then
      if v ≤ k then true else if v > k + h then false else old.getD false
    else
      if k ≤ v then true else if v < k - h then false else old.getD false

def compsNow (d io : Dev) : List (Nat × Option Bool) :=
  (List.range 256).map fun c => (c, some (compOut d io c))

/-- One evaluation of a timer with entry `w` on input `x`; `tick` is whether this cycle is a tick of the
10-ms grid. The cycle in which the input changes is no count: the first comes 1 cycle after it, or 1 to 100 (R317). -/
def timerStep (w : Word) (t : BwkTimer) (x tick : Bool) : BwkTimer :=
  let preset := fld w 15 0
  let counts := !bit w 30 || tick
  if preset = 0 then { count := 0, out := x, last := x }
  else
    let n := if x == bit w 31 || x != t.last then 0 else if counts then min preset (t.count + 1) else t.count
    { count := n, out := if bit w 31 then x || (t.out && decide (n < preset)) else x && decide (preset ≤ n), last := x }

/-! ## Terms and rules (R315, R318, R319) -/


/-- A term's value (Table 11.4) given the comparators' outputs and the flags computed so far. The channels, MAINS_LOW,
the link and the role are those of `io`, the device as the sample instant found it (R309). -/
def termVal (d io : Dev) (comps : List (Nat × Option Bool)) (flags : List (Nat × Bool)) (t : Nat) : Bool :=
  let i := t % 4096
  let v : Bool :=
    match t / 4096 % 8 with
    | 0 => true
    | 1 => bit (tget 0 d.bwk.sig (i / 32)) (i % 32)
    | 2 => (tget none comps i).getD false
    | 3 =>
      let x := loadOf io (i / 8)
      match i % 8 with
      | 0 => gateBit x
      | 1 => decide (x.trip ≠ 0)
      | 2 => x.openLoad
      | 3 => supplyOff io (i / 8)
      | 4 => x.warn
      | _ => x.recorded
    | 4 =>
      match i / 32 with
      | 0 => fieldTerm io (i % 32)
      | 1 => decide ((fieldOf io (i % 32)).repFault ≠ 0)
      | _ => fieldStale io (i % 32)
    | 5 => tget false flags i
    | 6 =>
      match i with
      | 0 => d.bwk.qm.live
      | 1 => d.bwk.cl.live
      | 2 => d.bwk.peerSeen
      | 3 => d.bwk.anchored
      | 4 => hasAuthority io
      | 5 => io.ldc.mainsLow
      | _ => io.fio.up
    | _ => if i < 256 then wordFresh d i else groupFresh d (i - 256)
  v != decide (32768 ≤ t)

/-- The rules in use, in index order. -/
def rulesOf (bank : List (Nat × Word)) : List Nat :=
  bank.filterMap fun e =>
    if 0x4000 ≤ e.1 ∧ e.1 % 16 = 8 ∧ fld e.2 31 29 ≠ 0 then some ((e.1 - 0x4000) / 16) else none

/-- What the evaluation of the rules gathers: the cycle, the timers, and the destinations named. -/
structure BwkEval where
  flags : List (Nat × Bool) := []
  results : List (Nat × Bool) := []
  alarms : Word := 0
  permit : List (Nat × Bool) := []
  on : List (Nat × Bool) := []
  off : List (Nat × Bool) := []
  timers : List (Nat × BwkTimer) := []

/-- OR a result into a destination. -/
def orDest (l : List (Nat × Bool)) (k : Nat) (v : Bool) : List (Nat × Bool) :=
  tput l k (tget false l k || v)

/-- One rule (R315). -/
def ruleStep (d io : Dev) (comps : List (Nat × Option Bool)) (tick : Bool) (e : BwkEval) (i : Nat) : BwkEval :=
  let a := 0x4000 + 16 * i
  let w0 := bankWord d a
  let w1 := bankWord d (a + 4)
  let w2 := bankWord d (a + 8)
  let tv (t : Nat) : Bool := termVal d io comps e.flags t
  let x := tv (fld w0 15 0) && tv (fld w0 31 16) && tv (fld w1 15 0) && tv (fld w1 31 16)
  let k := fld w2 27 22
  let t1 := timerStep (bankWord d (0x300 + 4 * k)) (tget {} e.timers k) x tick
  let r := if bit w2 28 then t1.out else x
  let e1 := { e with
    results := tput e.results i r
    timers := if bit w2 28 then tput e.timers k t1 else e.timers }
  let dst := fld w2 7 0
  match fld w2 31 29 with
  | 1 => { e1 with permit := orDest e1.permit dst r }
  | 2 => { e1 with on := orDest e1.on dst r }
  | 3 => { e1 with off := orDest e1.off dst r }
  | 4 => { e1 with flags := orDest e1.flags dst r }
  | _ => { e1 with alarms := e1.alarms ||| flag r (dst % 32) }

/-! ## Outputs (R320, R321) -/

def outCfg (d : Dev) (k : Nat) : Word := bankWord d (0x100 + 4 * k)

/-- The safe state in effect: 0 off, 1 on, 2 hold-last. -/
def outSafe (d : Dev) (k : Nat) : Nat :=
  if k < 40 then fld (outCfg d k) 1 0 else fld (actField d (k - 40)) 27 26

/-- What an output does now: GATE of a load channel, DRIVE of a field output. -/
def outNow (d : Dev) (k : Nat) : Bool :=
  if k < 40 then gateBit (loadOf d k) else (fieldOf d (k - 40)).repDrive && decide ((fieldOf d (k - 40)).latched = 0)

/-- The fuse-map value of an output: an input position reads as off (R323). -/
def fuseOn (d : Dev) (k : Nat) : Bool :=
  if k < 40 then decide (fuseEntry d k = 1) else decide (fuseEntry d k = 2)

/-- The condition of a watch (R321). -/
def watchCond (d : Dev) (k : Nat) : Bool :=
  match fld (outCfg d k) 6 4 with
  | 1 => d.bwk.anchored
  | 2 => !d.bwk.cl.live
  | 3 => !d.bwk.qm.live
  | 4 => !d.bwk.peerSeen
  | 5 => !d.bwk.cl.live || !d.bwk.qm.live
  | _ => false

/-- The row of Table 11.5 that applies while RUNNING: 3 watch, 4 FORCE_OFF, 5 FORCE_ON, 6 otherwise. -/
def outRow (d : Dev) (e : BwkEval) (k : Nat) : Nat :=
  if watchCond d k then 3
  else if tget false e.off k then 4
  else if tget false e.on k then 5
  else 6

/-- The signals of a row with permit `p` and captured value `c`. -/
def rowSig (row safe : Nat) (p c : Bool) : OutSig :=
  match row with
  | 1 =>
    match safe with
    | 0 => ⟨false, true, false⟩
    | 1 => ⟨true, true, true⟩
    | _ => ⟨c, true, c⟩
  | 3 => ⟨p, true, match safe with | 0 => false | 1 => true | _ => c⟩
  | 4 => ⟨p, true, false⟩
  | 5 => ⟨p, true, true⟩
  | _ => ⟨p, false, false⟩

/-- GATE or DRIVE of an output, and its safe state, as last read at a sample instant (R308, R320): before the first one,
as they are now. -/
def latchOf (d : Dev) (k : Nat) : Bool × Nat := (tget none d.bwk.latch k).getD (outNow d k, outSafe d k)

/-- A sample reads every output's GATE or DRIVE from `io` and its safe state. -/
def latchAll (d io : Dev) : Dev :=
  { d with bwk := { d.bwk with latch := (List.range 72).map fun k => (k, some (outNow io k, outSafe d k)) } }

/-- The captured value while a row applies: taken at the sample instant of the cycle in which the row first applied
(R320). -/
def capture (d : Dev) (k row : Nat) : Bool :=
  let h := tget (0, false) d.bwk.held k
  if h.1 = row then h.2 else (latchOf d k).1

/-- Present one output's signals to its channel, which judges them at once (R236, R293). -/
def presentOne (d : Dev) (k : Nat) (o : OutSig) : Dev :=
  let d1 := { d with bwk := { d.bwk with presented := tput d.bwk.presented k o } }
  if k < 40 then
    loadJudge (setLoad d1 k { loadOf d1 k with permit := o.permit, forced := o.forced, forceOn := o.forceOn }) k
  else
    let n := k - 40
    fieldJudge (setField d1 n { fieldOf d1 n with
      permit := o.permit, forced := o.forced, forceOn := o.forceOn }) n

/-- Apply the outputs of a cycle. -/
def presentAll (d : Dev) (l : List (Nat × OutSig)) : Dev :=
  loadReleaseJudge (l.foldl (fun d e => presentOne d e.1 e.2) d)

/-- The EMPTY row: every output follows its fuse-map row (R323). -/
def emptyOuts (d : Dev) : List (Nat × OutSig) :=
  (List.range 72).map fun k => (k, ⟨fuseOn d k, true, fuseOn d k⟩)

/-! ## The cycle (R309) -/

/-- The pair peer is live: a heartbeat arrived less than 1 ms ago; never on a single module (Table 11.2). -/
def peerBeat (d : Dev) : Bool :=
  match d.bwk.peerAt with
  | none => false
  | some t => decide (d.pair.role ≠ .single) && decide (d.wall - t < 1000000)

/-- Heartbeats and Anchored as the sample finds them (R313, R314). -/
def sampleBeats (d : Dev) : Dev :=
  let b := d.bwk
  let q := beatLive d b.qm (qmTimeout d)
  let c := beatLive d b.cl (clTimeout d)
  let p := peerBeat d
  let changed := q != b.qm.live || c != b.cl.live || p != b.peerSeen
  let anch := decide (b.state = .running) && !q && !c
  let d1 := { d with bwk := { b with
    qm := { b.qm with live := q }, cl := { b.cl with live := c }, peerSeen := p, anchored := anch } }
  let d2 := if changed then evBwk d1 3 0 else d1
  if anch = b.anchored then d2 else evDev d2 2

/-- Comparators and timers whose entries differ in the two banks lose their memory (R325). -/
def carryOver (d : Dev) : Dev :=
  let same (o : Nat) : Bool := decide (tget 0 d.bwk.bank0 o = tget 0 d.bwk.bank1 o)
  { d with bwk := { d.bwk with
      comps := d.bwk.comps.filter fun e => same (0x1000 + 8 * e.1) && same (0x1004 + 8 * e.1)
      timers := d.bwk.timers.filter fun e => same (0x300 + 4 * e.1)
      held := [] } }

/-- BWK_RESULT. -/
def bwkEnd (d : Dev) (st : Nat) : Dev := resultEnd d 0x1200010 (at_ st 27)

/-- A committed bank becomes active at this sample instant (R324, R325); the first one ends the hold of
R403. A BWK_CMD COMMIT that runs completes; a bank mirrored from the Primary has no result. -/
def bankSwitch (d : Dev) : Dev :=
  if !d.bwk.commit then d
  else
    let d1 := carryOver d
    let d2 := { d1 with bwk := { d1.bwk with
      active := !d1.bwk.active, commit := false, bad := [], state := .running } }
    let d2' := evBwk (bwkInc d2 2) 0 0
    let d3 := if resultValid d2' 0x1200010 then d2' else bwkEnd d2' 0
    let d4 := mirrorNote d3 3 (bankWord d3 8).toNat
    if d4.ldc.gateHold then
      let d5 := { d4 with ldc := { d4.ldc with gateHold := false } }
      (List.range 32).foldl (fun d n => fieldDrive d n (fieldOf d n).want) (loadJudgeAll d5)
    else d4

/-- The signals of the FAULT row, with what the fault latch last read of each output. -/
def faultOuts (d : Dev) : List (Nat × OutSig) :=
  (List.range 72).map fun k => (k, rowSig 1 (latchOf d k).2 false (capture d k 1))

/-- A fault is detected: the fault latch presents the FAULT row, evaluation stops, a COMMIT that waits
completes FAULT (R308). -/
def bwkFault (d : Dev) (cause : Nat) : Dev :=
  if d.bwk.state = .fault then d
  else
    let outs := faultOuts d
    let held := (List.range 72).map fun k => (k, (1, capture d k 1))
    let latch := (List.range 72).map fun k => (k, some (latchOf d k))
    let d1 := { d with bwk := { d.bwk with
      state := .fault, fuseRow := false, cause := cause, commit := false, held := held, latch := latch, watching := [], anchored := false } }
    let d2 := evBwk (presentAll d1 outs) 4 0
    let d3 := if d.bwk.anchored then evDev d2 2 else d2
    if resultValid d 0x1200010 then d3 else bwkEnd d3 6

/-- Evaluate every rule and choose every output's row, from the sample `io` (R309, R320–R322). -/
def evalCycle (d io : Dev) : Dev :=
  let tick := decide ((d.bwk.cycles + 1) % 100 = 0)
  let comps := compsNow d io
  let bank := if d.bwk.active then d.bwk.bank1 else d.bwk.bank0
  let e := (rulesOf bank).foldl (ruleStep d io comps tick) { timers := d.bwk.timers }
  let rows := (List.range 72).map fun k => (k, (outRow d e k, capture d k (outRow d e k)))
  let outs := rows.map fun r =>
    (r.1, rowSig r.2.1 (outSafe d r.1) (tget false e.permit r.1) r.2.2)
  let trips := (rows.filter fun r => r.2.1 == 3 && !tget false d.bwk.watching r.1).length
  let d1 := { d with bwk := { d.bwk with
    comps := comps, timers := e.timers, held := rows
    watching := rows.map fun r => (r.1, r.2.1 == 3)
    next := { flags := e.flags, results := e.results, alarms := e.alarms, outs := outs } } }
  if trips = 0 then d1 else evBwk (cntAdd d1 0x1200058 trips) 2 0

/-- The finished cycle's results become visible (R322). -/
def applyCycle (d : Dev) : Dev :=
  let c := d.bwk.next
  let new := c.alarms &&& ~~~d.bwk.last.alarms
  let d1 := presentAll { d with bwk := { d.bwk with last := c, fuseRow := false } } c.outs
  if new = 0 then d1
  else evBwk (wr d1 0x1200028 (rd d1 0x1200028 ||| new)) 1 0

/-- The cycle in progress ends and the next begins (R309): no cycle ends at the first sample instant. -/
def cycleEnd (d : Dev) : Dev :=
  { d with bwk := { d.bwk with cycles := d.bwk.cycles + (if d.bwk.begun then 1 else 0), begun := true } }

/-- Evaluate the rules from the sample `io`, in `clks` clocks of 20 ns (Table 11.10). -/
def evalTimed (d io : Dev) (clks : Nat) : Dev :=
  let d1 := evalCycle (latchAll d io) io
  { d1 with bwk := { d1.bwk with evalLast := clks, evalMax := max d1.bwk.evalMax clks } }

/-- In EMPTY every output follows its fuse map: the row in effect is that of EMPTY (R323). -/
def emptyCycle (d io : Dev) : Dev :=
  let d1 := latchAll d io
  { d1 with bwk := { d1.bwk with held := (List.range 72).map fun k => (k, (2, capture d1 k 2)) } }

/-- A sample instant (R309): the inputs are copied, the last cycle's outputs are applied, a committed bank takes over, and
the rules are evaluated from that copy in `clks` clocks of 20 ns. A bank whose word became uncorrectable after its check is
found at its first evaluation (R308). Nothing happens while the Breakwater is in reset. -/
def bwkSample (d : Dev) (clks : Nat) : Dev :=
  if !domUp d 0 then d
  else
    let bad := d.bwk.commit && d.bwk.bad != []
    match d.bwk.state with
    | .fault => d
    | .running =>
      let d1 := sampleBeats (bankSwitch (applyCycle (cycleEnd d)))
      if bad then bwkFault d1 4 else evalTimed d1 d clks
    | .empty =>
      let d0 := cycleEnd d
      let d1 := sampleBeats (bankSwitch (presentAll d0 (emptyOuts d0)))
      if d1.bwk.state = .running then (if bad then bwkFault d1 4 else evalTimed d1 d clks)
      else emptyCycle d1 d

/-! ## The patrol (R307) -/

/-- The patrol reads a word of a bank: clean, corrected, or uncorrectable (R307, R308). -/
def bwkPatrol (d : Dev) (inactive : Bool) (o : Nat) (r : PatrolRead) : Dev :=
  if !domUp d 0 then d
  else match r with
  | .clean => d
  | .corrected => evBwk (bwkInc d 0) 5 0
  | .uncorrectable =>
    if inactive then { d with bwk := { d.bwk with bad := o :: d.bwk.bad } } else bwkFault d 4

/-! ## Bank checks (Table 11.7) -/

def inactiveBank (d : Dev) : List (Nat × Word) := if d.bwk.active then d.bwk.bank0 else d.bwk.bank1

/-- Bytes of a bank from one offset to another. -/
def bankBytes (b : List (Nat × Word)) (lo hi : Nat) : List Byte :=
  (List.range ((hi - lo) / 4)).flatMap fun i => leBytes (tget 0 b (lo + 4 * i)).toNat 4

/-- BWK_RESULT_IDX of the entry at an offset: a gap belongs to the section before it. -/
def sectionOf (o : Nat) : Word :=
  let s (k i : Nat) : Word := at_ k 12 ||| at_ i 0
  if o < 0x40 then s 0 0
  else if o < 0x100 then s 1 0
  else if o < 0x300 then s 2 (min 71 ((o - 0x100) / 4))
  else if o < 0x400 then s 3 ((o - 0x300) / 4)
  else if o < 0x800 then s 4 ((o - 0x400) / 4)
  else if o < 0x1000 then s 4 (256 + min 15 ((o - 0x800) / 4))
  else if o < 0x4000 then s 5 (min 255 ((o - 0x1000) / 8))
  else s 6 ((o - 0x4000) / 16)

/-- Whether a term's INDEX lies in its range (Table 11.4). -/
def termOk (t : Nat) : Bool :=
  let i := t % 4096
  match t / 4096 % 8 with
  | 0 => decide (i = 0)
  | 1 => decide (i < 512)
  | 2 => decide (i < 256)
  | 3 => decide (i < 320) && decide (i % 8 ≤ 5)
  | 4 => decide (i < 96)
  | 5 => decide (i < 256)
  | 6 => decide (i ≤ 6)
  | _ => decide (i ≤ 271)

def termsOk (w : Word) : Bool := termOk (fld w 15 0) && termOk (fld w 31 16)

/-- W2 of a rule: DKIND, its zero field and DEST (Table 11.3). -/
def destOk (w : Word) : Bool :=
  let k := fld w 31 29
  let dst := fld w 7 0
  decide (fld w 21 8 = 0) && decide (k ≤ 5) &&
    (decide (k = 0 ∨ k = 4) || (if k = 5 then decide (dst < 32) else decide (dst < 72)))

/-- Whether the word at an offset of a bank is a legal entry (Table 11.8). -/
def entryOk (o : Nat) (w : Word) : Bool :=
  let only (m : Word) : Bool := decide (w &&& ~~~m = 0)
  if o = 0 ∨ o = 8 ∨ o = 0xC then true
  else if o = 4 then only 0xFFFF
  else if o = 0x40 then true
  else if o < 0x100 then only 0
  else if o < 0x220 then
    only 0x73 && decide (fld w 6 4 < 6) && decide (fld w 1 0 < 3)
      && (decide (o < 0x1A0) || decide (fld w 1 0 = 0))
  else if o < 0x300 then only 0
  else if o < 0x400 then only 0xC000FFFF
  else if o < 0x840 then only 0xFFFF
  else if o < 0x1000 then only 0
  else if o < 0x1800 then
    if o % 8 = 0 then only 0xE1FFFFFF && decide (fld w 24 16 ≤ 295) else only 0xFFFF
  else if o < 0x4000 then only 0
  else
    match o % 16 / 4 with
    | 0 => termsOk w
    | 1 => termsOk w
    | 2 => destOk w
    | _ => only 0

/-- The rules, with their DKIND, destination and terms, in index order. -/
def ruleDest (b : List (Nat × Word)) (i : Nat) : Word := tget 0 b (0x4008 + 16 * i)

/-- Whether rule `i` reads flag `f`. -/
def readsFlag (b : List (Nat × Word)) (i f : Nat) : Bool :=
  let w0 := tget 0 b (0x4000 + 16 * i)
  let w1 := tget 0 b (0x4004 + 16 * i)
  [fld w0 15 0, fld w0 31 16, fld w1 15 0, fld w1 31 16].any fun t =>
    t / 4096 % 8 == 5 && t % 4096 == f

/-- The lowest rule that reads a flag written by a rule of equal or higher index (R319). -/
def flagOrderBad (b : List (Nat × Word)) : Option Nat :=
  let rs := rulesOf b
  rs.find? fun i => rs.any fun j =>
    decide (i ≤ j) && decide (fld (ruleDest b j) 31 29 = 4) && readsFlag b i (fld (ruleDest b j) 7 0)

/-- The second rule to name a timer (R317). -/
def timerSharedBad (b : List (Nat × Word)) : Option Nat :=
  let rs := rulesOf b
  rs.find? fun i => bit (ruleDest b i) 28 && rs.any fun j =>
    decide (j < i) && bit (ruleDest b j) 28 && fld (ruleDest b j) 27 22 == fld (ruleDest b i) 27 22

/-- The checks of Table 11.7 in order: status and BWK_RESULT_IDX. -/
def bankCheck (b : List (Nat × Word)) (ue : Bool) : Nat × Word :=
  if tget 0 b 0 ≠ 0x49525742 ∨ fld (tget 0 b 4) 15 0 ≠ 1 then (1, 0)
  else if ue || decide (crc32c 0xFFFFFFFF (bankBytes b 0x10 0x8000) ≠ tget 0 b 0xC) then (2, 0)
  else
    match b.find? fun e => !entryOk e.1 e.2 with
    | some e => (3, sectionOf e.1)
    | none =>
      match flagOrderBad b with
      | some i => (4, at_ 6 12 ||| at_ i 0)
      | none =>
        match timerSharedBad b with
        | some i => (5, at_ 6 12 ||| at_ i 0)
        | none => (0, 0)

/-- Run a BWK command, or ignore it while another runs; in FAULT it completes FAULT (R308, R328). -/
def bwkCommand (d : Dev) (k : Dev → Dev) : Dev :=
  if !resultValid d 0x1200010 then evBwk d 6 0
  else if d.bwk.state = .fault then bwkEnd d 6
  else k d

/-- The outcome of a check: a failing one names the first faulty entry (R324); one that passes leaves
BWK_RESULT_IDX alone (DESIGN CHOICE, assumption 46). -/
def checkEnd (d : Dev) (r : Nat × Word) : Dev :=
  bwkEnd (if r.1 = 0 then d else wr d 0x1200014 r.2) r.1

/-- BWK_CMD CHECK (R324). -/
def bwkCheck (d : Dev) : Dev :=
  bwkCommand d fun d => checkEnd d (bankCheck (inactiveBank d) (d.bwk.bad != []))

/-- BWK_CMD COMMIT: refused while the module is STANDBY or ISOLATED (R422); a bank that passes becomes
active at the next sample instant. -/
def bwkCommit (d : Dev) : Dev :=
  bwkCommand d fun d =>
    if !hasAuthority d then bwkEnd d 7
    else
      let r := bankCheck (inactiveBank d) (d.bwk.bad != [])
      if r.1 = 0 then
        resultBegin { d with bwk := { d.bwk with commit := true } } 0x1200010
      else checkEnd d r

def bwkBadOp (d : Dev) : Dev := bwkCommand d fun d => bwkEnd d 7

/-- A write of a word of BWK_LOAD (R324): none while a CHECK or COMMIT runs. -/
def bankWrite (d : Dev) (o : Nat) (v : Word) : Dev :=
  if d.bwk.active then
    { d with bwk := { d.bwk with bank0 := tset 0 d.bwk.bank0 o v, bad := d.bwk.bad.filter (· != o) } }
  else
    { d with bwk := { d.bwk with bank1 := tset 0 d.bwk.bank1 o v, bad := d.bwk.bad.filter (· != o) } }

def bwkClear (d : Dev) : Dev := clearCnts d 0x1200040 0x1200060

/-! ## Meanings -/

def execBwkSample (clks : Nat) (s : State) : Answer := onDev (bwkSample · clks) s

/-- A kick of the Quaymaster: none while it does not run (R313). -/
def execBwkHbCl (seq : BitVec 8) (s : State) : Answer := onDev (fun d => if someHart d then beatCl d seq else d) s
def execBwkFault (cause : BwkFaultCause) (s : State) : Answer :=
  onDev (fun d => if domUp d 0 then bwkFault d cause.code else d) s
def execBwkPatrol (inactive : Bool) (o : Fin 8192) (r : PatrolRead) (s : State) : Answer :=
  onDev (bwkPatrol · inactive (4 * o) r) s
def execCheck (s : State) : Answer := onDev bwkCheck s
def execCommit (s : State) : Answer := onDev bwkCommit s
def execBwkClear (s : State) : Answer := onDev bwkClear s

end Sys2Proof.Machine
end

