-- ==== Sys2Proof/Machine/Mailbox.lean ====
section
/-! DEFINITION. Mailbox slots (R346, R347, Table 12.9) and the key-request engine's share of them (R366,
R368): posting, cancelling, and what resets do. Services are in Keys. -/

namespace Sys2Proof.Machine

def mbxOf (d : Dev) (s : Nat) : Mbx := tget {} d.keys.mbx s
def setMbx (d : Dev) (s : Nat) (x : Mbx) : Dev :=
  { d with keys := { d.keys with mbx := tset {} d.keys.mbx s x } }

/-- Codes of KEY_MBX_STATE (Table 13.14). -/
def MbxState.code : MbxState → Nat
  | .free => 0
  | .posted => 1
  | .taken => 2
  | .done => 3
  | .cancelled => 4

/-- Request word `w`, response word `w`, of slot `s` (Table 13.14). -/
def aMbxReq (s w : Nat) : Nat := 0x1401000 + 0x100 * s + 4 * w
def aMbxRsp (s w : Nat) : Nat := 0x1401040 + 0x100 * s + 4 * w

/-- KEY_CNT[k]. -/
def keyInc (d : Dev) (k : Nat) : Dev := inc d (0x1400040 + 8 * k)

/-- A slot is posted: it takes its place in the order of posting, and the Lock is interrupted. -/
def mbxPosted (d : Dev) (s : Nat) (x : Mbx) : Dev :=
  let o := d.keys.order
  let d1 := setMbx d s { x with state := .posted, at_ := d.wall, order := o, reading := false }
  emit (keyInc { d1 with keys := { d1.keys with order := o + 1 } } 0) (.lockIrq 0 s)

/-- Whether `who` owns slot `s` (R346, R386). -/
def mbxOwner (who : Requester) (s : Nat) : Bool :=
  match who with
  | .qm => decide (8 ≤ s ∧ s < 12)
  | .hart _ => decide (12 ≤ s ∧ s < 16)
  | _ => false

/-- The owner writes a request header; another requester's write is refused (R347, R386). -/
def mbxHeader (d : Dev) (who : Requester) (s : Nat) (header : Word) : Dev :=
  if !mbxOwner who s then emit d (.busError who)
  else
    let x := mbxOf d s
    if x.state = .free then
      mbxPosted (wr (wr d (aMbxReq s 0) header) (aMbxRsp s 0) (rd d (aMbxRsp s 0) &&& 0x7FFFFFFF)) s x
    else keyInc d 2

/-- The owner of a slot is interrupted: Quaymaster or APLIC source 7; the engine needs no message. -/
def mbxOwnerIrq (d : Dev) (s : Nat) : Dev :=
  if s < 8 then d else if s < 12 then emit d (.qmIrq s) else emit d (.aplic 7)

/-- A response of `status` and `payload` becomes visible in slot `s`: words 1–15 first, then word 0. -/
def mbxWrite (d : Dev) (s status : Nat) (payload : List Byte) : Dev :=
  let x := mbxOf d s
  let seq : Nat := if s < 8 then fld (leWord x.req 0) 15 0 else fld (rd d (aMbxReq s 0)) 15 0
  let f := drawNat d
  let short := decide (payload.length ≤ 60)
  let d0 := if short then d else f.2
  let len : Nat := if short then payload.length else f.1 % 256
  let h := flag true 31 ||| at_ status 24 ||| at_ len 16 ||| at_ seq 0
  if s < 8 then setMbx d0 s { x with state := .done, status := status, rsp := leBytes h.toNat 4 ++ payload }
  else
    let d1 := (List.range 15).foldl (fun d i => wr d (aMbxRsp s (i + 1)) (leWord payload i)) d0
    mbxOwnerIrq (setMbx (wr d1 (aMbxRsp s 0) h) s { x with state := .done, status := status }) s

/-- Whether a slot has stood in its state since its posting, or its cancellation, for 1 s. -/
def mbxDue (d : Dev) (s : Nat) : Bool := decide (1000000000 ≤ d.wall - (mbxOf d s).at_)

/-- 1 s since POSTED (Table 12.9). -/
def mbxTimeout (d : Dev) (s : Nat) : Dev :=
  let x := mbxOf d s
  if (x.state = .posted ∨ x.state = .taken) ∧ mbxDue d s then keyInc (mbxWrite d s 0x7E []) 3 else d

/-- The owner acknowledges. -/
def mbxAck (d : Dev) (who : Requester) (s : Nat) : Dev :=
  if !mbxOwner who s then emit d (.busError who)
  else if (mbxOf d s).state = .done then setMbx d s {} else d

/-- The slot is cancelled; its response shows CANCELLED. -/
def mbxCancelled (d : Dev) (s : Nat) : Dev :=
  let x := mbxOf d s
  if x.state = .posted ∨ x.state = .taken then
    let d1 := keyInc (setMbx d s { x with state := .cancelled, at_ := d.wall }) 4
    if s < 8 then d1
    else wr d1 (aMbxRsp s 0) (flag true 31 ||| at_ 0x7F 24 ||| at_ (fld (rd d (aMbxReq s 0)) 15 0) 0)
  else d

def mbxCancel (d : Dev) (who : Requester) (s : Nat) : Dev :=
  if !mbxOwner who s then emit d (.busError who) else mbxCancelled d s

/-- A cancelled slot reaches 1 s. -/
def mbxCancelledTimeout (d : Dev) (s : Nat) : Dev :=
  if (mbxOf d s).state = .cancelled ∧ mbxDue d s then setMbx d s {} else d

/-- Reset of the owner's domain for slots `[lo, hi)` (Table 12.9). -/
def mbxOwnerReset (d : Dev) (lo hi : Nat) : Dev :=
  (List.range 16).foldl (fun d s =>
    if s < lo ∨ hi ≤ s then d
    else match (mbxOf d s).state with
      | .free => setMbx d s {}
      | .done => setMbx d s {}
      | _ => setMbx d s { mbxOf d s with state := .cancelled, at_ := d.wall }) d

/-! ## The key-request engine (R368) -/

/-- The lowest engine slot that is FREE. -/
def engineFree (d : Dev) : Option Nat := (List.range 8).find? fun s => decide ((mbxOf d s).state = .free)

/-- A KEY_REQ whose buffer is in hand is posted, if an engine slot is free. -/
def enginePost (d : Dev) (n r : Nat) : Dev :=
  match (ringOf d n r).inflight.find? fun x => decide (x.stage = .reading ∧ opOf x = 0x30) && x.passed,
      engineFree d with
  | some x, some s =>
    mbxPosted (setDesc d n r { x with stage := .started, data := [] }) s
      { slip := n, ring := r, idx := x.idx, req := x.data.take (fld (dw x 4) 12 0) }
  | _, _ => d

/-- The engine slot that serves a descriptor. -/
def engineOf (d : Dev) (n r idx : Nat) : Option Nat :=
  (List.range 8).find? fun s =>
    let x := mbxOf d s
    decide (x.state ≠ .free ∧ x.state ≠ .cancelled ∧ x.slip = n ∧ x.ring = r ∧ x.idx = idx)

/-- The engine cancels for a squashed KEY_REQ (R153). -/
def engineCancel (d : Dev) (n r : Nat) (x : Desc) : Dev :=
  if x.stage = .started ∧ opOf x = 0x30 then
    match engineOf d n r x.idx with
    | some s => if (mbxOf d s).state = .done then setMbx d s {} else mbxCancelled d s
    | none => d
  else d

/-! ## Meanings -/

def execMailboxTimeout (s : Fin 16) (st : State) : Answer := onDev (mbxTimeout · s) st
def execCancelledSlotTimeout (s : Fin 16) (st : State) : Answer := onDev (mbxCancelledTimeout · s) st

end Sys2Proof.Machine
end

