-- ==== Sys2Proof/Machine/Wgs.lean ====
section
/-! DEFINITION. The wire guard (09): the harness model, its saves and its start, WGS commands, and the
meanings of the load-channel, Slalom and wire-guard commands. -/

namespace Sys2Proof.Machine

/-- K0 in units of 10^-4 °C/A² and τ in s (Table 9.1). -/
def conductor (xsec : Nat) : Nat × Nat :=
  [(5000, 12), (3200, 17), (2200, 22), (1350, 30), (720, 45), (250, 90), (400, 65), (130, 140),
    (75, 200)].getD xsec (0, 1)

def wgEn (w : Word) : Bool := bit w 31
def wgXsec (w : Word) : Nat := fld w 30 27

/-- c times 10^4 times 16 times (2L + 5), L in units of 0.1 m, as a fraction: numerator and
denominator (R262). -/
def riseNum (w : Word) : Int := ((conductor (wgXsec w)).1 * fld w 26 20 * (2 * fld w 19 10) : Nat)
def riseDen (w : Word) : Int := (160000 * (2 * fld w 19 10 + 5) : Nat)

/-- 1 °C in the units of θ. -/
def deg : Int := 1000000000

/-- The ambient of a channel in °C units of 10^-9 (R265). -/
def ambient (d : Dev) (n : Nat) : Int :=
  let w := actWg d n
  if bit w 9 then
    let k := fld w 7 0
    if wordFresh d k then signed ((tget 0 d.bwk.word k).toNat) 16 * 100000000
    else signed (fld (rd d 0x1000000) 31 24) 8 * deg
  else signed (fld (actTemp d n) 7 0) 8 * deg

/-- c I² (1 + 0.00393 (θ − 20)) with I in mA (R263). -/
def riseOf (w : Word) (ma : Int) (theta : Int) : Int :=
  riseNum w * (ma * ma) * (100000000000000 + 393 * (theta - 20 * deg)) / (riseDen w * 100000000000)

/-- One step of 100 µs (R263): θ approaches its target by 100 µs / τ, and saturates at +511 °C. -/
def thetaStep (w : Word) (amb : Int) (ma : Nat) (theta : Int) : Int :=
  let target := amb + riseOf w ma theta
  min (511 * deg) (theta + (target - theta) / ((conductor (wgXsec w)).2 * 10000 : Nat))

/-- The judgement of θ against the thresholds (R266). -/
def wgJudge (d : Dev) (n : Nat) : Dev :=
  let x := loadOf d n
  let t := actTemp d n
  let d1 :=
    if (fld t 23 16 : Int) * deg ≤ x.theta then
      if x.warn then d
      else evWgs (inc (setLoad d n { x with warn := true }) (wgsBase n + 0x30)) 0 n
    else if x.theta < (fld t 15 8 : Int) * deg then setLoad d n { x with warn := false }
    else d
  if (fld t 31 24 : Int) * deg ≤ x.theta ∧ x.trip ≠ 4 ∧ x.trip ≠ 5 then
    latchTrip (inc d1 (wgsBase n + 0x28)) n 4
  else d1

/-- The mean magnitude of the 100 raw values in mA, one at saturation taken as the class's short-circuit threshold
(R264). -/
def measMean (n : Nat) (m : LoadMeas) : Nat := (m.sum + m.sat * (loadClass n).short) / 100

/-- What a channel measures when its current would be `m`: during a shaped turn-on the ceiling holds it (R273). -/
def heldMeas (d : Dev) (n : Nat) (m : LoadMeas) : LoadMeas :=
  let c := ceiling d n
  if (loadOf d n).shaped then
    { now := min m.now c, sum := min (m.sum + m.sat * (loadClass n).short) (100 * c), sat := 0, mean10 := min m.mean10 c }
  else m

/-- The update of one channel for 100 µs; with EN = 0 the model stops and θ reads 0 (R263, R264). -/
def wgChannel (d : Dev) (n : Nat) (m0 : LoadMeas) : Dev :=
  let x := loadOf d n
  let m := heldMeas d n m0
  let d1 := setLoad d n { x with nowMa := m.now, meanMa := m.mean10 }
  let w := actWg d n
  if wgEn w then
    wgJudge (setLoad d1 n { loadOf d1 n with theta := thetaStep w (ambient d n) (measMean n m) x.theta }) n
  else setLoad d1 n { loadOf d1 n with theta := 0, warn := false }

def wgAll : Nat → List LoadMeas → Dev → Dev
  | _, [], d => d
  | n, m :: t, d => if n < 40 then wgAll (n + 1) t (wgChannel d n m) else d

/-- θ, τ and the ambient in use of every channel, as they are saved and mirrored (R268, R426). -/
def thetaTable (d : Dev) : List (Int × Nat × Int) :=
  (List.range 40).map fun n => ((loadOf d n).theta, (conductor (wgXsec (actWg d n))).2, ambient d n)

/-- The Primary mirrors the θ of its channels every 1 s (Table 15.3). -/
def thetaMirror (d : Dev) : Dev :=
  if d.pair.role = .primary ∧ d.pair.thetaSent + 1000000000 ≤ d.wall then
    mirrorSend { d with pair := { d.pair with thetaSent := d.wall } } 6 0 [.theta (thetaTable d)]
  else d

/-- Every 100 µs: `va` and `vb` are the sums of each bank's 100 voltages of this time in 10 mV, which enter the 10-ms means
outside a dip; then every channel (R263, R275, R278, Table 8.20; DESIGN CHOICE, assumption 95). -/
def wgModelUpdate (d : Dev) (va vb : Int) (ms : List LoadMeas) : Dev :=
  if !domUp d 1 then d else
  let sum (b : Nat) : Int := (bankChans b).foldl (fun a n =>
    a + match ms[n]? with | some m => (heldMeas d n m).now | none => 0) 0
  let bank (b : Nat) (v : Int) (d : Dev) : Dev :=
    let k := bankOf d b
    let volts := if k.inDip then k.volts else k.volts.drop (k.volts.length - 99) ++ [v]
    setBank d b { k with
      volt := v / 100, curr := sum b / 10, volts := volts, currs := k.currs.drop (k.currs.length - 99) ++ [sum b] }
  thetaMirror (wgAll 0 ms (bank 1 vb (bank 0 va d)))

/-- θ_ss at an ambient and a current, in units of θ; none when it is undefined (R263). -/
def thetaSs (w : Word) (amb : Int) (ma : Nat) : Option Int :=
  let num := riseNum w * ((ma : Int) * ma)
  let den := riseDen w * 1000000
  if den * 100000 ≤ num * 393 then none
  else some ((amb * (den * 100000) + num * 92140 * deg) / (den * 100000 - num * 393))

/-- Save θ, τ and the ambient in use to the next record area; a save that power loss interrupts leaves that area without
a good CRC and the other whole (R268). -/
def wgSave (d : Dev) (whole : Bool) : Dev :=
  let r : WgRecord :=
    { at_ := aonCount d, good := whole, chans := thetaTable d }
  if d.ldc.recNext then { d with ldc := { d.ldc with recB := some r, recNext := false } }
  else { d with ldc := { d.ldc with recA := some r, recNext := true } }

/-- The worst case of R269: θ_ss at AMB_MAX and full load, capped at T_CLEAR. -/
def worstCase (d : Dev) (n : Nat) : Int :=
  let cap := (fld (actTemp d n) 15 8 : Int) * deg
  match thetaSs (actWg d n) (signed (fld (rd d 0x1000000) 31 24) 8 * deg) (iDecl d n) with
  | some t => min cap t
  | none => cap

/-- e^(−t/τ) in units of 2^-32, in integers (DESIGN CHOICE, log entry 61): 1/e once for each whole τ and the
first eight terms of the series for the rest, with t and τ in units of 1/32,768 s. -/
def expNeg (t tau : Nat) : Nat :=
  let whole := t / tau
  let r := t % tau
  let one : Nat := 4294967296
  let k (n x : Nat) : Nat := x * r / (tau * n)
  let t1 := k 1 one
  let t2 := k 2 t1
  let t3 := k 3 t2
  let t4 := k 4 t3
  let t5 := k 5 t4
  let t6 := k 6 t5
  let t7 := k 7 t6
  let frac := one + t2 + t4 + t6 - t1 - t3 - t5 - t7
  (List.range (min 64 whole)).foldl (fun a _ => a * 1580030169 / one) frac

/-- The newest record with a good CRC (R268). -/
def bestRecord (d : Dev) : Option WgRecord :=
  let good (r : Option WgRecord) : Option WgRecord := r.filter (·.good)
  match good d.ldc.recA, good d.ldc.recB with
  | some a, some b => if a.at_ ≤ b.at_ then some b else some a
  | some a, none => some a
  | none, some b => some b
  | none, none => none

/-- θ of a channel from a saved entry, cooled for `ticks` always-on counts unless its gate was on during
the reset (Table 9.2). -/
def cooled (e : Int × Nat × Int) (ticks : Nat) (gateWasOn : Bool) : Int :=
  if gateWasOn then e.1
  else e.2.2 + (e.1 - e.2.2) * expNeg ticks (32768 * e.2.1) / 4294967296

/-- The wire guard's start when the load-channel domain leaves reset (R269). -/
def wgRestore (d : Dev) : Dev :=
  let worst (d : Dev) (code el : Nat) : Dev :=
    (List.range 40).foldl (fun d n => setLoad d n { loadOf d n with theta := worstCase d n })
      { d with ldc := { d.ldc with restore := code, elapsed := el } }
  let d1 := match bestRecord d with
    | some r =>
      let ticks := aonCount d - r.at_
      let el := min 65535 (ticks / 32768)
      if ticks ≤ 32768 * atLeast1 (fld (rd d 0x1000000) 15 0) then
        (List.range 40).foldl (fun d n =>
          setLoad d n { loadOf d n with
            theta := cooled (r.chans.getD n (0, 1, 0)) ticks (loadOf d n).ungated })
          { d with ldc := { d.ldc with restore := 0, elapsed := el } }
      else worst d 2 el
    | none => worst d (if d.ldc.recA.isSome ∧ d.ldc.recB.isSome then 3 else 1) 0
  evWgs d1 1 0

/-! ## WGS commands (R267, R274, R281) -/

def wgsEnd (d : Dev) (st : Nat) : Dev := resultEnd d 0x1000014 (at_ st 28)
def wgsCommand (d : Dev) (k : Dev → Dev) : Dev :=
  if resultValid d 0x1000014 then k d else evWgs d 8 0

/-- The first check of R267 and R274 that fails, in the order of their codes; 0 for none. -/
def wgsCheck (d : Dev) (n : Nat) : Nat :=
  let a := wgsBase n
  let w := rd d a
  let t := rd d (a + 4)
  let sl := rd d (a + 8)
  let sh := rd d (a + 0xC)
  let c := loadClass n
  let iPeak := if fld sl 26 16 = 0 then c.rated else 125 * fld sl 26 16
  let iCeil := 125 * fld sh 26 16
  let ts := fld sh 15 0
  let vmax := if n < 24 then 264 else 10 * clamp 18 60 (fld (rd d 0xF00018) 5 0)
  if 8 < wgXsec w ∨ fld w 26 20 < 16 ∨ 64 < fld w 26 20 ∨ fld w 19 10 = 0 then 2
  else if ¬ (fld t 15 8 < fld t 23 16 ∧ fld t 23 16 < fld t 31 24 ∧ fld t 31 24 ≤ 200) then 3
  else
    let small := match thetaSs w (signed (fld (rd d 0x1000000) 31 24) 8 * deg) (iDecl d n) with
      | some x => decide ((fld t 23 16 : Int) * deg ≤ x)
      | none => true
    if small then 4
    else if ¬ bit sl 31 ∧ 9 * c.short ≤ 10 * iPeak then 5
    else if bit sl 31 ∧ ¬ (iDecl d n ≤ iCeil ∧ iCeil ≤ iPeak ∧ 0 < ts ∧ ts ≤ 500
        ∧ vmax * iCeil ≤ 10000 * c.pRamp) then 6
    else 0

def wgsApply (d : Dev) (n : Nat) : Dev :=
  wgsCommand d fun d =>
    if 40 ≤ n then wgsEnd d 1
    else
      match wgsCheck d n with
      | 0 =>
        let a := wgsBase n
        let d1 := [0, 4, 8, 0xC].foldl (fun d o => wr d (a + 0x10 + o) (rd d (a + o))) d
        wgsEnd (judgeUnfit d1 (bankIdx n)) 0
      | st => wgsEnd d st

def wgsBadOp (d : Dev) : Dev := wgsCommand d fun d => wgsEnd d 7

def wgsClearCh (d : Dev) (n : Nat) : Dev := clearCnts d (wgsBase n + 0x28) (wgsBase n + 0x38)

/-- WGS_CNT_CLEAR of everything: the channels' counters and the banks' (Table 9.6). -/
def wgsClearAll (d : Dev) : Dev :=
  clearCnts (clearCnts ((List.range 40).foldl wgsClearCh d) (aBcnt 0 0) (aBcnt 0 5)) (aBcnt 1 0) (aBcnt 1 5)

/-! ## Meanings -/
def execSlalomAdmit (b : Fin 2) (s : State) : Answer := onDev (fun d => loadReleaseJudge (slalomAdmit d b)) s
def execShortCircuitTrip (n : Fin 40) (ma : Int) (s : State) : Answer := onDev (shortTrip · n ma) s
def execThermalTrip (n : Fin 40) (tj : Int) (s : State) : Answer := onDev (thermalTrip · n tj) s
def execThermalRestart (n : Fin 40) (tj : Int) (s : State) : Answer := onDev (thermalRestart · n tj) s
def execRestartCountReset (n : Fin 40) (s : State) : Answer := onDev (restartReset · n) s
def execReverseCurrent (n : Fin 40) (cur : Int) (s : State) : Answer := onDev (reverseCurrent · n cur) s
def execTwinReverseBlock (n : Fin 40) (cur : Int) (s : State) : Answer := onDev (twinBlock · n cur) s
def execTwinForward (n : Fin 40) (mv : Int) (s : State) : Answer := onDev (twinForward · n mv) s
def execSupplyFault (k : Fin 4) (v : Int) (s : State) : Answer := onDev (supplyFault · k v) s
def execSupplyRestored (k : Fin 4) (v : Int) (s : State) : Answer := onDev (supplyRestored · k v) s
def execSegmentMeasure (n : Fin 40) (ms : List SegMeas) (s : State) : Answer :=
  onDev (segmentMeasure · n ms) s
def execSpareCheck (n : Fin 40) (spare mean : Nat) (s : State) : Answer :=
  onDev (spareCheck · n spare mean) s
def execSegmentTest (n : Fin 40) (bad : Option (Fin 7)) (s : State) : Answer :=
  onDev (segmentTest · n bad) s
def execSegmentMapSave (s : State) : Answer := onDev mapSave s
def execOpenLoad (n : Fin 40) (cur : Int) (s : State) : Answer := onDev (openLoad · n cur) s
def execOpenLoadClear (n : Fin 40) (cur : Int) (s : State) : Answer := onDev (openLoadClear · n cur) s
def execUnderCurrent (n : Fin 40) (cur : Int) (s : State) : Answer := onDev (underCurrent · n cur) s
def execUnderCurrentClear (n : Fin 40) (cur : Int) (s : State) : Answer := onDev (underCurrentClear · n cur) s
def execOffStateTest (n : Fin 40) (mv : Int) (s : State) : Answer := onDev (offStateTest · n mv) s
def execSampleIntervalEnd (n : Fin 40) (mean lo hi tj : Int) (s : State) : Answer :=
  onDev (sampleEnd · n mean lo hi tj) s
def execWearRecordSave (s : State) : Answer := onDev wearSave s
def execWgModelUpdate (va vb : Int) (ms : List LoadMeas) (s : State) : Answer :=
  onDev (wgModelUpdate · va vb ms) s
def execWgStateSave (whole : Bool) (s : State) : Answer := onDev (wgSave · whole) s
def execMainsLow (volts : Nat) (s : State) : Answer := onDev (mainsLow · volts) s
def execMainsLowClear (volts : Nat) (s : State) : Answer := onDev (mainsLowClear · volts) s
def execBankOvercurrent (b : Fin 2) (s : State) : Answer := onDev (bankOvercurrent · b) s
def execShedHoldExpire (n : Fin 40) (s : State) : Answer := onDev (shedReturn · n) s
def execInrushWindowEnd (n : Fin 40) (s : State) : Answer := onDev (windowEnd · n) s
def execDipBegin (b : Fin 2) (v : Int) (s : State) : Answer := onDev (dipBegin · b v) s
def execDipEnd (b : Fin 2) (v : Int) (s : State) : Answer := onDev (dipEnd · b v) s
def execDipBlankingEnd (b : Fin 2) (s : State) : Answer := onDev (dipBlankEnd · b) s

end Sys2Proof.Machine
end

