-- ==== Sys2Proof/Machine/Slips.lean ====
section
/-! DEFINITION. Slips, their commands, resets and resources, rings and doorbells, descriptors of every
operation, and MSI-X (04). -/

namespace Sys2Proof.Machine

/-! ## Attachment and freeing (R122, Table 4.4) -/

/-- Virtual function `n` exists (R119, R122). -/
def vfExists (d : Dev) (n : Nat) : Bool :=
  decide (0 < n) && decide (n ≤ hostMax d) && d.slips.vfEnable && decide (n ≤ d.slips.numVfs)

def attached (d : Dev) (n : Nat) : Bool := decide (n = 0) || internalSlip d n || vfExists d n

/-- The slips that have been created. -/
def created (d : Dev) : List Nat := (d.slips.tab.filter fun e => decide (e.2.state ≠ .free)).map (·.1)

/-- Host slips that have been created (R122). -/
def hostSlips (d : Dev) : List Nat := (created d).filter fun n => decide (n ≠ 0) && !internalSlip d n

/-- The eight ring pairs of a slip are gone; the ones kept have only their SQ_STOP. -/
def ringsReset (d : Dev) (n : Nat) (keepStop : Bool) : Dev :=
  (List.range 8).foldl (fun d r =>
    setRing d n r (if keepStop then { sqStop := (ringOf d n r).sqStop } else {})) d

/-- A slip becomes FREE: its incarnation and its function's MSI-X capability outlive it. The windows of slips 0–4095
end at 0xC0_0000 (Table 4.14). -/
def slipFree (d : Dev) (n : Nat) : Dev :=
  let s := slipOf d n
  mirrorNote (setSlip (ringsReset (resetRegs d (slipWin n) (min (slipWin n + 0x200) 0xC00000)) n false) n
    { inc := s.inc, msixOn := s.msixOn, msixMask := s.msixMask }) 2 n

/-! ## Slip reset (R151–R153) -/

/-- Work that has passed its point of return: handed to the Basin or to its resource (R151, R152). -/
def handedOn (x : Desc) : Bool := decide (x.stage = .started) && decide (opOf x ≠ 0x30 ∧ opOf x ≠ 0x31)

/-- The completion of a squashed descriptor (R133). -/
def squashCompl (d : Dev) (x : Desc) : Compl :=
  { status := 1, nodesc := decide (x.stage = .fetching), ts := devTime d }

/-- A LOG_READ that waits for the Quaymaster is no longer served (R153). -/
def logCancel (d : Dev) (n r idx : Nat) : Dev :=
  { d with qm := { d.qm with queue := d.qm.queue.filter fun e => e.2 != .logRead n r idx } }

/-- Squash every fetched descriptor of a ring that has no outcome and has not passed its point of return;
with `reset`, a confirmation whose verdict has fallen takes the verdict's outcome (R133, R151). -/
def squashRing (d : Dev) (n r : Nat) (reset : Bool) : Dev :=
  let g := ringOf d n r
  let judge (x : Desc) : Desc :=
    match x.stage with
    | .done _ => x
    | _ =>
      if handedOn x then
        (if reset && decide (x.named ≠ 0) then { x with stage := .done { status := 0, ts := x.since, c5 := x.c5 } }
         else x)
      else { x with stage := .done (squashCompl d x) }
  let d1 := g.inflight.foldl (fun d x => logCancel (engineCancel d n r x) n r x.idx) d
  let gone (i : Nat) : Bool := g.inflight.any fun x => x.idx == i && !handedOn x
  flushRing (setRing (dropReads d1 n r gone) n r { g with inflight := g.inflight.map judge }) n r

/-- Stop fetching on a ring: SQ_STOP takes the first index not fetched (R133). -/
def ringStop (d : Dev) (n r : Nat) : Dev :=
  let g := ringOf d n r
  if g.active && g.fetchOn then setRing d n r { g with fetchOn := false, sqStop := g.sqHead } else d

/-- Frames queued for a slip are discarded and counted in SLIP_RX_DROP (R151, step 4). -/
def slipDiscard (d : Dev) (n : Nat) : Dev :=
  (d.basin.queues.filter fun e => match e.dest with | .slip m _ => m == n | _ => false).foldl
    (fun d e => leaveQueue (inc d (slipWin n + 0x20)) e) d

/-- Every resource bound to the slip enters HELD (R129, R152). -/
def holdAll (d : Dev) (n : Nat) : Dev :=
  (List.range 88).foldl (fun d k =>
    let x := resOf d k
    if n ≠ 0 ∧ x.owner = n ∧ x.state ≠ .unbound then setRes d k { x with state := .held } else d) d

/-- A slip reset is requested (R151, Table 4.4): `pcie` for a source of step 6, `destroy` for DESTROY. -/
def slipReset (d : Dev) (n : Nat) (pcie destroy : Bool) : Dev :=
  let s := slipOf d n
  match s.state with
  | .free => d
  | .detached => setSlip d n { s with report := 0, inc := s.inc + 1 }
  | .resetting =>
    match s.reset with
    | some z => setSlip d n { s with reset := some { z with
        noMem := z.noMem || pcie, destroy := z.destroy || destroy } }
    | none => d
  | .active =>
    let d1 := setSlip (lbSlipLeaves d n) n { s with
      state := .resetting, inc := s.inc + 1, reset := some { noMem := pcie, destroy := destroy } }
    let d2 := (List.range 8).foldl (fun d r => squashRing (ringStop d n r) n r true) d1
    holdAll (hpPurge (slipDiscard d2 n) n 0 true) n

/-- Descriptors of a slip still in flight. -/
def inFlightDesc (d : Dev) (n : Nat) : List Desc :=
  (List.range 8).flatMap fun r => (ringOf d n r).inflight

/-- The sequence ends (R151, step 7): SLIP_RESET_REPORT is written, the window returns to its reset values
but for the report, SLIP_RX_DROP and SQ_STOP, and every joined request is released. Without step 6 every
fetched descriptor has completed first; under it those left count as drained or squashed. -/
def slipResetDone (d : Dev) (n : Nat) : Dev :=
  let s := slipOf d n
  match s.reset with
  | none => d
  | some z =>
    let left := inFlightDesc d n
    if s.state ≠ .resetting ∨ (¬ z.noMem ∧ left ≠ []) then d
    else
      let sq := (left.filter fun x => match x.stage with | .done c => c.status == 1 | _ => false).length
      let dr := left.length - sq
      let rep := at_ (min 65535 (z.drained + dr)) 16 ||| at_ (min 65535 (z.squashed + sq)) 0
      let d1 := ringsReset (resetRegs d (slipWin n) (slipWin n + 0x200)) n true
      let d2 := setSlip d1 n { s with
        state := if attached d n then .active else .detached, report := rep, pba := 0, reset := none
        msixOn := s.msixOn && !z.noMem, msixMask := s.msixMask && !z.noMem }
      let d3 := if z.destroy then slipFree d2 n else d2
      match d.slips.cmdWait with
      | some (op, m) => if m = n ∧ (op = 7 ∨ op = 2) then slpEnd d3 0 else d3
      | none => d3

/-- A PCIe source resets a slip (Table 4.12): HOST_RESET, and DETACH when its attachment is lost. -/
def hostReset (d : Dev) (n : Nat) : Dev :=
  let s := slipOf d n
  let d1 := if s.state = .active then evSlp d 2 n else d
  let d2 := if (s.state = .active ∨ s.state = .resetting) ∧ ¬ attached d n then evSlp d1 3 n else d1
  slipReset d2 n true false

/-! ## Commands (R126, R127, Table 4.5) -/

/-- Arguments of a command as its snapshot holds them (Tables 4.18, 4.19). -/
def argMin (a1 : Word) : Nat := fld a1 12 0
def argMax (a1 : Word) : Nat := fld a1 28 16

/-- CREATE: BAD_ARG, RANGE, EXISTS, BUSY without authority (R422), NO_SHARE, in the order of R127. -/
def slpCreate (d : Dev) (n : Nat) (a0 a1 : Word) : Dev :=
  let c := fld a0 31 30
  let rxq := fld a0 16 0
  if c = 3 ∨ 97268 < rxq ∨ 4096 < argMin a1 ∨ 4096 < argMax a1 then slpEnd d 3
  else if n = 0 then slpEnd d 9
  else if (slipOf d n).state ≠ .free then slpEnd d 1
  else if !hasAuthority d then slpEnd d 7
  else if argMax a1 < argMin a1 ∨ 4096 < minSum d + argMin a1 then slpEnd d 6
  else
    let s := slipOf d n
    let d1 := ringsReset (resetRegs d (slipWin n) (slipWin n + 0x200)) n false
    let d2 := setSlip (cntSet d1 (slipWin n + 0x20) 0) n { s with
      state := if attached d n then .active else .detached, cls := c, classMax := fld a0 26 24
      rxq := rxq, min := argMin a1, max := argMax a1, report := 0, inc := s.inc + 1, pba := 0 }
    slpEnd (mirrorNote d2 2 n) 0

/-- Whether a resource is bound to slip `n`. -/
def ownsAny (d : Dev) (n : Nat) : Bool := (List.range 88).any fun k => (resOf d k).owner == n

def slpDestroy (d : Dev) (n : Nat) : Dev :=
  if n = 0 then slpEnd d 9
  else match (slipOf d n).state with
    | .free => slpEnd d 2
    | .resetting => slpEnd d 7
    | .detached => if ownsAny d n then slpEnd d 4 else slpEnd (slipFree d n) 0
    | .active => if ownsAny d n then slpEnd d 4
        else slipReset { d with slips := { d.slips with cmdWait := some (2, n) } } n false true

/-- The resource named by ARG0: none when KIND or INDEX is out of range (R128). -/
def argRes (a0 : Word) : Option Nat :=
  let i := fld a0 16 0
  match fld a0 31 30 with
  | 0 => if i < 40 then some i else none
  | 1 => if i < 32 then some (40 + i) else none
  | 2 => if i < 16 then some (72 + i) else none
  | _ => none

def relOf (v : Nat) : RelState := match v with | 0 => .off | 1 => .on | _ => .hold

def slpBind (d : Dev) (n : Nat) (a0 : Word) : Dev :=
  match argRes a0 with
  | none => slpEnd d 3
  | some k =>
    if fld a0 29 28 = 3 ∨ (40 ≤ k ∧ k < 72 ∧ fieldMode d (k - 40) ≠ 2) then slpEnd d 3
    else if (slipOf d n).state = .free then slpEnd d 2
    else if (slipOf d n).state = .resetting ∨ !hasAuthority d then slpEnd d 7
    else
      let x := resOf d k
      if n = 0 ∨ (slipOf d n).cls ≠ 1 then slpEnd d 8
      else if x.owner ≠ 0 ∧ x.owner ≠ n then slpEnd d 10
      else
        let d1 := setRes d k { state := .commanded, release := relOf (fld a0 29 28), owner := n }
        slpEnd (mirrorNote d1 2 (4096 + k)) 0

/-- UNBIND (R130): NOT_FOUND for a FREE slip, and with SLIP 0 for a resource that has an owner; NOT_RELEASED for one that
is not RELEASED, an UNBOUND one included. A RELEASED resource of another owner is NOT_FOUND (DEDUCED, assumption 49). -/
def slpUnbind (d : Dev) (n : Nat) (a0 : Word) : Dev :=
  match argRes a0 with
  | none => slpEnd d 3
  | some k =>
    let x := resOf d k
    if (n ≠ 0 ∧ (slipOf d n).state = .free) ∨ (x.owner ≠ n ∧ (n = 0 ∨ x.state = .released)) then slpEnd d 2
    else if (n ≠ 0 ∧ (slipOf d n).state = .resetting) ∨ !hasAuthority d then slpEnd d 7
    else if x.state ≠ .released then slpEnd d 5
    else slpEnd (mirrorNote (setRes d k {}) 2 (4096 + k)) 0

/-- Apply a release state to a resource (R130): whether the outcome is at once, and the effect. -/
def releaseApply (d : Dev) (k : Nat) (rel : RelState) : Bool × Dev :=
  match rel with
  | .hold => (true, d)
  | _ =>
    let on := decide (rel = .on)
    if k < 40 then let x := loadApply d k on; (x.1.isSome, x.2)
    else if k < 72 then let x := fieldApply d (k - 40) on; (x.1.isSome, x.2)
    else (true, setGroup d (k - 72) (if on then 0xFFFFFFFF else 0))

/-- RELEASE (R130). A resource that slip n does not own is NOT_FOUND; with SLIP 0 it acts on a RELEASED resource without
an owner as on a HELD one (DEDUCED, assumption 49). -/
def slpRelease (d : Dev) (n : Nat) (a0 : Word) : Dev :=
  match argRes a0 with
  | none => slpEnd d 3
  | some k =>
    let x := resOf d k
    if n = 0 ∧ fld a0 29 28 = 3 then slpEnd d 3
    else if (n = 0 ∧ ¬ (x.owner = 0 ∧ (x.state = .held ∨ x.state = .released)))
        ∨ (n ≠ 0 ∧ ((slipOf d n).state = .free ∨ x.owner ≠ n ∨ x.state = .unbound)) then slpEnd d 2
    else if !hasAuthority d then slpEnd d 7
    else
      let rel := if n = 0 then relOf (fld a0 29 28) else x.release
      let d1 := setRes d k { x with release := rel, applying := true }
      let a := releaseApply d1 k rel
      if a.1 then mirrorNote (releaseEnd a.2 k) 2 (4096 + k)
      else
        let d2 := a.2
        mirrorNote { d2 with slips := { d2.slips with
          cmdWait := some (5, k), cmdSince := d2.fio.sent } } 2 (4096 + k)

def slpSetshare (d : Dev) (n : Nat) (a1 : Word) : Dev :=
  let s := slipOf d n
  if 4096 < argMin a1 ∨ 4096 < argMax a1 then slpEnd d 3
  else if s.state = .free then slpEnd d 2
  else if s.state = .resetting ∨ !hasAuthority d then slpEnd d 7
  else if argMax a1 < argMin a1 ∨ 4096 < minSum d - s.min + argMin a1 then slpEnd d 6
  else slpEnd (mirrorNote (setSlip d n { s with min := argMin a1, max := argMax a1 }) 2 n) 0

def slpReset (d : Dev) (n : Nat) : Dev :=
  if n = 0 then slpEnd d 9
  else match (slipOf d n).state with
    | .free => slpEnd d 2
    | .detached => slpEnd (slipReset d n false false) 0
    | _ => slipReset { d with slips := { d.slips with cmdWait := some (7, n) } } n false false

def slpSetvfmax (d : Dev) (a0 : Word) : Dev :=
  let m := fld a0 16 0
  if 4095 < m then slpEnd d 3
  else if (created d).any fun n => decide (n ≠ 0) && (decide (n ≤ m) != decide (n ≤ hostMax d)) then
    slpEnd d 9
  else if d.slips.vfEnable then slpEnd d 7
  else slpEnd (wr d 0x800010 (at_ m 0)) 0

/-- The Quaymaster executes an SLP command from its snapshot; an undefined OP ends BAD_OP (Table 4.5). -/
def slpRun (d : Dev) (op n : Nat) (a0 a1 : Word) : Dev :=
  match op with
  | 1 => slpCreate d n a0 a1
  | 2 => slpDestroy d n
  | 3 => slpBind d n a0
  | 4 => slpUnbind d n a0
  | 5 => slpRelease d n a0
  | 6 => slpSetshare d n a1
  | 7 => slpReset d n
  | 8 => slpSetvfmax d a0
  | _ => slpEnd d 11

/-- A write of SLP_CMD: the snapshot becomes class-2 work of the Quaymaster; while a command runs, it is ignored
(R126, R127). -/
def slpCmd (d : Dev) (op n : Nat) : Dev :=
  if resultValid d 0x80000C then
    let a0 := rd d 0x800004
    let a1 := rd d 0x800008
    qmPost (resultBegin d 0x80000C) 2 (.slp op n a0 a1) fun d => slpRun d op n a0 a1
  else evSlp d 0 0

/-- SLP_CNT_CLEAR (Table 4.14). -/
def slpClear (d : Dev) : Dev := clearCnts (clearCnts d 0x800028 0x800030) 0xA00000 0xC00000

/-! ## The host (R119, R122, Table 4.12) -/

/-- VF Enable and NumVFs are set, NumVFs at most TotalVFs: detached host slips that now exist become
ACTIVE. The other settings of the function's configuration space come with it (assumption 31). -/
def vfEnable (d : Dev) (k : Nat) (ctl : HostCtl) : Dev :=
  if hostMax d < k then d
  else
    let d1 := { d with slips := { d.slips with vfEnable := true, numVfs := k, ctl := ctl } }
    (hostSlips d1).foldl (fun d n =>
      let s := slipOf d n
      if s.state = .detached ∧ attached d n then setSlip d n { s with state := .active }
      else if s.state = .active ∧ ¬ attached d n then hostReset d n
      else d) d1

/-- VF Enable is cleared: every host slip is reset and detached. -/
def vfDisable (d : Dev) : Dev :=
  let d1 := { d with slips := { d.slips with vfEnable := false, numVfs := 0 } }
  (hostSlips d1).foldl hostReset d1

def vfFlr (d : Dev) (n : Nat) : Dev := if vfExists d n then hostReset d n else d

/-- A reset of the physical function resets slip 0 and every host slip; VF Enable is cleared with it
(R125). -/
def pfReset (d : Dev) : Dev :=
  let d1 := hostReset (vfDisable d) 0
  { d1 with slips := { d1.slips with ctl := {} } }

/-- The host link is lost: as a reset of the physical function; no read is outstanding any more. -/
def hostLinkLoss (d : Dev) : Dev :=
  if d.rst.hostLink then
    let d1 := pfReset d
    { d1 with rst := { d1.rst with hostLink := false }, slips := { d1.slips with
      outst := d1.slips.outst.filter (·.fabric) } }
  else d

/-- SLIP_CTRL.RESET in a slip's window (Table 4.15). -/
def slipCtrlReset (d : Dev) (n : Nat) : Dev :=
  if internalSlip d n then slipReset d n false false else d

/-! ## Rings (R132–R137, R149) -/

/-- RING_CFG written with ENABLE = 1 (R132, Table 4.30). While the ring is still draining after ENABLE = 0, the write only
sets the bit: the ring stays stopped, and its doorbells are accepted (DESIGN CHOICE, assumption 108). -/
def ringEnable (d : Dev) (n r : Nat) (cfg : Word) : Dev :=
  let a := ringBase n r + 0x10
  let g := ringOf d n r
  if (slipOf d n).state = .free then d
  else if g.active then wr d a (rd d a ||| 0x80000000)
  else
    let v := (cfg &&& 0x4FFF0000) ||| 0x80000000
    if fld v 27 24 < 4 ∨ fld v 23 20 < 4 then
      setRing (wr d a (v &&& 0x7FFFFFFF)) n r { g with err := 1 }
    else setRing (wr d a v) n r
      { active := true, fetchOn := true, sqStop := g.sqStop, dbSq := g.dbSq, dbCq := g.dbCq }

/-- ACTIVE falls once a stopped ring has nothing in flight; a ring that failed sets RING_ERR (R133,
R149). -/
def ringDisableDone (d : Dev) (n r : Nat) : Dev :=
  let g := ringOf d n r
  if g.active && !g.fetchOn && g.inflight.isEmpty && decide ((slipOf d n).state ≠ .resetting) then
    let d1 := setRing d n r { g with active := false }
    if 2 ≤ g.err then setSlipEv d1 n 0 else d1
  else d

/-- RING_CFG written with ENABLE = 0 (R133). -/
def ringDisable (d : Dev) (n r : Nat) : Dev :=
  let a := ringBase n r + 0x10
  let d1 := wr d a (rd d a &&& 0x7FFFFFFF)
  hpPurge (if (ringOf d n r).active ∧ (slipOf d n).state ≠ .resetting then squashRing (ringStop d1 n r) n r false
    else d1) n r false

/-- A doorbell write of slip `n` has no effect: DB_ERR, of a FREE slip too if its function exists, but not in RESETTING,
where it is ignored (R134, R159, Table 4.4). -/
def bellErr (d : Dev) (n : Nat) : Dev :=
  match (slipOf d n).state with
  | .free => if vfExists d n then setSlipEv d n 1 else d
  | .resetting => d
  | _ => setSlipEv d n 1

/-- Ring `r` of slip `n` takes doorbell writes: it runs and is enabled, and the slip is not being reset (R134). -/
def bellOpen (d : Dev) (n r : Nat) : Bool :=
  (ringOf d n r).active && bit (ringCfg d n r) 31 &&
    match (slipOf d n).state with
    | .free => false
    | .resetting => false
    | _ => true

/-- SQ_TAIL (R134, Table 4.6). -/
def sqTail (d : Dev) (n r v : Nat) : Dev :=
  let i := v % 65536
  if bellOpen d n r ∧ i < sqSize d n r then setRing d n r { ringOf d n r with sqTail := i, dbSq := i }
  else bellErr d n

/-- CQ_HEAD (R134, Table 4.6). -/
def cqHead (d : Dev) (n r v : Nat) : Dev :=
  let g := ringOf d n r
  let i := v % 65536
  let size := cqSize d n r
  if bellOpen d n r ∧ i < size ∧ (i + size - g.cqHead) % size ≤ (g.cqTail + size - g.cqHead) % size then
    setRing d n r { g with cqHead := i, dbCq := i }
  else bellErr d n

/-! ## Fetching (R136, R147–R149) -/

/-- L, the most non-posted reads outstanding on PCIe (R148). -/
def readLimit (d : Dev) : Nat := if d.slips.ctl.tag10 then 768 else if d.slips.ctl.extTag then 256 else 32

/-- PCIe reads outstanding, data that is no longer wanted included (R148, Table 4.23). -/
def readsOut (d : Dev) : Nat := (d.slips.outst.filter fun o => !o.fabric).length

/-- The lowest free tag for a read of slip `n`: L tags on PCIe for slip 0 and host slips, 512 on the fabric for internal
slips (R148). -/
def freeTag (d : Dev) (n : Nat) : Option Nat :=
  let fab := internalSlip d n
  (List.range (if fab then 512 else readLimit d)).find? fun t => !d.slips.outst.any fun o => o.fabric == fab && o.tag == t

def tagFree (d : Dev) (n : Nat) : Bool := (freeTag d n).isSome

/-- A frame waits for ring `r` of slip `n`, in the slip's queues or a channel's high-priority buffer. -/
def frameWaits (d : Dev) (n r : Nat) : Bool :=
  d.basin.queues.any (fun e => e.dest == Dest.slip n r) ||
    ((List.range 16).any fun c =>
      let w := rd d (canBase c + 0x50)
      decide (fld w 11 0 = n ∧ fld w 18 16 = r) && !(canOf d c).hp.isEmpty) ||
    (let w := rd d 0xE00014
     decide (fld w 11 0 = n ∧ fld w 18 16 = r) && !d.nws.copies.isEmpty)

/-- Whether the next descriptor of a ring may be fetched, a tag apart (R136, R147, R392). -/
def fetchable (d : Dev) (n r : Nat) : Bool :=
  let g := ringOf d n r
  decide ((slipOf d n).state = .active) && g.active && g.fetchOn && decide (g.sqHead ≠ g.sqTail) && manifestFree d n && fabricUp d
    && decide (cqUsed d n r + 1 < cqSize d n r) && !(internalSlip d n && parked d)
    && (!rxMode d n r || (g.inflight.isEmpty && frameWaits d n r))

/-- Issue one read request of `len` bytes under tag `t`. -/
def sendRead (d : Dev) (t n r idx addr off len : Nat) : Dev :=
  let o : ReadOut := { tag := t, fabric := internalSlip d n, slip := n, ring := r, idx := idx, off := off }
  let d1 := setSlip d n { slipOf d n with rr := r }
  emit { d1 with slips := { d1.slips with outst := d1.slips.outst ++ [o], rrSlip := n } } (.readReq n t addr len)

/-- Bytes of the next request of a data read: on PCIe at most the Max Read Request Size, and no request crosses a 4-KiB
boundary (R117, R148). -/
def partLen (d : Dev) (w : ReadWait) : Nat :=
  if internalSlip d w.slip then w.len
  else min w.len (min (atLeast1 d.slips.ctl.mrrs) (4096 - (w.addr + w.off) % 4096))

/-- Issue the next request of a waiting read under tag `t`: the fetch of a descriptor, which takes its place in the ring
from then on, or a part of a data read. A fetch that may no longer be made is forgotten. -/
def issueOne (d : Dev) (w : ReadWait) (t : Nat) : Dev :=
  let rest := d.slips.waits.erase w
  let d0 : Dev := { d with slips := { d.slips with waits := rest } }
  if w.fetch then
    if fetchable d w.slip w.ring then
      let g := ringOf d w.slip w.ring
      let d1 := setRing d0 w.slip w.ring { g with
        inflight := g.inflight ++ [{ idx := g.sqHead }], sqHead := (g.sqHead + 1) % sqSize d w.slip w.ring }
      sendRead d1 t w.slip w.ring g.sqHead (sqBase d w.slip w.ring + 64 * g.sqHead) 0 64
    else d0
  else
    let k := partLen d w
    let left : List ReadWait := if w.len ≤ k then [] else [{ w with off := w.off + k, len := w.len - k }]
    sendRead { d0 with slips := { d0.slips with waits := left ++ rest } } t w.slip w.ring w.idx (w.addr + w.off) w.off k

/-- Places after the last one served, in a cycle of `size` (R148). -/
def rrPlace (last k size : Nat) : Nat := (k + size - last - 1) % size

/-- The read served next: round-robin among slips, then among the rings of a slip, then oldest first, of those for which a
tag is free (R148). -/
def readPick (d : Dev) : Option ReadWait :=
  let key (w : ReadWait) : Nat := 8 * rrPlace d.slips.rrSlip w.slip 4096 + rrPlace (slipOf d w.slip).rr w.ring 8
  (d.slips.waits.filter fun w => tagFree d w.slip).foldl (fun o w =>
    match o with
    | none => some w
    | some v => if key w < key v then some w else o) none

/-- Issue the waiting reads while tags are free; `fuel` bounds the requests. -/
def readPump (d : Dev) : Nat → Dev
  | 0 => d
  | k + 1 =>
    match readPick d with
    | none => d
    | some w =>
      match freeTag d w.slip with
      | none => d
      | some t => readPump (issueOne d w t) k

/-- A read joins those that wait, and what may be issued is. -/
def readPost (d : Dev) (w : ReadWait) : Dev :=
  let d1 : Dev := { d with slips := { d.slips with waits := d.slips.waits ++ [w] } }
  readPump d1 (d1.slips.waits.length + 1280)

/-- Whether a part of the read of slot `idx` is still to come. -/
def readMore (d : Dev) (n r idx : Nat) : Bool :=
  (d.slips.waits.any fun w => w.slip == n && w.ring == r && !w.fetch && w.idx == idx) ||
    d.slips.outst.any fun o => o.live && o.slip == n && o.ring == r && o.idx == idx

/-- The requests of slot `idx` have returned, or have not: their tags are free. -/
def readsBack (d : Dev) (n r idx : Nat) : Dev :=
  { d with slips := { d.slips with
    outst := d.slips.outst.filter fun o => !(o.live && o.slip == n && o.ring == r && o.idx == idx) } }

/-- Let reads that wait use the tags now free. -/
def readNext (d : Dev) : Dev := readPump d (d.slips.waits.length + 1280)

/-- The words of a fetched descriptor arrive: one that fails its checks has its outcome, another is ready
to start in its turn (R121, R131, R139). -/
def descArrive (d : Dev) (n r idx : Nat) (words : List Word) : Dev :=
  match descOf d n r idx with
  | none => d
  | some x =>
    let x := { x with words := words }
    match descCheck d n r x with
    | some st => flushRing (setDesc d n r { x with stage := .done (simpleCompl d st) }) n r
    | none => setDesc d n r { x with stage := .ready }

/-- The next descriptor of a ring is to be fetched (R136, R147, R148): its read is issued, or waits for a tag; `words` are
its contents when the read is issued and returns at once. -/
def descriptorFetch (d : Dev) (n r : Nat) (words : Option (List Word)) : Dev :=
  if fetchable d n r ∧ ¬ d.slips.waits.any (fun w => w.slip == n && w.ring == r && w.fetch) then
    let i := (ringOf d n r).sqHead
    let d1 := readPost d { slip := n, ring := r, fetch := true }
    match words, descOf d1 n r i with
    | some w, some _ => readNext (descArrive (readsBack d1 n r i) n r i w)
    | _, _ => d1
  else d

/-- The fetch of slot `idx` fails: the ring stops there with ERR 2; it and the later ones are dropped,
the earlier ones complete (R149). -/
def descFetchFail (d : Dev) (n r idx : Nat) : Dev :=
  match descOf d n r idx with
  | none => d
  | some x =>
    if x.stage = .fetching then
      let g := ringOf d n r
      let keep := g.inflight.takeWhile (·.idx != idx)
      let d1 := setRing (dropReads d n r fun i => !keep.any (·.idx == i)) n r { g with
        inflight := keep, fetchOn := false, sqStop := idx, err := 2 }
      ringDisableDone d1 n r
    else d

/-- A completion of an internal slip could not be written for a translation fault: the ring stops with ERR 3, and what it
has fetched completes (R149; that the fault is known after the write was sent is a DESIGN CHOICE, assumption 87). -/
def complFault (d : Dev) (n r : Nat) : Dev :=
  let g := ringOf d n r
  if internalSlip d n ∧ g.active ∧ g.err ≠ 3 ∧ (slipOf d n).state ≠ .free then
    ringDisableDone (setRing (ringStop d n r) n r { ringOf (ringStop d n r) n r with err := 3 }) n r
  else d

/-! ## Transmit descriptors (R140, R151) -/

/-- The port by which a slip's traffic enters (R124). -/
def slipPort (d : Dev) (n : Nat) : Nat := if internalSlip d n then 12 else 11

/-- Bytes a transmit descriptor reads (Table 4.8). -/
def txLen (x : Desc) : Nat :=
  if opOf x = 0x10 then fld (dw x 4) 13 0 else if bit (dw x 6) 7 then 0 else fld (dw x 4) 11 0

/-- The frame of a TX_ETH: tag inserted, padded to 60 bytes (R61, R140). -/
def ethFrame (d : Dev) (n r : Nat) (x : Desc) (data : List Byte) : Frame :=
  let p := slipPort d n
  let cls := min (fld (dw x 5) 2 0) (slipOf d n).classMax
  let raw := data ++ List.replicate (60 - data.length) 0
  let tci := fld (dw x 5) 30 28 * 8192 + fld (dw x 5) 27 16
  let b := if bit (dw x 5) 31 then raw.take 12 ++ [0x81, 0x00] ++ beBytes tci 2 ++ raw.drop 12 else raw
  let tag := eth16 b 14
  { uid := 0, body := .eth b, inPort := p, cls := cls, ts := devTime d
    vid := if hasTag b then tag % 4096 else fld (rd d (aPort p 4)) 11 0
    pcp := if hasTag b then tag / 8192 else cls
    tagged := hasTag b, src := some ⟨n, r, fld (dw x 1) 15 0⟩, descIdx := x.idx }

/-- The frame of a TX_CAN (Table 4.8). -/
def canFrame (d : Dev) (n r : Nat) (x : Desc) (data : List Byte) : Frame :=
  let p := slipPort d n
  let cls := min (fld (dw x 6) 2 0) (slipOf d n).classMax
  let rtr := bit (dw x 6) 7
  let m : CanMsg := {
    id := BitVec.ofNat 29 (fld (dw x 5) 28 0), fmt := Fin.ofNat 5 (fld (dw x 6) 6 4), rtr := rtr
    brs := bit (dw x 6) 9, sec := bit (dw x 6) 10, dlc := if rtr then fld (dw x 4) 3 0 else 0
    vcid := BitVec.ofNat 8 (fld (dw x 6) 31 24), sdt := BitVec.ofNat 8 (fld (dw x 6) 23 16)
    af := dw x 7, data := data }
  { uid := 0, body := .can m 0 false, inPort := p, cls := cls, ts := devTime d
    vid := fld (rd d (aPort p 4)) 11 0, pcp := cls, src := some ⟨n, r, fld (dw x 1) 15 0⟩
    confirm := bit (dw x 0) 19, descIdx := x.idx }

/-- A transmit descriptor whose data is in hand enters the Basin, or ends BAD_DESC for a second customer
tag or DROPPED when admission refuses it (R61, Table 4.10). -/
def txEnter (d : Dev) (n r : Nat) (x : Desc) : Dev :=
  let data := x.data.take (txLen x)
  if opOf x = 0x10 ∧ bit (dw x 5) 31 ∧ hasTag data then finish d n r x.idx (simpleCompl d 3)
  else
    let f := if opOf x = 0x10 then ethFrame d n r x data else canFrame d n r x data
    match enterBasin (setDesc d n r { x with stage := .started, data := [] }) f with
    | (some _, d1) => d1
    | (none, d1) => finish d1 n r x.idx { status := 8, ts := devTime d1, c4 := 0xFE000000 }

/-- Frames of one ring enter the Basin in index order (R137): those at the front whose data is in hand. -/
def txTurnList (d : Dev) (n r : Nat) : List Desc → Dev
  | [] => d
  | x :: t =>
    if x.stage = .reading ∧ (opOf x = 0x10 ∨ opOf x = 0x11) then
      (if x.passed then txTurnList (txEnter d n r x) n r t else d)
    else txTurnList d n r t

def txTurn (d : Dev) (n r : Nat) : Dev := txTurnList d n r (ringOf d n r).inflight

/-- A part of the data of a read, in its place by offset. -/
def putBytes (off : Nat) (b : List Byte) : List (Nat × List Byte) → List (Nat × List Byte)
  | [] => [(off, b)]
  | (o, c) :: t => if off < o then (off, b) :: (o, c) :: t else (o, c) :: putBytes off b t

/-- The whole data of a descriptor's read is in hand: a KEY_REQ is posted, a frame takes its turn. -/
def dataArrive (d : Dev) (n r : Nat) (x : Desc) (b : List Byte) : Dev :=
  let d1 := setDesc d n r { x with stage := .reading, passed := true, data := b, parts := [] }
  if opOf x = 0x30 then enginePost d1 n r else txTurn d1 n r

/-- Start the data read of `len` bytes of descriptor `x`; `data` is what the read returns when every request of it is
issued and returns at once. -/
def dataRead (d : Dev) (n r : Nat) (x : Desc) (len : Nat) (data : Option (List Byte)) : Dev :=
  let d1 := readPost (setDesc d n r { x with stage := .reading })
    { slip := n, ring := r, fetch := false, idx := x.idx, addr := bufAddr x, len := len }
  match data with
  | some b =>
    if d1.slips.waits.any fun w => w.slip == n && w.ring == r && !w.fetch && w.idx == x.idx then d1
    else readNext (dataArrive (readsBack d1 n r x.idx) n r x b)
  | none => d1

/-- A TX_ETH or TX_CAN starts: its data is read (R148), and enters the Basin in its turn. -/
def txStart (d : Dev) (n r op : Nat) (data : Option (List Byte)) : Dev :=
  withOp d n r op fun x =>
    if txLen x = 0 then txTurn (setDesc d n r { x with stage := .reading, passed := true }) n r
    else dataRead d n r x (txLen x) data

/-- A read fails for slot `idx`: a fetch stops the ring, a data read ends its descriptor READ_ERR (R149). -/
def readFail (d : Dev) (n r : Nat) (x : Desc) : Dev :=
  match x.stage with
  | .fetching => descFetchFail d n r x.idx
  | .reading => txTurn (finish (dropReads d n r (· == x.idx)) n r x.idx (simpleCompl d 7)) n r
  | _ => d

/-- A read returns data for slot `idx` from `off` on: a descriptor's own read, or a part of its data; the last part
completes the data. -/
def readData (d : Dev) (n r off : Nat) (x : Desc) (b : List Byte) : Dev :=
  match x.stage with
  | .fetching => descArrive d n r x.idx ((List.range 16).map (leWord b))
  | .reading =>
    let y := { x with parts := putBytes off b x.parts }
    if readMore d n r x.idx then setDesc d n r y else dataArrive d n r y (y.parts.flatMap (·.2))
  | _ => d

/-- The read under a tag of PCIe or of the fabric returns, or fails (none); its tag is free, and reads that wait may be
issued. Data that is no longer wanted is discarded (R133, R148, R149, R151). -/
def dmaReadComplete (d : Dev) (fab : Bool) (t : Nat) (data : Option (List Byte)) : Dev :=
  match d.slips.outst.find? fun o => o.fabric == fab && o.tag == t with
  | none => d
  | some o =>
    let d0 : Dev := { d with slips := { d.slips with outst := d.slips.outst.erase o } }
    match o.live, descOf d0 o.slip o.ring o.idx, data with
    | true, some x, some b => readNext (readData d0 o.slip o.ring o.off x b)
    | true, some x, none => readNext (readFail d0 o.slip o.ring x)
    | _, _, _ => readNext d0

/-- The fetch of slot `idx` fails, or with `cpl` the completion write of an internal slip (R149). -/
def fetchOrComplFail (d : Dev) (n r idx : Nat) (cpl : Bool) : Dev :=
  if cpl then complFault d n r
  else
    match descOf d n r idx with
    | some x => if x.stage = .fetching then readNext (descFetchFail (readsBack d n r idx) n r idx) else d
    | none => d

/-- Every channel named for a CONFIRM has ended the transmission (R142). -/
def confirmDone (d : Dev) (n r : Nat) : Dev :=
  match (ringOf d n r).inflight.find? fun x =>
      decide (x.stage = .started) && decide (x.named ≠ 0) && decide ((x.sent ||| x.failed) = x.named) with
  | some x => confirmJudge d n r x
  | none => d

/-! ## Receive (R143, R144, R48) -/

/-- The bytes a delivery writes (R143). -/
def delivered : FrameBody → List Byte
  | .eth b => if hasTag b then b.take 12 ++ b.drop 16 else b
  | .can m _ _ => canDelivered m
  | .fieldEdge _ _ r => r
  | .snapshot _ r => r
  | .fieldFault _ r => r
  | .samples _ r => r

/-- C6 and C7 of a delivery (Table 4.10). -/
def rxWords (f : Frame) : Word × Word :=
  match f.body with
  | .eth b => (at_ (etherType b) 16 ||| flag f.tagged 15 ||| at_ f.pcp 12 ||| at_ f.vid 0,
      match f.src with | some s => flag true 12 ||| at_ s.slip 0 | none => 0)
  | .can m ch _ => (at_ m.id.toNat 0, canC7 m ch.val)
  | _ => (0, 0)

/-- The frame that ring `r` of slip `n` may receive next: of the highest class whose oldest waiting frame
for the slip names this ring (R66, R144). -/
def rxHead (d : Dev) (n r : Nat) : Option QEntry :=
  [7, 6, 5, 4, 3, 2, 1, 0].findSome? fun c =>
    match d.basin.queues.find? fun e => decide (e.cls = c) &&
        (match e.dest with | .slip m _ => m == n | _ => false) with
    | some e => if e.dest = Dest.slip n r then some e else none
    | none => none

/-- An RX_BUF in hand receives the waiting frame. -/
def rxBuf (d : Dev) (n r : Nat) (cr : CellRead) : Dev :=
  withOp d n r 0x01 fun x =>
    match rxHead d n r with
    | none => d
    | some e =>
      match frameOf d e.uid with
      | none => d
      | some f =>
        let d1 := frameRead d f cr
        let b := delivered f.body
        let room := fld (dw x 4) 15 0
        let ue := !readGood d f cr
        let w := rxWords f
        let d2 := emit d1 (.dma n (bufAddr x) (b.take room))
        finish (leaveQueue d2 e) n r x.idx
          { status := if ue then 9 else if room < b.length then 0x0A else 0, ts := f.ts
            c4 := at_ b.length 16 ||| at_ (kindCode f.body) 12 ||| at_ f.inPort 8 ||| at_ f.cls 5
            c5 := flag e.miss 16 ||| flag e.ternary 15 ||| at_ (if e.miss then 0 else e.entry) 0
            c6 := w.1, c7 := w.2 }

/-! ## Control operations (R141, R240, R295) -/

/-- Resource `k` is bound to slip `n` (R128, R141). -/
def boundTo (d : Dev) (n k : Nat) : Bool :=
  decide (n ≠ 0) && decide ((resOf d k).owner = n) && decide ((resOf d k).state ≠ .unbound)

/-- A command of the owner (R129). -/
def commanded (d : Dev) (k : Nat) : Dev :=
  let x := resOf d k
  let d1 := setRes d k { x with state := .commanded, applying := false }
  if x.state = .commanded then d1 else mirrorNote d1 2 (4096 + k)

/-- The completion of a LOAD_SET or LOAD_QUERY of channel `c`. -/
def loadCompl (d : Dev) (c st ts : Nat) : Compl :=
  { status := st, ts := ts, c4 := loadStatus d c, c5 := loadCur d c &&& 0xFFFF }

def loadSet (d : Dev) (n r : Nat) : Dev :=
  withOp d n r 0x20 fun x =>
    let c := fld (dw x 5) 5 0
    if !boundTo d n c then finish d n r x.idx (simpleCompl d 4)
    else if fld (dw x 5) 9 8 = 2 then
      let d1 := clearTrip (commanded d c) c
      finish d1 n r x.idx (loadCompl d1 c 0 (devTime d1))
    else
      let on := decide (fld (dw x 5) 9 8 = 1)
      match loadApply d c on with
      | (some 5, d1) => finish d1 n r x.idx (loadCompl d1 c 5 (devTime d1))
      | (some st, d1) =>
        let d2 := commanded d1 c
        finish d2 n r x.idx (loadCompl d2 c st (devTime d2))
      | (none, d1) => setDesc (commanded d1 c) n r { x with stage := .started, sof := (loadOf d1 c).changeTs }

/-- The first started LOAD_SET of a ring whose outcome is decided. -/
def loadSetDone (d : Dev) (n r : Nat) : Dev :=
  let onOf (x : Desc) : Bool := decide (fld (dw x 5) 9 8 = 1)
  match (ringOf d n r).inflight.find? fun x => decide (x.stage = .started ∧ opOf x = 0x20) &&
      (loadDecided d (fld (dw x 5) 5 0) (onOf x)).isSome with
  | none => d
  | some x =>
    let c := fld (dw x 5) 5 0
    let st := (loadDecided d c (onOf x)).getD 0
    let g := (loadOf d c).gate
    let ts := if onOf x then (if g then (loadOf d c).changeTs else devTime d) else x.sof
    finish d n r x.idx (loadCompl d c st ts)

def loadQuery (d : Dev) (n r : Nat) : Dev :=
  withOp d n r 0x21 fun x =>
    let c := fld (dw x 5) 5 0
    finish d n r x.idx (loadCompl d c 0 (loadOf d c).sampleTs)

def fieldCompl (d : Dev) (c st ts : Nat) : Compl := { status := st, ts := ts, c4 := fieldStatus d c }

def fieldSet (d : Dev) (n r : Nat) : Dev :=
  withOp d n r 0x22 fun x =>
    let c := fld (dw x 5) 4 0
    if !boundTo d n (40 + c) then finish d n r x.idx (simpleCompl d 4)
    else
      match fieldApply d c (bit (dw x 5) 8) with
      | (some 5, d1) => finish d1 n r x.idx (fieldCompl d1 c 5 (devTime d1))
      | (some st, d1) =>
        let d2 := commanded d1 (40 + c)
        finish d2 n r x.idx (fieldCompl d2 c st (devTime d2))
      | (none, d1) => setDesc (commanded d1 (40 + c)) n r { x with
          stage := .started, sof := (fieldOf d1 c).changeTs, since := d1.fio.sent }

/-- A waiting FIELD_SET completes with the first valid report after its request was sent; where an overload has latched
meanwhile, by the rows for a latched overload (R295, Table 10.4). -/
def fieldSetDone (d : Dev) (n r : Nat) : Dev :=
  match (ringOf d n r).inflight.find? fun x =>
      decide (x.stage = .started ∧ opOf x = 0x22 ∧
        (x.since < d.fio.reported ∨ (fieldOf d (fld (dw x 5) 4 0)).latched ≠ 0)) with
  | none => d
  | some x =>
    let c := fld (dw x 5) 4 0
    let t := (fieldOf d c).changeTs
    if (fieldOf d c).latched ≠ 0 then
      let d1 := if bit (dw x 5) 8 then d else fieldRecord (outputUnlatch d c) c false
      finish d1 n r x.idx (fieldCompl d1 c 0 (devTime d1))
    else finish d n r x.idx (fieldCompl d c 0 (if t = x.sof then devTime d else t))

/-- FIELD_QUERY completes at once; its timestamp is that of the last valid report (Table 4.10). -/
def fieldQuery (d : Dev) (n r : Nat) : Dev :=
  withOp d n r 0x23 fun x =>
    let c := fld (dw x 5) 4 0
    finish d n r x.idx (fieldCompl d c 0 d.fio.reportTs)

def bwkReq (d : Dev) (n r : Nat) : Dev :=
  withOp d n r 0x24 fun x =>
    let g := fld (dw x 5) 3 0
    if !boundTo d n (72 + g) then finish d n r x.idx (simpleCompl d 4)
    else
      let m := dw x 7
      let v := (tget 0 d.bwk.sig g &&& ~~~m) ||| (dw x 6 &&& m)
      let d1 := setGroup (commanded d (72 + g)) g v
      finish d1 n r x.idx { status := 0, ts := devTime d1, c4 := v }

def nop (d : Dev) (n r : Nat) : Dev := withOp d n r 0x00 fun x => finish d n r x.idx (simpleCompl d 0)

/-- KEY_REQ (R368): its buffer is read (R148), then posted in an engine slot; one already read is posted as soon as a slot
is free. -/
def keyReq (d : Dev) (n r : Nat) (data : Option (List Byte)) : Dev :=
  let waits := (ringOf d n r).inflight.any fun x => decide (x.stage = .reading ∧ opOf x = 0x30) && x.passed
  if waits then enginePost d n r
  else withOp d n r 0x30 fun x => dataRead d n r x (fld (dw x 4) 12 0) data

/-- The response of an engine slot that is DONE is written and its KEY_REQ completes: OK for Lock status 0,
TIMEOUT for 0x7E, KEY_FAIL otherwise; a response longer than D7 is not written, and the Lock status is then
BAD_ARG (R368). The engine acknowledges the slot. -/
def keyReqDone (d : Dev) (s : Nat) : Dev :=
  let m := mbxOf d s
  if m.state ≠ .done then d
  else
    let d1 := setMbx d s {}
    match descOf d m.slip m.ring m.idx with
    | none => d1
    | some x =>
      let st := if m.status = 0x7E then 0x0E else if m.status = 0 then 0 else 0x0D
      if m.status = 0x7E then finish d1 m.slip m.ring m.idx { status := st, ts := devTime d, c5 := at_ 0x7E 0 }
      else if fld (dw x 7) 12 0 < m.rsp.length then
        finish d1 m.slip m.ring m.idx { status := 0x0D, ts := devTime d, c5 := 2 }
      else
        let addr : Nat := (dw x 5).toNat + 2 ^ 32 * (dw x 6).toNat
        finish (emit d1 (.dma m.slip addr m.rsp)) m.slip m.ring m.idx
          { status := st, ts := devTime d, c4 := at_ m.rsp.length 0, c5 := at_ m.status 0 }

/-- 1 s since a KEY_REQ was posted: TIMEOUT, and a later response is discarded (R368, Table 12.9). -/
def keyReqTimeout (d : Dev) (s : Nat) : Dev :=
  if s < 8 ∧ ((mbxOf d s).state = .posted ∨ (mbxOf d s).state = .taken) then keyReqDone (mbxTimeout d s) s else d

/-! ## The device log (R145, R146) -/

/-- The 32 bytes of a log record (Table 4.11a). -/
def logBytes (x : LogRec) : List Byte :=
  leBytes x.seq.toNat 4 ++ leBytes x.ts 8 ++ leBytes x.source 1 ++ leBytes x.code 1 ++ leBytes x.lost 2
    ++ leBytes x.event.toNat 4 ++ leBytes x.inst 4 ++ leBytes x.detail.toNat 4 ++ leBytes 0 4

/-- `a` is before `b` by serial-number arithmetic. -/
def serialBefore (a b : Word) : Bool := (a - b).getLsbD 31

/-- The Quaymaster serves the LOG_READ of slot `idx`: whole records from FROM on, as many as the buffer holds (R146). -/
def logServe (d : Dev) (n r idx : Nat) : Dev :=
  match descOf d n r idx with
  | none => d
  | some x =>
    if x.stage ≠ .started ∨ opOf x ≠ 0x31 then d
    else
      let from_ := dw x 5
      let recs := (d.log.flash.dropWhile fun e => serialBefore e.seq from_).take (fld (dw x 4) 15 0 / 32)
      let c6 := match d.log.flash.head? with
        | some e => (e.seq, d)
        | none => let v := drawNat d; (w32 v.1, v.2)
      let d1 := if recs = [] then c6.2 else emit c6.2 (.dma n (bufAddr x) (recs.flatMap logBytes))
      finish d1 n r x.idx
        { status := 0
          ts := match recs.getLast? with | some e => e.ts | none => devTime d
          c4 := w32 recs.length
          c5 := match recs.getLast? with | some e => e.seq + 1 | none => from_
          c6 := c6.1, c7 := d.log.seq }

/-- A LOG_READ starts: it is class-4 work of the Quaymaster (R146). -/
def logRead (d : Dev) (n r : Nat) : Dev :=
  withOp d n r 0x31 fun x =>
    qmPost (setDesc d n r { x with stage := .started }) 4 (.logRead n r x.idx) fun d => logServe d n r x.idx

/-- A LOG_READ that the Quaymaster has not served within 1 s (Table 4.11). -/
def logReadTimeout (d : Dev) (n r : Nat) : Dev :=
  match (ringOf d n r).inflight.find? fun x => decide (x.stage = .started ∧ opOf x = 0x31) with
  | none => d
  | some x => finish (logCancel d n r x.idx) n r x.idx (simpleCompl d 0x0E)

/-- Records move from the staging queue to the flash area of 262,144 records, unless flash is worn out (Table 15.5). -/
def logMove (d : Dev) : Dev :=
  let l := d.log.flash ++ d.log.staging
  flashKeep d { d with log := { d.log with flash := l.drop (l.length - 262144), staging := [] } }

/-- The move of log records is class-4 work of the Quaymaster (R145). -/
def logFlush (d : Dev) : Dev := if fabricUp d then qmPost d 4 .logFlush logMove else d

/-! ## MSI-X (R150) -/

/-- The hold-off of a ring ends. -/
def holdoffExpire (d : Dev) (n r : Nat) : Dev :=
  let g := ringOf d n r
  if g.held then
    let d1 := setRing d n r { g with held := false, owed := false }
    if g.owed then
      setRing (sendVec d1 n (fld (ringCfg d n r) 18 16)) n r { ringOf d1 n r with held := true }
    else d1
  else d

/-- Send a pending vector that is no longer masked. -/
def pendingSend (d : Dev) (n v : Nat) : Dev :=
  let s := slipOf d n
  if s.pba.getLsbD v && msixOpen d n && !bit (rd d (slipWin n + 0x18C + 16 * v)) 0 then
    sendVec (setSlip d n { s with pba := s.pba &&& ~~~(1#8 <<< v) }) n v
  else d

def pendingAll (d : Dev) (n : Nat) : Dev := (List.range 8).foldl (fun d v => pendingSend d n v) d

/-- A vector is unmasked: by its table entry, or by the function's enable and mask, which lie in the host
slip's MSI-X capability or in an internal slip's SLIP_CFG (R123). -/
def msixUnmask (d : Dev) (n v : Nat) (whole : Bool) : Dev :=
  if (slipOf d n).state = .free then d
  else if whole then
    let a := slipWin n + 4
    let d1 := if internalSlip d n then wr d a ((rd d a ||| 0x80000000) &&& ~~~0x40000000)
      else setSlip d n { slipOf d n with msixOn := true, msixMask := false }
    pendingAll d1 n
  else
    let a := slipWin n + 0x18C + 16 * v
    pendingSend (wr d a (rd d a &&& 0xFFFFFFFE)) n v

/-! ## Meanings -/

def execCreate (n : Fin 4096) (s : State) : Answer := onDev (slpCmd · 1 n) s
def execDestroy (n : Fin 4096) (s : State) : Answer := onDev (slpCmd · 2 n) s
def execBind (n : Fin 4096) (s : State) : Answer := onDev (slpCmd · 3 n) s
def execUnbind (n : Fin 4096) (s : State) : Answer := onDev (slpCmd · 4 n) s
def execRelease (n : Fin 4096) (s : State) : Answer := onDev (slpCmd · 5 n) s
def execSetshare (n : Fin 4096) (s : State) : Answer := onDev (slpCmd · 6 n) s
def execReset (n : Fin 4096) (s : State) : Answer := onDev (slpCmd · 7 n) s
def execSetvfmax (s : State) : Answer := onDev (slpCmd · 8 0) s
def execSlpClear (s : State) : Answer := onDev slpClear s
def execVfEnable (k : Fin 4096) (ctl : HostCtl) (s : State) : Answer := onDev (vfEnable · k ctl) s
def execVfDisable (s : State) : Answer := onDev vfDisable s
def execVfFlr (n : Fin 4096) (s : State) : Answer := onDev (vfFlr · n) s
def execPfReset (s : State) : Answer := onDev pfReset s
def execHostLinkLoss (s : State) : Answer := onDev hostLinkLoss s
def execSlipCtrlReset (n : Fin 4096) (s : State) : Answer := onDev (slipCtrlReset · n) s
def execSlipResetDone (n : Fin 4096) (s : State) : Answer := onDev (slipResetDone · n) s
def execRingEnable (n : Fin 4096) (r : Fin 8) (cfg : Word) (s : State) : Answer :=
  onDev (ringEnable · n r cfg) s
def execRingDisable (n : Fin 4096) (r : Fin 8) (s : State) : Answer := onDev (ringDisable · n r) s
def execRingDisableDone (n : Fin 4096) (r : Fin 8) (s : State) : Answer := onDev (ringDisableDone · n r) s
def execDescriptorFetch (n : Fin 4096) (r : Fin 8) (words : Option (List Word)) (s : State) : Answer :=
  onDev (descriptorFetch · n r words) s
def execDescFetchFail (n : Fin 4096) (r : Fin 8) (idx : BitVec 16) (cpl : Bool) (s : State) : Answer :=
  onDev (fetchOrComplFail · n r idx.toNat cpl) s
def execDmaReadComplete (fab : Bool) (t : Fin 768) (data : Option (List Byte)) (s : State) : Answer :=
  onDev (dmaReadComplete · fab t data) s
def execNop (n : Fin 4096) (r : Fin 8) (s : State) : Answer := onDev (nop · n r) s
def execRxBuf (n : Fin 4096) (r : Fin 8) (cr : CellRead) (s : State) : Answer := onDev (rxBuf · n r cr) s
def execTxEth (n : Fin 4096) (r : Fin 8) (data : Option (List Byte)) (s : State) : Answer :=
  onDev (txStart · n r 0x10 data) s
def execTxCan (n : Fin 4096) (r : Fin 8) (data : Option (List Byte)) (s : State) : Answer :=
  onDev (txStart · n r 0x11 data) s
def execTxCanConfirmDone (n : Fin 4096) (r : Fin 8) (s : State) : Answer := onDev (confirmDone · n r) s
def execLoadSet (n : Fin 4096) (r : Fin 8) (s : State) : Answer := onDev (loadSet · n r) s
def execLoadSetDone (n : Fin 4096) (r : Fin 8) (s : State) : Answer := onDev (loadSetDone · n r) s
def execLoadQuery (n : Fin 4096) (r : Fin 8) (s : State) : Answer := onDev (loadQuery · n r) s
def execFieldSet (n : Fin 4096) (r : Fin 8) (s : State) : Answer := onDev (fieldSet · n r) s
def execFieldSetDone (n : Fin 4096) (r : Fin 8) (s : State) : Answer := onDev (fieldSetDone · n r) s
def execFieldQuery (n : Fin 4096) (r : Fin 8) (s : State) : Answer := onDev (fieldQuery · n r) s
def execBwkReq (n : Fin 4096) (r : Fin 8) (s : State) : Answer := onDev (bwkReq · n r) s
def execKeyReq (n : Fin 4096) (r : Fin 8) (data : Option (List Byte)) (s : State) : Answer :=
  onDev (keyReq · n r data) s
def execKeyReqDone (k : Fin 8) (s : State) : Answer := onDev (keyReqDone · k) s
def execKeyReqTimeout (k : Fin 8) (s : State) : Answer := onDev (keyReqTimeout · k) s
def execLogRead (n : Fin 4096) (r : Fin 8) (s : State) : Answer := onDev (logRead · n r) s
def execLogReadTimeout (n : Fin 4096) (r : Fin 8) (s : State) : Answer := onDev (logReadTimeout · n r) s
def execLogFlush (s : State) : Answer := onDev logFlush s
def execMsixHoldoffExpire (n : Fin 4096) (r : Fin 8) (s : State) : Answer := onDev (holdoffExpire · n r) s
def execMsixUnmask (n : Fin 4096) (v : Fin 8) (whole : Bool) (s : State) : Answer :=
  onDev (msixUnmask · n v whole) s

end Sys2Proof.Machine
end

