-- ==== Sys2Proof/Machine/Tunnel.lean ====
section
/-! DEFINITION. The tunnel engine (05): wrapping CAN frames into Ethernet and unwrapping them, its streams
and keys, and the bridges' clears. -/

namespace Sys2Proof.Machine

def tunBase (s : Nat) : Nat := 0xC02000 + 0x40 * s
def tunCfg (d : Dev) (s : Nat) : Word := rd d (tunBase s)
/-- MODE: 3 acts as 2 (Table 5.19). -/
def tunMode (d : Dev) (s : Nat) : Nat := min 2 (fld (tunCfg d s) 29 28)
def tunSid (d : Dev) (s : Nat) : Nat := rd64 d (tunBase s + 8)
def tunBus (d : Dev) (s : Nat) : Nat := fld (tunCfg d s) 12 8
def tunAuth (d : Dev) (s : Nat) : Bool := bit (tunCfg d s) 27 && decide (tunMode d s = 2)
def aTun (s k : Nat) : Nat := 0xC08000 + 0x20 * s + 8 * k

/-- A refusal or drop is counted (Table 5.12, TUN_ERR). -/
def tunCount (d : Dev) (a s : Nat) : Dev := evBrg (inc d a) 2 s

def aRefused (c : Nat) : Nat := 0xC0A000 + 8 * c
def aBadFormat : Nat := 0xC0A030
def aNoStream : Nat := 0xC0A038
def aExcess : Nat := 0xC0A040

/-! ## Wrapping (R175–R180) -/

/-- The packet number next sent, and whether a key is installed, under the number in use. -/
def txKey (x : Stream) : Bool × Nat × List Byte :=
  if x.txNum then (x.valid1, x.txPn1, x.key1) else (x.valid0, x.txPn0, x.key0)

/-- The ACF message of modes 0 and 1 (Table 5.7): IEEE 1722 CAN, or CAN Brief without the timestamp. -/
def acfMessage (d : Dev) (s : Nat) (m : CanMsg) (ts : Nat) : List Byte :=
  let brief := decide (tunMode d s = 1)
  let pad := (4 - m.data.length % 4) % 4
  let body := m.data ++ List.replicate pad 0
  let hdr := if brief then 8 else 16
  let ext := m.fmt = 1 ∨ m.fmt = 3
  let fd := decide (m.fmt.val = 2 ∨ m.fmt.val = 3)
  let b (v : Bool) (k : Nat) : Nat := if v then 2 ^ k else 0
  beBytes ((if brief then 2 else 1) * 512 + (hdr + body.length) / 4) 2
    ++ beBytes (pad * 64 + b (!brief) 5 + b m.rtr 4 + b (decide ext) 3 + b m.brs 2 + b fd 1 + b m.esi 0) 1
    ++ beBytes (tunBus d s) 1
    ++ (if brief then [] else beBytes ts 8) ++ beBytes m.id.toNat 4 ++ body

/-- The NTSCF header with its message (Table 5.7). -/
def ntscf (d : Dev) (s seq : Nat) (msg : List Byte) : List Byte :=
  beBytes (0x82 * 65536 + 0x8000 + msg.length) 3 ++ beBytes seq 1 ++ beBytes (tunSid d s) 8 ++ msg

/-- LENGTH of the CAN XL wrap: the data bytes, or of a remote frame its DLC, 9 to 15 standing for 8 (Tables 4.8, 5.8). -/
def wrapLength (m : CanMsg) : Nat := if m.rtr then min 8 m.dlc else m.data.length

/-- Bytes 0–47 of the CAN XL wrap header (Table 5.8). -/
def xlHeader (d : Dev) (s seq : Nat) (num auth : Bool) (pn : Nat) (m : CanMsg) (ts : Nat) : List Byte :=
  let b (v : Bool) (k : Nat) : Nat := if v then 2 ^ k else 0
  let xl := decide (m.fmt = 4)
  [0x01] ++ beBytes (b auth 7 + b (auth && num) 6 + 32 + b (xl && m.sec) 4 + b m.brs 3 + b m.esi 2 + b m.rtr 1) 1
    ++ beBytes seq 2 ++ beBytes (tunSid d s) 8 ++ beBytes ts 8 ++ beBytes (wrapLength m) 2
    ++ beBytes m.fmt.val 1 ++ beBytes (tunBus d s) 1 ++ beBytes m.id.toNat 4 ++ (if xl then [m.sdt, m.vcid, 0, 0] else [0, 0, 0, 0])
    ++ beBytes (if xl then m.af.toNat else 0) 4 ++ beBytes Config.serial.toNat 8 ++ beBytes (if auth then pn else 0) 4

/-- The GMAC of R180: IV is ORIGIN and PN, the additional data the header and the data. -/
def tunTag (key hdr data : List Byte) : List Byte :=
  (gmac key ((hdr.drop 36).take 12) (hdr ++ data)).take 16

/-- Ethernet around a wrap (R176): the tag of VLAN_TAG = 1, and padding to 60 bytes. -/
def tunEther (d : Dev) (s etype : Nat) (body : List Byte) : List Byte :=
  let b := tunBase s
  let dmac := (rd d (b + 0x10)).toNat + 2 ^ 32 * fld (rd d (b + 0x14)) 15 0
  let tag := if bit (tunCfg d s) 26 then
      [0x81, 0x00] ++ beBytes (fld (tunCfg d s) 25 23 * 8192 + fld (rd d (b + 4)) 11 0) 2
    else []
  let f := beBytes dmac 6 ++ beBytes (brgSmac d) 6 ++ tag ++ beBytes etype 2 ++ body
  f ++ List.replicate (60 - f.length) 0

/-- Which refusal of R175 applies to a frame at the engine. -/
def wrapRefusal (d : Dev) (s : Nat) (m : CanMsg) : Option Nat :=
  if !bit (tunCfg d s) 31 then some 3
  else if m.fmt = 4 ∧ tunMode d s < 2 then some 4
  else
    let k := txKey (streamOf d s)
    if tunAuth d s && (!k.1 || decide (0xFFFFFFFF ≤ k.2.1)) then some 5 else none

/-- Build the wrapped frame of message `m` and advance the stream's counts. -/
def wrapBuild (d : Dev) (s : Nat) (m : CanMsg) (ts : Nat) : List Byte × Dev :=
  let x := streamOf d s
  if tunMode d s < 2 then
    let d1 := setStream d s { x with txSeq := (x.txSeq + 1) % 256 }
    (tunEther d s 0x22F0 (ntscf d s (x.txSeq % 256) (acfMessage d s m ts)), inc d1 (aTun s 0))
  else
    let k := txKey x
    let auth := tunAuth d s
    let h := xlHeader d s x.txSeq x.txNum auth k.2.1 m ts
    let icv := if auth then tunTag k.2.2 h m.data else List.replicate 16 0
    let x1 := { x with txSeq := (x.txSeq + 1) % 65536 }
    let x2 := if !auth then x1 else if x.txNum then { x1 with txPn1 := k.2.1 + 1 }
      else { x1 with txPn0 := k.2.1 + 1 }
    let d1 := setStream d s x2
    let d2 := if auth && decide (k.2.1 + 1 = 0xC0000000) then evBrg d1 3 s else d1
    (tunEther d s 0x88B5 ([0, 0] ++ h ++ icv ++ m.data), inc d2 (aTun s 0))

/-- A frame queued for the tunnel engine, to be wrapped or unwrapped. -/
def forEngine : Dest → Bool
  | .wrap _ | .unwrap => true
  | _ => false

/-- The frame the engine looks at next: of its one queue per class the oldest frame, the highest class first
(R64–R66). -/
def tunHead (d : Dev) : Option QEntry :=
  [7, 6, 5, 4, 3, 2, 1, 0].findSome? fun c =>
    d.basin.queues.find? fun e => decide (e.port = 13 ∧ e.cls = c) && forEngine e.dest

/-- A frame whose cells the engine cannot read is discarded and counted in BAD_FORMAT: R48 names no destination on
port 13 (DESIGN CHOICE, assumption 84). -/
def engineUnread (d : Dev) (s : Nat) (e : QEntry) : Dev := leaveQueue (tunCount d aBadFormat s) e

/-- The engine wraps the frame at its head and hands it to the Basin, or refuses it (R175, R176); `cr` is how its cells
read (R43). -/
def tunnelWrap (d : Dev) (cr : CellRead) : Dev :=
  match tunHead d with
  | none => d
  | some e =>
    match e.dest, frameOf d e.uid with
    | .wrap s, some f =>
      let good := readGood d f cr
      let d := frameRead d f cr
      if !good then engineUnread d s e
      else
      match f.body with
      | .can m _ _ =>
        match wrapRefusal d s m with
        | some c => leaveQueue (tunCount d (aRefused c) s) e
        | none =>
          let w := wrapBuild d s m f.ts
          let cls := fld (tunCfg d s) 22 20
          let tag := bit (tunCfg d s) 26
          let g : Frame := {
            uid := 0, body := .eth w.1, inPort := 13, cls := cls, ts := devTime d
            vid := if tag then fld (rd d (tunBase s + 4)) 11 0 else fld (rd d (aPort 13 4)) 11 0
            pcp := if tag then fld (tunCfg d s) 25 23 else cls
            tagged := tag, tunnelled := true }
          (enterBasin (leaveQueue w.2 e) g).2
      | _ => leaveQueue (tunCount d (aRefused 2) s) e
    | _, _ => d

/-! ## Unwrapping (R181, R182) -/

/-- A stream that takes a message: RX_EN, its SID and BUS, and a mode that fits the EtherType. -/
def rxStream (d : Dev) (sid bus : Nat) (xl : Bool) : Option Nat :=
  (List.range 256).find? fun s =>
    bit (tunCfg d s) 30 && decide (tunSid d s = sid ∧ tunBus d s = bus) &&
      (xl == decide (tunMode d s = 2))

/-- A sequence number is compared with the one expected, which then follows it (R182). -/
def seqCheck (d : Dev) (s seq width : Nat) : Dev :=
  let x := streamOf d s
  let d1 := if seq = x.rxSeq then d else inc d (aTun s 2)
  setStream d1 s { x with rxSeq := (seq + 1) % width }

/-- An unwrapped message enters the Basin through port 13 (R182). -/
def unwrapEnter (d : Dev) (s : Nat) (m : CanMsg) (ts : Nat) : Dev :=
  let cls := fld (tunCfg d s) 18 16
  let f : Frame := {
    uid := 0, body := .can m (Fin.ofNat 16 (fld (tunCfg d s) 3 0)) true, inPort := 13, cls := cls
    ts := ts, vid := fld (rd d (aPort 13 4)) 11 0, pcp := cls, tunnelled := true }
  (enterBasin (inc d (aTun s 1)) f).2

/-- One ACF CAN message without its 2-byte type and length: the message if its flags fit its length. -/
def acfParse (d : Dev) (brief : Bool) (b : List Byte) : Option (CanMsg × Option Nat) × Dev :=
  let fl := beNat (b.take 1)
  let o := if brief then 2 else 10
  let pad := fl / 64
  let rtr := fl.testBit 4
  let ext := fl.testBit 3
  let brs := fl.testBit 2
  let fd := fl.testBit 1
  let esi := fl.testBit 0
  let id := beNat ((b.drop o).take 4) % 2 ^ 29
  let body := b.drop (o + 4)
  let data := body.take (body.length - pad)
  let ok := decide (o + 4 + pad ≤ b.length) && (fd || (!brs && !esi)) && !(fd && rtr)
    && (if fd then fdLens.contains data.length else decide (data.length ≤ 8))
    && (ext || decide (id ≤ 0x7FF)) && (!rtr || data.isEmpty)
  if ok then
    let x := if rtr then drawNat d else (0, d)
    let m : CanMsg := {
      id := BitVec.ofNat 29 id, fmt := Fin.ofNat 5 ((if fd then 2 else 0) + (if ext then 1 else 0))
      rtr := rtr, brs := brs, esi := esi, dlc := if rtr then x.1 % 9 else 0, data := data }
    (some (m, if !brief && fl.testBit 5 then some (beNat ((b.drop 2).take 8)) else none), x.2)
  else (none, d)

/-- The ACF messages of one AVTPDU, in order (R181): `k` have gone before, `seen` the streams whose sequence
number has been compared. The first argument bounds the number of messages. -/
def acfAll (sid seq : Nat) : Nat → Nat → List Nat → List Byte → Dev → Dev
  | 0, _, _, _, d => d
  | fuel + 1, k, seen, b, d =>
    if b.isEmpty then d
    else
      let w := beNat (b.take 2)
      let len := 4 * (w % 512)
      let typ := w / 512
      if b.length < 2 ∨ len = 0 ∨ b.length < len then tunCount d aBadFormat 0
      else
        let msg := (b.take len).drop 2
        let rest := b.drop len
        if 16 ≤ k ∨ ¬ (typ = 1 ∨ typ = 2) then acfAll sid seq fuel (k + 1) seen rest (tunCount d aExcess 0)
        else
          match rxStream d sid (beNat ((msg.drop 1).take 1) % 32) false with
          | none => acfAll sid seq fuel (k + 1) seen rest (tunCount d aNoStream 0)
          | some s =>
            match acfParse d (decide (typ = 2)) msg with
            | (none, d1) => acfAll sid seq fuel (k + 1) seen rest (tunCount d1 aBadFormat s)
            | (some (m, ts), d1) =>
              let d2 := if seen.contains s then d1 else seqCheck d1 s seq 256
              acfAll sid seq fuel (k + 1) (s :: seen) rest (unwrapEnter d2 s m (ts.getD (devTime d2)))

/-- Authentication of a wrap under the key its FLAGS name (R180): the stream with the PN accepted. -/
def authCheck (x : Stream) (num : Bool) (pn : Nat) (key hdr data icv : List Byte) : Option Stream :=
  let valid := if num then x.valid1 else x.valid0
  let last := if num then x.rxPn1 else x.rxPn0
  if valid && decide (last < pn) && decide (tunTag key hdr data = icv) then
    some (if num then { x with rxPn1 := pn } else { x with rxPn0 := pn })
  else none

/-- A CAN XL wrap after its two alignment bytes (Table 5.8). -/
def xlUnwrap (d : Dev) (b : List Byte) : Dev :=
  let f (o n : Nat) : Nat := beNat ((b.drop o).take n)
  match rxStream d (f 4 8) (f 23 1 % 32) true with
  | none => tunCount d aNoStream 0
  | some s =>
    let fl := f 1 1
    let fmt := f 22 1 % 8
    let len := f 20 2
    let rtr := fl.testBit 1
    let brs := fl.testBit 3
    let esi := fl.testBit 2
    let sec := fl.testBit 4
    let id := f 24 4 % 2 ^ 29
    let fd := decide (fmt = 2 ∨ fmt = 3)
    let data := if rtr then [] else (b.drop 64).take len
    let ok := decide (64 ≤ b.length) && decide (fmt ≤ 4)
      && (if fmt = 4 then decide (1 ≤ len ∧ len ≤ 2048) else if fd then fdLens.contains len
          else decide (len ≤ 8))
      && (rtr || decide (data.length = len)) && (!rtr || decide (fmt ≤ 1)) && ((!brs && !esi) || fd)
      && (!sec || decide (fmt = 4)) && (fd && fmt == 3 || fmt == 1 || decide (id ≤ 0x7FF))
    if !ok then tunCount d aBadFormat s
    else
      let num := fl.testBit 6
      let x := streamOf d s
      let a := if tunAuth d s then
          authCheck x num (f 44 4) (if num then x.key1 else x.key0) (b.take 48) data ((b.drop 48).take 16)
        else some x
      match a with
      | none => tunCount d (aTun s 3) s
      | some x1 =>
        let d1 := seqCheck (setStream d s x1) s (f 2 2) 65536
        let m : CanMsg := {
          id := BitVec.ofNat 29 id, fmt := Fin.ofNat 5 fmt, rtr := rtr, brs := brs, esi := esi, sec := sec
          dlc := if rtr then len else 0, sdt := b.getD 28 0, vcid := b.getD 29 0, af := w32 (f 32 4)
          data := data }
        unwrapEnter d1 s m (if fl.testBit 5 then f 12 8 else devTime d1)

/-- The engine examines the frame at its head if it is one sent to it for unwrapping (R181); `cr` is how its cells read
(R43). -/
def tunnelUnwrap (d : Dev) (cr : CellRead) : Dev :=
  match tunHead d with
  | none => d
  | some e =>
    match e.dest, frameOf d e.uid with
    | .unwrap, some f =>
      let good := readGood d f cr
      let d := frameRead d f cr
      if !good then engineUnread d 0 e
      else
      match f.body with
      | .eth raw =>
        if f.tunnelled then leaveQueue (tunCount d (aRefused 1) 0) e
        else
          let b := raw.drop (if hasTag raw then 18 else 14)
          let t := etherType raw
          let d1 :=
            if t = 0x22F0 ∧ beNat (b.take 1) = 0x82 ∧ beNat ((b.drop 1).take 1) / 16 = 8 then
              let len := beNat ((b.drop 1).take 2) % 2048
              if b.length < 12 + len then tunCount d aBadFormat 0
              else acfAll (beNat ((b.drop 4).take 8)) (beNat ((b.drop 3).take 1)) (len + 1) 0 []
                ((b.drop 12).take len) d
            else if t = 0x88B5 ∧ beNat ((b.drop 2).take 1) = 1 then xlUnwrap d (b.drop 2)
            else tunCount d aBadFormat 0
          leaveQueue d1 e
      | _ => leaveQueue (tunCount d aBadFormat 0) e
    | _, _ => d

/-! ## Registers of a stream (R174, R180) -/

/-- TUN_CFG: the enables always, the other fields only while both were 0. -/
def tunCfgWrite (d : Dev) (s : Nat) (v : Word) : Dev :=
  let old := tunCfg d s
  if bit old 31 || bit old 30 then
    wr d (tunBase s) ((old &&& 0x3FFFFFFF) ||| (v &&& 0xC0000000))
  else wr d (tunBase s) (v &&& 0xFFF71F0F)

/-- TUN_KEY.SWITCH. -/
def tunSwitch (d : Dev) (s : Nat) : Dev :=
  let x := streamOf d s
  if (if x.txNum then x.valid0 else x.valid1) then setStream d s { x with txNum := !x.txNum }
  else evBrg d 2 s

/-- Install a key under a number (R180). -/
def tunInstall (d : Dev) (s : Nat) (num : Bool) (key : List Byte) : Dev :=
  let x := streamOf d s
  setStream d s (if num then { x with valid1 := true, txPn1 := 1, rxPn1 := 0, key1 := key }
    else { x with valid0 := true, txPn0 := 1, rxPn0 := 0, key0 := key })

/-! ## Clears (Table 5.14) -/

def brgClearLog (d : Dev) : Dev :=
  (List.range 16).foldl (fun d e => wr d (0xC01000 + 32 * e) (rd d (0xC01000 + 32 * e) &&& 0x7FFFFFFF)) d
def brgClearTun (d : Dev) : Dev := clearCnts d 0xC08000 0xC0A048
def brgClearOverwrite (d : Dev) : Dev := clearCnts d 0xC0A048 0xC0A050

/-! ## Meanings -/

def execTunnelWrap (c : CellRead) (s : State) : Answer := onDev (tunnelWrap · c) s
def execTunnelUnwrap (c : CellRead) (s : State) : Answer := onDev (tunnelUnwrap · c) s
def execSwitch (k : Fin 256) (s : State) : Answer := onDev (tunSwitch · k) s
def execBrgClearLog (s : State) : Answer := onDev brgClearLog s
def execBrgClearTun (s : State) : Answer := onDev brgClearTun s
def execBrgClearOverwrite (s : State) : Answer := onDev brgClearOverwrite s

end Sys2Proof.Machine
end

