-- ==== Sys2Proof/Machine/Bridge.lean ====
section
/-! DEFINITION. The bridge error log and whom a failure is charged to (R162–R167), and what a Block reset
or hand-over does to semaphores (R173). -/

namespace Sys2Proof.Machine

/-- PB_TIMEOUT in µs (Table 5.10). -/
def pbTimeout (d : Dev) : Nat := atLeast1 (fld (rd d 0xC00000) 7 0)

/-- The slip charged, by the path an access arrived on (Table 5.4). -/
def chargedSlip (d : Dev) (who : Requester) (t : Target) : Nat :=
  match who, t with
  | .pf, _ => 0
  | .vf n, _ => n.val
  | .hart _, .window n _ => if internalSlip d n.val then n.val else 0
  | .hart _, .doorbell n _ => if internalSlip d n.val then n.val else 0
  | .hart _, _ => 0
  | .qm, _ => 0

def reqCode : Requester → Nat
  | .pf => 0
  | .vf _ => 1
  | .hart _ => 2
  | .qm => 3

/-- REQ_ID (Table 5.17): the routing ID of virtual function n is that of the physical function + n (R119), which is a free
value, since bus numbers are the host's. -/
def reqId : Requester → Nat
  | .pf => Config.routingId.toNat
  | .vf n => (Config.routingId.toNat + n.val) % 65536
  | .hart h => h.val
  | .qm => 0

/-- The address an access names: the BAR0 offset, or for an internal slip's window its alias in SLP. -/
def targetAddr : Target → Nat
  | .bar0 o => o.toNat
  | .window n o => slipWin n.val + o.toNat
  | .doorbell n o => slipWin n.val + o.toNat
  | .clt o => o.toNat

/-- ADDR of an entry (Table 5.17): a virtual function's offset in its own BAR0, otherwise `targetAddr`. -/
def logAddr (who : Requester) (t : Target) : Nat :=
  match who, t with
  | .vf _, .window _ o => o.toNat
  | _, _ => targetAddr t

/-- A failed access to a posted window is logged (R162, R163, R165–R167): `width` bytes from the target, `value` the
write data, accepted at device time `ts`, failed `delay` µs later; `incar` is the incarnation of the slip charged at
acceptance. -/
def errLog (d : Dev) (who : Requester) (t : Target) (slip width : Nat) (value : DWord) (read : Bool)
    (cause delay ts : Nat) (incar : BitVec 8) : Dev :=
  let prod := rd d 0xC00010
  let total := fld prod 31 16
  let a := 0xC01000 + 32 * fld prod 3 0
  let stale := decide ((slipOf d slip).inc ≠ incar)
  let off := targetAddr t % 8
  let data : Nat := if read then 0 else value.toNat % 2 ^ (8 * width) * 2 ^ (8 * off)
  let full := bit (rd d a) 31
  let w (d : Dev) (i : Nat) (v : Word) : Dev := wr d (a + 4 * i) v
  let d1 := w (w (w (w (w (w (w d 1 (at_ (logAddr who t % 2 ^ 26) 0))
    2 (at_ (reqCode who) 28 ||| at_ slip 16 ||| at_ (reqId who) 0))
    3 (w32 data)) 4 (w32 (data >>> 32))) 5 (w32 ts)) 6 (w32 (ts >>> 32))) 7 (at_ (min 65535 delay) 0)
  let be := (2 ^ width - 1) * 2 ^ off % 256
  let d2 := w d1 0 (flag true 31 ||| flag stale 30 ||| flag read 29 ||| at_ cause 24 ||| at_ be 16
    ||| at_ total 0)
  let d3 := wr d2 0xC00010 (at_ ((total + 1) % 65536) 16 ||| at_ ((fld prod 3 0 + 1) % 16) 0)
  let d4 := if full then evBrg (inc d3 0xC0A048) 1 0 else d3
  setSlipEv (evBrg d4 0 slip) (if stale then 0 else slip) 2

/-! ## Semaphores (R169–R173) -/

/-- Whether the register at `a` lies in `[lo, hi)`. -/
def atomicIn (lo hi : Nat) : BusOp → Bool
  | .atomic q _ => decide (lo ≤ q.addr ∧ q.addr < hi)
  | _ => false

/-- A Block reset or hand-over of the registers in `[lo, hi)` breaks every reservation and ends every AtomicOp and AMO
pending there with Completer Abort (R173). Writes held back by them are performed or fail in their turn. -/
def semBlockAbort (d : Dev) (lo hi : Nat) : Dev :=
  let inside (a : Nat) : Bool := decide (lo ≤ a ∧ a < hi)
  let d1 := (List.range 64).foldl (fun d s =>
    let x := semOf d s
    if x.held && inside x.block then
      match x.kind with
      | .lr => setSem d s { x with broken := true }
      | _ =>
        match x.req with
        | some q => emit (setSem d s {}) (.opAborted q.who)
        | none => setSem d s {}
    else d) d
  let gone := d1.brg.queue.filter fun e => atomicIn lo hi e.op
  let d2 : Dev := { d1 with brg := { d1.brg with queue := d1.brg.queue.filter fun e => !atomicIn lo hi e.op } }
  gone.foldl (fun d e => emit d (.opAborted e.who)) d2

end Sys2Proof.Machine
end

