-- ==== Sys2Proof/Machine/Worlds.lean ====
section
/-! DEFINITION. Worlds (12): memory regions and the accesses they judge, the violation log, hand-over of
blocks, debug enables and the TAP. -/

namespace Sys2Proof.Machine

/-! ## Accesses and regions (R335, R348–R352) -/

/-- An access fault on a hart, an error to the other requesters (R335, R351). -/
def accessError (d : Dev) (cls source : Nat) (write : Bool) : Dev :=
  if cls = 0 then emit d (.hartIrq source (if write then 7 else 5)) else emit d (.memError cls source)

/-- How a refused access ends at its requester (R351); a fabric engine handles a refusal by the Basin's regions as an
uncorrectable Basin error (R48), which does not retire the cell (DEDUCED, assumption 35). -/
def refusalAnswer (d : Dev) (cls source m : Nat) (write : Bool) : Dev :=
  if cls = 4 ∧ m = 1 then evSw d 9 0 else accessError d cls source write

/-- Whether the requester class runs (Table 12.11): one in reset, halted or without its rail makes no access. -/
def classUp (d : Dev) (cls : Nat) : Bool :=
  match cls with
  | 0 => clusterRuns d
  | 2 => qmAwake d
  | 3 => lockUp d
  | 5 => coreUp d 7
  | 6 => coreUp d 5
  | _ => fabricUp d

/-- A debug access needs the invasive enable of its world (R357). -/
def debugAllows (d : Dev) (cls : Nat) : Bool :=
  if cls = 5 then d.wld.nInv else if cls = 6 then d.wld.sInv else true

/-- Byte `off` of the Basin's cells as a frame holds it: none for a byte of no frame's stored bytes. -/
def basinByte (d : Dev) (off : Nat) : Option Byte := do
  let f ← cellHolder d (off / 256)
  let i ← storedIdx f (off / 256) (off % 256)
  (storedBytes f.body)[i]?

/-- Replace a stored byte of a frame: of an Ethernet frame or record any held byte, of a CAN frame a data byte. -/
def bodyPoke (b : FrameBody) (i : Nat) (v : Byte) : FrameBody :=
  match b with
  | .eth l => .eth (l.set i v)
  | .can m ch t => if i < 16 then b else .can { m with data := m.data.set (i - 16) v } ch t
  | .fieldEdge c x l => .fieldEdge c x (l.set i v)
  | .snapshot c l => .snapshot c (l.set i v)
  | .fieldFault c l => .fieldFault c (l.set i v)
  | .samples c l => .samples c (l.set i v)

/-- Write byte `off` of the Basin's cells: a stored byte of the frame that holds the cell changes with it. -/
def basinPoke (d : Dev) (off : Nat) (v : Byte) : Dev :=
  match cellHolder d (off / 256) with
  | none => d
  | some f =>
    match storedIdx f (off / 256) (off % 256) with
    | none => d
    | some i => setBasin d { d.basin with
        frames := d.basin.frames.map fun g => if g.uid = f.uid then { g with body := bodyPoke g.body i v } else g }

def basinWrite (d : Dev) (off : Nat) : List Byte → Dev
  | [] => d
  | b :: t => basinWrite (basinPoke d off b) (off + 1) t

/-- Read `n` bytes of the Basin's cells: what is no frame's stored byte (a frame header, a free cell) reads as a free
value (assumption 20). -/
def basinRead (d : Dev) (off n : Nat) : List Byte × Dev :=
  let x := drawBytes d n
  ((List.range n).map fun i => (basinByte d (off + i)).getD (x.1.getD i 0), x.2)

/-- Whether the data at a cluster physical address is poisoned. -/
def poisoned (d : Dev) (addr : Nat) : Bool :=
  d.clt.poison.contains (addr / 64 * 64) || d.clt.cachePoison.contains (addr / 64 * 64)

/-- A consumption of poisoned data is recorded (R330). -/
def poisonTake (d : Dev) (addr : Nat) : Dev := evClt (wr64 d 0x4000320 addr) 1

/-- The cluster physical address of byte `off` of a memory; the Basin has none (Table 12.2). -/
def physAddr (m off : Nat) : Option Nat :=
  match m with
  | 0 => some (0x400000000 + off)
  | 2 => some (0x08000000 + off)
  | 3 => some (0x09000000 + off)
  | 4 => some (0x200000000 + off)
  | _ => none

/-- The first poisoned address of `n` bytes of a memory. -/
def firstPoison (d : Dev) (m off n : Nat) : Option Nat :=
  ((List.range n).filterMap fun i => physAddr m (off + i)).find? (poisoned d)

/-- A DMA read of an internal slip fails: the descriptor its outstanding read is for completes READ_ERR (R330, R351). -/
def dmaFails (d : Dev) (n : Nat) (fab : Bool) (t : Nat) : Dev :=
  if d.slips.outst.any fun o => o.fabric == fab && o.tag == t && o.slip == n then dmaReadComplete d fab t none
  else emit d (.memError 1 n)

/-- Bytes a memory access covers. -/
def accLen : MemOp → Nat
  | .read n _ => n
  | .write b => b.length
  | .dmaRead _ _ n => n

/-- Whether it writes. -/
def accWrites : MemOp → Bool
  | .write _ => true
  | _ => false

/-- How an access that fails ends: an error at its requester, READ_ERR for the data read of an internal slip (R351). -/
def accessFails (d : Dev) (cls source : Nat) (op : MemOp) : Dev :=
  match op with
  | .dmaRead fab t _ => dmaFails d source fab t
  | _ => accessError d cls source (accWrites op)

/-- Whether an access meets a DRAM row that was retired from the memory map (Table 15.5). -/
def rowFaulted (d : Dev) (m off len : Nat) : Bool :=
  decide (m = 0) && d.clt.rowsOut.any fun r =>
    Config.rowInPage r (off / 4096) || Config.rowInPage r ((off + len - 1) / 4096)

/-- What the cells of a Basin read show: an error of a cell that the read does not touch is none of its own (R43). -/
def cellsRead (off n : Nat) : CellRead → CellRead
  | .corrected k => if off / 256 ≤ k ∧ k ≤ (off + n - 1) / 256 then .corrected k else .clean
  | .uncorrectable k => if off / 256 ≤ k ∧ k ≤ (off + n - 1) / 256 then .uncorrectable k else .clean
  | .clean => .clean

/-- An allowed read of the Basin: an error of its cells is corrected and counted, or detected and answered with an error
(R43; DEDUCED, assumption 112). -/
def basinAccess (d : Dev) (cls source off n : Nat) (c : CellRead) : Dev :=
  let d1 := cellRead d (cellsRead off n c)
  match cellsRead off n c with
  | .uncorrectable _ => if cls = 4 then d1 else accessError d1 cls source false
  | _ => let x := basinRead d1 off n; emit x.2 (.memData cls source x.1)

/-- An allowed read of any other memory: a load or a DMA read that meets poisoned data consumes it (R330). -/
def memReadAccess (s : State) (cls source m off : Nat) (op : MemOp) : State :=
  let d := s.dev
  match if cls ≤ 1 then firstPoison d m off (accLen op) else none with
  | some a => { s with dev := accessFails (poisonTake d a) cls source op }
  | none =>
    let l := memRead s.mem (memKey m off) (accLen op)
    match op with
    | .dmaRead fab t _ =>
      if d.slips.outst.any fun o => o.fabric == fab && o.tag == t.val && o.slip == source then
        { s with dev := dmaReadComplete d fab t (some l) }
      else { s with dev := emit d (.memData cls source l) }
    | _ => { s with dev := emit d (.memData cls source l) }

/-- A read or write of byte `off` of memory `m` (4 is the flash window, read-only once flash is worn out, Table 15.5),
judged by its regions (R350, R351); an access of no byte, of more than 64 bytes, of a byte the memory does not have, or of
a page whose row is retired ends with an error. -/
def memAccess (s : State) (cls source m off : Nat) (op : MemOp) : State :=
  let d := s.dev
  if !debugAllows d cls ∨ accLen op = 0 ∨ 64 < accLen op ∨ memSize m < off + accLen op ∨ rowFaulted d m off (accLen op) then
    { s with dev := accessFails d cls source op }
  else if !regionAllows d cls m off (accLen op) (accWrites op) then
    let d1 := accessRefused d cls source m off (accWrites op)
    { s with dev := match op with
      | .dmaRead fab t _ => dmaFails d1 source fab t
      | _ => refusalAnswer d1 cls source m (accWrites op) }
  else
    match op with
    | .read n c => if m = 1 then { s with dev := basinAccess d cls source off n c } else memReadAccess s cls source m off op
    | .dmaRead _ _ n =>
      if m = 1 then { s with dev := basinAccess d cls source off n .clean } else memReadAccess s cls source m off op
    | .write b =>
      if m = 4 ∧ flashWorn d then s else if m = 1 then { s with dev := basinWrite d off b }
      else { s with mem := memWrite s.mem (memKey m off) b }

/-- The I/O areas of the cluster's address map (Table 12.2): accesses there are commands of their own. -/
def clusterIo (a : Nat) : Bool :=
  [(0x02000000, 0x02010000), (0x0C000000, 0x0C008000), (0x0D000000, 0x0D008000), (0x24000000, 0x24008000),
    (0x28000000, 0x28040000), (0x40000000, 0x44000000), (0x50000000, 0x52000000), (0x58000000, 0x58001000)].any
    fun r => decide (r.1 ≤ a) && decide (a < r.2)

/-- An access of MEMORY_ACCESS (R335, R349–R351): to a memory, or to a cluster physical address. The boot ROM, whose contents
the spec does not give (Config.bootRom), is read only; an I/O address is no memory; any other address takes an access
fault. -/
def memoryAccess (s : State) (cls source : Nat) (place : MemAt) (op : MemOp) : State :=
  if !classUp s.dev cls then s
  else
    match place with
    | .mem m off => memAccess s cls source m off.toNat op
    | .phys a =>
      match clusterMem a.toNat with
      | some p => memAccess s cls source p.1 p.2 op
      | none =>
        if clusterIo a.toNat then s
        else if !accWrites op ∧ 0 < accLen op ∧ accLen op ≤ 64 ∧ a.toNat + accLen op ≤ 0x10000 ∧ debugAllows s.dev cls then
          { s with dev := emit s.dev (.memData cls source ((List.range (accLen op)).map fun i => Config.bootRom (a.toNat + i))) }
        else { s with dev := accessFails s.dev cls source op }

/-- BAR0 address of word `w` of region `r` of memory `m`. -/
def aRegion (m r w : Nat) : Nat := 0x1310000 + 0x400 * m + 16 * r + 4 * w

/-- The region four words describe (Table 12.18). -/
def regionWords (w0 w1 w2 w3 : Word) : Region :=
  { base := w0.toNat, last := w1.toNat, rd := BitVec.ofNat 8 (fld w2 15 8), wr := BitVec.ofNat 8 (fld w2 7 0)
    enable := bit w3 31, owner := bit w3 30, locked := bit w3 29 }

/-- The four words are applied whole (R352). -/
def regionApply (d : Dev) (m r : Nat) (w0 w1 w2 w3 : Word) : Dev :=
  let v := w3 &&& 0xE0000000
  setRegion (wr (wr (wr (wr d (aRegion m r 0) w0) (aRegion m r 1) w1) (aRegion m r 2) (w2 &&& 0xFFFF))
    (aRegion m r 3) v) m r (regionWords w0 w1 w2 v)

/-- The requester class recorded for a World N requester of a register. -/
def requesterClass : Requester → Nat
  | .hart _ => 0
  | .qm => 2
  | .pf => Config.hostClass.toNat
  | .vf _ => Config.hostClass.toNat

/-- A region write of World N that is refused: an error response and an entry of KIND 3. -/
def regionRefused (d : Dev) (who : Requester) (m r w : Nat) : Dev :=
  answerError (violation d 3 0xF (requesterClass who) (aRegion m r w) r 0) who

/-- Whether a World N requester may write a region (R352). -/
def regionOpen (d : Dev) (who : Requester) (m r : Nat) : Bool :=
  (match who with | .pf => true | .qm => true | _ => false) &&
    !(regionOf d m r).owner && !(regionOf d m r).locked

/-- A write of word 3: by a World N requester, with words 0–2 held from earlier writes, or by the Lock. -/
def regionWrite (d : Dev) (who : RegionWriter) (m r : Nat) (v : Word) : Dev :=
  match who with
  | .lock w0 w1 w2 => if lockUp d then regionApply d m r w0 w1 w2 v else d
  | .worldN q =>
    if regionOpen d q m r && !bit v 30 && !bit v 29 then
      regionApply d m r (rd d (aRegion m r 0)) (rd d (aRegion m r 1)) (rd d (aRegion m r 2)) v
    else regionRefused d q m r 3

/-! ## Hand-over (R353–R356) -/

/-- Code of WLD_HO.STATE (Table 12.16). -/
def HoState.code : HoState → Nat
  | .nOwned => 0
  | .releaseReq => 1
  | .toS => 2
  | .sOwned => 3
  | .toN => 4

/-- HO_TIMEOUT in ms (Table 12.15). -/
def hoTimeoutMs (d : Dev) : Nat := clamp 1 1000 (fld (rd d 0x130000C) 15 0)

/-- The BAR0 ranges of block `b`: a CAN channel (0–15), its NWS group and its partner table; KEY for the key store (18);
the service console (16) and the rest have no register here. -/
def blockRanges (b : Nat) : List (Nat × Nat) :=
  if b = 18 then [(0x1400000, 0x1500000)] else if b < 16 then [(canBase b, canBase b + 0x10000), (netBase b, netBase b + 0x100),
    (0xE10000 + 0x800 * b, 0xE10000 + 0x800 * b + 0x800)] else []

/-- Block reach: a CAN channel returns in CONFIG, its registers, counters, NWS group and partner table at
their reset values (Tables 6.6, 7.10); the frames loaded in it are abandoned. -/
def blockReset (d : Dev) (b : Nat) : Dev :=
  let d1 := (blockRanges b).foldl (fun d r => semBlockAbort d r.1 r.2) d
  if b < 16 then
    let d2 := canAbandonAll d1 b
    let d3 := (blockRanges b).foldl (fun d r =>
      clearCnts (resetRegs (resetRegs d r.1 r.2) (heldAt r.1) (heldAt r.2)) r.1 r.2) d2
    let c := canOf d3 b
    let d4 := setNet (setCan d3 b { supplyFault := c.supplyFault, thermalFault := c.thermalFault }) b {}
    { d4 with nws := { d4.nws with parts := tclear d4.nws.parts (64 * b) (64 * b + 64) } }
  else d1

/-- Frames queued for a channel of World S are discarded, counted, and reported FAILED (R355). -/
def sDiscard (d : Dev) (b : Nat) : Dev :=
  (d.basin.queues.filter fun e => decide (e.dest = Dest.can b)).foldl
    (fun d e => leaveQueue (canReport (inc d 0x1300418) e.uid b false false 0) e) d

/-- Release (R354): steps 1–5 taken, the block is in Block reset until its grant. -/
def hoRelease (d : Dev) (b : Nat) (next : HoState) (forced cmd : Bool) : Dev :=
  let d1 := if next = HoState.toS ∧ b < 16 then sDiscard (canAbandonAll d b) b else d
  setHo (blockReset d1 b) b { hoOf d b with state := next, forced := forced, cmd := cmd }

/-- The Lock claims a block, or its claim is refused. -/
def hoClaim (d : Dev) (b : Nat) : Dev :=
  let x := hoOf d b
  if !lockUp d then d
  else if x.state = .nOwned then evWld (setHo d b { x with state := .releaseReq, at_ := d.wall }) 0 b
  else lockNotice d 4 b

def hoEnd (d : Dev) (st : Nat) : Dev := resultEnd d 0x1300014 (at_ st 28)

/-- A WLD command is taken unless one runs (R361). -/
def wldCommand (d : Dev) (k : Dev → Dev) : Dev :=
  if resultValid d 0x1300014 then k (resultBegin d 0x1300014) else evWld d 6 0

/-- WLD_HO_CMD RELEASE. -/
def hoCmdRelease (d : Dev) (b : Nat) : Dev :=
  wldCommand d fun d =>
    if 16 < b then hoEnd d 1
    else if (hoOf d b).state ≠ .releaseReq then hoEnd d 2
    else lockNotice (hoRelease d b .toS false true) 3 b

def hoBadOp (d : Dev) : Dev := wldCommand d fun d => hoEnd d 3

/-- HO_TIMEOUT expires: the release is forced. -/
def hoExpire (d : Dev) (b : Nat) : Dev :=
  if (hoOf d b).state = .releaseReq ∧ 1000000 * hoTimeoutMs d ≤ d.wall - (hoOf d b).at_ then
    lockNotice (evWld (inc (hoRelease d b .toS true false) 0x1300408) 2 b) 3 b
  else d

def hoWithdraw (d : Dev) (b : Nat) : Dev :=
  let x := hoOf d b
  if lockUp d ∧ x.state = .releaseReq then setHo d b { x with state := .nOwned } else d

def hoReturn (d : Dev) (b : Nat) : Dev :=
  if lockUp d ∧ (hoOf d b).state = .sOwned then hoRelease d b .toN false false else d

/-- The Block reset ends and the new world gains the block (R354, step 6). -/
def hoGrant (d : Dev) (b : Nat) : Dev :=
  let x := hoOf d b
  let granted (st : HoState) : Dev :=
    let d1 := evWld (setHo d b { x with state := st, count := x.count + 1, cmd := false }) 1 b
    lockNotice (if x.cmd then hoEnd d1 0 else d1) 3 b
  match x.state with
  | .toS => granted .sOwned
  | .toN => granted .nOwned
  | _ => d

/-- A World N write to the clock or power of a World S block (R356). -/
def clkPwrRefused (d : Dev) (who : Requester) (b : Nat) : Dev :=
  let d1 := violation d 2 0xF (requesterClass who) (0x100080 + 4 * b) 0xFF b
  answerError (lockNotice (evWld (inc d1 0x1300410) 4 b) 2 b) who

/-! ## Debug (R357–R359, R383) -/

/-- The harts, the Quaymaster and the Lock halted under an enable that has fallen resume, and the harts' triggers are
cleared (R358). -/
def debugResume (d : Dev) : Dev :=
  let d1 := if d.wld.nInv then d
    else (List.range 8).foldl (fun d h => if d.clt.halted.getLsbD h then emit d (.halt h false) else d)
      { d with clt := { d.clt with halted := 0, triggers := [] } }
  let d2 := if (d.wld.nInv && d.wld.qmDbg) || !d.clt.qmHalted then d1
    else emit { d1 with clt := { d1.clt with qmHalted := false } } (.halt 8 false)
  if d.wld.sInv || !d.clt.lockHalted then d2
  else emit { d2 with clt := { d2.clt with lockHalted := false } } (.halt 9 false)

/-- The debug certificates in force become `l`: an enable stands while one of them grants it. A change sets
WLD_EVENT.DEBUG, and what was halted under an enable that falls resumes (R358, R383). -/
def debugCerts (d : Dev) (l : List DebugCert) : Dev :=
  let w := d.wld
  let g (b : Nat) : Bool := l.any fun c => c.grants.getLsbD b
  let d1 : Dev := { d with wld := { w with
    nNinv := g 0, nInv := g 1, sNinv := g 2, sInv := g 3, qmDbg := g 4, certs := l.filter fun c => c.grants != 0 } }
  if w.nNinv = g 0 ∧ w.nInv = g 1 ∧ w.sNinv = g 2 ∧ w.sInv = g 3 ∧ w.qmDbg = g 4 then d1
  else debugResume (evWld d1 5 0)

/-- WLD_DEBUG written by the manager: 1 lowers N_INV and N_NINV (R358). Lowering N_NINV leaves N_INV, which
implies it, in force (DEDUCED, assumption 39). -/
def debugLower (d : Dev) (v : Word) : Dev :=
  let m : BitVec 5 := (if bit v 31 then 2 else 0) ||| (if bit v 30 then 1 else 0)
  debugCerts d (d.wld.certs.map fun c => { c with grants := c.grants &&& ~~~m })

/-- Every enable falls (R383). -/
def debugDrop (d : Dev) : Dev := debugCerts d []

/-- The certificate whose LIFETIME ends first, if any ends. -/
def certDue (d : Dev) : Option Nat := (d.wld.certs.filterMap (·.ends)).min?

/-- A LIFETIME expires: the certificate that ends first is over (R383). -/
def debugLifetime (d : Dev) : Dev :=
  match certDue d with
  | none => d
  | some t => if d.wall < t then d else debugCerts d (d.wld.certs.filter fun c => c.ends != some t)

/-- Whether the invasive enable that covers a processor stands: N_INV for hart 0–7, with QM for the Quaymaster (8), S_INV
for the Lock (9) (R357). -/
def debugCovers (d : Dev) (who : Nat) : Bool :=
  if who = 9 then d.wld.sInv else d.wld.nInv && (decide (who ≠ 8) || d.wld.qmDbg)

/-- Whether a processor runs, so that a debugger can halt it. -/
def procUp (d : Dev) (who : Nat) : Bool :=
  if who = 9 then coreUp d 5
  else if who = 8 then fabricUp d && d.rst.qmRunning
  else coreUp d 7 && decide (d.clt.map.getD who 15 ≠ 15)

/-- A debugger halts a processor under its invasive enable, or lets it run again; without the enable the command ends with
an error (R357). -/
def debugHalt (d : Dev) (who : Nat) (halt : Bool) : Dev :=
  if !debugCovers d who then emit d (.debugError who)
  else if !procUp d who then d
  else
    let c := d.clt
    let c1 : Clt := if who = 9 then { c with lockHalted := halt } else if who = 8 then { c with qmHalted := halt }
      else { c with halted := if halt then c.halted ||| (1#8 <<< who) else c.halted &&& ~~~(1#8 <<< who) }
    emit { d with clt := c1 } (.halt who halt)

/-- Whether a processor is halted by debug. -/
def debugHalted (d : Dev) (who : Nat) : Bool :=
  if who = 9 then d.clt.lockHalted else if who = 8 then d.clt.qmHalted else d.clt.halted.getLsbD who

/-- Whether the enable for trace and counter reads of a processor stands; an invasive enable implies it (R357). -/
def debugSees (d : Dev) (who : Nat) : Bool :=
  if who = 9 then d.wld.sNinv || d.wld.sInv else (d.wld.nNinv || d.wld.nInv) && (decide (who ≠ 8) || d.wld.qmDbg)

/-- Data the Debug Module reads of a processor, whose registers are no state of the model: a free value (assumption 72). -/
def debugRead (d : Dev) (who : Nat) : Dev :=
  let x := drawNat d
  emit x.2 (.debugData who (BitVec.ofNat 64 x.1))

/-- A debugger's request (R357). A trace or counter read without its enable reads zero. A single step, an abstract access
and a trigger need the processor halted; the harts alone have triggers (Table 12.1). -/
def debugRequest (d : Dev) (who : Nat) (op : DebugOp) : Dev :=
  let held := debugCovers d who && debugHalted d who
  match op with
  | .halt => debugHalt d who true
  | .resume => debugHalt d who false
  | .step => emit d (if held then .debugStep who else .debugError who)
  | .access => if held then debugRead d who else emit d (.debugError who)
  | .trigger i v =>
    if held ∧ who < 8 then { d with clt := { d.clt with triggers := tset 0 d.clt.triggers (4 * who + i) v } }
    else emit d (.debugError who)
  | .trace => if debugSees d who then debugRead d who else emit d (.debugData who 0)

/-- IDCODE: the stepping, 0x7A09, the manufacturer and 1 (R462). -/
def idcode : Word :=
  at_ (Config.stepping.toNat % 16) 28 ||| at_ 0x7A09 12 ||| at_ Config.jtagMaker.toNat 1 ||| 1

/-- A TAP instruction: BYPASS 0, IDCODE 1, SAMPLE/PRELOAD 2, EXTEST 3, CLAMP 4, INTEST 5; the last three act
only while the Breakwater is EMPTY and the life cycle is Blank or Return (R359). -/
def tapInstruction (d : Dev) (code : Nat) : Dev :=
  let free := decide (d.bwk.state = .empty) && (decide (d.keys.lc = 0) || decide (d.keys.lc = 3))
  let d1 := emit d (.tap code (decide (code < 3) || free))
  if code = 1 then emit d1 (.idcode idcode) else d1

/-! ## Clears (R361) -/

def wldClearLog (d : Dev) : Dev :=
  (List.range 16).foldl (fun d e => wr d (0x1300100 + 32 * e) (rd d (0x1300100 + 32 * e) &&& 0x7FFFFFFF)) d

def wldClearCounters (d : Dev) : Dev := clearCnts d 0x1300400 0x1300420

/-! ## Meanings -/

def execMemoryAccess (cls : Fin 7) (source : Fin 4096) (place : MemAt) (op : MemOp) (s : State) : Answer :=
  .next (memoryAccess s cls source place op)
def execHoClaim (b : Fin 17) (s : State) : Answer := onDev (hoClaim · b) s
def execHoRelease (b : BitVec 5) (s : State) : Answer := onDev (hoCmdRelease · b.toNat) s
def execHoTimeout (b : Fin 17) (s : State) : Answer := onDev (hoExpire · b) s
def execHoWithdraw (b : Fin 17) (s : State) : Answer := onDev (hoWithdraw · b) s
def execHoReturn (b : Fin 17) (s : State) : Answer := onDev (hoReturn · b) s
def execHoGrant (b : Fin 17) (s : State) : Answer := onDev (hoGrant · b) s
def execDebugEnableLower (v : Word) (s : State) : Answer := onDev (debugLower · v) s
def execDebugLifetimeExpire (s : State) : Answer := onDev debugLifetime s
def execTapInstruction (code : Fin 6) (s : State) : Answer := onDev (tapInstruction · code) s
def execDebugHalt (who : Fin 10) (op : DebugOp) (s : State) : Answer := onDev (debugRequest · who op) s
def execWldClearLog (s : State) : Answer := onDev wldClearLog s
def execWldClearCounters (s : State) : Answer := onDev wldClearCounters s

end Sys2Proof.Machine
end

