-- ==== Sys2Proof/Machine/Bus.lean ====
section
/-! DEFINITION. The path of a register access from its requester to the register (R120, R155–R168, R336, R337): where it
goes, whether its window is strict, what the far side refuses, the order among accepted accesses, and how a failure is
reported. What a write does to each register follows in BlockWrite and StrictWrite, and RegWrite performs accesses. -/

namespace Sys2Proof.Machine

/-! ## Where an access goes -/

/-- What an access of a requester reaches: a register of BAR0 with the manager's authority, a slip window or
doorbell page as its owner, a cluster register, an address that holds no register, or none of its addresses. -/
inductive Place
  | reg (a : Nat)
  | window (n o : Nat)
  | bell (n o : Nat)
  | clt (a : Nat)
  | nothing
  | outside
  deriving DecidableEq, Repr

/-- The block of Table 1.8 that holds BAR0 offset `a`, counted from DEV = 0 to SVC = 15; 16: unassigned. -/
def barBlock (a : Nat) : Nat :=
  if a < 0x100000 then 0 else if a < 0x200000 then 1 else if a < 0x400000 then 2 else if a < 0x800000 then 3
  else if a < 0xC00000 then 4 else if a < 0x1700000 then a / 0x100000 - 7 else 16

/-- Whether the device register image reaches `a` (R336). -/
def imageReaches (d : Dev) (a : Nat) : Bool :=
  decide (a = 0x120001C) || (decide (barBlock a < 16) && bit (rd d 0x1300018) (barBlock a))

/-- Whether an owner reaches slip `n`'s own pages: its function or internal page exists and the slip is not FREE
(Table 4.4, R337). -/
def pageLives (d : Dev) (n : Nat) : Bool := decide ((slipOf d n).state ≠ .free)

/-- The SR-IOV system page, 4 or 64 KiB: a virtual function's slip window or doorbell page, then zeros (R118). -/
def sysPage (d : Dev) : Nat := if d.slips.ctl.page64 then 65536 else 4096

/-- Where an access of `who` to `t` goes (R120, R336, R337). -/
def placeOf (d : Dev) (who : Requester) (t : Target) : Place :=
  match who, t with
  | .pf, .bar0 o => .reg o.toNat
  | .qm, .bar0 o => .reg o.toNat
  | .hart _, .bar0 o => if imageReaches d o.toNat then .reg o.toNat else .nothing
  | .pf, .doorbell n o => if n.val = 0 ∧ o.toNat < 4096 then .bell 0 o.toNat else .outside
  | .vf m, .window n o =>
    if m = n ∧ vfExists d n.val ∧ o.toNat < sysPage d then
      (if pageLives d n.val then .window n.val o.toNat else .nothing) else .outside
  | .vf m, .doorbell n o =>
    if m = n ∧ vfExists d n.val ∧ o.toNat < sysPage d then
      (if pageLives d n.val then .bell n.val o.toNat else .nothing) else .outside
  | .hart _, .window n o =>
    if internalSlip d n.val ∧ pageLives d n.val ∧ o.toNat < 4096 then .window n.val o.toNat else .nothing
  | .hart _, .doorbell n o =>
    if internalSlip d n.val ∧ pageLives d n.val ∧ o.toNat < 4096 then .bell n.val o.toNat else .nothing
  | .hart _, .clt o => .clt (0x4000000 + o.toNat)
  | _, _ => .outside

def isBell : Target → Bool
  | .doorbell _ _ => true
  | _ => false

/-- The target `k` bytes further. -/
def targetAdd (t : Target) (k : Nat) : Target :=
  match t with
  | .bar0 o => .bar0 (o + BitVec.ofNat 26 k)
  | .window n o => .window n (o + BitVec.ofNat 16 k)
  | .doorbell n o => .doorbell n (o + BitVec.ofNat 16 k)
  | .clt o => .clt (o + BitVec.ofNat 16 k)

/-- Whether the window of a target is strict: RST, BWK, WLD and KEY, and with ALL_STRICT, `all`, every BAR0 window
(R160). A doorbell page is not one of BAR0's windows. A hart's access to CLT crosses no bridge: it has its answer at
once. -/
def strictWindow (all : Bool) (t : Target) : Bool :=
  match t with
  | .bar0 o => all || decide (barBlock o.toNat ∈ [1, 11, 12, 13])
  | .window _ _ => all
  | .doorbell _ _ => false
  | .clt _ => true

/-- Whether an access to a target that is accepted now is strict. -/
def strictTarget (d : Dev) (t : Target) : Bool := strictWindow (bit (rd d 0xC00000) 31) t

/-- ALL_STRICT as it was at wall time `at_`, if it has changed at most once since (R160; DESIGN CHOICE, assumption 88). -/
def allStrictAt (d : Dev) (at_ : Nat) : Bool :=
  if d.brg.strictSince ≤ at_ then bit (rd d 0xC00000) 31 else d.brg.strictWas

/-- Peripheral space (Table 5.1). -/
def peripheral (a : Nat) : Bool := decide (0xD00000 ≤ a) && decide (a < 0x1500000)

/-- The block of R353 or R408 whose grant, clock and power an address depends on. -/
def ownBlock (a : Nat) : Option Nat :=
  if 0x1400000 ≤ a ∧ a < 0x1500000 then some 18
  else if a < 0xD00000 ∨ 0xF00000 ≤ a then none
  else (List.range 16).find? fun b => (blockRanges b).any fun r => decide (r.1 ≤ a) && decide (a < r.2)

/-- Cause 3 or 4 of Table 5.3 for an address, or 0: its block is granted to World S; or in Block reset, in hand-over,
or without clock or power (R164, R408). -/
def farCause (d : Dev) (a : Nat) : Nat :=
  match ownBlock a with
  | none => 0
  | some b =>
    if decide (b < 17) && sOwned d b then 3
    else if decide (b < 17) && (decide ((hoOf d b).state = .toS) || decide ((hoOf d b).state = .toN)) then 4
    else if rd d (0x100080 + 4 * b) &&& 3 ≠ 0 then 4
    else 0

/-! ## Failures (R161–R167) -/

/-- One access as its failure is reported. -/
def accessOf (d : Dev) (who : Requester) (t : Target) (op : BusOp) : BusAcc :=
  { seq := d.brg.nextSeq, who := who, target := t, op := op, ts := devTime d, wall := d.wall
    slip := chargedSlip d who t, inc := (slipOf d (chargedSlip d who t)).inc, strict := strictTarget d t
    width := match op with | .write parts _ => (parts.map (·.width)).sum | _ => 0 }

/-- Whole µs since an access was accepted. -/
def accDelay (d : Dev) (e : BusAcc) : Nat := (d.wall - e.wall) / 1000

/-- Whether a failed write is reported by DB_ERR of slip `n`: a doorbell write of the slip's owner, which no hart is of a
slip that is not internal or is FREE (R134, R159, R337). -/
def bellOwner (d : Dev) (who : Requester) (n : Nat) : Bool :=
  match who with
  | .hart _ => internalSlip d n && pageLives d n
  | _ => true

/-- A part of a write fails: an error response to a strict access, an entry in the bridge error log for a posted one; a
doorbell write of the slip's owner sets only DB_ERR (R134, R159–R162). -/
def partFails (d : Dev) (e : BusAcc) (p : BusPart) (cause delay : Nat) : Dev :=
  let logged : Dev := errLog d e.who (targetAdd e.target p.off) e.slip p.width p.value false cause delay e.ts e.inc
  match e.target with
  | .doorbell n _ => if bellOwner d e.who n.val then bellErr d n.val else logged
  | _ => if e.strict then answerError d e.who else logged

/-! ## Order among accepted accesses (R156–R159, R170, R172) -/

/-- A posted write: to a posted window or a doorbell page (R156). -/
def isPosted (e : BusAcc) : Bool :=
  match e.op with
  | .write _ _ => !e.strict
  | _ => false

/-- Whether an AtomicOp or AMO of another requester holds the 8-byte block of `a` (R170). -/
def blockBusy (d : Dev) (who : Requester) (a : Nat) : Bool :=
  d.brg.sems.any fun e => e.2.held && decide (e.2.kind ≠ .lr) && e.2.block == a / 8 * 8 &&
    match e.2.req with
    | some q => decide (q.who ≠ who)
    | none => false

/-- Whether any AtomicOp or AMO holds the block of `a`. -/
def atomicOn (d : Dev) (a : Nat) : Bool :=
  d.brg.sems.any fun e => e.2.held && decide (e.2.kind ≠ .lr) && e.2.block == a / 8 * 8

/-- Whether an AtomicOp or AMO of `who` is in progress. -/
def atomicOf (d : Dev) (who : Requester) : Bool :=
  d.brg.sems.any fun e => e.2.held && match e.2.req with | some q => decide (q.who = who) | none => false

/-- A free semaphore. -/
def freeSem (d : Dev) : Option Nat := (List.range 64).find? fun s => !(semOf d s).held

/-- The registers a write still has to reach, as word addresses. -/
def writeWords (e : BusAcc) : List Nat :=
  match e.op with
  | .write parts _ => parts.map fun p => targetAddr (targetAdd e.target p.off) / 4
  | _ => []

/-- The registers a write of others must leave to `e` first: all it still has to reach, but for the part that a silent far
side has been issued (R156, R157). -/
def claimedWords (e : BusAcc) : List Nat := if e.silent then (writeWords e).drop 1 else writeWords e

/-- Whether an accepted access must wait (Table 5.2, R157, R158, R170, R172): behind an earlier posted write of its
requester; a non-posted one also behind an earlier non-posted one; a write behind an earlier write to the same register,
and while another requester's AtomicOp or AMO holds its block; an AtomicOp or AMO while its block is held or no semaphore
is free. `before` are the accesses accepted earlier and unresolved. -/
def busWaits (d : Dev) (before : List BusAcc) (e : BusAcc) : Bool :=
  let mine := before.filter fun q => decide (q.who = e.who)
  let same := before.any fun q => (claimedWords q).any fun a => (writeWords e).contains a
  let order := mine.any isPosted || (!isPosted e && (!mine.isEmpty || atomicOf d e.who))
  order || same ||
    match e.op with
    | .write _ _ => peripheral (targetAddr e.target) && (match e.target with | .bar0 _ => true | _ => false)
        && blockBusy d e.who (targetAddr e.target)
    | .atomic q _ => (freeSem d).isNone || atomicOn d q.addr
    | .sc _ _ _ => peripheral (targetAddr e.target) && (match e.target with | .bar0 _ => true | _ => false)
        && blockBusy d e.who (targetAddr e.target)
    | .lr _ _ => false

/-- Keep an unresolved access in the order of acceptance. -/
def busInsert (e : BusAcc) : List BusAcc → List BusAcc
  | [] => [e]
  | q :: t => if e.seq < q.seq then e :: q :: t else q :: busInsert e t

/-- An access is held as unresolved. -/
def busHold (d : Dev) (e : BusAcc) : Dev := { d with brg := { d.brg with queue := busInsert e d.brg.queue } }

/-- A write breaks the reservations of other harts on its block (R171). -/
def breakReservations (d : Dev) (who : Requester) (a : Nat) : Dev :=
  let other (n : Nat) : Bool := match who with | .hart h => h.val != n | _ => true
  let hit (x : Sem) : Bool := x.held && decide (x.kind = .lr) && x.block == a / 8 * 8 && other x.hart
  let l := d.brg.sems.map fun e => if hit e.2 then (e.1, { e.2 with broken := true }) else e
  { d with brg := { d.brg with sems := l } }

/-- The words an access writes, an AtomicOp, AMO or SC included. -/
def touchedWords (e : BusAcc) : List Nat :=
  match e.op with
  | .write _ _ => writeWords e
  | .atomic q _ => if q.wide then [q.addr / 4, q.addr / 4 + 1] else [q.addr / 4]
  | .sc wide _ _ =>
    let a := targetAddr e.target / 4
    if wide then [a, a + 1] else [a]
  | .lr _ _ => []

/-- No prefetched copy of the 64-byte blocks of these words is served any more (R168). -/
def dropCopies (d : Dev) (words : List Nat) : Dev :=
  { d with brg := { d.brg with pf := d.brg.pf.filter fun c => !words.any fun a => a / 16 == c.block } }

/-- An access is accepted: its number is taken, and copies of what it writes are dropped. -/
def busAccepted (d : Dev) (e : BusAcc) : Dev :=
  dropCopies { d with brg := { d.brg with nextSeq := d.brg.nextSeq + 1 } } (touchedWords e)

/-! ## Rows of the table that are writes (R156–R159, R168, R170, R171, R354, R355) -/

/-- A row that is the manager's write of word `v` to the register at `a` of a posted window of peripheral space, with the
effect `k`. It waits as every write does, fails while the block is in Block reset, in hand-over, or without clock or
power, drops prefetched copies and breaks reservations. While World S owns the block the row is the Lock's own write,
over its private path (R31, R354; DESIGN CHOICE, assumption 109). -/
def rowWrite (d : Dev) (a : Nat) (v : Word) (k : Dev → Dev) : Dev :=
  if farCause d a = 3 then (if lockUp d && (ownBlock a).all fun b => decide (rd d (0x100080 + 4 * b) &&& 3 = 0) then k d else d)
  else if !fabricUp d then d
  else
    let p : BusPart := ⟨0, 4, v.setWidth 64, .responds⟩
    let e := accessOf d .pf (.bar0 (BitVec.ofNat 26 a)) (.write [p] false)
    let d1 := busAccepted d e
    if busWaits d d.brg.queue e then busHold d1 e
    else if farCause d a ≠ 0 then
      let x := takeError d1 (partFails d1 e p (farCause d a) 0) .pf
      if e.strict then strictOutcome x.2 .pf a 4 true else x.2
    else k (breakReservations (dropCopies d [a / 4]) .pf a)

/-- A row that is a doorbell write of slip `n` at offset `o`, with the effect `k`: it waits behind its owner's earlier
BAR0 writes (R159). An internal slip's owner is one of the harts, and the row, which names none, waits for none (DESIGN
CHOICE, assumption 109). -/
def bellRow (d : Dev) (n : Fin 4096) (o : Nat) (v : Word) (k : Dev → Dev) : Dev :=
  let who : Requester := if n.val = 0 then .pf else .vf n
  let e := accessOf d who (.doorbell n (BitVec.ofNat 16 o)) (.write [⟨0, 4, v.setWidth 64, .responds⟩] false)
  if !internalSlip d n && d.brg.queue.any fun q => isPosted q && decide (q.who = who) then busHold (busAccepted d e) e
  else k d

/-- The device where a write of word `v` to the register at `a` of a strict window waits: behind an earlier access of its
requester, a claimed write of the register, or an operation that holds its block (R156, R158, R170). -/
def strictAhead (d : Dev) (who : Requester) (a : Nat) (v : Word) : Option Dev :=
  let e := accessOf d who (.bar0 (BitVec.ofNat 26 a)) (.write [⟨0, 4, v.setWidth 64, .responds⟩] false)
  if busWaits d d.brg.queue e then some (busHold (busAccepted d e) e) else none

/-- A row that is such a write, with the effect `k`: it waits, or has its effect and its outcome is reported (R161). -/
def strictWait (d : Dev) (who : Requester) (a : Nat) (v : Word) (k : Dev → Dev) : Dev :=
  match strictAhead d who a v with
  | some d1 => d1
  | none => strictRow d (k d) who a

end Sys2Proof.Machine
end

