-- ==== Sys2Proof/Machine/Cluster.lean ====
section
/-! DEFINITION. The application cluster (12): cores and spares, caches and DRAM, interrupt files, the timer,
captures and the watchdog's kick. -/

namespace Sys2Proof.Machine

/-- CLT_MTIME: 100 MHz from the reference, since the last Fabric or wider reach, which holds it at 0 (R339). -/
def mtime (d : Dev) : Nat := if domUp d 6 then (d.wall - d.clt.epoch) / 10 else 0

/-- Core of hart `h`, 15 when stopped. -/
def coreOf (d : Dev) (h : Nat) : Nat := d.clt.map.getD h 15

/-- Bit c: core c is healthy and unmapped (CLT_SPARE.FREE). -/
def freeCores (d : Dev) : List Nat :=
  (List.range 10).filter fun c => !d.clt.retired.getLsbD c && !d.clt.map.contains c

/-- A core is retired: it uses a spare while one is left, and the Quaymaster copies the retirement to flash (R332,
R427; that the copy is made at once is a DESIGN CHOICE, assumption 97). -/
def retireCore (d : Dev) (c : Nat) : Dev :=
  if d.clt.retired.getLsbD c then d
  else
    let m := d.clt.retired ||| (1#10 <<< c)
    let d1 : Dev := emit { d with clt := { d.clt with retired := m } } (.flash 6 m.toNat)
    if reserveLeft d 2 = 0 then reserveLost d1 2 else reserveNote d1 2

/-- Map and start hart `h` on a core with a start cause (Table 12.6). -/
def startHart (d : Dev) (h core cause : Nat) : Dev :=
  emit { d with clt := { d.clt with map := d.clt.map.set h core, cause := d.clt.cause.set h cause } }
    (.hartStart h cause)

/-- The 64-byte lines of some addresses that are not among `l`. -/
def newLines (l addrs : List Nat) : List Nat := (addrs.map fun a => a / 64 * 64).filter fun a => !l.contains a

/-- Lines of memory become poisoned (R330). -/
def poisonLines (d : Dev) (addrs : List Nat) : Dev :=
  { d with clt := { d.clt with poison := d.clt.poison ++ newLines d.clt.poison addrs } }

/-- A line held dirty in a cache becomes poisoned; a Cluster reset loses it with the cache (Table 12.4). -/
def poisonCached (d : Dev) (addr : Nat) : Dev :=
  { d with clt := { d.clt with cachePoison := d.clt.cachePoison ++ newLines d.clt.cachePoison [addr] } }

/-- A core fails in service (R333, R334): its hart stops, `lost` of its dirty lines are poisoned, the core is
retired and the lowest free core that passes its self-test (`bad` those that fail it) takes the hart. A
hart that retires nothing for 100 ms fails so only while it is neither halted by debug nor parked. -/
def coreFailure (d : Dev) (h : Nat) (hang : Bool) (bad : BitVec 10) (lost : List Nat) : Dev :=
  let c := coreOf d h
  if c = 15 ∨ (hang ∧ (d.clt.halted.getLsbD h ∨ parked d)) ∨ !coreUp d 7 then d
  else
    let d1 := poisonLines (retireCore d c) lost
    let d2 := emit { d1 with clt := { d1.clt with map := d1.clt.map.set h 15
                                                  halted := d1.clt.halted &&& ~~~(1#8 <<< h) } } (.halt h true)
    let tried := (freeCores d2).takeWhile fun k => bad.getLsbD k
    let d3 := tried.foldl retireCore d2
    match freeCores d3 with
    | [] => d3
    | k :: _ => evDev (evClt (startHart d3 h k 3) 2) 3

/-- A cache error (R330): a corrected one sets RAS_CE; an uncorrectable one in a clean line is refetched, in
a dirty line it poisons the line. -/
def cacheUe (d : Dev) (correctable dirty : Bool) (line : Nat) : Dev :=
  if !coreUp d 7 then d
  else if correctable then evClt d 0 else if dirty then poisonCached d line else d

/-- How poisoned data is consumed (R330). -/
def poisonConsume (d : Dev) (who : PoisonUse) (addr : Nat) : Dev :=
  let runs := match who with | .dma _ _ _ => fabricUp d | _ => clusterRuns d
  if poisoned d addr && runs then
    let d1 := poisonTake d addr
    match who with
    | .load h => emit d1 (.hartIrq h.val 5)
    | .fetch h => emit d1 (.hartIrq h.val 1)
    | .dma n fab t => dmaFails d1 n fab t
  else d

/-- A row is repaired: its errors so far are forgotten. With no spare row left it is retired from the memory map, and its
pages are faulted (Table 15.5). -/
def rowRepair (d : Dev) (row : Nat) : Dev :=
  let d1 : Dev := { d with clt := { d.clt with dramCe := tset [] d.clt.dramCe row [] } }
  if reserveLeft d1 3 = 0 then
    reserveLost { d1 with clt := { d1.clt with rowsOut := row :: d1.clt.rowsOut.filter (· != row) } } 3
  else reserveBring (evClt d1 3) 3

/-- 24 h in ns. -/
def day : Nat := 86400000000000

/-- A DRAM row returns an error: a corrected one counts, and the fourth within 24 h has the row repaired; an
uncorrectable one has it repaired at once, and the lines whose data it lost stay poisoned (R331). -/
def dramError (d : Dev) (row : Nat) : DramError → Dev
  | .corrected =>
    let l := (tget [] d.clt.dramCe row).filter (fun t => decide (d.wall - t < day)) ++ [d.wall]
    if 4 ≤ l.length then rowRepair d row
    else { d with clt := { d.clt with dramCe := tset [] d.clt.dramCe row l } }
  | .uncorrectable lost => rowRepair (poisonLines d lost) row

/-- An interrupt of a hart is raised: at once to a hart that has a core in a running cluster; else it stays pending (R334,
R392). -/
def hartRaise (d : Dev) (h what : Nat) : Dev :=
  if clusterRuns d && decide (coreOf d h ≠ 15) then emit d (.hartIrq h what) else d

/-- An MSI makes an identity of an interrupt file pending (R338); a stopped hart's files keep it. The files take none while
the cluster is in reset. -/
def msiWrite (d : Dev) (h f : Nat) (v : Word) : Dev :=
  let i := v.toNat
  if i = 0 ∨ 255 < i ∨ !coreUp d 7 then d
  else
    let k := 16 * h + f
    let p := tget 0 d.clt.imsic k
    hartRaise { d with clt := { d.clt with imsic := tset 0 d.clt.imsic k (p ||| (1#256 <<< i)) } } h (256 + 256 * f + i)

/-- A hart's machine timer interrupt is pending while CLT_MTIME ≥ CLT_MTIMECMP[h] (R339). -/
def timerPending (d : Dev) (h : Nat) : Bool := decide (rd64 d (0x4000000 + 8 * h) ≤ mtime d)

/-- The interrupts of a hart that stay pending are taken when UNBERTHING ends: of each interrupt file its lowest
identity, and the machine timer's (R392). -/
def raisePending (d : Dev) (h : Nat) : Dev :=
  let d1 := (List.range 9).foldl (fun d f =>
    match (List.range 256).find? fun i => (tget 0 d.clt.imsic (16 * h + f)).getLsbD i with
    | some i => hartRaise d h (256 + 256 * f + i)
    | none => d) d
  if d1.clt.timerPend.getLsbD h then hartRaise d1 h 64 else d1

/-- CLT_MTIME reaches a hart's compare value. -/
def mtimerInterrupt (d : Dev) (h : Nat) : Dev :=
  if !coreUp d 7 then d
  else if timerPending d h then
    if d.clt.timerPend.getLsbD h then d
    else hartRaise { d with clt := { d.clt with timerPend := d.clt.timerPend ||| (1#8 <<< h) } } h 64
  else { d with clt := { d.clt with timerPend := d.clt.timerPend &&& ~~~(1#8 <<< h) } }

/-- CLT_CAP_CMD.CAPTURE (R340). -/
def cltCapture (d : Dev) : Dev :=
  resultEnd (wr64 (wr64 (resultBegin d 0x400010C) 0x4000110 (mtime d)) 0x4000118 (devTime d)) 0x400010C 0

/-- CLT_WDOG_CFG.PERIOD in ms, and the watchdog's state after a write of the register (R341). -/
def wdogPeriod (d : Dev) : Nat := atLeast1 (fld (rd d 0x4000200) 15 0)

def wdogConfig (d : Dev) (v : Word) : Dev :=
  let d1 := wr d 0x4000200 (v &&& 0x8000FFFF)
  if bit v 31 then
    if d1.clt.wdog = 0 then { d1 with clt := { d1.clt with wdog := 1, wdogAt := d.wall } } else d1
  else { d1 with clt := { d1.clt with wdog := 0 } }

/-- CLT_WDOG_KICK, by a hart that runs (R341, R392). -/
def wdogKick (d : Dev) (key : BitVec 16) : Dev :=
  if key = 0x5A5A ∧ d.clt.wdog ≠ 0 ∧ someHart d then { d with clt := { d.clt with wdog := 1, wdogAt := d.wall } } else d

/-! ## Meanings -/

def execCoreFailure (h : Fin 8) (hang : Bool) (bad : BitVec 10) (lost : List Nat) (s : State) : Answer :=
  onDev (coreFailure · h hang bad lost) s
def execCacheUe (correctable dirty : Bool) (line : BitVec 56) (s : State) : Answer :=
  onDev (cacheUe · correctable dirty line.toNat) s
def execPoisonConsume (who : PoisonUse) (addr : BitVec 56) (s : State) : Answer :=
  onDev (poisonConsume · who addr.toNat) s
def execDramRowRepair (row : BitVec 24) (e : DramError) (s : State) : Answer := onDev (dramError · row.toNat e) s
def execMsiWrite (h : Fin 8) (f : Fin 9) (v : Word) (s : State) : Answer := onDev (msiWrite · h f v) s
def execMtimerInterrupt (h : Fin 8) (s : State) : Answer := onDev (mtimerInterrupt · h) s
def execCapture (s : State) : Answer := onDev cltCapture s
def execCltWdogKick (key : BitVec 16) (s : State) : Answer := onDev (wdogKick · key) s

end Sys2Proof.Machine
end

