-- ==== Sys2Proof/Machine/Keys.lean ====
section
/-! DEFINITION. Keys and life cycle (13): the Lock's services over mailbox requests, the checks of Table
13.5, key updates, tokens, transitions, debug certificates and the start of the key store. -/

namespace Sys2Proof.Machine

/-! ## Slots -/

def keyOfSlot (d : Dev) (k : Nat) : KeySlot := tget {} d.keys.slots k
def setKey (d : Dev) (k : Nat) (x : KeySlot) : Dev :=
  { d with keys := { d.keys with slots := tset {} d.keys.slots k x } }

/-- KEY_SLOT word 0 (Table 13.16). -/
def slotWord (k : Nat) (x : KeySlot) : Word :=
  if x.alg = 0 then 0
  else flag true 31 ||| flag (decide (k < 16)) 30 ||| at_ x.usage 28 ||| at_ x.alg 24 ||| at_ x.dom 21
    ||| flag x.exportable 20 ||| flag x.fault 19 ||| at_ x.users.toNat 15 ||| at_ x.slip 0

/-- Bytes of a key of each algorithm as a slot holds it (Table 13.16): a public key is x and the parity of y. -/
def keyLen (alg : Nat) : Nat := [0, 32, 32, 48, 32, 32, 48, 33, 49, 32, 48].getD alg 0

def isAes (alg : Nat) : Bool := alg == 1
def isHmac (alg : Nat) : Bool := alg == 2 || alg == 3 || alg == 4
def isPriv (alg : Nat) : Bool := alg == 5 || alg == 6
def isPub (alg : Nat) : Bool := alg == 7 || alg == 8

/-- Curve code of an ECC algorithm: 0 P-256, 1 P-384; and its size in bytes. -/
def curveOf (alg : Nat) : Nat := if alg = 6 ∨ alg = 8 then 1 else 0
def curveSize (alg : Nat) : Nat := curveBytes (curveOf alg)

/-- A public key x ‖ y as a slot holds it: x and the parity of y (Table 13.16). -/
def pubHold (alg : Nat) (xy : List Byte) : List Byte :=
  xy.take (curveSize alg) ++ [if (xy.getLastD 0).getLsbD 0 then 1 else 0]

/-- A held public key as the services give it: x ‖ y, each of the curve's size (R370). A held x of no point of the curve
reads with the y the root's formula gives (DESIGN CHOICE, assumption 40). -/
def pubFull (alg : Nat) (held : List Byte) : List Byte :=
  let n := curveSize alg
  held.take n ++ beBytes (curveY (curveOf alg) (beNat (held.take n)) (held.getD n 0 == 1)) n

/-- A key as the services take and give it, and as a slot holds it. -/
def keyHold (alg : Nat) (k : List Byte) : List Byte := if alg == 7 || alg == 8 then pubHold alg k else k
def keyFull (x : KeySlot) : List Byte := if x.alg == 7 || x.alg == 8 then pubFull x.alg x.key else x.key

/-- A key made from random bytes: for a private key, one of its curve. -/
def newKey (alg : Nat) (b : List Byte) : List Byte := if isPriv alg then eccPrivate (curveOf alg) b else b

/-- Bytes of a key of an algorithm as the services take it. -/
def wireLen (alg : Nat) : Nat := if alg == 7 || alg == 8 then 2 * curveSize alg else keyLen alg

/-- The hash code of an HMAC algorithm. -/
def hashOf (alg : Nat) : Nat := match alg with | 3 => 1 | 4 => 2 | _ => 0

/-- Combinations of usage and algorithm that Table 13.2 allows. -/
def comboOk (usage alg : Nat) : Bool :=
  match usage with
  | 0 => isAes alg || isHmac alg || isPriv alg
  | 1 => isAes alg || isHmac alg || isPub alg
  | 2 => isAes alg
  | _ => isAes alg || isHmac alg || isPriv alg || alg == 9 || alg == 10

/-! ## Requesters (R366, R370) -/

/-- Who a request comes from. -/
inductive KeyWho
  | slip (n : Nat)
  | qm
  | cluster
  deriving DecidableEq, Repr

/-- The bit of a requester in USERS and in the Requesters column: 0 slip 0, 1 service slip, 2 Quaymaster,
3 cluster. -/
def KeyWho.code : KeyWho → Nat
  | .slip n => if n = 0 then 0 else 1
  | .qm => 2
  | .cluster => 3

def keyWhoOf (d : Dev) (s : Nat) : KeyWho :=
  if s < 8 then .slip (mbxOf d s).slip else if s < 12 then .qm else .cluster

/-- Whether a requester is in a slot's USERS (R370). -/
def inUsers (x : KeySlot) (who : KeyWho) : Bool :=
  x.users.getLsbD who.code && (match who with | .slip n => n == 0 || x.slip == 0 || x.slip == n | _ => true)

/-- Whether a requester may create, update and destroy in slot `k` (Table 13.1). -/
def mayCreate (k : Nat) (who : KeyWho) : Bool :=
  match who with
  | .slip n => n == 0
  | .qm => decide (128 ≤ k ∧ k < 192)
  | .cluster => decide (192 ≤ k)

/-- Requesters a service admits (Table 13.6), as a mask of their codes; 0 for an unknown service. -/
def serviceMask (code : Nat) : Nat :=
  match code with
  | 0x02 => 13
  | 0x03 => 13
  | 0x04 => 1
  | 0x05 => 13
  | 0x06 => 15
  | 0x10 => 15
  | 0x11 => 15
  | 0x12 => 15
  | 0x13 => 15
  | 0x14 => 15
  | 0x15 => 15
  | 0x16 => 15
  | 0x17 => 15
  | 0x18 => 15
  | 0x19 => 15
  | 0x20 => 5
  | 0x21 => 4
  | 0x22 => 4
  | 0x23 => 4
  | 0x30 => 1
  | 0x31 => 1
  | 0x32 => 1
  | 0x33 => 15
  | 0x34 => 15
  | _ => 0

/-! ## Requests (R366–R368) -/

/-- A request as Table 13.4 lays it out; `len` is the payload's length by the header or D4. -/
structure KeyReq where
  slotIdx : Nat
  who : KeyWho
  service : Nat
  payload : List Byte
  deriving DecidableEq, Repr

def KeyReq.u8 (q : KeyReq) (i : Nat) : Nat := (q.payload.getD i 0).toNat
def KeyReq.le (q : KeyReq) (i n : Nat) : Nat := leNat ((q.payload.drop i).take n)
def KeyReq.slot (q : KeyReq) : Nat := q.u8 0
def KeyReq.slot2 (q : KeyReq) : Nat := q.u8 1
def KeyReq.arg (q : KeyReq) : Nat := q.u8 3
def KeyReq.byaddr (q : KeyReq) : Bool := q.u8 2 % 2 == 1
def KeyReq.inLen (q : KeyReq) : Nat := q.le 4 4

/-- The request posted in slot `s`. -/
def requestOf (d : Dev) (s : Nat) : KeyReq :=
  let who := keyWhoOf d s
  if s < 8 then
    let b := (mbxOf d s).req
    { slotIdx := s, who := who, service := fld (leWord b 0) 31 24, payload := b.drop 4 }
  else
    let h := rd d (aMbxReq s 0)
    let words := (List.range 15).flatMap fun i => leBytes (rd d (aMbxReq s (i + 1))).toNat 4
    { slotIdx := s, who := who, service := fld h 31 24, payload := words.take (fld h 23 16) }

/-- LENGTH of a mailbox request exceeds 60. -/
def badLength (d : Dev) (s : Nat) : Bool := decide (8 ≤ s) && decide (60 < fld (rd d (aMbxReq s 0)) 23 16)

/-- The oldest POSTED request; of those posted in one clock, the lowest slot's (R366). -/
def oldestPosted (d : Dev) : Option Nat :=
  (List.range 16).foldl (fun a s =>
    let x := mbxOf d s
    if x.state ≠ .posted then a
    else match a with
      | none => some s
      | some t => if x.at_ < (mbxOf d t).at_ then some s else a) none

/-- The Lock accesses memory as class 3, in pieces of at most 64 bytes (R350, R367): the first byte of a
piece that is refused, if any. -/
def lockRefused (d : Dev) (m off len : Nat) (write : Bool) : Option Nat :=
  ((List.range (ceilDiv len 64)).map (64 * ·)).findSome? fun o =>
    if regionAllows d 3 m (off + o) (min 64 (len - o)) write then none else some (off + o)

/-- Whether the Lock may reach `len` bytes at address `a` of the requester's address space (R367), and the
key of the first; no byte needs no access. -/
def lockReach (d : Dev) (a len : Nat) (write : Bool) : Option Nat × Dev :=
  if len = 0 then (some 0, d) else
  match clusterMem a with
  | none => (none, d)
  | some (m, off) =>
    if memSize m < off + len then (none, d)
    else match lockRefused d m off len write with
      | some o => (none, accessRefused d 3 0 m o write)
      | none => (some (memKey m off), d)

/-! ## Checks (R369, Table 13.5) -/

/-- The first status whose condition holds, 0 when none does. -/
def firstStatus : List (Bool × Nat) → Nat
  | [] => 0
  | (b, st) :: t => if b then st else firstStatus t

/-- Whether the header fields of a payload are malformed. -/
def payloadBad (q : KeyReq) : Bool :=
  decide (q.payload.length < 8) || decide (1 < q.u8 2)
    || (if q.byaddr then decide (q.slotIdx < 8) || decide (q.payload.length ≠ 28)
        else if q.service = 0x19 then decide (q.payload.length ≠ 8)
        else decide (q.payload.length ≠ 8 + q.inLen))

/-- The life-cycle state forbids the service (Table 13.8). -/
def lcForbids (d : Dev) (service : Nat) : Bool :=
  (decide (d.keys.lc = 4) && !(service == 0x16 || service == 0x19 || service == 0x30))
    || (decide (d.keys.lc = 0) && service == 0x33)

/-- An ATTR word (Table 13.16 word 0) as a slot's attributes. -/
def attrSlot (w : Word) : KeySlot :=
  { alg := fld w 27 24, usage := fld w 29 28, exportable := bit w 20, users := BitVec.ofNat 4 (fld w 18 15)
    slip := fld w 11 0 }

/-- An ATTR that a requester may not name: reserved or zero fields, WORLD, an unknown or excluded
combination, or USERS beyond itself (R364, R370, R371). -/
def attrBad (w : Word) (who : KeyWho) : Bool :=
  let x := attrSlot w
  decide (w &&& 0xC0E87000 ≠ 0) || decide (x.alg = 0 ∨ 10 < x.alg) || !comboOk x.usage x.alg
    || (match who with
        | .slip n => if n = 0 then false else decide (x.users &&& ~~~2 ≠ 0) || decide (x.slip ≠ n)
        | .qm => decide (x.users &&& ~~~4 ≠ 0)
        | .cluster => decide (x.users &&& ~~~8 ≠ 0))

/-- The creation domain of a state (Table 13.8). -/
def creationDomain (lc : Nat) : Nat := match lc with | 0 => 0 | 1 => 2 | 2 => 3 | _ => 4

/-- Whether a state keeps a domain (Table 13.8). -/
def keepsDomain (lc dom : Nat) : Bool :=
  match lc with
  | 0 => dom == 0
  | 1 => dom == 1 || dom == 2
  | 2 => dom == 1 || dom == 3
  | 3 => dom == 1 || dom == 4
  | _ => false

/-- WORLD for a slot of World S. -/
def worldS (k : Nat) : Bool := decide (k < 16)

/-- The checks on slot `k` as the destination of a creation or update, without and with EXPECT_GEN `g`. -/
def createSlotChecks (d : Dev) (k : Nat) (who : KeyWho) : List (Bool × Nat) :=
  [(worldS k, 5), (!mayCreate k who, 6), ((keyOfSlot d k).fault, 15)]

def createChecks (d : Dev) (k : Nat) (who : KeyWho) (g : Nat) : List (Bool × Nat) :=
  createSlotChecks d k who ++ [(decide ((keyOfSlot d k).gen.toNat ≠ g), 12)]

/-- The checks on slot `k` as a key used under a usage and kinds of algorithm. -/
def useChecks (d : Dev) (k : Nat) (who : KeyWho) (usage : Nat) (alg : Nat → Bool) : List (Bool × Nat) :=
  let x := keyOfSlot d k
  [(worldS k, 5), (!inUsers x who, 6), (decide (x.alg = 0), 3), (x.fault, 15),
   (decide (x.usage ≠ usage) || !alg x.alg, 4)]

/-- Two lists of checks in the order of Table 13.5: a stable merge by the rank of their status. -/
def statusRank (st : Nat) : Nat :=
  match st with
  | 1 => 0
  | 2 => 1
  | 8 => 2
  | 5 => 3
  | 6 => 4
  | 3 => 5
  | 15 => 6
  | 4 => 7
  | 12 => 8
  | 14 => 9
  | 9 => 10
  | 10 => 10
  | 13 => 10
  | 7 => 11
  | _ => 12

def lowestStatus (l : List (Bool × Nat)) : Nat :=
  l.foldl (fun a e => if e.1 && (a == 0 || decide (statusRank e.2 < statusRank a)) then e.2 else a) 0

/-! ## Updates (R371, R373–R375) -/

/-- What a service answers: its status, its output, the device, and whether a power failure cut it short. -/
structure KeyAnswer where
  status : Nat
  out : List Byte
  dev : Dev
  cut : Bool := false

def refuse (d : Dev) (st : Nat) : KeyAnswer := { status := st, out := [], dev := d }

/-- GEN: the response carries the present GEN. -/
def refuseAt (d : Dev) (k st : Nat) : KeyAnswer :=
  { status := st, out := if st = 12 then leBytes (keyOfSlot d k).gen.toNat 4 else [], dev := d }

/-- The association `an` of a MACsec port loses its key; a port that transmits under it stops protected transmission
(R373). -/
def removeSa (d : Dev) (p an : Nat) : Dev :=
  let m := msOf d p
  setMs d p { m with
    txSa := m.txSa.filter (·.an != an), sas := m.sas.filter (·.an != an)
    rx := m.rx.map fun c => { c with sas := c.sas.filter (·.an != an) } }

/-- Engine keys installed from slot `k` are removed: streams and MACsec associations lose their key (R373). -/
def removeEngineKeys (d : Dev) (k : Nat) : Dev :=
  let d1 := d.keys.tunFrom.foldl (fun d e =>
    if e.2 = k + 1 then
      let x := streamOf d (e.1 / 2)
      setStream d (e.1 / 2) (if e.1 % 2 = 1 then { x with valid1 := false, key1 := [] }
        else { x with valid0 := false, key0 := [] })
    else d) d
  let d2 := d1.keys.msFrom.foldl (fun d e =>
    if e.2 = k + 1 then removeSa d (e.1 / 4) (e.1 % 4) else d) d1
  { d2 with keys := { d2.keys with
      tunFrom := d2.keys.tunFrom.filter fun e => e.2 != k + 1
      msFrom := d2.keys.msFrom.filter fun e => e.2 != k + 1 } }

/-! ### Flash records and the commit journal (R374) -/

def recOf (d : Dev) (k : Nat) (copy : Bool) : Option KeyRec := tget none d.keys.recs (2 * k + copy.toNat)

def setRec (d : Dev) (k : Nat) (copy : Bool) (r : Option KeyRec) : Dev :=
  { d with keys := { d.keys with recs := tset none d.keys.recs (2 * k + copy.toNat) r } }

/-- The commit record that decides a slot: the highest GEN whose tag is good. -/
def commitOf (l : List KeyCommit) (k : Nat) : Option KeyCommit :=
  l.foldl (fun a c =>
    if c.slot ≠ k ∨ ¬ c.good then a
    else match a with
      | none => some c
      | some b => if b.gen.toNat < c.gen.toNat then some c else a) none

def addCommit (d : Dev) (c : KeyCommit) : Dev := { d with keys := { d.keys with journal := d.keys.journal ++ [c] } }

/-- A fresh page of the journal: the latest commit record of every slot. -/
def journalCompact (l : List KeyCommit) : List KeyCommit := (List.range 256).filterMap (commitOf l)

/-- A slot leaves the flash: both records and its commit records. -/
def forgetKey (d : Dev) (k : Nat) : Dev :=
  let d1 := setRec (setRec d k false none) k true none
  { d1 with keys := { d1.keys with journal := d1.keys.journal.filter (·.slot != k) } }

/-- The key the flash gives a slot at a start: of the copy its commit record names, at the GEN committed. One whose record
fails its tag is FAULT. -/
def loadedKey (d : Dev) (k : Nat) : KeySlot :=
  match commitOf d.keys.journal k with
  | none => {}
  | some c =>
    match recOf d k c.copy with
    | none => {}
    | some r => { r.key with gen := c.gen, copy := c.copy, fault := !r.good }

/-- A slot is erased: key, both flash records, GEN 0. -/
def eraseKey (d : Dev) (k : Nat) : Dev :=
  let x := keyOfSlot d k
  if x.alg = 0 ∧ ¬ x.fault then d
  else
    let d1 := if x.usage = 3 then removeEngineKeys d k else d
    let d2 := evKey (forgetKey (setKey d1 k {}) k) 0 k
    { d2 with keys := { d2.keys with torn := d2.keys.torn.filter (· != k) } }

/-- The new key of slot `k`: GEN + 1, in the other copy, of the present creation domain (R371, U1). -/
def nextKey (d : Dev) (k : Nat) (x : KeySlot) : KeySlot :=
  let old := keyOfSlot d k
  { x with gen := old.gen + 1, copy := !old.copy, dom := creationDomain d.keys.lc }

/-- An uncommitted copy of a slot stays in flash (Table 13.7): bad itself, or whole beside a torn commit record. -/
def tearKey (d : Dev) (k : Nat) (x : KeySlot) (bad : Bool) : Dev :=
  let y := nextKey d k x
  let d1 := setRec d k y.copy (some { key := y, good := !bad })
  let d2 := if bad then d1 else addCommit d1 { slot := k, gen := y.gen, copy := y.copy, good := false }
  { d2 with keys := { d2.keys with torn := if d2.keys.torn.contains k then d2.keys.torn else d2.keys.torn ++ [k] } }

/-- A key is recorded and committed (U3–U6). -/
def storeKey (d : Dev) (k : Nat) (y : KeySlot) : Dev :=
  let d1 := addCommit (setRec (setKey d k y) k y.copy (some { key := y }))
    { slot := k, gen := y.gen, copy := y.copy }
  { d1 with keys := { d1.keys with torn := d1.keys.torn.filter (· != k) } }

/-- The key takes GEN + 1 in the other copy, and is committed; step U7 erases the copy it replaces. -/
def commitKey (d : Dev) (k : Nat) (x : KeySlot) (u7 : Bool := true) : Dev :=
  let old := keyOfSlot d k
  let d2 := storeKey d k (nextKey d k x)
  let d3 := if u7 then setRec d2 k old.copy none else d2
  let d4 := if old.alg = 0 then d3 else keyInc d3 5
  evKey (emit d4 (.flash 3 k)) 0 k

/-- Steps U1–U7 (Table 13.7): the key takes GEN + 1 in the other copy; a flash that fails twice answers
STORE and leaves the bad copy uncommitted; a power failure leaves the old key before the commit record is whole, and the
new one after. -/
def putKey (d : Dev) (k : Nat) (x : KeySlot) (out : List Byte) (flash : FlashOut) : KeyAnswer :=
  let g := (keyOfSlot d k).gen + 1
  match flash with
  | .ok => { status := 0, out := leBytes g.toNat 4 ++ out, dev := commitKey d k x }
  | .bad => { status := 11, out := [], dev := tearKey d k x true }
  | .cut .early => { status := 0, out := [], dev := d, cut := true }
  | .cut .torn => { status := 0, out := [], dev := tearKey d k x false, cut := true }
  | .cut .whole => { status := 0, out := [], dev := commitKey d k x false, cut := true }

/-! ## Services (R370–R372, R384) -/

/-- GENERATE: ATTR, EXPECT_GEN. -/
def svcGenerate (d : Dev) (q : KeyReq) (i : List Byte) (flash : FlashOut) : KeyAnswer :=
  let a := leWord i 0
  let x := attrSlot a
  match lowestStatus ((decide (i.length ≠ 8) || attrBad a q.who || isPub x.alg, 2) ::
      createChecks d q.slot q.who (leWord i 1).toNat) with
  | 0 =>
    let f := drawBytes d (keyLen x.alg)
    let k := newKey x.alg f.1
    putKey f.2 q.slot { x with key := k } (if isPriv x.alg then eccPublic (curveOf x.alg) k else []) flash
  | st => refuseAt d q.slot st

/-- IMPORT: ATTR, EXPECT_GEN, the key wrapped under SLOT2. A wrapped key whose check fails is VERIFY_FAIL;
one of the wrong length is BAD_ARG. -/
def svcImport (d : Dev) (q : KeyReq) (i : List Byte) (flash : FlashOut) : KeyAnswer :=
  let a := leWord i 0
  let x := attrSlot a
  match lowestStatus ((decide (i.length < 24) || attrBad a q.who, 2) ::
      createChecks d q.slot q.who (leWord i 1).toNat ++ useChecks d q.slot2 q.who 2 isAes) with
  | 0 =>
    match keyUnwrap (keyOfSlot d q.slot2).key (i.drop 8) with
    | none => refuse d 7
    | some k => if k.length = wireLen x.alg then putKey d q.slot { x with key := keyHold x.alg k } [] flash else refuse d 2
  | st => refuseAt d q.slot st

/-- EXPORT: SLOT's ATTR, then its key wrapped under SLOT2. -/
def svcExport (d : Dev) (q : KeyReq) (i : List Byte) : KeyAnswer :=
  let x := keyOfSlot d q.slot
  match lowestStatus ([(decide (i ≠ []), 2), (worldS q.slot, 5), (decide (x.alg = 0), 3), (x.fault, 15),
      (!x.exportable, 4)] ++ useChecks d q.slot2 q.who 2 isAes) with
  | 0 => { status := 0, dev := d
           out := leBytes (slotWord q.slot x &&& 0x7F17FFFF).toNat 4
             ++ keyWrap (keyOfSlot d q.slot2).key (keyFull x) }
  | st => refuse d st

/-- DESTROY: EXPECT_GEN. -/
def svcDestroy (d : Dev) (q : KeyReq) (i : List Byte) (flash : FlashOut) : KeyAnswer :=
  let x := keyOfSlot d q.slot
  match lowestStatus [(decide (i.length ≠ 4), 2), (worldS q.slot, 5), (!mayCreate q.slot q.who, 6),
      (decide (x.alg = 0), 3), (decide (x.gen.toNat ≠ leNat i), 12)] with
  | 0 =>
    match flash with
    | .ok => { status := 0, out := [], dev := emit (eraseKey d q.slot) (.flash 4 q.slot) }
    | .bad => refuse d 11
    | .cut .whole => { status := 0, out := [], dev := emit (eraseKey d q.slot) (.flash 4 q.slot), cut := true }
    | .cut _ => { status := 0, out := [], dev := d, cut := true }
  | st => refuseAt d q.slot st

/-- PUBLIC. -/
def svcPublic (d : Dev) (q : KeyReq) (i : List Byte) : KeyAnswer :=
  let x := keyOfSlot d q.slot
  match lowestStatus [(decide (i ≠ []), 2), (worldS q.slot, 5), (decide (x.alg = 0), 3), (x.fault, 15),
      (!(isPriv x.alg || isPub x.alg), 4)] with
  | 0 => { status := 0, dev := d, out := if isPub x.alg then keyFull x else eccPublic (curveOf x.alg) x.key }
  | st => refuse d st

/-- The AAD length of a SEAL or OPEN input. -/
def aadLen (i : List Byte) : Nat := leNat ((i.drop 12).take 2)

def svcSeal (d : Dev) (q : KeyReq) (i : List Byte) : KeyAnswer :=
  match lowestStatus ((decide (i.length < 14 + aadLen i), 2) :: useChecks d q.slot q.who 0 isAes) with
  | 0 =>
    let b := i.drop 14
    { status := 0, dev := d
      out := gcmSeal (keyOfSlot d q.slot).key (i.take 12) (b.take (aadLen i)) (b.drop (aadLen i)) }
  | st => refuse d st

def svcOpen (d : Dev) (q : KeyReq) (i : List Byte) : KeyAnswer :=
  match lowestStatus ((decide (i.length < 30 + aadLen i), 2) :: useChecks d q.slot q.who 1 isAes) with
  | 0 =>
    let b := i.drop 14
    let c := b.drop (aadLen i)
    match gcmOpen (keyOfSlot d q.slot).key (i.take 12) (b.take (aadLen i))
        (c.take (c.length - 16)) (c.drop (c.length - 16)) with
    | some p => { status := 0, out := p, dev := d }
    | none => refuse d 7
  | st => refuse d st

def svcMac (d : Dev) (q : KeyReq) (i : List Byte) : KeyAnswer :=
  let x := keyOfSlot d q.slot
  match lowestStatus (useChecks d q.slot q.who 0 isHmac) with
  | 0 => { status := 0, out := hmac (hashOf x.alg) x.key i, dev := d }
  | st => refuse d st

def svcMacCheck (d : Dev) (q : KeyReq) (i : List Byte) : KeyAnswer :=
  let x := keyOfSlot d q.slot
  let n := hashLen (hashOf x.alg)
  match lowestStatus ((decide (isHmac x.alg ∧ i.length < n), 2) :: useChecks d q.slot q.who 1 isHmac) with
  | 0 => refuse d (if hmac (hashOf x.alg) x.key (i.drop n) = i.take n then 0 else 7)
  | st => refuse d st

def svcSign (d : Dev) (q : KeyReq) (i : List Byte) : KeyAnswer :=
  let x := keyOfSlot d q.slot
  match lowestStatus ((isPriv x.alg && decide (i.length ≠ curveSize x.alg), 2) ::
      useChecks d q.slot q.who 0 isPriv) with
  | 0 => let f := drawNat d
         { status := 0, out := ecdsaSign (curveOf x.alg) x.key i f.1, dev := f.2 }
  | st => refuse d st

def svcVerify (d : Dev) (q : KeyReq) (i : List Byte) : KeyAnswer :=
  let x := keyOfSlot d q.slot
  let n := curveSize x.alg
  match lowestStatus ((isPub x.alg && decide (i.length ≠ 3 * n), 2) :: useChecks d q.slot q.who 1 isPub) with
  | 0 => refuse d (if ecdsaVerify (curveOf x.alg) (keyFull x) (i.take n) (i.drop n) then 0 else 7)
  | st => refuse d st

def svcHash (d : Dev) (q : KeyReq) (i : List Byte) : KeyAnswer :=
  if 2 < q.arg then refuse d 2 else { status := 0, out := digest q.arg i, dev := d }

/-- DERIVE: ATTR, EXPECT_GEN of SLOT2, salt length, salt, info; by HKDF of hash ARG. -/
def svcDerive (d : Dev) (q : KeyReq) (i : List Byte) (flash : FlashOut) : KeyAnswer :=
  let a := leWord i 0
  let x := attrSlot a
  let n := (i.getD 8 0).toNat
  match lowestStatus ((decide (i.length < 9 + n) || decide (1 < q.arg) || attrBad a q.who || isPub x.alg, 2) ::
      createChecks d q.slot2 q.who (leWord i 1).toNat
      ++ useChecks d q.slot q.who 3 (fun g => isAes g || isHmac g || g == 9 || g == 10)) with
  | 0 =>
    let b := i.drop 9
    putKey d q.slot2 { x with key := hkdf q.arg (keyOfSlot d q.slot).key (b.take n) (b.drop n) (keyLen x.alg) }
      [] flash
  | st => refuseAt d q.slot2 st

/-- AGREE: ATTR, EXPECT_GEN of SLOT2, the peer's public key; SLOT2 takes the secret of the curve's size. -/
def svcAgree (d : Dev) (q : KeyReq) (i : List Byte) (flash : FlashOut) : KeyAnswer :=
  let a := leWord i 0
  let x := attrSlot a
  let g := (keyOfSlot d q.slot).alg
  match lowestStatus ((attrBad a q.who || decide (x.alg ≠ 9 ∧ x.alg ≠ 10)
        || (isPriv g && (decide (i.length ≠ 8 + 2 * curveSize g) || decide (x.alg ≠ 9 + curveOf g))), 2) ::
      createChecks d q.slot2 q.who (leWord i 1).toNat ++ useChecks d q.slot q.who 3 isPriv) with
  | 0 =>
    match ecdh (curveOf g) (keyOfSlot d q.slot).key (i.drop 8) with
    | some z => putKey d q.slot2 { x with key := z } [] flash
    | none => refuse d 7
  | st => refuseAt d q.slot2 st

def svcRandom (d : Dev) (q : KeyReq) : KeyAnswer :=
  if 4084 < q.inLen then refuse d 2
  else let f := drawBytes d q.inLen
       { status := 0, out := f.1, dev := f.2 }

/-- TUNNEL_KEY (R372): HKDF-SHA-384 of SLOT's key, installed under an idle key number. -/
def svcTunnelKey (d : Dev) (q : KeyReq) (i : List Byte) : KeyAnswer :=
  let s := q.arg
  let num := (i.getD 0 0).toNat
  let busy := bit (tunCfg d s) 31 && (streamOf d s).txNum == (num == 1)
  match lowestStatus ((decide (i.length ≠ 1) || decide (1 < num) || busy, 2) :: useChecks d q.slot q.who 3 isAes) with
  | 0 =>
    let sid := rd64 d (tunBase s + 8)
    let info : List Byte := [0x74, 0x75, 0x6E, 0x6E, 0x65, 0x6C] ++ beBytes sid 8 ++ beBytes num 1
    let k := hkdf 1 (keyOfSlot d q.slot).key [] info 32
    let d1 := tunInstall d s (num == 1) k
    { status := 0, out := []
      dev := { d1 with keys := { d1.keys with tunFrom := tset 0 d1.keys.tunFrom (2 * s + num) (q.slot + 1) } } }
  | st => refuse d st

/-- The key identifier of MKA: the first 16 bytes of the CKN, padded with zeros. -/
def mkaId (ckn : List Byte) : List Byte := ckn.take 16 ++ List.replicate (16 - ckn.length) 0

/-- ICK and KEK of a CAK (IEEE 802.1X-2020): the labels are "IEEE8021 ICK" and "IEEE8021 KEK". -/
def mkaIck (cak ckn : List Byte) : List Byte :=
  mkaKdf cak [0x49, 0x45, 0x45, 0x45, 0x38, 0x30, 0x32, 0x31, 0x20, 0x49, 0x43, 0x4B] (mkaId ckn)
def mkaKek (cak ckn : List Byte) : List Byte :=
  mkaKdf cak [0x49, 0x45, 0x45, 0x45, 0x38, 0x30, 0x32, 0x31, 0x20, 0x4B, 0x45, 0x4B] (mkaId ckn)

/-- CKN length, CKN and the rest of an MKA input. -/
def cknLen (i : List Byte) : Nat := (i.getD 0 0).toNat
def cknOf (i : List Byte) : List Byte := (i.drop 1).take (cknLen i)
def afterCkn (i : List Byte) : List Byte := i.drop (1 + cknLen i)
def cknBad (i : List Byte) : Bool := decide (cknLen i = 0) || decide (32 < cknLen i) || decide (i.length < 1 + cknLen i)

def svcMkaIcv (d : Dev) (q : KeyReq) (i : List Byte) : KeyAnswer :=
  match lowestStatus ((cknBad i, 2) :: useChecks d q.slot q.who 3 isAes) with
  | 0 => { status := 0, dev := d
           out := (cmac (mkaIck (keyOfSlot d q.slot).key (cknOf i)) (afterCkn i)).take 16 }
  | st => refuse d st

/-- A SAK is installed in a port's MACsec engine, for transmission and in every receive channel, which
keeps at most two associations, each counting its own PNs; the cipher suite in SW_MS_CFG takes effect
(R80, Tables 2.6, 2.30). -/
def installSak (d : Dev) (k an slot : Nat) (sak : List Byte) : Dev :=
  let m := msOf d k
  let put (l : List MsRxSa) : List MsRxSa := { an := an, key := sak } :: ((l.filter (·.an != an)).take 1)
  let m1 : MsPort := {
    txSa := some { an := an, key := sak }, xpn := bit (rd d (0x205000 + 0x100 * k)) 0
    sas := put m.sas, rx := m.rx.map fun c => { c with sas := put c.sas } }
  let d1 := setMs d k m1
  { d1 with keys := { d1.keys with msFrom := tset 0 d1.keys.msFrom (4 * k + an) (slot + 1) } }

def svcMkaSak (d : Dev) (q : KeyReq) (i : List Byte) : KeyAnswer :=
  let an := ((afterCkn i).getD 0 0).toNat
  match lowestStatus ((cknBad i || decide ((afterCkn i).length ≠ 1) || decide (3 < an) || decide (2 < q.arg), 2) ::
      useChecks d q.slot q.who 3 isAes) with
  | 0 =>
    let f := drawBytes d 32
    { status := 0, out := keyWrap (mkaKek (keyOfSlot d q.slot).key (cknOf i)) f.1
      dev := installSak f.2 q.arg an q.slot f.1 }
  | st => refuse d st

def svcMkaSakIn (d : Dev) (q : KeyReq) (i : List Byte) : KeyAnswer :=
  let b := afterCkn i
  let an := (b.getD 0 0).toNat
  match lowestStatus ((cknBad i || decide (b.length ≠ 41) || decide (3 < an) || decide (2 < q.arg), 2) ::
      useChecks d q.slot q.who 3 isAes) with
  | 0 =>
    match keyUnwrap (mkaKek (keyOfSlot d q.slot).key (cknOf i)) (b.drop 1) with
    | some k => if k.length = 32 then { status := 0, out := [], dev := installSak d q.arg an q.slot k } else refuse d 7
    | none => refuse d 7
  | st => refuse d st

/-- CHALLENGE (R381). -/
def svcChallenge (d : Dev) (_q : KeyReq) (i : List Byte) : KeyAnswer :=
  if i ≠ [] then refuse d 2
  else
    let f := drawBytes d 16
    { status := 0, out := f.1
      dev := { f.2 with keys := { f.2.keys with challenge := some f.1 } } }

/-! ## Tokens (R380–R383) -/

/-- Bytes `[a, a + n)` of a token. -/
def tok (t : List Byte) (a n : Nat) : List Byte := (t.drop a).take n
def tokByte (t : List Byte) (a : Nat) : Nat := (t.getD a 0).toNat
def zeros (l : List Byte) : Bool := l.all (· == 0)

/-- Step 1 of R381: MAGIC, VERSION, KIND and every zero field. -/
def tokenBad (t : List Byte) (kind : Nat) : Bool :=
  decide (t.length ≠ 232) || decide (leNat (tok t 0 4) ≠ 0x4E4B4F54) || decide (tokByte t 4 ≠ 1)
    || decide (tokByte t 5 ≠ kind) || decide (tokByte t 7 ≠ 0) || !zeros (tok t 34 2)
    || (decide (tokByte t 6 ≠ 2) && !zeros (tok t 40 96))
    || (if kind = 1 then !zeros (tok t 36 4) else decide (tokByte t 33 ≠ 0) || decide (31 < tokByte t 32))

/-- Signers a transition accepts (Table 13.9), as a mask 1 vendor, 2 owner, 4 self; 0: not a transition. -/
def transitionSigners (f t : Nat) : Nat :=
  match f, t with
  | 0, 1 => 5
  | 1, 2 => 4
  | 2, 1 => 2
  | 2, 3 => 2
  | 1, 3 => 1
  | 3, 1 => 1
  | 0, 4 => 5
  | 1, 4 => 5
  | 2, 4 => 2
  | 3, 4 => 1
  | _, _ => 0

/-- Signers a debug certificate needs in a state for the enables it asks (Table 13.12); 0: not allowed. -/
def debugSigners (lc enables : Nat) : Nat :=
  match lc with
  | 0 => 1
  | 1 => if enables < 4 then 1 else 0
  | 2 => if enables < 4 then 2 else 0
  | 3 => 1
  | _ => 0

/-- The signature over bytes 0–135 under the signer's key (R380, R381). -/
def tokenSigned (d : Dev) (t : List Byte) : Bool :=
  let key := match tokByte t 6 with
    | 0 => Config.vendorKey
    | 1 => keyFull (keyOfSlot d 1)
    | _ => tok t 40 96
  (tokByte t 6 != 1 || (decide ((keyOfSlot d 1).alg = 8) && !(keyOfSlot d 1).fault))
    && ecdsaVerify 1 key (digest 1 (t.take 136)) (tok t 136 96)

/-- The checks of R381, in its order. -/
def tokenStatus (d : Dev) (t : List Byte) (kind : Nat) : Nat :=
  let signers := if kind = 1 then transitionSigners d.keys.lc (tokByte t 33) else debugSigners d.keys.lc (tokByte t 32)
  firstStatus [
    (tokenBad t kind, 2),
    (decide (leNat (tok t 8 8) ≠ Config.serial.toNat) || (decide (kind = 1) && decide (tokByte t 32 ≠ d.keys.lc)), 9),
    (decide (d.keys.challenge ≠ some (tok t 16 16)), 10),
    (decide (signers = 0), 8),
    (!signers.testBit (tokByte t 6) || decide (2 < tokByte t 6), 9),
    (!tokenSigned d t, 9)]

/-- The live challenge is consumed, and a refused token is counted and reported (R381). -/
def tokenJudge (d : Dev) (t : List Byte) (kind : Nat) : Nat × Dev :=
  let st := if !tokenBad t kind && lcForbids d (0x30 + kind) then 8 else tokenStatus d t kind
  let d1 : Dev := { d with keys := { d.keys with challenge := none } }
  (st, if st = 0 then d1 else evKey (keyInc d1 7) 5 0)

/-- Every slot of a domain the state does not keep is erased, with the engine keys installed from it
(R376, R378, R382). -/
def eraseDeparted (d : Dev) : Dev :=
  (List.range 256).foldl (fun d k =>
    let x := keyOfSlot d k
    if (x.alg ≠ 0 ∨ x.fault) ∧ ¬ keepsDomain d.keys.lc x.dom then eraseKey (removeEngineKeys d k) k else d) d

/-- The state the programmed rows give: the newest valid one, Blank with none (R377). -/
def rowState (l : List LcRow) : Nat := (((l.filter (·.good)).getLast?).map (·.state)).getD 0

/-- A life-cycle row is programmed: one of the Reserve (r = 8), without DEV_EVENT (Table 13.11; DEDUCED, assumption
117), and KEY_EVENT.ROWS_LOW when 4 remain. -/
def rowProgram (d : Dev) (r : LcRow) : Dev :=
  let d1 : Dev := { d with keys := { d.keys with rows := d.keys.rows ++ [r], rowsUsed := d.keys.rowsUsed + 1 } }
  let d2 := if d1.keys.rowsUsed = 28 then evKey d1 4 0 else d1
  reserveJudge (evSvc d2 0 8) 8

/-- Step T2: the keys a transition installs (Table 13.9) are written to flash as records pending for the new state. -/
def transitionPend (d : Dev) (to_ : Nat) (t : List Byte) : Dev :=
  let lc := d.keys.lc
  if lc = 0 ∧ to_ = 1 then
    let f := drawBytes d 48
    { f.2 with keys := { f.2.keys with pending := [(0, { alg := 6, usage := 0, dom := 1, gen := 1, key := newKey 6 f.1 })] } }
  else if lc = 1 ∧ to_ = 2 then
    { d with keys := { d.keys with
        pending := [(1, { alg := 8, usage := 1, dom := 3, gen := 1, key := pubHold 8 (tok t 40 96) })] } }
  else { d with keys := { d.keys with pending := [] } }

/-- Step T3: the row of the new state is programmed whole, or the kill fuse blown. -/
def transitionRow (d : Dev) (to_ : Nat) : Dev :=
  let k := { d.keys with prev := d.keys.lc }
  if to_ = 4 then { d with keys := { k with lc := 4, killed := true } }
  else
    let d1 := rowProgram { d with keys := k } { state := to_ }
    { d1 with keys := { d1.keys with lc := rowState d1.keys.rows } }

/-- Pending records are promoted (T4): each becomes its slot's key, committed. -/
def promotePending (d : Dev) : Dev :=
  let d1 := d.keys.pending.foldl (fun d e => evKey (storeKey (forgetKey d e.1) e.1 e.2) 0 e.1) d
  { d1 with keys := { d1.keys with pending := [] } }

/-- Steps T3–T5 of a transition whose records are pending (Table 13.11, Table 13.9): the departing domains are erased,
and the keys the transition installs stand; a Blank module provisioned by the vendor keeps its certificate. -/
def transition (d : Dev) (to_ : Nat) (t : List Byte) : Dev :=
  let lc := d.keys.lc
  let d1 := promotePending (eraseDeparted (debugDrop (transitionRow d to_)))
  let d2 : Dev := if lc = 0 ∧ to_ = 1 then
      { d1 with keys := { d1.keys with certificate := if tokByte t 6 = 0 then Config.vendorCert else [] } }
    else d1
  evKey d2 1 0

/-- TRANSITION (R382). A torn row is used all the same; after a whole one the next start completes the transition, which
nothing can observe before, so it is completed here (Table 13.11). Before it, the pending records stay for the next start
to discard. -/
def svcTransition (d : Dev) (_q : KeyReq) (t : List Byte) (flash : FlashOut) : KeyAnswer :=
  let j := tokenJudge d t 1
  let d1 := j.2
  let to_ := tokByte t 33
  if j.1 ≠ 0 then refuse d1 j.1
  else if to_ ≠ 4 ∧ 32 ≤ d1.keys.rowsUsed then refuse d1 13
  else
    let d2 := transitionPend d1 to_ t
    match flash with
    | .ok => { status := 0, out := [], dev := emit (transition d2 to_ t) (.flash 5 to_) }
    | .bad => refuse d1 11
    | .cut .early => { status := 0, out := [], cut := true, dev := d2 }
    | .cut .torn => { status := 0, out := [], cut := true
                      dev := if to_ = 4 then d2 else rowProgram d2 { state := to_, good := false } }
    | .cut .whole => { status := 0, out := [], cut := true, dev := emit (transition d2 to_ t) (.flash 5 to_) }

/-- DEBUG (R383). -/
def svcDebug (d : Dev) (_q : KeyReq) (t : List Byte) : KeyAnswer :=
  let j := tokenJudge d t 2
  let d1 := j.2
  if j.1 ≠ 0 then refuse d1 j.1
  else
    let life := leNat (tok t 36 4)
    let c : DebugCert := ⟨BitVec.ofNat 5 (tokByte t 32), if life = 0 then none else some (d.wall + life * 1000000000)⟩
    { status := 0, out := [], dev := debugCerts d1 (d1.wld.certs ++ [c]) }

/-- ATTEST (R384). -/
def svcAttest (d : Dev) (_q : KeyReq) (i : List Byte) : KeyAnswer :=
  let x := keyOfSlot d 0
  match lowestStatus [(decide (i.length ≠ 48), 2), (decide (x.alg = 0), 3), (x.fault, 15)] with
  | 0 =>
    let f := drawNat d
    let b := leBytes Config.serial.toNat 8 ++ leBytes d.keys.lc 1 ++ [0, 0, 0] ++ leBytes (devVersion d).toNat 4 ++ i
    { status := 0, out := b ++ ecdsaSign 1 x.key (digest 1 b) f.1, dev := f.2 }
  | st => refuse d st

/-- IDENTITY (R384). -/
def svcIdentity (d : Dev) (_q : KeyReq) (i : List Byte) : KeyAnswer :=
  let x := keyOfSlot d 0
  match lowestStatus [(decide (i ≠ []), 2), (decide (x.alg = 0), 3), (x.fault, 15)] with
  | 0 => { status := 0, dev := d
           out := eccPublic 1 x.key ++ leBytes d.keys.certificate.length 2 ++ d.keys.certificate }
  | st => refuse d st

/-! ## The Lock serves (R366, R369) -/

/-- The Lock has answered: the request is TAKEN and its response waits to be written; a refusal counts. A TRANSITION or
DEBUG has consumed the live challenge, however it ends (R381). -/
def serviceEnd (s : Nat) (a : KeyAnswer) (out : List Byte) : Dev :=
  let d0 := if a.status = 0 then a.dev else keyInc a.dev 1
  let code := (requestOf d0 s).service
  let d := if code = 0x31 ∨ code = 0x32 then { d0 with keys := { d0.keys with challenge := none } } else d0
  let d1 := setMbx d s { mbxOf d s with state := .taken }
  { d1 with keys := { d1.keys with job := some ⟨s, a.status, out, a.cut⟩ } }

/-- The Lock may take a request: it runs, the store is ready, clocked and powered (R408), and no request is being served. -/
def lockIdle (d : Dev) : Bool := d.keys.ready && d.keys.job.isNone && lockUp d && decide (rd d 0x1000C8 &&& 3 = 0)

/-- The output fits where the request says it goes: 56 bytes inline, OUT_CAP by address; the engine's own
limit is judged when it writes (R367, R368). -/
def outFits (q : KeyReq) (n : Nat) : Bool :=
  if q.byaddr then decide (n ≤ q.le 24 4) else decide (q.slotIdx < 8) || decide (n ≤ 56)

/-- The checks of a service that need no input: those of its slots. -/
def slotChecks (d : Dev) (q : KeyReq) : List (Bool × Nat) :=
  let use1 (u : Nat) (a : Nat → Bool) := useChecks d q.slot q.who u a
  match q.service with
  | 0x02 => createSlotChecks d q.slot q.who
  | 0x03 => createSlotChecks d q.slot q.who ++ useChecks d q.slot2 q.who 2 isAes
  | 0x04 =>
    let x := keyOfSlot d q.slot
    [(worldS q.slot, 5), (decide (x.alg = 0), 3), (x.fault, 15), (!x.exportable, 4)] ++ useChecks d q.slot2 q.who 2 isAes
  | 0x06 =>
    let x := keyOfSlot d q.slot
    [(worldS q.slot, 5), (decide (x.alg = 0), 3), (x.fault, 15), (!(isPriv x.alg || isPub x.alg), 4)]
  | 0x05 => [(worldS q.slot, 5), (!mayCreate q.slot q.who, 6), (decide ((keyOfSlot d q.slot).alg = 0), 3)]
  | 0x10 => use1 0 isAes
  | 0x11 => use1 1 isAes
  | 0x12 => use1 0 isHmac
  | 0x13 => use1 1 isHmac
  | 0x14 => use1 0 isPriv
  | 0x15 => use1 1 isPub
  | 0x17 => createSlotChecks d q.slot2 q.who ++ use1 3 (fun g => isAes g || isHmac g || g == 9 || g == 10)
  | 0x18 => createSlotChecks d q.slot2 q.who ++ use1 3 isPriv
  | 0x20 => use1 3 isAes
  | 0x21 => use1 3 isAes
  | 0x22 => use1 3 isAes
  | 0x23 => use1 3 isAes
  | 0x33 => [(decide ((keyOfSlot d 0).alg = 0), 3), ((keyOfSlot d 0).fault, 15)]
  | 0x34 => [(decide ((keyOfSlot d 0).alg = 0), 3), ((keyOfSlot d 0).fault, 15)]
  | _ => []

/-- The BAD_ARG conditions of a service that its input's length and ARG alone show (Table 13.6). -/
def argBad (d : Dev) (q : KeyReq) : Bool :=
  let n := q.inLen
  let g := (keyOfSlot d q.slot).alg
  match q.service with
  | 0x02 => decide (n ≠ 8)
  | 0x03 => decide (n < 24)
  | 0x04 => decide (n ≠ 0)
  | 0x05 => decide (n ≠ 4)
  | 0x06 => decide (n ≠ 0)
  | 0x10 => decide (n < 14)
  | 0x11 => decide (n < 30)
  | 0x13 => isHmac g && decide (n < hashLen (hashOf g))
  | 0x14 => isPriv g && decide (n ≠ curveSize g)
  | 0x15 => isPub g && decide (n ≠ 3 * curveSize g)
  | 0x16 => decide (2 < q.arg)
  | 0x17 => decide (n < 9) || decide (1 < q.arg)
  | 0x18 => isPriv g && decide (n ≠ 8 + 2 * curveSize g)
  | 0x19 => decide (4084 < n)
  | 0x20 => decide (n ≠ 1)
  | 0x21 => decide (n < 2)
  | 0x22 => decide (n < 3) || decide (34 < n) || decide (2 < q.arg)
  | 0x23 => decide (n < 43) || decide (74 < n) || decide (2 < q.arg)
  | 0x30 => decide (n ≠ 0)
  | 0x33 => decide (n ≠ 48)
  | 0x34 => decide (n ≠ 0)
  | _ => false

/-- STATE comes after BAD_ARG and before every other status; TRANSITION and DEBUG judge it with their
token. -/
def stateForbids (d : Dev) (code : Nat) : Bool := lcForbids d code && code != 0x31 && code != 0x32

def judgeState (d : Dev) (code : Nat) (a : KeyAnswer) : KeyAnswer :=
  if stateForbids d code && a.status != 2 then refuse d 8 else a

/-- The answer when an address may not be reached: an earlier status if one applies, else ACCESS. -/
def accessAnswer (d d1 : Dev) (q : KeyReq) : KeyAnswer :=
  match lowestStatus ((argBad d q, 2) :: (stateForbids d q.service, 8) :: slotChecks d q) with
  | 0 => refuse d1 14
  | st => refuse d st

/-- The Lock takes the oldest request, if it is for service `code`, checks it and performs `f` on its input.
With BYADDR the input is read and the output written in memory as requester class 3; a refused access
is ACCESS, after the checks that do not need the input (R367, R369). -/
def serve (st : State) (code : Nat) (f : Dev → KeyReq → List Byte → KeyAnswer) : State :=
  let d := st.dev
  match oldestPosted d with
  | none => st
  | some s =>
    let q := requestOf d s
    if !lockIdle d ∨ q.service ≠ code then st
    else
      let early := lowestStatus [(!(serviceMask code).testBit q.who.code, 1), (badLength d s || payloadBad q, 2)]
      if early ≠ 0 then { st with dev := serviceEnd s (refuse d early) (leBytes 0 4) }
      else if q.byaddr then
        match lockReach d (q.le 8 8) (if code = 0x19 then 0 else q.inLen) false with
        | (none, d1) => { st with dev := serviceEnd s (accessAnswer d d1 q) (leBytes 0 4) }
        | (some k, _) =>
          let a := judgeState d code (f d q (if code = 0x19 then [] else memRead st.mem k q.inLen))
          if a.status ≠ 0 then
            { st with dev := serviceEnd s a (leBytes a.out.length 4 ++ a.out) }
          else if !outFits q a.out.length then { st with dev := serviceEnd s (refuse d 2) (leBytes 0 4) }
          else
            match lockReach d (q.le 16 8) a.out.length true with
            | (none, d1) => { st with dev := serviceEnd s (refuse d1 14) (leBytes 0 4) }
            | (some o, _) =>
              { st with dev := serviceEnd s a (leBytes a.out.length 4), mem := memWrite st.mem o a.out }
      else
        let a := judgeState d code (f d q ((q.payload.drop 8).take q.inLen))
        if outFits q a.out.length then { st with dev := serviceEnd s a (leBytes a.out.length 4 ++ a.out) }
        else { st with dev := serviceEnd s (refuse d 2) (leBytes 0 4) }

/-- The Lock writes its response: TAKEN becomes DONE, CANCELLED becomes FREE, and for a slot that has timed out
it is discarded. With no request in service, the oldest request of a service not in Table 13.6 is taken
and answered BAD_SERVICE (R347, R369). An update cut by a power failure is never answered. -/
def mailboxResponse (d : Dev) : Dev :=
  if !lockUp d then d
  else match d.keys.job with
  | some j =>
    if j.cut then d
    else
      let d1 : Dev := { d with keys := { d.keys with job := none } }
      match (mbxOf d j.slot).state with
      | .taken => mbxWrite d1 j.slot j.status j.out
      | .cancelled => setMbx d1 j.slot {}
      | _ => d1
  | none =>
    match oldestPosted d with
    | some s =>
      if lockIdle d ∧ serviceMask (requestOf d s).service = 0 then mbxWrite (keyInc d 1) s 1 (leBytes 0 4) else d
    | none => d

/-- The live challenge lapses after 600 s. -/
def challengeExpire (d : Dev) : Dev := { d with keys := { d.keys with challenge := none } }

/-- The committed record of each damaged slot fails its tag. -/
def damageRecs (d : Dev) (damaged : List (Fin 256)) : Dev :=
  damaged.foldl (fun d k =>
    match commitOf d.keys.journal k.val with
    | none => d
    | some c => setRec d k.val c.copy ((recOf d k.val c.copy).map fun r => { r with good := false })) d

/-- Step 2 of R376: every committed key is loaded, and one whose record fails its tag is marked FAULT. -/
def loadKeys (d : Dev) : Dev :=
  (List.range 256).foldl (fun d k =>
    let x := loadedKey d k
    let d1 := setKey d k x
    if x.fault then evKey d1 2 k else d1) d

/-- Step 3 of R376: only the committed copy of each slot stays, and the journal holds each slot's latest commit record. -/
def eraseStale (d : Dev) : Dev :=
  let j := journalCompact d.keys.journal
  let recs := d.keys.recs.filter fun e => (commitOf j (e.1 / 2)).any fun c => c.copy.toNat == e.1 % 2
  { d with keys := { d.keys with journal := j, recs := recs, torn := [], pending := [] } }

/-- The key store starts (R376): a new seed is drawn (R363), the committed keys are loaded, uncommitted and superseded
copies and pending records erased, the uncommitted ones counted, and slots of departed domains erased. -/
def keyStart (d : Dev) (damaged : List (Fin 256)) : Dev :=
  let n := d.keys.torn.length
  let seed := drawBytes d 32
  let d1 : Dev := { seed.2 with keys := { seed.2.keys with job := none, seed := seed.1 } }
  let d2 := eraseStale (loadKeys (damageRecs d1 damaged))
  let d3 := if n = 0 then d2 else evKey (cntAdd d2 0x1400070 n) 3 0
  let d4 := eraseDeparted d3
  { d4 with keys := { d4.keys with ready := true } }

def keyClear (d : Dev) : Dev := clearCnts d 0x1400040 0x1400080

/-! ## Meanings -/

def serveAnswer (s : State) (code : Nat) (f : Dev → KeyReq → List Byte → KeyAnswer) : Answer :=
  .next (serve s code f)

def execMailboxResponse (s : State) : Answer := onDev mailboxResponse s
def execGenerate (fl : FlashOut) (s : State) : Answer := serveAnswer s 0x02 (fun d q i => svcGenerate d q i fl)
def execImport (fl : FlashOut) (s : State) : Answer := serveAnswer s 0x03 (fun d q i => svcImport d q i fl)
def execExport (s : State) : Answer := serveAnswer s 0x04 svcExport
def execKeyDestroy (fl : FlashOut) (s : State) : Answer := serveAnswer s 0x05 (fun d q i => svcDestroy d q i fl)
def execPublic (s : State) : Answer := serveAnswer s 0x06 svcPublic
def execSeal (s : State) : Answer := serveAnswer s 0x10 svcSeal
def execOpen (s : State) : Answer := serveAnswer s 0x11 svcOpen
def execMac (s : State) : Answer := serveAnswer s 0x12 svcMac
def execMacCheck (s : State) : Answer := serveAnswer s 0x13 svcMacCheck
def execSign (s : State) : Answer := serveAnswer s 0x14 svcSign
def execVerify (s : State) : Answer := serveAnswer s 0x15 svcVerify
def execHash (s : State) : Answer := serveAnswer s 0x16 svcHash
def execDerive (fl : FlashOut) (s : State) : Answer := serveAnswer s 0x17 (fun d q i => svcDerive d q i fl)
def execAgree (fl : FlashOut) (s : State) : Answer := serveAnswer s 0x18 (fun d q i => svcAgree d q i fl)
def execRandom (s : State) : Answer := serveAnswer s 0x19 (fun d q _ => svcRandom d q)
def execTunnelKey (s : State) : Answer := serveAnswer s 0x20 svcTunnelKey
def execMkaIcv (s : State) : Answer := serveAnswer s 0x21 svcMkaIcv
def execMkaSak (s : State) : Answer := serveAnswer s 0x22 svcMkaSak
def execMkaSakIn (s : State) : Answer := serveAnswer s 0x23 svcMkaSakIn
def execChallenge (s : State) : Answer := serveAnswer s 0x30 svcChallenge
def execChallengeExpire (s : State) : Answer := onDev challengeExpire s
def execTransition (fl : FlashOut) (s : State) : Answer := serveAnswer s 0x31 (fun d q i => svcTransition d q i fl)
def execDebug (s : State) : Answer := serveAnswer s 0x32 svcDebug
def execAttest (s : State) : Answer := serveAnswer s 0x33 svcAttest
def execIdentity (s : State) : Answer := serveAnswer s 0x34 svcIdentity
def execKeyClear (s : State) : Answer := onDev keyClear s

end Sys2Proof.Machine
end

