-- ==== Sys2Proof/Machine/Image.lean ====
section
/-! DEFINITION. The image container (15): its header, sections and their content, and the checks of
Table 15.10. -/

namespace Sys2Proof.Machine

/-- `n` bytes of an image from byte `a`, as a number. -/
def imgNum (b : List Byte) (a n : Nat) : Nat := leNat ((b.drop a).take n)

/-- An entry of the section table (Table 15.7). -/
structure ImgSection where
  stype : Nat
  zero : Nat
  offset : Nat
  length : Nat
  crc : Nat
  deriving DecidableEq, Repr

def imgSections (b : List Byte) : List ImgSection :=
  (List.range (min 16 (imgNum b 6 1))).map fun i =>
    let a := 64 + 16 * i
    ⟨imgNum b a 2, imgNum b (a + 2) 2, imgNum b (a + 4) 4, imgNum b (a + 8) 4, imgNum b (a + 12) 4⟩

def sectionBytes (b : List Byte) (s : ImgSection) : List Byte := (b.drop s.offset).take s.length

def imgTotal (b : List Byte) : Nat := imgNum b 8 4
def imgDelta (b : List Byte) : Bool := imgNum b 23 1 % 2 == 1

/-- Largest image of a type (Table 15.8). -/
def imgMax (t : Nat) : Nat := match t with | 1 => 983040 | 2 => 204800 | _ => 16777216

/-- Status 4: the header (Tables 15.6, 15.10). -/
def headerBad (b : List Byte) (t : Nat) : Bool :=
  let total := imgTotal b
  decide (b.length < 160) || decide (imgNum b 0 4 ≠ 0x47534D49) || decide (imgNum b 4 1 ≠ 1)
    || decide (imgNum b 5 1 ≠ t) || decide (imgNum b 6 1 < 1 ∨ 16 < imgNum b 6 1)
    || decide (total < 160 + 16 * imgNum b 6 1) || decide (b.length < total) || decide (imgMax t < total)
    || decide (imgNum b 20 1 ≠ 0x54) || decide (imgNum b 21 1 ≠ 9)
    || decide (imgNum b 24 8 ≠ 0 ∧ imgNum b 24 8 ≠ Config.serial.toNat)
    || decide (1 < imgNum b 23 1) || (imgDelta b && decide (t ≠ 4))
    || (!imgDelta b && decide (imgNum b 36 4 ≠ 0)) || (decide (t ≠ 1) && decide (imgNum b 40 2 ≠ 0))
    || decide (imgNum b 42 22 ≠ 0)

/-- Status 5: every section lies inside TOTAL_LEN and carries its CRC. -/
def sectionCrcBad (b : List Byte) : Bool :=
  (imgSections b).any fun s =>
    decide (imgTotal b < s.offset + s.length)
      || decide ((crc32c 0xFFFFFFFF (sectionBytes b s)).toNat ≠ s.crc)

/-- Blocks that WRITES records may target (R431): the ranges of Table 1.8. -/
def recordTarget (a : Nat) : Bool :=
  decide (a < 0x100000) || decide (0x200000 ≤ a ∧ a < 0x1200000) || decide (0x1500000 ≤ a ∧ a < 0x1600000)

/-- The records of a WRITES section. -/
def recordsOf (l : List Byte) : List (Nat × Word × Nat × Word) :=
  (List.range (l.length / 16)).map fun i =>
    (imgNum l (16 * i) 4, leWord l (4 * i + 1), imgNum l (16 * i + 8) 4, leWord l (4 * i + 3))

def recordBad (r : Nat × Word × Nat × Word) : Bool :=
  decide (0x4000000 ≤ r.1) || decide (r.1 % 4 ≠ 0) || !recordTarget r.1
    || (decide (r.2.2.1 ≠ 0) && (decide (r.2.2.1 % 4 ≠ 0) || !recordTarget r.2.2.1)) || !bit r.2.2.2 0

/-- The learning templates of a LEARN section (R432). -/
def templatesOf (l : List Byte) : List (List Byte) :=
  (List.range (l.length / 80)).map fun i => (l.drop (80 * i)).take 80

/-- The words of a rule image (R326). -/
def ruleWords (l : List Byte) : List (Nat × Word) := (List.range 8192).map fun i => (4 * i, leWord l i)

/-- A malformed section of an image of type `t`. -/
def sectionBad (b : List Byte) (t : Nat) (s : ImgSection) : Bool :=
  let l := sectionBytes b s
  decide (s.zero ≠ 0) || decide (s.offset % 8 ≠ 0) || decide (s.offset < 64 + 16 * imgNum b 6 1) ||
  if t ≠ 4 then decide (s.stype ≠ 1)
  else match s.stype with
    | 2 => decide (l.length % 16 ≠ 0) || (recordsOf l).any recordBad
    | 3 => decide (l.length ≠ 32768)
    | 4 => decide (l.length % 80 ≠ 0) || decide (256 < l.length / 80)
        || (templatesOf l).any fun x => decide (imgNum x 66 14 ≠ 0)
    | _ => true

/-- Status 6 (Tables 15.9, 15.10). -/
def targetBad (b : List Byte) (t : Nat) : Bool :=
  (imgSections b).any (sectionBad b t)
    || decide (t = 4 ∧ 1 < ((imgSections b).filter fun s => s.stype == 3).length)

/-- Whether the signer of an image of type `t` is accepted in a life-cycle state (Table 15.8). -/
def signerOk (d : Dev) (b : List Byte) (t : Nat) : Bool :=
  let x := keyOfSlot d (imgNum b 22 1)
  let slot := imgNum b 22 1
  match d.keys.lc, imgNum b 7 1 with
  | 0, 0 => true
  | 0, 1 => decide (3 ≤ t) && decide (x.dom = 0)
  | 0, 2 => decide (3 ≤ t)
  | 1, 0 => true
  | 1, 1 => decide (3 ≤ t) && decide (x.dom = 2)
  | 2, 0 => decide (t < 3)
  | 2, 1 => decide (3 ≤ t) && (decide (slot = 1) || decide (x.dom = 3))
  | 3, 0 => true
  | _, _ => false

/-- Status 7: the signer, and its signature over every earlier byte (R428, R429). -/
def signatureBad (d : Dev) (b : List Byte) (t : Nat) : Bool :=
  let x := keyOfSlot d (imgNum b 22 1)
  let body := b.take (imgTotal b - 96)
  let sig := (b.drop (imgTotal b - 96)).take 96
  !signerOk d b t ||
  match imgNum b 7 1 with
  | 0 => !ecdsaVerify 1 Config.vendorKey (digest 1 body) sig
  | 1 => decide (x.alg ≠ 8 ∨ x.usage ≠ 1) || x.fault || !ecdsaVerify 1 (keyFull x) (digest 1 body) sig
  | _ => false

def setImgType (d : Dev) (t : Nat) (x : ImgType) : Dev :=
  { d with svc := { d.svc with types := tset {} d.svc.types t x } }

/-- The inactive bank of an image type. -/
def ImgType.inact (x : ImgType) : ImgBank := if x.active then x.bank0 else x.bank1
def ImgType.setInact (x : ImgType) (b : ImgBank) : ImgType :=
  if x.active then { x with bank0 := b } else { x with bank1 := b }

/-- The outcome of the checks of Table 15.10 on an image of type `t`. -/
def imageStatus (d : Dev) (b : List Byte) (t : Nat) : Nat :=
  if headerBad b t then 4
  else if sectionCrcBad b then 5
  else if targetBad b t then 6
  else if signatureBad d b t then 7
  else if t ≠ 4 ∧ imgNum b 12 4 < (imgType d t).svnMin.toNat then 8
  else 0

/-- A checked image as its bank holds it. -/
def bankOfImage (b : List Byte) : ImgBank :=
  { valid := true, ver := leWord b 4, svn := leWord b 3, delta := imgDelta b, gen := leWord b 8
    base := leWord b 9, fmtMin := imgNum b 40 1, fmtMax := imgNum b 41 1, image := b }

/-- The work of one section. -/
def sectionWork (b : List Byte) (i : Nat) (s : ImgSection) : List (Nat × Nat × CfgWork) :=
  let l := sectionBytes b s
  match s.stype with
  | 2 => (recordsOf l).mapIdx fun j r => (i, j, CfgWork.write r.1 r.2.1 r.2.2.1 r.2.2.2)
  | 3 => [(i, 0, .rules (ruleWords l))]
  | 4 => [(i, 0, .learn (templatesOf l))]
  | _ => []

/-- The work of a configuration image: its sections in the order of the section table (R431). -/
def imageWork (b : List Byte) : List (Nat × Nat × CfgWork) :=
  ((imgSections b).mapIdx (sectionWork b)).flatten

end Sys2Proof.Machine
end

