-- ==== Sys2Proof/Machine/Pair.lean ====
section
/-! DEFINITION. Pairs (15): roles and the dominance lines, heartbeats, mirroring and its application, takeover
and handover. -/

namespace Sys2Proof.Machine

/-- PAIR_CNT[k] (Table 15.12). -/
def pairInc (d : Dev) (k : Nat) : Dev := inc d (0x1500040 + 8 * k)

/-- PAIR_CFG.EN. -/
def pairEn (d : Dev) : Bool := bit (rd d 0x1500000) 31

/-! ## Sending (R416–R418) -/

def pairSend (d : Dev) (type seq : Nat) : Dev :=
  pnJudge (sendAside d 10 (.pairFrame type seq (pairsFrame d type seq))) 10

/-- Every 250 µs, in every role but SINGLE (R418). -/
def heartbeatTx (d : Dev) : Dev :=
  if d.pair.role = .single ∨ ¬ fabricUp d then d
  else
    let d1 := { d with pair := { d.pair with hbTx := d.pair.hbTx + 1 } }
    let d2 := pairSend d1 1 d1.pair.mirrorSeq.toNat
    if wireUp d 10 then pairInc d2 0 else d2

/-! ## Mirror formats (R425) -/

/-- The highest format that formats `own` (lowest, highest) and the peer's firmware have in common, none where they share
none. A header carries only the format in use, so what the peer speaks is what its DEV_VERSION says (DESIGN CHOICE,
assumption 55). -/
def fmtCommon (d : Dev) (own : Nat × Nat) : Option Nat :=
  let peer := Config.fmtsOf d.pair.peerVer
  let f := min own.2 peer.2
  if max own.1 peer.1 ≤ f then some f else none

/-- The pair takes the highest format common to both; PAIR_EVENT.FMT where there is none. -/
def fmtJudge (d : Dev) : Dev :=
  match fmtCommon d (fmtMin d, fmtMax d) with
  | some f => { d with pair := { d.pair with fmt := f } }
  | none => evPair d 7

/-! ## Roles (R412–R415, Table 15.1) -/

/-- Move to a role; a change sets both its events, and JOIN_WAIT starts with SEEKING (R415, Table 15.1). -/
def setRole (d : Dev) (r : PairRole) : Dev :=
  if d.pair.role = r then d
  else
    let p : Pair := if r = .seeking then { d.pair with role := r, joinAt := d.wall } else { d.pair with role := r }
    evDev (evPair { d with pair := p } 0) 4

/-- Whether the module may start to claim (R412, R413); its driver lies in the fabric domain (R414). -/
def mayClaim (d : Dev) : Bool := fabricUp d && !d.pair.peerLow && d.pair.loopOk && !d.pair.dupSlot

/-- Pairs frames pass: the pairs engine runs and PL carries traffic (R49, R416). -/
def pairsUp (d : Dev) : Bool := fabricUp d && wireUp d 10

/-- Drive the own line low: hardware makes the module Primary. -/
def claim (d : Dev) : Dev :=
  setRole { d with pair := { d.pair with domOwn := true, handoverHeld := false } } .primary

/-- Release the own line. -/
def releaseLine (d : Dev) : Dev := { d with pair := { d.pair with domOwn := false } }

/-- A PAIR command's result. -/
def pairEnd (d : Dev) (st : Nat) : Dev := resultEnd d 0x1500014 (at_ st 28)

/-- A HANDOVER that waits ends. -/
def handoverEnd (d : Dev) (st : Nat) : Dev :=
  if d.pair.handoverWait then pairEnd { d with pair := { d.pair with handoverWait := false } } st else d

/-- A Standby asks for the whole mirrored state (R420, R421). -/
def resyncAsk (d : Dev) : Dev :=
  let d1 : Dev := { d with pair := { d.pair with mirrorSync := false, resyncing := true, staged := [], rebase := true } }
  pairSend (evPair (pairInc d1 4) 5) 5 d.pair.mirrorSeq.toNat

/-- What every Standby is: its slips other than slip 0 are FREE, its outputs HELD with OWNER 0 (R422,
Table 15.3). -/
def standbyState (d : Dev) : Dev :=
  let d1 := (created d).foldl (fun d n => if n = 0 then d else slipFree (slipDiscard (lbSlipLeaves d n) n) n) d
  (List.range 72).foldl (fun d k => setRes d k { resOf d k with state := .held, owner := 0, applying := false }) d1

/-- SEEKING or a completed handover makes the module STANDBY: a full mirror resync. -/
def becomeStandby (d : Dev) : Dev := resyncAsk (standbyState (setRole d .standby))

/-- Table 15.1, SEEKING with a live peer. -/
def seekJudge (d : Dev) : Dev :=
  if d.pair.role = .seeking ∧ d.pair.peerLive then
    if d.pair.peerRole = 3 then becomeStandby d
    else if ownSlot d = 0 ∧ mayClaim d then claim d
    else d
  else d

/-- Takeover (R423): steps 1–3; the shadow slips follow as the Quaymaster's work. Before MIRROR_SYNC it starts from the
last whole state applied: the records of a resync whose marker has not come are dropped (R421). -/
def takeover (d : Dev) : Dev :=
  let d1 := pairInc d 3
  let d2 := if d.pair.mirrorSync then d1 else evPair d1 5
  let d3 := claim d2
  { d3 with pair := { d3.pair with takeover := true, resyncing := false, staged := [], rebase := false, mirrorSync := false } }

/-- Whether a Standby whose peer is lost takes over (Table 15.1). -/
def standbyJudge (d : Dev) : Dev :=
  if d.pair.role = .standby ∧ ¬ d.pair.peerLive ∧ mayClaim d then takeover d
  else if d.pair.role = .standby ∧ d.pair.handoverHeld ∧ mayClaim d then
    let d1 := claim d
    { d1 with pair := { d1.pair with takeover := true } }
  else d

/-- EN written 1, with JOIN_WAIT. -/
def pairEnable (d : Dev) (v : Word) : Dev :=
  let d1 := wr d 0x1500000 ((v &&& 0x80FF0000) ||| 0x80000000)
  if d.pair.role = .single then setRole d1 .seeking else d1

/-- The module leaves the pair: line released, heartbeats stop. -/
def pairLeave (d : Dev) : Dev :=
  let d1 := handoverEnd (releaseLine d) 4
  setRole { d1 with pair := { d1.pair with
    peerLive := false, mirrorSync := false, resyncing := false, staged := [], rebase := false, handoverHeld := false
    takeover := false, slips := [], binds := [], outputs := [] } } .single

/-- EN written 0. -/
def pairDisable (d : Dev) (v : Word) : Dev := pairLeave (wr d 0x1500000 (v &&& 0x00FF0000))

/-- JOIN_WAIT s of SEEKING have passed; 0 acts as 1 (Table 15.13). -/
def joinDue (d : Dev) : Bool :=
  decide (d.pair.joinAt + 1000000000 * atLeast1 (fld (rd d 0x1500000) 23 16) ≤ d.wall)

/-- JOIN_WAIT expires in SEEKING: the module claims if it may, and otherwise waits again (Table 15.1; that it also waits
again with a live peer or an open loop is a DESIGN CHOICE, assumption 54). -/
def joinWaitExpire (d : Dev) : Dev :=
  if d.pair.role = .seeking && joinDue d && fabricUp d then
    if !d.pair.peerLive && mayClaim d then claim d
    else { d with pair := { d.pair with joinAt := d.wall } }
  else d

/-- Primary is removed: the loop opened, or for slot 1 the line of slot 0 went low (R412). -/
def dominanceLost (d : Dev) (loop : Bool) : Dev :=
  let d1 : Dev := if loop then { d with pair := { d.pair with loopOk := false } }
                  else { d with pair := { d.pair with peerLow := true } }
  let d2 := if loop ∧ d.pair.loopOk ∧ d.pair.role ≠ .single then evPair d1 3 else d1
  if d.pair.role ≠ .primary then d2
  else if loop then setRole (handoverEnd (releaseLine d2) 4) .isolated
  else if ownSlot d = 1 then setRole (handoverEnd (releaseLine d2) 4) .seeking
  else d2

/-- The loop stays open for 1 ms. -/
def loopOpen (d : Dev) : Dev :=
  if d.pair.role = .primary then dominanceLost d true
  else
    let d1 : Dev := { d with pair := { d.pair with loopOk := false } }
    let d2 := if d.pair.loopOk ∧ d.pair.role ≠ .single then evPair d1 3 else d1
    if d.pair.role = .seeking ∨ d.pair.role = .standby then
      setRole (if d.pair.loopOk then d2 else evPair d2 3) .isolated
    else d2

/-- The loop stays intact for 1 s. -/
def loopRestored (d : Dev) : Dev :=
  let d1 : Dev := { d with pair := { d.pair with loopOk := true } }
  let d2 := if d.pair.loopOk ∨ d.pair.role = .single then d1 else evPair d1 3
  if d.pair.role = .isolated then setRole d2 .seeking else standbyJudge d2

/-- The peer's line goes high. -/
def peerLineHigh (d : Dev) : Dev := standbyJudge { d with pair := { d.pair with peerLow := false } }

/-- The own line reads low while it is not driven (R413). -/
def dupSlot (d : Dev) : Dev :=
  if d.pair.domOwn || !fabricUp d then d else evPair { d with pair := { d.pair with dupSlot := true } } 4

/-! ## Heartbeats received (R419) -/

/-- Whether a heartbeat is valid (R419). -/
def heartbeatValid (d : Dev) (h : PairHdr) : Bool :=
  let p := d.pair
  if p.peerLive then
    let n := (h.hbSeq - p.hbRx).toNat
    decide (h.serial.toNat = p.bound) && decide (1 ≤ n ∧ n ≤ 32767)
  else decide (h.flags.toNat % 2 ≠ ownSlot d)

/-- A heartbeat is received. One of a PRIMARY says that the peer's line is low, which takes Primary from slot 1
(R412; DESIGN CHOICE, assumption 54). -/
def heartbeatRx (d : Dev) (h : PairHdr) : Dev :=
  if d.pair.role = .single ∨ ¬ pairsUp d then d
  else if !heartbeatValid d h then pairInc d 6
  else
    let p := d.pair
    let d1 : Dev := pairInc { d with bwk := { d.bwk with peerAt := some d.wall }, pair := { p with
      peerLive := true, bound := h.serial.toNat, hbRx := h.hbSeq, missed := 0, peerVer := h.version
      peerRole := h.role.toNat, peerSync := h.flags.getLsbD 1 } } 1
    let d2 := if p.peerLive ∧ p.peerVer = h.version then d1 else fmtJudge (if p.peerLive then d1 else evPair d1 2)
    let d3 := seekJudge (if h.role.toNat = 3 then dominanceLost d2 false else d2)
    if d3.pair.handoverWait ∧ d3.pair.role = .standby ∧ h.role.toNat = 3 then
      becomeStandby (handoverEnd d3 0)
    else d3

/-- A 250-µs period passes without a valid heartbeat; after four the peer is not live. -/
def heartbeatMiss (d : Dev) : Dev :=
  if d.pair.role = .single ∨ ¬ fabricUp d then d
  else
    let n := d.pair.missed + 1
    let d1 := pairInc { d with pair := { d.pair with missed := n } } 2
    if d.pair.peerLive ∧ 4 ≤ n then
      let d2 := evPair { d1 with pair := { d1.pair with peerLive := false } } 1
      if d.pair.role = .standby ∧ mayClaim d2 then takeover d2
      else { d2 with pair := { d2.pair with mirrorSync := false } }
    else d1

/-! ## Mirroring (R420, R421) -/

/-- The Primary sends the whole of Table 15.3, one record for each of its rows, the θ it keeps of the peer's channels with
its age in s (R426), and the marker. -/
def resyncSend (d : Dev) : Dev :=
  if d.pair.role = .primary then
    let d1 := evPair (pairInc { d with pair := { d.pair with mirrorSync := false, resyncing := true } } 4) 5
    let d2 := (List.range 9).foldl (fun d w =>
      if w = 6 then mirrorSend d 6 wholeRow [.theta (thetaTable d)] else mirrorNote d w wholeRow) d1
    let d3 := if d.pair.theta = [] then d2 else mirrorNote d2 10 ((d.wall - d.pair.thetaAt) / 1000000000)
    mirrorNote d3 9 0
  else d

/-- An acknowledgement reaches the Primary; the one of a HANDOVER releases the line. -/
def mirrorAck (d : Dev) (seq : Word) : Dev :=
  if d.pair.role = .primary then
    let done := d.pair.resyncing && decide (seq = d.pair.mirrorSeq)
    let d1 : Dev := { d with pair := { d.pair with
      acked := seq, resyncing := d.pair.resyncing && !done, mirrorSync := d.pair.mirrorSync || done } }
    if d.pair.handoverWait ∧ seq = d.pair.handoverSeq then setRole (releaseLine d1) .standby else d1
  else d

/-- 5 ms pass without an acknowledgement: a Standby requests a resync (R420). A Primary, whose Standby may not know of
it, starts the resync itself (DESIGN CHOICE, assumption 53). -/
def mirrorAckTimeout (d : Dev) : Dev :=
  if d.pair.role = .standby ∧ pairsUp d then resyncAsk d
  else if d.pair.role = .primary ∧ d.pair.peerLive ∧ d.pair.acked ≠ d.pair.mirrorSeq then resyncSend d
  else d

/-- The outputs of this module twinned with output `k` of the Primary take its command (R422). -/
def twinApply (d : Dev) (k : Nat) (on : Bool) : Dev :=
  (List.range 72).foldl (fun d j =>
    let w := rd d (0x1500100 + 4 * j)
    if bit w 31 ∧ fld w 6 0 = k ∧ k < 72 then
      if j < 40 then loadRecord d j on else fieldRecord d (j - 40) on
    else d) d

/-- An output twinned while the module is Standby takes the command last mirrored (R422). -/
def twinJudge (d : Dev) (j : Nat) : Dev :=
  let w := rd d (0x1500100 + 4 * j)
  if d.pair.role = .standby ∧ bit w 31 ∧ fld w 6 0 < 72 then
    match d.pair.outputs.find? fun e => e.1 == fld w 6 0 with
    | some e => if j < 40 then loadRecord d j e.2 else fieldRecord d (j - 40) e.2
    | none => d
  else d

/-- A mirrored Chart record: table writes, or a command with its shadow words, which leave the manager's
own shadow words and result as they were. -/
def chartApply (d : Dev) (writes : List (Nat × Word)) (op index : Nat) : Dev :=
  let put (d : Dev) (e : Nat × Word) : Dev :=
    if 0x430000 ≤ e.1 ∧ e.1 < 0x431000 ∧ e.1 % 16 = 8 then policerWrite d ((e.1 - 0x430000) / 16) e.2
    else if 0x400000 ≤ e.1 ∧ e.1 < 0x800000 then wr d e.1 e.2 else d
  let d1 := writes.foldl put d
  if op = 0 then d1
  else
    let run := match op with
      | 1 => runInsert d1
      | 2 => runUpdate d1
      | 3 => runDelete d1
      | 4 => runTwrite d1 index
      | 5 => runTdelete d1 index
      | _ => runMwrite d1
    let d2 := (List.range 12).foldl (fun x i => wr x (0x400100 + 4 * i) (rd d (0x400100 + 4 * i))) run
    wr (wr d2 0x400014 (rd d 0x400014)) 0x400018 (rd d 0x400018)

/-- The mirrored rule bank is committed: it becomes active at the next sample instant if it passes its
checks (Table 15.3, R324). It is no BWK_CMD, so BWK_RESULT shows a result only of a COMMIT that waits on the bank it replaces;
in FAULT nothing is committed (R308). -/
def bankApply (d : Dev) (words : List (Nat × Word)) : Dev :=
  let d1 : Dev := { d with bwk := { d.bwk with bad := [] } }
  let d2 : Dev := if d1.bwk.active then { d1 with bwk := { d1.bwk with bank0 := [] } }
                  else { d1 with bwk := { d1.bwk with bank1 := [] } }
  let d3 := words.foldl (fun d e => bankWrite d e.1 e.2) d2
  let r := bankCheck (inactiveBank d3) false
  if d.bwk.state = .fault then d3
  else
    let d4 := { d3 with bwk := { d3.bwk with commit := decide (r.1 = 0) } }
    if r.1 ≠ 0 ∧ ¬ resultValid d4 0x1200010 then checkEnd d4 r else d4

/-- θ of the module's own channels comes back from the peer before the gates are first released (R426). -/
def thetaApply (d : Dev) (chans : List (Int × Nat × Int)) (age : Nat) : Dev :=
  if (d.ldc.gateHold ∨ d.bwk.state = .empty) ∧ age < atLeast1 (fld (rd d 0x1000000) 15 0) then
    (List.range 40).foldl (fun d n =>
      setLoad d n { loadOf d n with theta := cooled (chans.getD n (0, 1, 0)) (32768 * age) (loadOf d n).ungated })
      { d with ldc := { d.ldc with restore := 0 } }
  else d

/-- What the Standby does with a record (Table 15.3). -/
def mirrorApply (d : Dev) : Mirror → Dev
  | .chart writes op index => chartApply d writes op index
  | .learn t => { d with svc := { d.svc with templates := t } }
  | .slip n (some x) => { d with pair := { d.pair with slips := tput d.pair.slips n x } }
  | .slip n none => { d with pair := { d.pair with slips := terase d.pair.slips n } }
  | .bind k owner release state =>
      { d with pair := { d.pair with
          binds := tset {} d.pair.binds k { state := state, release := release, owner := owner } } }
  | .bank words => bankApply d words
  | .signals g v => setGroup d g v
  | .analog i v => setAnalog d i v
  | .output k on => twinApply { d with pair := { d.pair with outputs := tput d.pair.outputs k on } } k on
  | .theta chans => { d with pair := { d.pair with theta := chans, thetaAt := d.wall } }
  | .thetaBack chans age => thetaApply d chans age
  | .partner ch m p => setPart d ch m p
  | .config image =>
      let x := imgType d 4
      let b := bankOfImage image
      let d1 := setImgType d 4 { x.setInact b with active := !x.active, fallback := false }
      { d1 with svc := { d1.svc with
          cfgGen := b.gen, cfgState := 1, store := if b.delta then d1.svc.store ++ [image] else [image] } }
  | .marker => { d with pair := { d.pair with mirrorSync := true, resyncing := false } }

/-- A record in sequence is applied; while a resync runs it is kept, and the marker applies what was kept, so that what
is applied is always a whole state (R421). -/
def mirrorTake (d : Dev) (m : Mirror) : Dev :=
  if m = .marker then
    mirrorApply (d.pair.staged.foldl mirrorApply { d with pair := { d.pair with staged := [] } }) .marker
  else if d.pair.resyncing then { d with pair := { d.pair with staged := d.pair.staged ++ [m] } }
  else mirrorApply d m

/-- Whether the next record, or HANDOVER record, is the one in sequence; after a resync request any is. -/
def inSequence (d : Dev) (seq : Word) : Bool := d.pair.rebase || decide (seq = d.pair.mirrorSeq + 1)

/-- A mirror record reaches the Standby: taken in sequence and acknowledged, or a resync requested. -/
def mirrorRx (d : Dev) (seq : Word) (m : Mirror) : Dev :=
  if d.pair.role ≠ .standby then d
  else if inSequence d seq then
    let d1 := mirrorTake { d with pair := { d.pair with mirrorSeq := seq, acked := seq, rebase := false } } m
    pairSend (pairInc d1 5) 3 seq.toNat
  else resyncAsk d

/-! ## Takeover and handover (R415, R423) -/

/-- Step 4 of R423, work of the Quaymaster: the shadow slips are created and their resources bound; HELD outputs keep their
state. -/
def takeoverBind (d : Dev) : Dev :=
  if d.pair.role = .primary ∧ d.pair.takeover ∧ qmAwake d then
    let d1 := d.pair.slips.foldl (fun d e =>
      let s := slipOf d e.1
      if e.1 = 0 ∨ s.state ≠ .free then d
      else
        let d1 := ringsReset (resetRegs d (slipWin e.1) (slipWin e.1 + 0x200)) e.1 false
        mirrorNote (setSlip (cntSet d1 (slipWin e.1 + 0x20) 0) e.1 { s with
          state := if attached d e.1 then .active else .detached, cls := e.2.cls, classMax := e.2.classMax
          rxq := e.2.rxq, min := e.2.min, max := e.2.max, report := 0, inc := s.inc + 1, pba := 0 }) 2 e.1) d
    let d2 := d1.pair.binds.foldl (fun d e =>
      if e.2.owner ≠ 0 ∧ (slipOf d e.2.owner).state ≠ .free then mirrorNote (setRes d e.1 e.2) 2 (4096 + e.1)
      else d) d1
    { d2 with pair := { d2.pair with takeover := false } }
  else d

/-- A HANDOVER record reaches the Standby, in the sequence of the mirror records. -/
def handoverRx (d : Dev) (seq : Word) : Dev :=
  if d.pair.role ≠ .standby then d
  else if inSequence d seq then
    standbyJudge (pairSend { d with pair := { d.pair with
      mirrorSeq := seq, acked := seq, rebase := false, handoverHeld := true } } 3 seq.toNat)
  else resyncAsk d

/-- One PAIR command at a time (R437). -/
def pairCommand (d : Dev) (k : Dev → Dev) : Dev :=
  if resultValid d 0x1500014 then k (resultBegin d 0x1500014) else evPair d 6

/-- PAIR_CMD HANDOVER. -/
def handover (d : Dev) : Dev :=
  pairCommand d fun d =>
    if d.pair.role = .primary ∧ d.pair.peerLive ∧ d.pair.peerRole = 2 ∧ d.pair.peerSync then
      let q := d.pair.mirrorSeq + 1
      pairSend { d with pair := { d.pair with mirrorSeq := q, handoverSeq := q, handoverWait := true } } 4 q.toNat
    else pairEnd d 3

/-- The peer has not claimed within 1 ms: the module claims again. -/
def handoverTimeout (d : Dev) : Dev :=
  if d.pair.handoverWait then
    let d1 := if d.pair.role = .standby ∧ mayClaim d then claim d else d
    handoverEnd d1 4
  else d

/-- PAIR_CMD RESYNC: the Primary sends, the Standby asks. -/
def pairResync (d : Dev) : Dev :=
  pairCommand d fun d =>
    match d.pair.role with
    | .primary => pairEnd (resyncSend d) 0
    | .standby => pairEnd (resyncAsk d) 0
    | _ => pairEnd d 3

/-- PAIR_CMD FORCE_SINGLE with its KEY. -/
def forceSingle (d : Dev) (key : Byte) : Dev :=
  pairCommand d fun d =>
    if key ≠ 0xA5 then pairEnd d 2
    else if d.pair.role = .isolated then
      pairEnd (pairLeave (wr d 0x1500000 (rd d 0x1500000 &&& 0x7FFFFFFF))) 0
    else pairEnd d 3

def pairBadOp (d : Dev) : Dev := pairCommand d fun d => pairEnd d 1

def pairClear (d : Dev) : Dev := clearCnts d 0x1500040 0x1500078

/-! ## Meanings -/

/-- A pairs frame is received (R416). -/
def onPairs (f : Dev → Dev) (s : State) : Answer := onDev (fun d => if pairsUp d then f d else d) s

def execPairEnable (v : Word) (s : State) : Answer := onDev (pairEnable · v) s
def execPairDisable (v : Word) (s : State) : Answer := onDev (pairDisable · v) s
def execPairHeartbeatTx (s : State) : Answer := onDev heartbeatTx s
def execPairHeartbeatRx (h : PairHdr) (s : State) : Answer := onDev (heartbeatRx · h) s
def execPairHeartbeatMiss (s : State) : Answer := onDev heartbeatMiss s
def execTakeoverBind (s : State) : Answer := onDev takeoverBind s
def execJoinWaitExpire (s : State) : Answer := onDev joinWaitExpire s
def execDominanceLost (loop : Bool) (s : State) : Answer := onDev (dominanceLost · loop) s
def execLoopOpen (s : State) : Answer := onDev loopOpen s
def execLoopRestored (s : State) : Answer := onDev loopRestored s
def execMirrorRecordRx (seq : Word) (m : Mirror) (s : State) : Answer := onPairs (mirrorRx · seq m) s
def execMirrorAckRx (seq : Word) (s : State) : Answer := onPairs (mirrorAck · seq) s
def execMirrorAckTimeout (s : State) : Answer := onDev mirrorAckTimeout s
def execResyncRequestRx (s : State) : Answer := onPairs resyncSend s
def execHandoverRx (seq : Word) (s : State) : Answer := onPairs (handoverRx · seq) s
def execHandover (s : State) : Answer := onDev handover s
def execHandoverTimeout (s : State) : Answer := onDev handoverTimeout s
def execResync (s : State) : Answer := onDev pairResync s
def execForceSingle (key : Byte) (s : State) : Answer := onDev (forceSingle · key) s
def execPairClear (s : State) : Answer := onDev pairClear s
def execPeerLineHigh (s : State) : Answer := onDev peerLineHigh s
def execDupSlotDetected (s : State) : Answer := onDev dupSlot s

end Sys2Proof.Machine
end

