-- ==== Sys2Proof/Machine/BlockWrite.lean ====
section
/-! DEFINITION. What a 32-bit write does to each register of the posted windows DEV, SW, CHT, SLP, BRG, CAN, NWS,
LDC, WGS, FIO and PAIR (R12, R36, and each block's register map). A register with a row of its own takes
the operation of that row; none answers that the address holds no register. -/

namespace Sys2Proof.Machine

/-- The event register whose enables `a` holds, if it is an enable register of World N's manager (R91). -/
def eventOf (a : Nat) : Option Nat :=
  if a = 0x20 then some 0x1C
  else if a = 0x100008 ∨ a = 0x200018 ∨ a = 0x400008 ∨ a = 0x800020 ∨ a = 0xC0000C ∨ a = 0xE0001C
      ∨ a = 0xF00004 ∨ a = 0x100000C ∨ a = 0x1100004 ∨ a = 0x1200008 ∨ a = 0x1300008 ∨ a = 0x1400008
      ∨ a = 0x150000C ∨ a = 0x1600004 then some (a - 4)
  else if 0xD00000 ≤ a ∧ a < 0xE00000 ∧ a % 0x10000 = 0xC then some (a - 4)
  else if 0xE01000 ≤ a ∧ a < 0xE02000 ∧ a % 0x100 = 0x1C then some (a - 4)
  else if 0xF01000 ≤ a ∧ a < 0xF01A00 ∧ a % 0x40 = 0x2C then some (a - 4)
  else if 0x1101000 ≤ a ∧ a < 0x1101800 ∧ a % 0x40 = 0x18 then some (a - 4)
  else none

/-- A write of an enable register: an event held while its enable was 0 raises the manager's vector (R91). -/
def enableWrite (d : Dev) (a ev : Nat) (v : Word) : Dev :=
  let d1 := plainWrite d a v
  if rd d ev &&& rd d1 a &&& ~~~rd d a = 0 then d1 else mgrVec d1

/-- A write of a register whose fields act by their access codes alone. -/
def fieldWrite (d : Dev) (a : Nat) (v : Word) : Dev :=
  match eventOf a with
  | some ev => enableWrite d a ev v
  | none => plainWrite d a v

/-- Do `f` when `b` holds. -/
def doIf (b : Bool) (f : Dev → Dev) (d : Dev) : Dev := if b then f d else d

/-! ## SW (Table 2.9) -/

/-- SW_CNT_CLEAR (Table 2.17). -/
def swClear (d : Dev) (v : Word) : Dev :=
  doIf (bit v 4) swClearPeaks (doIf (bit v 3) swClearPcnt (doIf (bit v 2) swClearGdrop
    (doIf (bit v 1) swClearEdrop (doIf (bit v 0) swClearDrop d))))

/-- A register of the port group of port `p`: ENABLE written 0 discards the port's frames (R67), and PFC is
judged by the new settings (R76). -/
def portWrite (d : Dev) (p o : Nat) (v : Word) : Dev :=
  let a := aPort p o
  if o = 0 then
    let d1 := plainWrite d a v
    pfcJudgeAll (if p < 11 ∧ bit (rd d a) 31 ∧ ¬ bit v 31 then portDisable d1 p else d1) p
  else if o = 0x28 then (if bit v 0 then qbvCommit d p else d)
  else pfcJudgeAll (plainWrite d a v) p

/-- Whether `a` is a Logbook setting that ENABLE = 1 protects (Table 2.32). -/
def lbSetting (a : Nat) : Bool := decide (a = 0x206004 ∨ a = 0x206008 ∨ a = 0x20600C)

/-- A write of the SW block. A write of SW_VLAN[v] takes effect at once: a decision within 0.5 µs of it uses the new
entry, one of the two R62 allows (DESIGN CHOICE, assumption 78). -/
def swWrite (d : Dev) (a : Nat) (v : Word) : Dev :=
  if a = 0x20001C then (if bit v 0 then limitCommit d else d)
  else if a = 0x200030 then swClear d v
  else if 0x203000 ≤ a ∧ a < 0x203380 then portWrite d ((a - 0x203000) / 0x40) (a % 0x40) v
  else if a = 0x206000 then logbookEnable d v
  else if a = 0x204008 then asJudge (fieldWrite d a v)
  else if lbSetting a && bit (rd d 0x206000) 31 then d
  else fieldWrite d a v

/-! ## CHT (Table 3.8) -/

/-- CHT_CMD (Tables 3.5, 3.12). -/
def chtCommand (d : Dev) (v : Word) : Dev :=
  match fld v 31 28 with
  | 1 => chtInsert d
  | 2 => chtUpdate d
  | 3 => chtDelete d
  | 4 => chtTwrite d (fld v 9 0)
  | 5 => chtTdelete d (fld v 9 0)
  | 6 => chtMwrite d
  | _ => chtBadOp d

def chtClearAll (d : Dev) : Dev := clearCnts d 0x440000 0x450000
def chtClearDrops (d : Dev) : Dev := clearCnts d 0x400208 0x400380
def chtClearIndex (d : Dev) (k : Nat) : Dev := clearCnts d (0x440000 + 16 * k) (0x440010 + 16 * k)

/-- CHT_CNT_CLEAR (Table 3.16). -/
def chtClear (d : Dev) (v : Word) : Dev :=
  if bit v 31 || bit v 30 then doIf (bit v 31) chtClearAll (doIf (bit v 30) chtClearDrops d)
  else chtClearIndex d (fld v 11 0)

/-- Table writes are mirrored (R420). -/
def chtWrite (d : Dev) (a : Nat) (v : Word) : Dev :=
  if a = 0x400010 then chtCommand d v
  else if a = 0x400028 then chtClear d v
  else if 0x430000 ≤ a ∧ a < 0x431000 ∧ a % 16 = 8 then mirrorNote (policerWrite d ((a - 0x430000) / 16) v) 0 a
  else if 0x410000 ≤ a ∧ a < 0x430000 then mirrorNote (plainWrite d a v) 0 a
  else fieldWrite d a v

/-! ## SLP and slip windows (Tables 4.14–4.16) -/

/-- RING_CFG of ring `r`: only ENABLE may change while the ring is active (Table 4.30). ENABLE = 0 disables a ring that
R149 stopped, so frames waiting for it leave the high-priority buffer (R193). -/
def ringCfgWrite (d : Dev) (n r : Nat) (v : Word) : Dev :=
  if bit v 31 then ringEnable d n r v
  else if (ringOf d n r).active then ringDisable d n r
  else if bit (rd d (ringBase n r + 0x10)) 31 then hpPurge (plainWrite d (ringBase n r + 0x10) v) n r false
  else plainWrite d (ringBase n r + 0x10) v

/-- A write at offset `o` of the window of slip `n`, by its owner. -/
def windowWrite (d : Dev) (n o : Nat) (v : Word) : Dev :=
  let a := slipWin n + o
  if o = 4 then
    let v := if internalSlip d n then v else v &&& 0x3FFFFFFF
    pendingAll (plainWrite d a v) n
  else if o = 8 then (if bit v 0 then slipCtrlReset d n else d)
  else if o = 0x10 then
    let d1 := plainWrite d a v
    if rd d (a - 4) &&& rd d1 a &&& ~~~rd d a = 0 then d1 else sendVec d1 n (fld (rd d1 (slipWin n + 4)) 2 0)
  else if 0x40 ≤ o ∧ o < 0x140 ∧ (o - 0x40) % 0x20 = 0x10 then ringCfgWrite d n ((o - 0x40) / 0x20) v
  else if 0x40 ≤ o ∧ o < 0x140 ∧ (o - 0x40) % 0x20 < 0x10 ∧ (ringOf d n ((o - 0x40) / 0x20)).active then d
  else if 0x180 ≤ o ∧ o % 16 = 12 then pendingSend (plainWrite d a v) n ((o - 0x180) / 16)
  else plainWrite d a v

/-- In the manager's view only slip 0's window can be written. -/
def slpWrite (d : Dev) (a : Nat) (v : Word) : Dev :=
  if a = 0x800000 then slpCmd d (fld v 31 28) (fld v 11 0)
  else if a = 0x800030 then (if bit v 0 then slpClear d else d)
  else if 0xA00000 ≤ a then (if a < 0xA00200 then windowWrite d 0 (a - 0xA00000) v else d)
  else fieldWrite d a v

/-! ## BRG (Table 5.9) -/

/-- A register of a tunnel group: fields other than the enables only while both are 0 (R174). -/
def tunWrite (d : Dev) (s o : Nat) (v : Word) : Dev :=
  if o = 0 then tunCfgWrite d s v
  else
    let d1 := if bit (tunCfg d s) 31 || bit (tunCfg d s) 30 then d else plainWrite d (tunBase s + o) v
    if o = 0x18 ∧ bit v 28 then tunSwitch d1 s else d1

/-- A write of a BRG register; a change of ALL_STRICT is remembered for reads accepted before it (R160). -/
def brgWrite (d : Dev) (a : Nat) (v : Word) : Dev :=
  if a = 0xC00014 then
    doIf (bit v 2) brgClearLog (doIf (bit v 1) brgClearTun (doIf (bit v 0) brgClearOverwrite d))
  else if 0xC02000 ≤ a ∧ a < 0xC06000 then tunWrite d ((a - 0xC02000) / 0x40) (a % 0x40) v
  else if a = 0xC00000 ∧ bit (rd d a) 31 ≠ bit v 31 then
    let d1 := fieldWrite d a v
    { d1 with brg := { d1.brg with strictSince := d.wall, strictWas := bit (rd d a) 31 } }
  else fieldWrite d a v

/-! ## CAN (Table 6.8) -/

/-- CAN_CTRL: ENABLE 1 leaves CONFIG, ENABLE 0 returns to it; the other fields are taken as written. -/
def canCtrlWrite (d : Dev) (n : Nat) (v : Word) : Dev :=
  if bit v 31 then canEnable d n v else plainWrite (canDisable d n) (canBase n) v

/-- CAN_CMD (Table 6.20). -/
def canCmdWrite (d : Dev) (n : Nat) (v : Word) : Dev :=
  match fld v 31 28 with
  | 1 => canRecover d n
  | 2 => canAbortTx d n
  | _ => canBadOp d n

/-- Word 2 of an acceptance or high-priority entry puts the whole entry in effect (R191). -/
def canEntryWrite (d : Dev) (a : Nat) (v : Word) : Dev :=
  let d1 := plainWrite d a v
  let e := a - 8
  wr (wr d1 (heldAt e) (rd d1 e)) (heldAt e + 4) (rd d1 (e + 4))

def canWrite (d : Dev) (a : Nat) (v : Word) : Dev :=
  let n := (a - 0xD00000) / 0x10000
  let o := a % 0x10000
  if o = 0 then canCtrlWrite d n v
  else if o = 0x34 then canCmdWrite d n v
  else if o = 0x58 then (if bit v 0 then canClear d n else d)
  else if 0x1000 ≤ o ∧ o < 0x1900 ∧ o % 16 = 8 then canEntryWrite d a v
  else fieldWrite d a v

/-! ## NWS (Tables 7.7, 7.8) -/

/-- NWS_HAIL_CMD. -/
def hailCmdWrite (d : Dev) (n : Nat) (v : Word) : Dev :=
  match fld v 31 28 with
  | 1 => hailOrder d n (.call n true)
  | 2 => hailOrder d n (.call n false)
  | 3 => hailOrder d n (.forget n (fld v 5 0))
  | _ => hailBadOp d n

def nwsWrite (d : Dev) (a : Nat) (v : Word) : Dev :=
  if 0xE01000 ≤ a ∧ a < 0xE02000 then
    let n := (a - 0xE01000) / 0x100
    match a % 0x100 with
    | 0x00 => if bit v 31 then nwsEnable d n v else nwsDisable d n v
    | 0x10 => needWrite d n v
    | 0x64 => hailCmdWrite d n v
    | 0x6C => if bit v 0 then nwsClear d n else d
    | _ => fieldWrite d a v
  else fieldWrite d a v

/-! ## LDC, WGS, FIO (Tables 8.9, 9.6, 10.9) -/

/-- A free choice of a segment that fails the off-state test, or none. -/
def freeSegment (d : Dev) : Option (Fin 7) × Dev :=
  let x := drawNat d
  (if x.1 % 8 = 7 then none else some ⟨x.1 % 8 % 7, Nat.mod_lt _ (by decide)⟩, x.2)

/-- LDC_CMD (Table 8.16). -/
def ldcCmdWrite (d : Dev) (v : Word) : Dev :=
  let n := fld v 5 0
  match fld v 31 28 with
  | 1 => ldcApply d n
  | 2 => ldcClearTrip d n
  | 3 => let x := freeSegment d; ldcSegTest x.2 n x.1
  | 4 => ldcRetire d n (fld v 10 8)
  | _ => ldcBadOp d

def ldcWrite (d : Dev) (a : Nat) (v : Word) : Dev :=
  if a = 0xF00010 then ldcCmdWrite d v
  else if a = 0xF0001C then
    if bit v 31 then ldcClearAll d else if fld v 5 0 < 40 then ldcClearCh d (fld v 5 0) else d
  else fieldWrite d a v

def wgsWrite (d : Dev) (a : Nat) (v : Word) : Dev :=
  if a = 0x1000010 then (if fld v 31 28 = 1 then wgsApply d (fld v 5 0) else wgsBadOp d)
  else if a = 0x1000018 then
    if bit v 31 then wgsClearAll d else if fld v 5 0 < 40 then wgsClearCh d (fld v 5 0) else d
  else if a = bankBase 0 ∨ a = bankBase 1 then judgeUnfit (fieldWrite d a v) (if a = bankBase 0 then 0 else 1)
  else fieldWrite d a v

/-- FIO_CMD (Table 10.13). -/
def fioCmdWrite (d : Dev) (v : Word) : Dev :=
  let n := fld v 4 0
  match fld v 31 28 with
  | 1 => fioApply d n
  | 2 => fioClearFault d n
  | 3 => fioSnapshot d n
  | _ => fioBadOp d

/-- FIO_CNT_CLEAR: [31] every counter; with [31] = 0 the channel [4:0], and with [30] the link counters. -/
def fioClearWrite (d : Dev) (v : Word) : Dev :=
  if bit v 31 then fioClearAll d else doIf (bit v 30) fioClearLink (fioClearCh d (fld v 4 0))

def fioWrite (d : Dev) (a : Nat) (v : Word) : Dev :=
  if a = 0x110000C then fioCmdWrite d v
  else if a = 0x1100018 then fioClearWrite d v
  else fieldWrite d a v

/-! ## PAIR (Table 15.12) -/

/-- PAIR_CMD (Table 15.13). -/
def pairCmdWrite (d : Dev) (v : Word) : Dev :=
  match fld v 31 28 with
  | 1 => handover d
  | 2 => pairResync d
  | 3 => forceSingle d (BitVec.ofNat 8 (fld v 23 16))
  | _ => pairBadOp d

def pairWrite (d : Dev) (a : Nat) (v : Word) : Dev :=
  if a = 0x1500000 then (if bit v 31 then pairEnable d v else pairDisable d v)
  else if a = 0x1500010 then pairCmdWrite d v
  else if a = 0x150002C then (if bit v 0 then pairClear d else d)
  else if 0x1500100 ≤ a ∧ a < 0x1500220 then twinJudge (plainWrite d a v) ((a - 0x1500100) / 4)
  else fieldWrite d a v

/-! ## Every posted block -/

/-- A 32-bit write at a BAR0 offset of a posted window other than SVC; none where no register lies. -/
def writeReg (d : Dev) (a : Nat) (v : Word) : Option Dev :=
  if (regDesc a).isNone then none
  else if a < 0x100000 then some (fieldWrite d a v)
  else if a < 0x200000 then none
  else if a < 0x400000 then some (swWrite d a v)
  else if a < 0x800000 then some (chtWrite d a v)
  else if a < 0xC00000 then some (slpWrite d a v)
  else if a < 0xD00000 then some (brgWrite d a v)
  else if a < 0xE00000 then some (canWrite d a v)
  else if a < 0xF00000 then some (nwsWrite d a v)
  else if a < 0x1000000 then some (ldcWrite d a v)
  else if a < 0x1100000 then some (wgsWrite d a v)
  else if a < 0x1200000 then some (fioWrite d a v)
  else if 0x1500000 ≤ a ∧ a < 0x1600000 then some (pairWrite d a v)
  else none

/-! ## Meanings of the Chart's rows -/

def execInsert (s : State) : Answer := onDev chtInsert s
def execUpdate (s : State) : Answer := onDev chtUpdate s
def execDelete (s : State) : Answer := onDev chtDelete s
def execTwrite (i : BitVec 10) (s : State) : Answer := onDev (chtTwrite · i.toNat) s
def execTdelete (i : BitVec 10) (s : State) : Answer := onDev (chtTdelete · i.toNat) s
def execMwrite (s : State) : Answer := onDev chtMwrite s
def execPolicerWrite (k : Fin 256) (w2 : Word) (s : State) : Answer :=
  onDev (fun d => mirrorNote (policerWrite d k w2) 0 (0x430008 + 16 * k.val)) s
def execChtClearAll (s : State) : Answer := onDev chtClearAll s
def execChtClearDrops (s : State) : Answer := onDev chtClearDrops s
def execChtClearIndex (k : Fin 4096) (s : State) : Answer := onDev (chtClearIndex · k) s

end Sys2Proof.Machine
end

