-- ==== Sys2Proof/Machine/Rows.lean ====
section
/-! DEFINITION. The meanings of the rows that are the manager's write of a command, enable or counter-clear register of a
posted window of peripheral space (`rowWrite`), of the doorbells (`bellRow`), of TUN_CFG_WRITE, and a requester's write
of a strict window (`strictWait`): the word each row writes and its effect. -/

namespace Sys2Proof.Machine

/-! ## CAN and NWS (Tables 6.8, 7.7) -/

def execCanEnable (n : Fin 16) (v : Word) (s : State) : Answer :=
  onDev (fun d => rowWrite d (canBase n) (v ||| 0x80000000) (canEnable · n v)) s
def execCanDisable (n : Fin 16) (s : State) : Answer :=
  onDev (fun d => rowWrite d (canBase n) (rd d (canBase n) &&& 0x7FFFFFFF) (canDisable · n)) s
def execRecover (n : Fin 16) (s : State) : Answer :=
  onDev (fun d => rowWrite d (canBase n + 0x34) 0x10000000 (canRecover · n)) s
def execAbortTx (n : Fin 16) (s : State) : Answer :=
  onDev (fun d => rowWrite d (canBase n + 0x34) 0x20000000 (canAbortTx · n)) s
def execCanClear (n : Fin 16) (s : State) : Answer := onDev (fun d => rowWrite d (canBase n + 0x58) 1 (canClear · n)) s
def execNwsEnable (n : Fin 16) (v : Word) (s : State) : Answer :=
  onDev (fun d => rowWrite d (netBase n) (v ||| 0x80000000) (nwsEnable · n v)) s
def execNwsDisable (n : Fin 16) (v : Word) (s : State) : Answer :=
  onDev (fun d => rowWrite d (netBase n) (v &&& 0x7FFFFFFF) (nwsDisable · n v)) s
def execHailCallAll (n : Fin 16) (s : State) : Answer :=
  onDev (fun d => rowWrite d (netBase n + 0x64) 0x10000000 (hailOrder · n (.call n true))) s
def execHailCallNew (n : Fin 16) (s : State) : Answer :=
  onDev (fun d => rowWrite d (netBase n + 0x64) 0x20000000 (hailOrder · n (.call n false))) s
def execForget (n : Fin 16) (m : Fin 64) (s : State) : Answer :=
  onDev (fun d => rowWrite d (netBase n + 0x64) (at_ 3 28 ||| at_ m.val 0) (hailOrder · n (.forget n m))) s
def execNwsClear (n : Fin 16) (s : State) : Answer := onDev (fun d => rowWrite d (netBase n + 0x6C) 1 (nwsClear · n)) s

/-! ## LDC, WGS and FIO (Tables 8.9, 9.6, 10.9) -/

/-- LDC_CMD, WGS_CMD or FIO_CMD at `a` written with an operation and its operand. -/
def commandRow (a op arg : Nat) (k : Dev → Dev) (s : State) : Answer :=
  onDev (fun d => rowWrite d a (at_ op 28 ||| at_ arg 0) k) s

def execLdcApply (n : Fin 64) (s : State) : Answer := commandRow 0xF00010 1 n (ldcApply · n) s
def execClearTrip (n : Fin 64) (s : State) : Answer := commandRow 0xF00010 2 n (ldcClearTrip · n) s
def execSegTest (n : Fin 64) (bad : Option (Fin 7)) (s : State) : Answer :=
  commandRow 0xF00010 3 n (ldcSegTest · n bad) s
def execRetire (n : Fin 64) (seg : Fin 8) (s : State) : Answer :=
  commandRow 0xF00010 4 (256 * seg.val + n.val) (ldcRetire · n seg) s
def execLdcClearAll (s : State) : Answer := onDev (fun d => rowWrite d 0xF0001C 0x80000000 ldcClearAll) s
def execLdcClearChannel (n : Fin 64) (s : State) : Answer :=
  onDev (fun d => rowWrite d 0xF0001C (at_ n.val 0) fun d => if n.val < 40 then ldcClearCh d n else d) s
def execWgsApply (n : Fin 64) (s : State) : Answer := commandRow 0x1000010 1 n (wgsApply · n) s
def execWgsClearAll (s : State) : Answer := onDev (fun d => rowWrite d 0x1000018 0x80000000 wgsClearAll) s
def execWgsClearChannel (n : Fin 64) (s : State) : Answer :=
  onDev (fun d => rowWrite d 0x1000018 (at_ n.val 0) fun d => if n.val < 40 then wgsClearCh d n else d) s
def execFioApply (n : Fin 32) (s : State) : Answer := commandRow 0x110000C 1 n (fioApply · n) s
def execClearFault (n : Fin 32) (s : State) : Answer := commandRow 0x110000C 2 n (fioClearFault · n) s
def execSnapshot (n : Fin 32) (s : State) : Answer := commandRow 0x110000C 3 n (fioSnapshot · n) s
def execFioClearAll (s : State) : Answer := onDev (fun d => rowWrite d 0x1100018 0x80000000 fioClearAll) s
def execFioClearChannel (n : Fin 32) (s : State) : Answer :=
  onDev (fun d => rowWrite d 0x1100018 (at_ n.val 0) (fioClearCh · n)) s
def execFioClearLink (s : State) : Answer := onDev (fun d => rowWrite d 0x1100018 0x40000000 fioClearLink) s

/-! ## Doorbells and tunnel streams (Tables 4.6, 5.10) -/

def execSqTail (n : Fin 4096) (r : Fin 8) (v : BitVec 16) (s : State) : Answer :=
  onDev (fun d => bellRow d n (8 * r.val) (v.setWidth 32) (sqTail · n r v.toNat)) s
def execCqHead (n : Fin 4096) (r : Fin 8) (v : BitVec 16) (s : State) : Answer :=
  onDev (fun d => bellRow d n (8 * r.val + 4) (v.setWidth 32) (cqHead · n r v.toNat)) s
def execLbCons (n : Fin 4096) (v : BitVec 16) (s : State) : Answer :=
  onDev (fun d => bellRow d n 0x40 (v.setWidth 32) (lbCons · n v.toNat)) s
/-- TUN_CFG_WRITE: a prefetched copy of the register's block is dropped (R168, R174). -/
def execTunCfgWrite (k : Fin 256) (v : Word) (s : State) : Answer :=
  onDev (fun d => tunCfgWrite (dropCopies d [tunBase k / 4]) k v) s

/-! ## Strict windows (Tables 11.9, 12.15, 13.14) -/

def execMailboxPost (who : Requester) (s : Fin 16) (header : Word) (st : State) : Answer :=
  onDev (fun d => strictWait d who (aMbxReq s.val 0) header (mbxHeader · who s header)) st
def execAck (who : Requester) (s : Fin 16) (st : State) : Answer :=
  onDev (fun d => strictWait d who (aMbxReq s.val 0 + 0x80) 1 (mbxAck · who s)) st
def execCancel (who : Requester) (s : Fin 16) (st : State) : Answer :=
  onDev (fun d => strictWait d who (aMbxReq s.val 0 + 0x80) 2 (mbxCancel · who s)) st
def execRegionWrite (who : RegionWriter) (m : Fin 5) (r : Fin 64) (v : Word) (s : State) : Answer :=
  onDev (fun d => match who with
    | .worldN q => strictWait d q (aRegion m r 3) v (regionWrite · who m r v)
    | .lock _ _ _ => regionWrite d who m r v) s
/-- BWK_HB_QM: the Quaymaster's kick, behind its own earlier accesses (R156). -/
def execBwkHbQm (seq : BitVec 8) (s : State) : Answer :=
  onDev (fun d =>
    if !qmAwake d then d
    else match strictAhead d .qm 0x1200018 (seq.setWidth 32) with
      | some d1 => d1
      | none => beatQm d seq) s

end Sys2Proof.Machine
end

