-- ==== Sys2Proof/Machine/Svc.lean ====
section
/-! DEFINITION. Service life and images (15): the SVC commands, applying and replaying configurations, and the
failures of wearing resources. -/

namespace Sys2Proof.Machine

/-- SVC_RESULT. -/
def svcEnd (d : Dev) (st : Nat) : Dev := resultEnd d 0x160000C (at_ st 27)

/-- One SVC command at a time (R439). -/
def svcCommand (d : Dev) (k : Dev → Dev) : Dev :=
  if resultValid d 0x160000C then k (resultBegin d 0x160000C) else evSvc d 6 0

/-! ## STAGE (R430, Table 15.10) -/

/-- A STAGE of type `t` ends: the inactive bank holds `b`. -/
def stageEnd (d : Dev) (t : Nat) (b : ImgBank) (st : Nat) : Dev :=
  evSvc (svcEnd (setImgType d t ((imgType d t).setInact b)) st) 2 t

/-- The DMA of a STAGE: SVC_IMG_LEN bytes from SVC_IMG_ADDR in slip 0's address space (R430); its split into requests and
their tags are left out (DESIGN CHOICE, assumption 56). -/
def stageRead (d : Dev) : Dev := emit d (.readReq 0 0 (rd64 d 0x1600018) (fld (rd d 0x1600020) 24 0))

/-- SVC_CMD STAGE of what the DMA of SVC_IMG_LEN bytes read; a power failure meanwhile leaves the inactive bank invalid and
the command without an outcome (R430). -/
def svcStage (d : Dev) (t : Nat) (image : StageRead) : Dev :=
  svcCommand d fun d =>
    if t < 1 ∨ 4 < t then svcEnd d 2
    else if 16777216 < fld (rd d 0x1600020) 24 0 then evSvc (svcEnd d 4) 2 t
    else
      let d := stageRead d
      match image with
      | .cut => setImgType d t ((imgType d t).setInact {})
      | .failed => stageEnd d t {} 3
      | .whole b =>
        let img := b.take (fld (rd d 0x1600020) 24 0)
        match imageStatus d img t with
        | 0 => stageEnd d t (bankOfImage img) 0
        | st => stageEnd d t {} st

/-! ## Applying a configuration (R431–R434) -/

/-- STATUS of a result word (R40): four bits in CHT, SLP and BWK, three elsewhere. -/
def resultStatus (d : Dev) (a : Nat) : Nat :=
  if a = 0x400014 ∨ a = 0x80000C ∨ a = 0x1200010 then fld (rd d a) 30 27 else fld (rd d a) 30 28

/-- SVC_CFG_STATE. -/
def cfgSet (d : Dev) (st : Nat) : Dev := { d with svc := { d.svc with cfgState := st } }

def setApply (d : Dev) (a : Option CfgApply) : Dev := { d with svc := { d.svc with applying := a } }

/-- Applying stops at a command that ended outside OK_MASK (R433). -/
def applyFail (d : Dev) (a : CfgApply) : Dev :=
  let d1 := cfgSet (setApply d none) 2
  let d2 := evSvc (wr d1 0x1600010 (at_ a.at_.1 24 ||| at_ (a.at_.2 % 2 ^ 24) 0)) 5 4
  if a.replay then d2 else svcEnd d2 12

/-- Every record has succeeded: the image becomes active and is stored (R433, R434). -/
def applyDone (d : Dev) (a : CfgApply) : Dev :=
  let d1 := cfgSet (setApply d none) 1
  if a.replay then d1
  else
    let x := imgType d1 4
    let b := x.inact
    let d2 := setImgType d1 4 { x with active := !x.active, fallback := false }
    let d3 : Dev := { d2 with svc := { d2.svc with
      cfgGen := b.gen, store := if b.delta then d2.svc.store ++ [b.image] else [b.image] } }
    svcEnd (evSvc (mirrorNote d3 8 (d3.svc.store.length - 1)) 3 4) 0

/-- The Quaymaster writes a register of a posted window: a requester's write like any other (R155, R164, R170, R171). -/
def qmWrite (d : Dev) (off : Nat) (value : Word) : Dev :=
  let p : BusPart := ⟨0, 4, value.setWidth 64, .responds⟩
  let e := accessOf d .qm (.bar0 (BitVec.ofNat 26 off)) (.write [p] false)
  let d1 := busAccepted d e
  if busWaits d1 d1.brg.queue e then busHold d1 e
  else
    let x := takeError d1 (if farCause d1 off ≠ 0 then partFails d1 e p (farCause d1 off) 0
      else match writeReg (breakReservations d1 .qm off) off value with
        | some y => y
        | none => partFails d1 e p 1 0) .qm
    if e.strict then strictOutcome x.2 .qm off 4 x.1 else x.2

/-- Do one piece of work: the result word to wait for, its accepted outcomes and the SEQ before it. -/
def applyOne (d : Dev) : CfgWork → Option (Nat × Word × Nat) × Dev
  | .write off value result mask =>
    let d1 := qmWrite d off value
    (if result = 0 then none else some (result, mask, fld (rd d result) 15 0), d1)
  | .rules words =>
    let d1 := words.foldl (fun d e => bankWrite d e.1 e.2) d
    (some (0x1200010, 1, fld (rd d 0x1200010) 15 0), bwkCommit d1)
  | .learn t => (none, mirrorNote { d with svc := { d.svc with templates := t, inserted := [] } } 1 0)

/-- Whether the awaited outcome has come, and whether it is accepted. -/
def outcomeOf (d : Dev) (w : Nat × Word × Nat) : Option Bool :=
  if resultValid d w.1 ∧ fld (rd d w.1) 15 0 ≠ w.2.2 then some (bit w.2.1 (resultStatus d w.1)) else none

/-- The Quaymaster writes BWK_LOAD and COMMIT behind its own posted writes (R156), and while no CHECK or COMMIT runs, in
which BWK_LOAD refuses writes (R324); until then it waits (DESIGN CHOICE, assumption 118). -/
def rulesWait (d : Dev) (w : CfgWork) : Bool :=
  match w with
  | .rules _ => d.brg.queue.any (fun q => decide (q.who = .qm)) || !resultValid d 0x1200010 || d.bwk.commit
  | _ => false

/-- Go on applying, piece by piece, until an outcome has to be waited for. -/
def applyList (d : Dev) (a : CfgApply) : List (Nat × Nat × CfgWork) → Dev
  | [] => applyDone d a
  | (i, j, w) :: t =>
    if rulesWait d w then setApply d (some { a with work := (i, j, w) :: t, wait := none }) else
    let x := applyOne d w
    let b : CfgApply := { a with work := t, wait := x.1, at_ := (i, j) }
    match x.1 with
    | none => applyList x.2 b t
    | some q =>
      match outcomeOf x.2 q with
      | none => setApply x.2 (some b)
      | some true => applyList x.2 { b with wait := none } t
      | some false => applyFail x.2 b

/-- The Quaymaster looks at the outcome it waits for and goes on. -/
def applyResume (d : Dev) : Dev :=
  if !qmAwake d then d
  else match d.svc.applying with
  | none => d
  | some a =>
    match a.wait with
    | none => applyList d a a.work
    | some q =>
      match outcomeOf d q with
      | none => d
      | some true => applyList d { a with wait := none } a.work
      | some false => applyFail d a

/-- Start to apply a piece of work list. -/
def applyStart (d : Dev) (work : List (Nat × Nat × CfgWork)) (replay : Bool) : Dev :=
  applyList (cfgSet d 3) { replay := replay } work

/-- What a replay at E4 runs: at Fabric reach only records of DEV, SW, CHT, SLP, BRG and PAIR, and no RULES
(R434). -/
def replayKeeps (fabricOnly : Bool) : CfgWork → Bool
  | .write off _ _ _ => !fabricOnly || decide (off < 0xD00000) || decide (0x1500000 ≤ off)
  | .rules _ => !fabricOnly
  | .learn _ => true

/-- E4 of a single or Primary module replays the store (R434). -/
def replayStore (d : Dev) (fabricOnly : Bool) : Dev :=
  if d.svc.store = [] ∨ ¬ hasAuthority d then d
  else applyStart d ((d.svc.store.flatMap imageWork).filter fun w => replayKeeps fabricOnly w.2.2) true

/-! ## ACTIVATE, REVERT, RAISE_SVN (R433, R435, R436) -/

/-- A live peer that shares no mirror format with a Quaymaster image (R425). -/
def pairFmtBad (d : Dev) (t : Nat) (b : ImgBank) : Bool :=
  decide (t = 1) && d.pair.peerLive && (fmtCommon d (b.fmtMin, b.fmtMax)).isNone

/-- The inactive bank of a firmware type becomes active (Table 15.11); with the Quaymaster's, the pair's mirror format is
judged anew (R425). -/
def firmwareSwitch (d : Dev) (t : Nat) : Dev :=
  let x := imgType d t
  if !x.inact.valid then svcEnd d 10
  else if pairFmtBad d t x.inact then svcEnd d 11
  else
    let d1 := evSvc (svcEnd (setImgType d t { x with active := !x.active, fallback := false }) 0) 3 t
    if t = 1 ∧ d.pair.peerLive then fmtJudge d1 else d1

/-- SVC_CMD ACTIVATE. -/
def svcActivate (d : Dev) (t : Nat) : Dev :=
  svcCommand d fun d =>
    if t < 1 ∨ 4 < t then svcEnd d 2
    else if t < 4 then firmwareSwitch d t
    else
      let b := (imgType d 4).inact
      if !b.valid then svcEnd d 10
      else if b.delta ∧ b.base ≠ d.svc.cfgGen then svcEnd d 9
      else if b.delta ∧ 16 ≤ d.svc.store.length then svcEnd d 14
      else applyStart d (imageWork b.image) false

/-- SVC_CMD REVERT. -/
def svcRevert (d : Dev) (t : Nat) : Dev :=
  svcCommand d fun d => if t < 1 ∨ 3 < t then svcEnd d 2 else firmwareSwitch d t

/-- SVC_CMD RAISE_SVN: one fuse row raises the minimum to the active image's SVN. -/
def svcRaiseSvn (d : Dev) (t : Nat) (key : Byte) : Dev :=
  svcCommand d fun d =>
    let x := imgType d t
    if t < 1 ∨ 3 < t then svcEnd d 2
    else if key ≠ 0xA5 then svcEnd d 13
    else if 16 ≤ x.svnRows then svcEnd d 15
    else if x.act.svn.toNat ≤ x.svnMin.toNat then svcEnd d 0
    else
      reserveNote (svcEnd (emit (setImgType d t { x with svnRows := x.svnRows + 1, svnMin := x.act.svn })
        (.flash 15 t)) 0) 10

def svcBadOp (d : Dev) : Dev := svcCommand d fun d => svcEnd d 1

/-! ## Wearing resources (R427, Table 15.5) -/

/-- A converter phase fails: of the PFC (r 5) or of the load rail (r 6). With none to replace it the budget in effect of Bank
A is halved, and Slalom sheds (Table 15.5). -/
def phaseFail (d : Dev) (rail : Bool) : Dev :=
  let r := if rail then 6 else 5
  if reserveLeft d r = 0 then shedAll (judgeUnfit (reserveJudge (reserveLost d r) r) 0) 24 else reserveBring d r

/-- A flash erase block fails. -/
def flashBlockFail (d : Dev) : Dev :=
  if reserveLeft d 4 = 0 then reserveJudge (reserveLost d 4) 4 else reserveBring d 4

/-- The daily measurement of the bulk bank, in per cent to end of life. -/
def bulkMeasure (d : Dev) (percent : Nat) : Dev :=
  reserveJudge { d with svc := { d.svc with bulkCap := min 100 percent } } 7

/-! ## Register writes of SVC (Table 15.15) -/

/-- SVC_CMD (Table 15.16). A STAGE written as a register reads bytes this model has no source for but the
STAGE command: whether the DMA fails, and what it reads, are free values, the bytes of the length asked for. -/
def svcCmdWrite (d : Dev) (v : Word) : Dev :=
  let t := fld v 27 24
  match fld v 31 28 with
  | 1 =>
    let f := drawNat d
    let x := drawBytes f.2 (fld (rd d 0x1600020) 24 0)
    svcStage x.2 t (if f.1 = 0 then .failed else .whole x.1)
  | 2 => svcActivate d t
  | 3 => svcRevert d t
  | 4 => svcRaiseSvn d t (BitVec.ofNat 8 (fld v 23 16))
  | _ => svcBadOp d

def svcWrite (d : Dev) (a : Nat) (v : Word) : Dev :=
  if a = 0x1600008 then svcCmdWrite d v else fieldWrite d a v

/-! ## Meanings -/

def execStage (t : Fin 16) (image : StageRead) (s : State) : Answer := onDev (svcStage · t image) s
def execActivate (t : Fin 16) (s : State) : Answer := onDev (svcActivate · t) s
def execRevert (t : Fin 16) (s : State) : Answer := onDev (svcRevert · t) s
def execRaiseSvn (t : Fin 16) (key : Byte) (s : State) : Answer := onDev (svcRaiseSvn · t key) s
def execConverterPhaseFail (rail : Bool) (s : State) : Answer := onDev (phaseFail · rail) s
def execFlashBlockFail (s : State) : Answer := onDev flashBlockFail s
def execBulkCapMeasure (percent : Nat) (s : State) : Answer := onDev (bulkMeasure · percent) s

end Sys2Proof.Machine
end

