-- ==== Sys2Proof/Machine/Reset.lean ====
section
/-! DEFINITION. Reset, clocks and power states (14): sources, reaches and episodes, what each reach resets, the
exit sequence, power states and wakes, the fuse map, and block clock gates. -/

namespace Sys2Proof.Machine

/-! ## Reaches (Tables 1.7, 14.5, 14.6) -/

/-- The domains of RST_DOMAIN that a reach resets: 1 Cluster, 2 Fabric, 3 Module, 4 Cold. -/
def reachMask (reach : Nat) : BitVec 8 :=
  match reach with
  | 0 => 0
  | 1 => 0x80
  | 2 => 0xC0
  | _ => 0xFF

/-- The first exit step a reach runs (Table 14.6). -/
def firstStep (reach : Nat) : Nat :=
  match reach with
  | 1 => 5
  | 2 => 3
  | 3 => 1
  | _ => 0

def setRst (d : Dev) (r : Rst) : Dev := { d with rst := r }

/-- RST_RESULT. -/
def rstEnd (d : Dev) (st : Nat) : Dev :=
  resultEnd (setRst d { d.rst with cmdWait := false }) 0x100014 (at_ st 27)

/-- RST_CNT[k]. -/
def rstInc (d : Dev) (k : Nat) : Dev := inc d (0x100300 + 8 * k)

/-- The widest reach among the asserted sources; 0 when none is asserted (R398). -/
def effReach (d : Dev) : Nat :=
  d.rst.srcReach.foldl (fun a e => if d.rst.sources.getLsbD e.1 then max a e.2 else a) 0

/-! ## The fuse map (R406) -/

/-- The highest row with a good CRC. -/
def goodRow (d : Dev) : Nat × List Word :=
  let rows := d.rst.rows.mapIdx fun i r => (i, r)
  match (rows.filter fun e => e.2.good).getLast? with
  | some e => (e.1, e.2.words)
  | none => (0, [0, 0, 0, 0, 0])

/-- The map is read at every assertion of a Module or Cold reach. -/
def fmapRead (d : Dev) : Dev :=
  let g := goodRow d
  setRst d { d.rst with fmap := g.2, fmapRow := g.1 }

/-! ## What a Cluster reach resets (12) -/

/-- Reservations of cluster LRs end. -/
def lrRelease (d : Dev) : Dev :=
  (List.range 64).foldl (fun d s =>
    if (semOf d s).held ∧ (semOf d s).kind = .lr then setSem d s {} else d) d

/-- The cluster enters reset: harts stop, its registers and interrupt files are cleared, every internal slip is
reset and the cluster's mailbox slots are released (Tables 4.12, 12.9). -/
def clusterEnter (d : Dev) : Dev :=
  let c := d.clt
  let d1 : Dev := { d with clt := { c with
    halted := 0, imsic := [], wdog := 0, timerPend := 0, cachePoison := [], triggers := [] } }
  let d2 := lrRelease (resetRegs d1 0x4000000 0x4010000)
  let d3 := ((created d2).filter (internalSlip d2)).foldl (fun d n => slipReset d n false false) d2
  mbxOwnerReset d3 12 16

/-! ## What a Fabric reach resets (01–05, 15) -/

/-- Every slip becomes FREE and slip 0 is created again; incarnations go on (R125, R166). Every resource that is not
UNBOUND reads HELD without an owner, one that already had none included (DEDUCED, assumption 49). -/
def fabricSlips (d : Dev) : Dev :=
  let bump (s : Slip) : BitVec 8 := if s.state = .free then s.inc else s.inc + 1
  let kept := (d.slips.tab.map fun e => (e.1, ({ inc := bump e.2 } : Slip))).filter fun e => e.2 != {}
  let res := d.slips.res.filterMap fun e =>
    if e.2.state = .unbound then none
    else some (e.1, { e.2 with state := ResState.held, owner := 0, applying := false })
  let d1 : Dev := { d with slips := {
    tab := tset {} kept 0 { slip0 with inc := bump (slipOf d 0) }, res := res } }
  clearCnts (resetRegs d1 0x800000 0xC00000) 0x800000 0xC00000

/-- Every frame loaded in a channel is abandoned, and its high-priority buffer skips what it holds (Table 6.5,
R193). -/
def fabricCan (d : Dev) : Dev :=
  (List.range 16).foldl (fun d n =>
    let d1 := canAbandonOff d n
    let c := canOf d1 n
    setCan (cntAdd d1 (aCanCnt n 15) c.hp.length) n { c with hp := [] }) d

/-- The Quaymaster's Hail calls and its neighbour table end; a command that waited for its call gets an outcome
the spec does not state, a free value. -/
def fabricNws (d : Dev) : Dev :=
  let calls := (List.range 16).foldl (fun d n =>
    let x := netOf d n
    let d1 := setNet d n { x with
      callOpen := false, callDue := false, callCmd := false, callAll := false, hailHeld := 0 }
    if resultValid d (netBase n + 0x68) then d1
    else let f := drawNat d1; hailEnd f.2 n (f.1 % 2)) d
  (List.range 11).foldl (fun d p =>
    let had := (List.range 4).any fun k => (nbrOf d p k).isSome
    let d1 := (List.range 4).foldl (fun d k => setNbr d p k none) d
    if had then evLldp d1 1 p else d1) { calls with nws := { calls.nws with copies := [] } }

/-- The Basin starts from the retirement map in flash, with no frame (the model's frame numbers run on), and tests its cells (R46, R47). -/
def fabricBasin (d : Dev) : Dev :=
  let l := d.basin.savedRetired
  { d with
    basin := { nextUid := d.basin.nextUid, savedRetired := l, retiredCells := l, retired := l.length, spares := 6144 - l.length
               poolCells := 98304 - (l.length - 6144), marching := true }
    ports := [], ms := [], lb := {}, as_ := {} }

/-- The pair: the line is released and the role becomes SEEKING while EN = 1 (R414, Table 15.1). -/
def fabricPair (d : Dev) : Dev :=
  if pairEn d then
    let d1 := handoverEnd (releaseLine d) 4
    setRole { d1 with pair := { d1.pair with
      joinAt := d.wall
      peerLive := false, mirrorSync := false, resyncing := false, rebase := false, handoverHeld := false
      takeover := false } } .seeking
  else d

/-- The domains that MOORED held at retention are clocked again: the CAN controllers and the device side of field I/O
take note of what the transceivers and the field side met meanwhile (R393; DEDUCED, assumption 113). -/
def moorWake (d : Dev) : Dev := fieldWake ((List.range 16).foldl canFaultJudge d)

/-- A power-state transition is abandoned, the field side's park with it (R303): the outcome of the command that began it is a free value, and wakes
that were latched count as served (Table 14.3). -/
def powerAbandon (d : Dev) : Dev :=
  let r := d.rst
  let d0 := if r.pstate = .moored ∨ r.pstate = .mooring then fieldUnpark d else d
  let d1 := setRst d0 { r with
    wakeLatched := false
    pstate := if r.pstate = .moored ∨ r.pstate = .mooring then .unmooring else r.pstate }
  let d1' := if r.pstate = .moored then moorWake (emit d1 (.pin 2 true)) else d1
  let d2 := if r.wakeLatched then evRst (rstInc d1' 4) 2 else d1'
  if r.cmdWait then let f := drawNat d2; rstEnd f.2 (f.1 % 12) else d2

/-- The fabric enters reset. BRG_SMAC keeps its value (05, after Table 5.14). A shedding level that falls to 0 here
sets SHED_EVT as every change of it does (DESIGN CHOICE, assumption 85: R30 has every change set the bit, R41 has a
Fabric reset leave DEV_EVENT unchanged). -/
def fabricEnter (d : Dev) : Dev :=
  let d1 := fabricCan (fabricSlips (fabricPair d))
  let d2 := fabricBasin (fabricNws (mbxOwnerReset d1 0 12))
  let d3 := clearCnts (resetRegs d2 0x200000 0x800000) 0x200000 0x800000
  let d4 := clearCnts (resetRegs (resetRegs d3 0xC00000 0xC00018) 0xC00020 0xD00000) 0xC00000 0xD00000
  let shed := decide (d4.qm.shed ≠ 0)
  let d5 : Dev := { d4 with
    cht := {}, brg := {}, qm := {}
    keys := { d4.keys with tunFrom := [], msFrom := [] }
    clt := { d4.clt with epoch := d4.wall, qmHalted := false }
    svc := { d4.svc with inserted := [] }
    rst := { d4.rst with qmRunning := false, qmKick := none, hostLink := false } }
  let d6 := if shed then evDev d5 1 else d5
  let d7 := match d6.svc.applying with
    | some a => if a.replay then setApply d6 none else svcEnd (cfgSet (setApply d6 none) 2) 12
    | none => d6
  powerAbandon d7

/-! ## What a Module reach resets (06–13, 15) -/

/-- One load channel: a gate whose fuse-map entry is off is turned off, one whose entry is on is kept; then the
channel follows the fuse map (R402, Tables 8.7, 9.2). For source 3 the gates fall by the clamp. -/
def moduleLoad (d : Dev) (clampAll : Bool) (n : Nat) : Dev :=
  let on := fuseOn d n
  let x0 := loadOf d n
  let d1 := if clampAll then (if x0.gate || x0.ramping then clampOff d n else d)
    else if x0.gate && !on then turnOff d n else d
  let x := loadOf d1 n
  setLoad d1 n {
    gate := x.gate, ramping := x.ramping, clamping := x.clamping, rampI0 := x.rampI0, onAt := x.onAt
    retiredSegs := x.retiredSegs, spareIn := x.spareIn, lastCause := x.lastCause
    cur := x.cur, tj := x.tj, nowMa := x.nowMa, meanMa := x.meanMa, changeTs := x.changeTs, theta := x.theta
    recorded := on, permit := on, forced := true, forceOn := on, ungated := x0.gate
    slState := if x.gate then .on else if x.ramping then .ramping else .off }

/-- Every load channel and bank. -/
def moduleLoads (d : Dev) (clampAll : Bool) : Dev :=
  let d1 := (List.range 40).foldl (fun d n => moduleLoad d clampAll n) d
  let bank (b : Nat) (d : Dev) : Dev :=
    let k := bankOf d b
    setBank d b { outOfRange := k.outOfRange, reversed := k.reversed, volt := k.volt, curr := k.curr }
  let d2 := resetRegs (bank 1 (bank 0 d1)) 0xF00000 0x1100000
  (List.range 40).foldl (fun d n => clearCnts d (aLdcCnt n 0) (aLdcCnt n 10))
    (clearCnts d2 0x1000000 0x1100000)

/-- Every gate whose fuse-map entry is off is turned off (R402). -/
def loadsOff (d : Dev) : Dev :=
  (List.range 40).foldl (fun d n => if (loadOf d n).gate && !fuseOn d n then turnOff d n else d) d

/-- Whether a turn-off of some load channel has not ended. -/
def loadsEnding (d : Dev) : Bool := (List.range 40).any fun n => (loadOf d n).ramping || (loadOf d n).clamping

/-- The load-channel domain enters reset: the wire guard saves first (R268), but not at a Cold reach. -/
def loadsReset (d : Dev) (cold clampAll : Bool) : Dev :=
  let d1 := moduleLoads (if cold then d else wgSave d true) clampAll
  { d1 with ldc := { d1.ldc with resetDue := false }, rst := { d1.rst with inReset := d1.rst.inReset ||| 2 } }

/-- The last turn-off that the reset of the load-channel domain waited for has ended (R402). -/
def loadsDue (d : Dev) : Dev := if d.ldc.resetDue && !loadsEnding d then loadsReset d false false else d

/-- Logic power fails while the Module domains are already in reset: the gates the hold kept fall by the clamp (R402). -/
def clampLoads (d : Dev) : Dev :=
  if d.ldc.resetDue then loadsReset d false true
  else (List.range 40).foldl (fun d n =>
    if (loadOf d n).gate || (loadOf d n).ramping then clampOff d n else d) d

/-- MODE of a field channel from its fuse-map entry (Table 14.8). -/
def fuseMode (e : Nat) : Nat := match e with | 0 => 1 | 1 => 2 | 2 => 2 | _ => 0

/-- Field I/O: modes from the fuse map, outputs driven as it says but those of a quad out of range, which show fault 4;
counts 0 (R284, Table 10.7, R403). -/
def moduleFio (d : Dev) : Dev :=
  let d1 := clearCnts (resetRegs d 0x1100000 0x1200000) 0x1100000 0x1200000
  let f := d1.fio
  let chan (n : Nat) : Nat × FieldCh :=
    let on := decide (fuseEntry d1 (40 + n) = 2)
    let out := decide (1 ≤ fuseEntry d1 (40 + n) ∧ fuseEntry d1 (40 + n) ≤ 2)
    let bad := f.quadBad.getLsbD (n / 4)
    (n, { recorded := on, permit := on, forced := out
          forceOn := on, state := (fieldOf d n).state, req := on, want := on
          drive := on && !bad && !d1.ldc.gateHold, repFault := if out && bad then 4 else 0 })
  let d2 : Dev := { d1 with fio := {
    ch := ((List.range 32).map chan).filter fun e => e.2 != {}
    quadBad := f.quadBad, quadTold := f.quadBad, quadVolt := f.quadVolt } }
  (List.range 32).foldl (fun d n =>
    let m := fuseMode (fuseEntry d (40 + n))
    let a := fioBase n
    let put (d : Dev) (a : Nat) : Dev := wr d a ((rd d a &&& 0x3FFFFFFF) ||| at_ m 30)
    put (put d a) (a + 8)) d2

/-- CAN channels with their networks: CONFIG and reset values; the transceivers' faults stay (Table 6.6). -/
def moduleCan (d : Dev) : Dev :=
  let d1 := clearCnts (resetRegs d 0xD00000 0xF00000) 0xD00000 0xF00000
  let d2 := resetRegs d1 (heldAt 0xD00000) (heldAt 0xF00000)
  let can := d2.can.filterMap fun e =>
    let c : Can := { supplyFault := e.2.supplyFault, thermalFault := e.2.thermalFault }
    if c = {} then none else some (e.1, c)
  { d2 with can := can, nws := {} }

/-- The Breakwater, worlds, key store, pair and service registers. The key slots, the life cycle and the
records in flash and fuses stay. -/
def moduleCore (d : Dev) : Dev :=
  let d1 := clearCnts (resetRegs d 0x1200000 0x1700000) 0x1200000 0x1700000
  let w := d1.wld
  let d2 : Dev := { d1 with bwk := {}, wld := { total := 0 } }
  let d3 := if w.nInv || w.sInv then debugResume d2 else d2
  let k := d3.keys
  let p := d3.pair
  { d3 with
    keys := { k with ready := false, mbx := [], job := none, challenge := none }
    pair := { strap := p.strap, loopOk := p.loopOk, peerLow := p.peerLow }
    svc := { d3.svc with applying := none, cfgState := 0, templates := [], inserted := [] } }

/-- BRG_SMAC returns to the fused base MAC, which a Fabric reset leaves as it is (Table 5.14). -/
def smacReset (d : Dev) : Dev := resetRegs d 0xC00018 0xC00020

/-- The Module domains enter reset: the fuse map is read, and everything on them takes its reset values; but the
load-channel domain only once every turn-off that this begins has ended, except at source 3 or a Cold reach, where the
gates fall by the clamp (R402). Records still in the log's staging queue are lost (R145). -/
def moduleEnter (d : Dev) (cold clampAll : Bool) : Dev :=
  let d0 := if d.bwk.anchored then evDev d 2 else d
  let d1 := fmapRead d0
  let off := loadsOff d1
  let d2 := if clampAll then loadsReset d1 cold true
    else if loadsEnding off then { off with ldc := { off.ldc with resetDue := true } } else loadsReset off false false
  let d3 := clearCnts (resetRegs d2 0 0x100000) 0 0x100000
  let d4 := smacReset (moduleCore (moduleCan (moduleFio d3)))
  { d4 with
    slips := { d4.slips with res := [] }
    log := { d4.log with staging := [], lost := 0 } }

/-! ## What a Cold reach resets -/

/-- The always-on domain starts over: its registers and counters, the backup registers, the device's own retained
records, and the gate hold of R403, which keeps field outputs off too; segment maps and wear records are those in flash (R235, R466). -/
def coldEnter (d : Dev) : Dev :=
  let d1 := clearCnts (resetRegs d 0x100000 0x200000) 0x100000 0x200000
  let g := goodRow d1
  let d2 : Dev := { d1 with
    ldc := { d1.ldc with gateHold := true, recA := none, recB := none, recNext := false, restore := 1, elapsed := 0 }
    clt := { d1.clt with poison := [], dramCe := [] }
    timeOff := -(d1.wall : Int), aonTime := 0, aonAt := 0
    rst := { d1.rst with
      fmap := g.2, fmapRow := g.1, aonEpoch := d1.wall, aonAdj := 0, causeTs := 0, causeReach := 4, causeSources := 2, causeEsc := false, pstate := .underway, wakeLatched := false
      wakeCause := 0, wakeChan := 0, wakeTs := 0, wakeSeen := false, clkFail := false, xtalFail := false, held := 0
      powerFail := false, wakeN := false } }
  (List.range 40).foldl (fun d n =>
    let m := tget (0, false, 0) d.ldc.maps n
    let w := tget (0, 0, 0) d.ldc.wear n
    let d3 := setLoad d n { loadOf d n with
      recorded := false
      retiredSegs := BitVec.ofNat 7 m.1, spareIn := m.2.1, lastCause := m.2.2 }
    cntSet (cntSet (cntSet d3 (aLdcCnt n 10) w.1) (aLdcCnt n 11) w.2.1) (aLdcCnt n 12) w.2.2)
    ((List.range 32).foldl (fun d n => setField d n { fieldOf d n with drive := false }) d2)

/-- Memory at a Cold reach: only flash keeps its contents (R404, Table 12.10). -/
def coldMem (l : List Host.Cell) : List Host.Cell := memZero (memZero (memZero (memZero l 0) 1) 2) 3

/-! ## Asserting a source (R398, R400) -/

/-- CLKREQ_N is driven low while the module is powered, and VREF is on outside MOORED (R461, R462). -/
def powerPins (d : Dev) (on : Bool) : Dev := emit (emit d (.pin 1 (!on))) (.pin 2 on)

/-- The domains a reach covers enter reset, each when the first source covering it asserts; one that has already
left reset enters it again. -/
def reachEnter (d : Dev) (reach : Nat) (clampAll : Bool) : Dev :=
  let up (b : Nat) : Bool := domUp d b
  let d1 := if up 7 then clusterEnter d else d
  let d1' := if 2 ≤ reach ∧ up 6 then fabricEnter d1 else d1
  let d2 := setRst d1' { d1'.rst with inReset := d1'.rst.inReset ||| reachMask (min reach 2) }
  let parts := (List.range 6).any fun b => up b && !(decide (b = 1) && d.ldc.resetDue)
  let d3 := if 3 ≤ reach ∧ (parts ∨ reach = 4) then moduleEnter d2 (decide (reach = 4)) clampAll
    else if 3 ≤ reach ∧ clampAll then clampLoads d2 else d2
  let d4 := if reach = 4 then coldEnter d3 else d3
  let held := d4.rst.held &&& ~~~reachMask reach
  setRst d4 { d4.rst with
    inReset := d4.rst.inReset ||| (reachMask reach &&& if d4.ldc.resetDue then ~~~2 else 0xFF)
    held := held
    clkFail := decide (held ≠ 0)
    startDue := false
    nextStep := min d4.rst.nextStep (firstStep reach) }

/-- Source `c` asserts a reach. With the logic supply the gate-drive rail fails (R402, R453), and CLKREQ_N is released
(R461). -/
def assertSource (d : Dev) (c reach : Nat) : Dev :=
  let r := d.rst
  let m : BitVec 16 := 1#16 <<< c
  let r1 : Rst :=
    if r.episode then { r with epReach := max r.epReach reach, epSources := r.epSources ||| m }
    else { r with
      episode := true, epReach := reach, epSources := m, escalated := false, escFabric := false
      escCluster := false, causeTs := aonCount d, nextStep := firstStep reach }
  let d1 := setRst d { r1 with sources := r1.sources ||| m, srcReach := tput r1.srcReach c reach }
  let d2 := if c = 3 then { d1 with ldc := { d1.ldc with gateUv := true } } else d1
  let d3 := reachEnter d2 reach (decide (c = 3) || decide (reach = 4))
  if c = 3 then powerPins d3 false else d3

/-- A Cold reach also clears the memories on the always-on rail and the DRAM and SRAM. -/
def assertState (s : State) (c reach : Nat) : State :=
  { s with mem := if reach = 4 then coldMem s.mem else s.mem, dev := assertSource s.dev c reach }

/-- A source releases (Table 14.5). -/
def sourceRelease (d : Dev) (c : Nat) : Dev :=
  let back := decide (c = 3) && d.rst.sources.getLsbD 3
  let d1 := setRst d { d.rst with sources := d.rst.sources &&& ~~~(1#16 <<< c) }
  if back then powerPins { d1 with ldc := { d1.ldc with gateUv := false } } true else d1

/-! ## The exit sequence (R399, Table 14.6) -/

/-- A bank of an image type fails its check at start: the other bank serves (R430). -/
def imgFallback (d : Dev) (t : Nat) (bad : BitVec 4) : Dev :=
  if bad.getLsbD (t - 1) then
    let x := imgType d t
    evSvc (setImgType d t { x with active := !x.active, fallback := true }) 4 t
  else d

/-- Domains leave reset. -/
def leaveReset (d : Dev) (m : BitVec 8) : Dev := setRst d { d.rst with inReset := d.rst.inReset &&& ~~~m }

def stepDone (d : Dev) (k : Nat) : Dev := setRst d { d.rst with nextStep := k + 1 }

/-- Logical harts 0–7 start on the lowest-numbered healthy cores, in order; a hart without one is stopped (R332, R334,
Table 12.6). A Cluster reset keeps the map (Table 12.4): a hart that is stopped, or whose core is retired, takes the
lowest free core (DEDUCED, assumption 111). -/
def startHarts (d : Dev) : Dev :=
  let cause := if 1 < d.rst.epReach then 0 else if d.rst.epSources.getLsbD 9 then 2 else 1
  let d0 : Dev := if d.rst.epReach ≤ 1 then d
    else { d with clt := { d.clt with map := [15, 15, 15, 15, 15, 15, 15, 15] } }
  (List.range 8).foldl (fun d h =>
    let c := coreOf d h
    if c < 10 ∧ !d.clt.retired.getLsbD c then startHart d h c cause
    else
      match freeCores d with
      | k :: _ => startHart d h k cause
      | [] => { d with clt := { d.clt with map := d.clt.map.set h 15 } }) d0

/-- RST_CAUSE (Table 14.11). -/
def rstCause (d : Dev) : Word :=
  at_ d.rst.causeReach 29 ||| flag d.rst.causeEsc 28 ||| at_ d.rst.causeSources.toNat 0

/-- The episode ends: RST_CAUSE, its counter, its log record and RST_EVENT.RESET; after a Fabric or wider reach the
module is UNDERWAY (R398, Table 14.3, Table 4.11a). -/
def episodeEnd (d : Dev) : Dev :=
  let r := d.rst
  let d1 := setRst d { r with
    episode := false, causeReach := r.epReach, causeSources := r.epSources, causeEsc := r.escalated
    nextStep := 6 }
  let d2 := if r.epReach = 3 then rstInc d1 0 else if r.epReach = 2 then rstInc d1 1
    else if r.epReach = 1 then rstInc d1 2 else d1
  let d3 := evRst (logRecord d2 1 0xFF 0 0 (rstCause d2)) 0
  if 2 ≤ r.epReach then
    let moved := decide (r.pstate ≠ .underway)
    let d4 := setRst d3 { d3.rst with pstate := .underway, wakeSeen := false }
    if moved then evRst d4 1 else d4
  else d3

/-- The reach that blocks a step while a source asserts it. -/
def stepReach (k : Nat) : Nat :=
  match k with
  | 0 => 4
  | 1 => 3
  | 2 => 3
  | 3 => 2
  | 4 => 2
  | _ => 1

/-- The domains a step releases. -/
def stepMask (k : Nat) : BitVec 8 :=
  match k with
  | 1 => 0x0F
  | 2 => 0x30
  | 3 => 0x40
  | 5 => 0x80
  | _ => 0

/-- Step E3: device time restarts from the always-on copy, advanced by the periods the always-on count has run since, of
1/32,768 s each (R33), and the Quaymaster starts once the regions are
set. -/
def exitFabric (d : Dev) (badImages : BitVec 4) : Dev :=
  let since := (aonCount d - d.aonAt) * 1000000000 / 32768
  let d1 := leaveReset { d with timeOff := ((d.aonTime + since : Nat) : Int) - d.wall
                                clt := { d.clt with epoch := d.wall } } 0x40
  let d2 := if 3 ≤ d.rst.epReach then imgFallback d1 1 badImages else d1
  setRst d2 { d2.rst with qmRunning := d2.wld.regionsSet }

/-- Step E5: the cores that fail their self-test are retired, and the harts start, or wait for UNBERTHING to end;
the episode ends. -/
def exitCluster (d : Dev) (bad : BitVec 10) (badImages : BitVec 4) : Dev :=
  let tested := (List.range 10).foldl (fun d c => if bad.getLsbD c then retireCore d c else d) d
  let d1 := leaveReset (imgFallback tested 3 badImages) 0x80
  let d2 := if parked d1 ∧ d1.rst.epReach = 1 then setRst d1 { d1.rst with startDue := true } else startHarts d1
  episodeEnd d2

/-- The Lock installs its World S region: region 0 of the flash covers the key-store area for the Lock alone, so that no
World N region reaches it (R350, R363; the region's number is a DESIGN CHOICE, assumption 115). -/
def lockRegions (d : Dev) : Dev :=
  let a := Config.keyArea
  let d1 := regionApply d 4 0 (a.1.setWidth 32) (a.2.setWidth 32) 0x0808 0xE0000000
  { d1 with wld := { d1.wld with lockReady := true, regionsSet := true } }

/-- A step of the exit sequence: `bad` the cores that fail their self-test, `damaged` the key slots that fail their
tag, `found` the images and the strap it reads (R411). -/
def exitStep (d : Dev) (k : Nat) (bad : BitVec 10) (damaged : List (Fin 256)) (found : StartRead) : Dev :=
  let r := d.rst
  if !r.episode ∨ k ≠ r.nextStep ∨ stepReach k ≤ effReach d ∨ r.held &&& stepMask k ≠ 0 then d
  else
    match k with
    | 0 => stepDone d 0
    | 1 =>
      let d0 := if d.ldc.resetDue then loadsReset d false false else d
      let strapped := if 3 ≤ r.epReach then { d0 with pair := { d0.pair with strap := found.strap } } else d0
      let d1 := wgRestore (leaveReset strapped 0x0F)
      stepDone (if d1.bwk.state = .fault then d1 else presentAll d1 (emptyOuts d1)) 1
    | 2 =>
      let d1 := keyStart (leaveReset (fieldUnpark d) 0x30) damaged
      stepDone (imgFallback (lockRegions d1) 2 found.badImages) 2
    | 3 => stepDone (exitFabric d found.badImages) 3
    | 4 => if r.qmRunning then stepDone (replayStore d (decide (r.epReach = 2))) 4 else d
    | 5 => exitCluster d bad found.badImages
    | _ => d

/-! ## Clocks (R388, R401) -/

/-- CLK_FAIL or XTAL_FAIL rises. -/
def clkFailSet (d : Dev) : Dev :=
  if d.rst.clkFail then d else evRst (setRst d { d.rst with clkFail := true }) 4

/-- An escalation (source 10) to a wider reach. -/
def escalate (d : Dev) (reach : Nat) : Dev :=
  let d1 := assertSource d 10 reach
  evRst (rstInc (setRst d1 { d1.rst with escalated := true }) 3) 5

/-- The RC oscillator takes over (R388): its rate is a free value within ±5 % of nominal. -/
def xtalFail (d : Dev) : Dev :=
  if d.rst.xtalFail then d
  else
    let f := drawNat d
    evRst (setRst f.2 { f.2.rst with xtalFail := true, rcAt := d.wall, rcRate := 950 + f.1 % 101 }) 4

/-- The crystal serves again; what the RC oscillator counted stands. -/
def xtalRestored (d : Dev) : Dev :=
  setRst d { d.rst with xtalFail := false, aonAdj := d.rst.aonAdj + rcDrift d }

/-- Domains held in reset for want of their clock. -/
def holdDomains (d : Dev) (m : BitVec 8) : Dev :=
  clkFailSet (setRst d { d.rst with held := d.rst.held ||| m })

/-- A clock is not confirmed within its limit (Table 14.7): 0 always-on, 1 Breakwater, 2 core-rail domains,
3 fabric, 4 cluster, 5 a block. A domain already out of reset has no clock to confirm. -/
def clockConfirmFail (d : Dev) (k : Nat) : Dev :=
  match k with
  | 0 => xtalFail d
  | 1 => bwkFault d 1
  | 2 => if domUp d 4 ∧ domUp d 5 then d else holdDomains d 0x30
  | 3 =>
    if domUp d 6 then d
    else if d.rst.escFabric then holdDomains d 0x40
    else let d1 := escalate d 3; setRst d1 { d1.rst with escFabric := true }
  | 4 =>
    if domUp d 7 then d
    else if d.rst.escCluster then holdDomains d 0x80
    else let d1 := escalate d 2; setRst d1 { d1.rst with escCluster := true }
  | _ => escalate d 3

/-- A held domain is retried: it leaves reset by the exit sequence if its clock is now confirmed. -/
def clockRetry (d : Dev) (k : Nat) (ok : Bool) : Dev :=
  if ok then
    let m : BitVec 8 := match k with | 2 => 0x30 | 3 => 0x40 | 4 => 0x80 | _ => 0
    let h := d.rst.held &&& ~~~m
    setRst d { d.rst with held := h, clkFail := decide (h ≠ 0) }
  else d

/-! ## Supplies (R405, R452) -/

def supercapLow (d : Dev) : Dev :=
  if d.rst.scOk then evRst (setRst d { d.rst with scOk := false }) 3 else d

def supercapCharged (d : Dev) : Dev := setRst d { d.rst with scOk := true }

/-- The power-fail warning, after mains loss: the mains-present contact is open, the wire guard saves and the log leaves its
staging queue (R451, R452, R268, R145). -/
def powerFailWarning (d0 : Dev) : Dev :=
  let d := mainsContact d0 false
  let d1 := wearSave (if domUp d 1 then wgSave d true else d)
  logMove (setRst d1 { d1.rst with powerFail := true })

/-- The mains returns before power-good falls: the warning is withdrawn (R452). -/
def mainsReturn (d : Dev) : Dev := mainsContact (setRst d { d.rst with powerFail := false }) true

/-! ## RST commands (R391, R396, R410) -/

/-- One command at a time (R410). In MOORED nothing can reach RST_CMD. -/
def rstCommand (d : Dev) (k : Dev → Dev) : Dev :=
  if d.rst.pstate = .moored then d
  else if resultValid d 0x100014 then k (resultBegin d 0x100014)
  else evRst d 6

/-- A power command in a transition is BUSY. -/
def powerCommand (d : Dev) (k : Dev → Dev) : Dev :=
  rstCommand d fun d =>
    match d.rst.pstate with
    | .berthing | .unberthing | .mooring | .unmooring => rstEnd d 4
    | _ => k d

def cmdReset (d : Dev) (c reach : Nat) (key : Byte) : Dev :=
  rstCommand d fun d =>
    if 2 ≤ reach ∧ key ≠ 0xA5 then rstEnd d 2
    else
      let d1 := rstEnd d 0
      assertSource d1 c reach

/-- No episode of a Fabric or wider reach runs: the work of a power transition goes on (Table 14.3). -/
def powerFree (d : Dev) : Bool := !(d.rst.episode && decide (2 ≤ d.rst.epReach))

/-- Ports not set in BERTH_KEEP go down, their frames discarded (R392). -/
def portsDown (d : Dev) : Dev :=
  (List.range 11).foldl (fun d p => if bit (rd d 0x10000C) p then d else portLinkLoss d p) d

/-- BERTH (R391, R392): the harts stop at instruction boundaries, their dirty lines are written back, poison with them, and
parking begins. -/
def berth (d : Dev) : Dev :=
  powerCommand d fun d =>
    match d.rst.pstate with
    | .underway =>
      if !powerFree d then rstEnd d 4 else
      let d0 := poisonLines d d.clt.cachePoison
      let d1 := setRst { d0 with clt := { d0.clt with cachePoison := [] } }
        { d.rst with pstate := .berthing, cmdWait := true, wakeSeen := false, parkAt := d.wall }
      portsDown ((List.range 8).foldl (fun d h =>
        if coreOf d h = 15 ∨ !domUp d 7 then d else emit d (.halt h true)) d1)
    | .berthed => rstEnd d 0
    | _ => rstEnd d 3

/-- Berthed or Moored is left for an enabled wake or UNDERWAY: the cluster PLL starts. -/
def unberth (d : Dev) : Dev := setRst d { d.rst with pstate := .unberthing, wakeLatched := false }

/-- A wake is served: counted, with RST_EVENT.WAKE. -/
def wakeServed (d : Dev) : Dev := evRst (rstInc d 4) 2

/-- The first wake of an episode is recorded (R394). -/
def wakeRecord (d : Dev) (cause chan : Nat) : Dev :=
  if d.rst.wakeSeen then d
  else setRst d { d.rst with wakeSeen := true, wakeCause := cause, wakeChan := chan, wakeTs := aonCount d }

/-- UNMOORING begins: the retained domains are clocked, and the fabric and cluster return by a Fabric reach,
source 7 (R393). -/
def unmoor (d : Dev) : Dev :=
  let d1 := wakeServed (setRst d { d.rst with pstate := .unmooring, wakeLatched := false })
  let d2 := if bit (rd d 0x10000C) 29 then emit (setRst d1 { d1.rst with wakeN := true }) (.pin 0 false) else d1
  assertSource (moorWake (emit (fieldUnpark d2) (.pin 2 true))) 7 2

/-- Parking ends: BERTHED, and a latched wake is served at once (R391, R395). -/
def berthDone (d : Dev) : Dev :=
  if d.rst.pstate = .berthing ∧ powerFree d then
    let d1 := evRst (setRst d { d.rst with pstate := .berthed }) 1
    let d2 := if d.rst.cmdWait then rstEnd d1 0 else d1
    if d.rst.wakeLatched then unberth (wakeServed d2) else d2
  else d

/-- UNDERWAY (Table 14.3). -/
def underway (d : Dev) : Dev :=
  powerCommand d fun d =>
    match d.rst.pstate with
    | .berthed =>
      if powerFree d then
        let d1 := unberth (wakeRecord d 7 0)
        setRst d1 { d1.rst with cmdWait := true }
      else rstEnd d 4
    | _ => rstEnd d 0

/-- UNBERTHING ends: the harts resume, or start if the cluster was reset while parked (Table 14.3). -/
def unberthDone (d : Dev) : Dev :=
  if d.rst.pstate = .unberthing ∧ powerFree d then
    let d1 := evRst (setRst d { d.rst with pstate := .underway, startDue := false }) 1
    let d2 := if d.rst.startDue then startHarts d1
      else (List.range 8).foldl (fun d h =>
        if coreOf d h = 15 ∨ !domUp d 7 then d
        else raisePending (if d.clt.halted.getLsbD h then d else emit d (.halt h false)) h)
        { d1 with clt := { d1.clt with wdogAt := d1.clt.wdogAt + (d.wall - d.rst.parkAt) } }
    if d.rst.cmdWait then rstEnd d2 0 else d2
  else d

/-- The first failing check of Table 14.4, 0 when all pass. -/
def moorCheck (d : Dev) : Nat :=
  let awake := (List.range 16).any fun n =>
    bit (netCfg d n) 31 && bit (rd d (canBase n)) 31 && decide ((netOf d n).state ≠ .asleep)
  if d.rst.pstate ≠ .berthed then 3
  else if pairRole d ≠ 0 then 5
  else if d.bwk.state ≠ .running then 6
  else if awake then 7
  else if rd d 0x100040 = 0 then 8
  else 0

/-- MOOR (R393): the field park frame is sent and the wire guard saved as MOORING begins. -/
def moor (d : Dev) (key : Byte) : Dev :=
  rstCommand d fun d =>
    if key ≠ 0xA5 then rstEnd d 2
    else
      match d.rst.pstate with
      | .berthing | .unberthing | .mooring | .unmooring => rstEnd d 4
      | _ =>
        match moorCheck d with
        | 0 =>
          if powerFree d then
            let d1 := rstEnd (setRst d { d.rst with pstate := .mooring }) 0
            wgSave (fieldPark d1) true
          else rstEnd d 4
        | st => rstEnd d st

/-- MOORING ends: the host link goes down, the Basin's frames are discarded and the fabric and cluster lose their
power; a latched wake unmoors at once (R393). -/
def moorDone (d : Dev) : Dev :=
  if d.rst.pstate = .mooring ∧ powerFree d then
    let d1 := hostLinkLoss d
    let d2 := setBasin d1 { d1.basin with frames := [], queues := [], copies := [], punts := [], retirePending := [] }
    let d3 := emit (setRst d2 { d2.rst with pstate := .moored }) (.pin 2 false)
    if d.rst.wakeLatched then unmoor d3 else rstInc d3 5
  else d

/-- Whether a wake source is enabled, and what the block itself holds of it stands (Table 14.4a): the alarm time reached,
the alarm latched, the network woken or its wake latched. A field input is enabled by its WAKE_EN too (R303). -/
def wakeOn (d : Dev) (cause chan : Nat) : Bool :=
  let e := rd d 0x100040
  match cause with
  | 1 => bit e 31 && decide (rd64 d 0x100038 ≤ aonCount d)
  | 2 => bit e 30
  | 3 => bit e 29 && bit (rd d 0x1200028) chan
  | 4 => bit e 16 && bit (actField d chan) 25 && decide (fieldMode d chan = 1)
  | 5 => decide (chan < 16) && bit e chan &&
      ((netOf d chan).latched.isSome || (netOf d chan).waking || decide ((netOf d chan).state ≠ .asleep))
  | 6 => bit e 28
  | _ => false

/-- A wake source acts (R394, R395): served in BERTHED and MOORED, latched in BERTHING and MOORING, recorded only
elsewhere. -/
def wake (d : Dev) (cause chan : Nat) : Dev :=
  if !wakeOn d cause chan then d
  else
    let d1 := wakeRecord d cause (if 3 ≤ cause ∧ cause ≤ 5 then chan else 0)
    if !powerFree d then d1
    else
      match d.rst.pstate with
      | .berthing | .mooring => setRst d1 { d1.rst with wakeLatched := true }
      | .berthed => unberth (wakeServed d1)
      | .moored => unmoor d1
      | _ => d1

/-- RESET_N was low for `us` µs (R397): ignored below 100 µs, accepted from 300 µs, either between (R19). -/
def resetPin (d : Dev) (us : Nat) : Bool × Dev :=
  if us < 100 then (false, d)
  else if 300 ≤ us then (true, d)
  else
    let f := drawNat d
    (decide (f.1 % 2 = 0), f.2)

/-- PIN_REACH (Table 14.11). -/
def pinReach (d : Dev) : Nat := if bit (rd d 0x10000C) 31 then 4 else 3

/-! ## Watchdogs (R341, R396) -/

def qmKick (d : Dev) (who : Requester) : Dev :=
  if who = .qm then setRst d { d.rst with qmKick := some d.wall } else answerError d who

/-- The Quaymaster watchdog runs out: 1 s after the last kick, or 5 s after the fabric's release without a first one
(source 6, Table 14.5). -/
def qmWatchdogDue (d : Dev) : Bool :=
  match d.rst.qmKick with
  | some t => decide (1000000000 ≤ d.wall - t)
  | none => decide (5000000000 ≤ d.wall - d.clt.epoch)

def qmWatchdogExpire (d : Dev) : Dev :=
  if bit (rd d 0x10000C) 30 ∧ fabricUp d ∧ qmWatchdogDue d then assertSource d 6 2 else d

/-- A period of the cluster watchdog ends without a kick; the watchdog pauses while the cluster is parked. -/
def cltWdogExpire (d : Dev) : Dev :=
  if !clusterRuns d || decide (d.wall - d.clt.wdogAt < 1000000 * wdogPeriod d) then d
  else
    match d.clt.wdog with
    | 1 => evClt { d with clt := { d.clt with wdog := 2, wdogAt := d.wall } } 4
    | 2 => assertSource d 9 1
    | _ => d

/-! ## The fuse map and block gates (R407, R408) -/

/-- The words of RST_FMAP_STAGE. -/
def fmapStage (d : Dev) : List Word := (List.range 5).map fun w => rd d (0x100200 + 4 * w)

/-- A load entry of 2 or 3 (Table 14.8). -/
def fmapBad (l : List Word) : Bool :=
  (List.range 40).any fun t => decide (2 ≤ fld (l.getD (t / 16) 0) (2 * (t % 16) + 1) (2 * (t % 16)))

/-- FMAP_PROG: `torn` when power fails during programming: the row is used up, its CRC bad, and no outcome is
stated. -/
def fmapProg (d : Dev) (key : Byte) (torn : Bool) : Dev :=
  rstCommand d fun d =>
    let row : FuseRow := ⟨fmapStage d, !torn⟩
    if key ≠ 0xA5 then rstEnd d 2
    else if 4 ≤ d.rst.rows.length then rstEnd d 9
    else if fmapBad (fmapStage d) then rstEnd d 10
    else if d.keys.lc = 4 then rstEnd d 11
    else
      let d1 := emit (setRst d { d.rst with rows := d.rst.rows ++ [row] }) (.flash 9 d.rst.rows.length)
      let d2 := reserveNote d1 9
      if torn then let f := drawNat d2; rstEnd f.2 (f.1 % 12) else rstEnd d2 0

/-- What a Block reset does to the Lock (17) and the key store (18) beside `blockReset`: the Lock starts anew and drops the
request it serves; the key store's registers and mailbox return to their reset values, and it starts as at E2 (DEDUCED,
assumption 114). -/
def coreBlockReset (d : Dev) (b : Nat) : Dev :=
  if b = 17 then { d with keys := { d.keys with job := none }, clt := { d.clt with lockHalted := false } }
  else if b = 18 then
    let d1 := clearCnts (resetRegs d 0x1400000 0x1500000) 0x1400000 0x1500000
    keyStart { d1 with keys := { d1.keys with ready := false, mbx := [], challenge := none } } []
  else d

/-- The clock or power of a block is written (R408), by a World N requester or by the Lock (none). When PWR_OFF
returns to 0 the block takes a Block reset. -/
def blkctlWrite (d : Dev) (who : Option Requester) (b : Nat) (v : Word) : Dev :=
  let a := 0x100080 + 4 * b
  let st := (hoOf d b).state
  let move := decide (b < 17) && (decide (st = .toS) || decide (st = .toN))
  let live := decide (b < 16) && decide (v &&& 3 ≠ 0) && decide ((canOf d b).state ≠ .config)
  let apply : Dev :=
    let d1 := plainWrite d a v
    if bit (rd d a) 1 && !bit (rd d1 a) 1 then coreBlockReset (blockReset d1 b) b else d1
  match who with
  | some q =>
    if 17 ≤ b ∨ sOwned d b then clkPwrRefused d q b
    else if move || live then answerError d q
    else apply
  | none => if move || live || (decide (b < 17) && !sOwned d b) then d else apply

def rstClear (d : Dev) : Dev := clearCnts d 0x100300 0x100330

/-- The host link trains to L0: the WAKE_N drive ends (R393). -/
def hostLinkUp (d : Dev) : Dev :=
  if fabricUp d then
    let d1 := setRst d { d.rst with hostLink := true, wakeN := false }
    if d.rst.wakeN then emit d1 (.pin 0 true) else d1
  else d

/-! ## Meanings -/

def execColdPowerOn (s : State) : Answer := .next (assertState s 1 4)
def execResetPin (us : Nat) (s : State) : Answer :=
  let p := resetPin s.dev us
  let s1 : State := { s with dev := p.2 }
  .next (if p.1 then assertState s1 2 (pinReach s.dev) else s1)
def execTurnOffEnd (n : Fin 40) (s : State) : Answer := onDev (fun d => loadsDue (loadReleaseJudge (turnOffEnd d n))) s
def execLogicPowerFail (s : State) : Answer := onDev (assertSource · 3 3) s
def execPowerFailWarning (s : State) : Answer := onDev powerFailWarning s
def execMainsReturn (s : State) : Answer := onDev mainsReturn s
def execResetModule (key : Byte) (s : State) : Answer := onDev (cmdReset · 4 3 key) s
def execResetFabric (key : Byte) (s : State) : Answer := onDev (cmdReset · 5 2 key) s
def execResetCluster (s : State) : Answer := onDev (cmdReset · 8 1 0) s
def execQmKick (who : Requester) (s : State) : Answer := 
  onDev (fun d => strictWait d who 0x100018 0 (qmKick · who)) s
def execQmWatchdogExpire (s : State) : Answer := onDev qmWatchdogExpire s
def execCltWdogExpire (s : State) : Answer := onDev cltWdogExpire s
def execResetSourceRelease (c : Fin 16) (s : State) : Answer := onDev (sourceRelease · c) s
def execExitStep (k : Fin 6) (bad : BitVec 10) (damaged : List (Fin 256)) (found : StartRead)
    (s : State) : Answer := onDev (exitStep · k bad damaged found) s
def execClockConfirmFail (k : Fin 6) (s : State) : Answer := onDev (clockConfirmFail · k) s
def execClockRetry (k : Fin 6) (ok : Bool) (s : State) : Answer := onDev (clockRetry · k ok) s
def execXtalFail (s : State) : Answer := onDev xtalFail s
def execXtalRestored (s : State) : Answer := onDev xtalRestored s
def execBerth (s : State) : Answer := onDev berth s
def execBerthDone (s : State) : Answer := onDev berthDone s
def execMoor (key : Byte) (s : State) : Answer := onDev (moor · key) s
def execMoorDone (s : State) : Answer := onDev moorDone s
def execUnderway (s : State) : Answer := onDev underway s
def execUnberthDone (s : State) : Answer := onDev unberthDone s
def execWake (cause : Fin 7) (chan : Fin 32) (s : State) : Answer := onDev (wake · cause chan) s
def execFmapProg (key : Byte) (torn : Bool) (s : State) : Answer := onDev (fmapProg · key torn) s
def execBlkctlWrite (who : Option Requester) (b : Fin 19) (v : Word) (s : State) : Answer :=
  onDev (fun d => match who with
    | some q => strictWait d q (0x100080 + 4 * b.val) v (blkctlWrite · who b v)
    | none => blkctlWrite d none b v) s
def execSupercapLow (s : State) : Answer := onDev supercapLow s
def execSupercapRecharged (s : State) : Answer := onDev supercapCharged s
def execRstClear (s : State) : Answer := onDev rstClear s
def execHostLinkUp (s : State) : Answer := onDev hostLinkUp s

end Sys2Proof.Machine
end

