-- ==== Sys2Proof/Machine/ReadReg.lean ====
section
/-! DEFINITION. What a read of each register returns (R12, R36, and each block's register map): a stored register
reads its content, a counter its half, a read-only register what it shows of the state, a WO field 0. -/

namespace Sys2Proof.Machine

/-- Lower half (address ≡ 0 mod 8) or upper half of a 64-bit value whose lower half is at a multiple of 8. -/
def half (v : Nat) (a : Nat) : Word := if a % 8 < 4 then w32 v else w32 (v >>> 32)

/-- The word of bits `32 i` on of a family of bits. -/
def bitsAt (f : Nat → Bool) (i : Nat) : Word := bits32 fun k => f (32 * i + k)

/-- Bit n of a summary word: an enabled event of group `n` is set. -/
def summary (d : Dev) (ev : Nat → Nat) (count base : Nat) : Word :=
  bits32 fun k => decide (base + k < count) && decide (rd d (ev (base + k)) &&& rd d (ev (base + k) + 4) ≠ 0)

/-! ## DEV, SW, CHT (Tables 1.9–1.15, 2.9–2.35, 3.8–3.18) -/

/-- DEV_STATUS (Table 1.14). -/
def devStatus (d : Dev) : Word :=
  at_ d.keys.lc 8 ||| at_ d.qm.shed 5 ||| at_ (pairRole d) 3 ||| flag d.bwk.anchored 2 ||| flag (parked d) 0

def devRead (d : Dev) (a : Nat) : Word :=
  match a with
  | 0x00 => 0x54090000 ||| at_ Config.stepping.toNat 8
  | 0x04 => devVersion d
  | 0x10 => w32 Config.serial.toNat
  | 0x14 => w32 (Config.serial.toNat >>> 32)
  | 0x18 => devStatus d
  | 0x28 => at_ d.qm.peak 8 ||| at_ (qmOcc d) 0
  | 0x30 => w32 Config.baseMac.toNat
  | 0x34 => w32 (Config.baseMac.toNat >>> 32)
  | _ => rd d a

/-- SW_PORTSTAT (Table 2.23). -/
def portStat (d : Dev) (p : Nat) : Word :=
  let x := portOf d p
  at_ x.xoff.toNat 16 ||| at_ x.paused.toNat 8
    ||| flag (decide (8 ≤ p ∧ p ≤ 10) && (msOf d (p - 8)).txSa.isSome) 1 ||| flag (decide (11 ≤ p) || x.link) 0

/-- The SW_MS group of engine `k` (Tables 2.30, 2.31). -/
def msRead (d : Dev) (k o a : Nat) : Word :=
  let m := msOf d k
  match o with
  | 0x08 => at_ m.rx.length 8 ||| flag m.txSa.isSome 4 ||| at_ (m.txSa.elim 0 (·.an)) 0
  | 0x10 => w32 (m.txSa.elim 0 (·.pn))
  | 0x14 => w32 (m.txSa.elim 0 (·.pn) >>> 32)
  | _ => rd d a

def swRead (d : Dev) (a : Nat) : Word :=
  if a = 0x200000 then flag d.basin.overcommit 31 ||| at_ d.basin.poolCells 0
  else if a = 0x200004 then at_ d.basin.retired 16 ||| at_ d.basin.spares 0
  else if a = 0x200008 then w32 (inUse d)
  else if a = 0x20000C then w32 d.basin.peak
  else if 0x202000 ≤ a ∧ a < 0x2021C0 then w32 (iocc d ((a - 0x202000) / 32) (a % 32 / 4))
  else if 0x202200 ≤ a ∧ a < 0x2023C0 then w32 (eocc d ((a - 0x202200) / 32) (a % 32 / 4))
  else if 0x202400 ≤ a ∧ a < 0x202420 then w32 (gocc d (a % 32 / 4))
  else if 0x203000 ≤ a ∧ a < 0x203380 ∧ a % 0x40 = 0x0C then portStat d ((a - 0x203000) / 0x40)
  else if 0x2032C0 ≤ a ∧ a < 0x203380 ∧ a % 0x40 = 0 then rd d a ||| flag true 31
  else if a = 0x204000 ∨ a = 0x204004 then half (devTime d) a
  else if a = 0x20400C then at_ d.as_.state 30 ||| at_ d.as_.slavePort 0
  else if 0x205000 ≤ a ∧ a < 0x205300 then msRead d ((a - 0x205000) / 0x100) (a % 0x100) a
  else if a = 0x206010 then lbProdWord d
  else if a = 0x206014 then w32 d.lb.cons
  else rd d a

/-- One word of a Chart entry: key, mask, actions in order, A3 with VALID and GEN (Table 3.2, R112). -/
def entryWord (e : ChtEntry) (valid : Bool) (i : Nat) : Word :=
  let c := inCopy e
  [c.k0, c.k1, c.k2, c.k3, c.m0, c.m1, c.m2, c.m3, c.a0, c.a1, c.a2,
    flag valid 31 ||| flag e.gen 30 ||| c.a3].getD i 0

/-- An exact entry: invalid ones read zero (Table 3.8). -/
def exactRead (e : ChtEntry) (i : Nat) : Word := if (inCopy e).valid then entryWord e true i else 0

def chtRead (d : Dev) (a : Nat) : Word :=
  if a = 0x400000 then at_ (exactUsed d) 16 ||| at_ (ternUsed d) 0
  else if 0x500000 ≤ a ∧ a < 0x600000 then
    let i := a % 32 / 4
    exactRead (exactAt d ((a - 0x500000) / 32)) (if i < 4 then i else i + 4)
  else if 0x600000 ≤ a ∧ a < 0x610000 then 
    let e := ternAt d ((a - 0x600000) / 64)
    entryWord e (inCopy e).valid (a % 64 / 4)
  else if 0x610000 ≤ a then entryWord (missAt d ((a - 0x610000) / 16)) false (8 + a % 16 / 4)
  else rd d a

/-! ## SLP, BRG (Tables 4.14–4.31, 5.9–5.19) -/

def slipStateCode : SlipState → Nat
  | .free => 0
  | .detached => 1
  | .active => 2
  | .resetting => 3

def resStateCode : ResState → Nat
  | .unbound => 0
  | .commanded => 1
  | .held => 2
  | .released => 3

def relCode : RelState → Nat
  | .off => 0
  | .on => 1
  | .hold => 2

/-- The layout of SLP_TABLE[n] and SLIP_INFO, which end in `low` (Table 4.25). -/
def slipIdWord (d : Dev) (n : Nat) (low : Word) : Word :=
  let x := slipOf d n
  at_ x.cls 30 ||| at_ (slipStateCode x.state) 28 ||| flag (internalSlip d n) 27 ||| at_ x.classMax 24 ||| low

/-- SLP_TABLE[n] (Table 4.25). -/
def slipWord (d : Dev) (n : Nat) : Word := slipIdWord d n (at_ (slipOf d n).rxq 0)

/-- SLP_SHARE[n]. -/
def shareWord (d : Dev) (n : Nat) : Word := at_ (slipOf d n).max 16 ||| at_ (slipOf d n).min 0

/-- SLP_RES[k] (Table 4.26). -/
def resWord (d : Dev) (k : Nat) : Word :=
  let x := resOf d k
  at_ (resStateCode x.state) 30 ||| (if x.state = .unbound then 0 else at_ (relCode x.release) 28) ||| at_ x.owner 0

/-- The read-only registers of ring `r`: RING_STATUS, RING_INDEX (Tables 4.16, 4.31). -/
def ringRead (d : Dev) (n r o a : Nat) : Word :=
  let x := ringOf d n r
  match o with
  | 0x14 => flag x.active 31 ||| at_ x.err 28 ||| at_ x.sqStop 0
  | 0x1C => at_ x.sqHead 16 ||| at_ x.cqTail 0
  | _ => rd d a

/-- Offset `o` of the window of slip `n` (Table 4.15). -/
def windowRead (d : Dev) (n o : Nat) : Word :=
  let a := slipWin n + o
  if o = 0 then slipIdWord d n (at_ n 0)
  else if o = 0x14 then shareWord d n
  else if o = 0x18 then w32 (inFlight d n)
  else if o = 0x1C then (slipOf d n).report
  else if o = 0x20 ∨ o = 0x24 then half (cnt d (slipWin n + 0x20)).toNat o
  else if o = 0x170 then at_ (slipOf d n).pba.toNat 0
  else if 0x40 ≤ o ∧ o < 0x140 then ringRead d n ((o - 0x40) / 0x20) ((o - 0x40) % 0x20) a
  else rd d a

/-- A doorbell register of slip `n` reads back the last value accepted; the rest of the page, and the page of a FREE slip,
read zero (R134, Table 4.4). -/
def bellRead (d : Dev) (n o : Nat) : Word :=
  if (slipOf d n).state = .free then 0
  else if o < 0x40 then at_ (if o % 8 = 0 then (ringOf d n (o / 8)).dbSq else (ringOf d n (o / 8)).dbCq) 0
  else if o = 0x40 ∧ d.lb.slip = n then at_ d.lb.cons 0
  else 0

def slpRead (d : Dev) (a : Nat) : Word :=
  if a = 0x800014 then at_ (reservedEntries d) 16 ||| at_ (inFlightAll d) 0
  else if a = 0x800018 then at_ (readLimit d) 16 ||| at_ (readsOut d) 0
  else if 0x801000 ≤ a ∧ a < 0x805000 then slipWord d ((a - 0x801000) / 4)
  else if 0x805000 ≤ a ∧ a < 0x809000 then shareWord d ((a - 0x805000) / 4)
  else if 0x809000 ≤ a ∧ a < 0x809160 then resWord d ((a - 0x809000) / 4)
  else if 0xA00000 ≤ a then windowRead d ((a - 0xA00000) / 0x200) ((a - 0xA00000) % 0x200)
  else rd d a

def semKindCode : SemKind → Nat
  | .atomicOp => 0
  | .amo => 1
  | .lr => 2

/-- Semaphores held. -/
def semsHeld (d : Dev) : Nat := (d.brg.sems.filter fun e => e.2.held).length

/-- BRG_SEM[s] (Table 5.16). -/
def semWord (d : Dev) (s : Nat) : Word :=
  let x := semOf d s
  if x.held then flag true 31 ||| at_ (semKindCode x.kind) 29 ||| flag x.broken 28 ||| at_ (x.block % 2 ^ 26 / 8 * 8) 0
  else 0

/-- The tunnel group of stream `s` (Table 5.18). -/
def tunRead (d : Dev) (s o a : Nat) : Word :=
  let x := streamOf d s
  match o with
  | 0x18 => flag x.valid1 31 ||| flag x.valid0 30 ||| flag x.txNum 29 ||| (rd d a &&& 0xFF)
  | 0x1C => at_ (x.txSeq % 65536) 16 ||| at_ (x.rxSeq % 65536) 0
  | 0x20 => w32 (if x.txNum then x.txPn1 else x.txPn0)
  | 0x24 => w32 x.rxPn0
  | 0x28 => w32 x.rxPn1
  | _ => rd d a

def brgRead (d : Dev) (a : Nat) : Word :=
  if a = 0xC00004 then
    at_ (semsHeld d) 24 ||| at_ (min 255 (d.brg.queue.filter fun e => !isPosted e && peripheral (targetAddr e.target)).length) 16
      ||| at_ (min 65535 (d.brg.queue.filter isPosted).length) 0
  else if 0xC00200 ≤ a ∧ a < 0xC00300 then semWord d ((a - 0xC00200) / 4)
  else if 0xC02000 ≤ a ∧ a < 0xC06000 then tunRead d ((a - 0xC02000) / 0x40) (a % 0x40) a
  else rd d a

/-! ## CAN, NWS (Tables 6.8–6.25, 7.7–7.17) -/

def canStateCode : CanState → Nat
  | .config => 0
  | .integrating => 1
  | .active => 2
  | .passive => 3
  | .busOff => 4
  | .recovering => 5
  | .offline => 6

/-- CAN_STATUS (Table 6.10). A frame is received in one step, so RX_BUSY reads 0. -/
def canStatus (d : Dev) (n : Nat) : Word :=
  let c := canOf d n
  at_ (canStateCode c.state) 29 ||| at_ c.cfgErr 26 ||| flag c.warn 25 ||| flag c.tdcSat 24
    ||| flag c.onBus.isSome 23 ||| at_ (c.loaded.length - fifoUsed c) 16 ||| at_ (fifoUsed c) 11 ||| at_ c.recov 0

/-- CAN_MB[m], word `i` (Table 6.24). -/
def mbWord (c : Can) (m i : Nat) : Word :=
  match c.loaded.find? fun x => x.slot == some m with
  | none => 0
  | some x =>
    if i = 0 then x.msg.id.setWidth 32
    else at_ (if c.onBus = some x.uid then 2 else 1) 30 ||| at_ (x.coll % 16) 24 ||| at_ x.cls 20
      ||| at_ x.msg.fmt.val 4

def canRead (d : Dev) (a : Nat) : Word :=
  let n := (a - 0xD00000) / 0x10000
  let o := a % 0x10000
  let c := canOf d n
  if o = 0x04 then canStatus d n
  else if o = 0x1C then rd d a ||| at_ c.measured 8
  else if o = 0x20 then at_ c.tec 16 ||| at_ c.recv 0
  else if o = 0x30 then rd d a ||| at_ (n / 4) 16 ||| flag c.thermalFault 1 ||| flag (!c.supplyFault) 0
  else if o = 0x54 then w32 c.hp.length
  else if 0x100 ≤ o ∧ o < 0x200 then mbWord c ((o - 0x100) / 8) (o % 8 / 4)
  else rd d a

def netStateCode : NetState → Nat
  | .awake => 0
  | .draining => 1
  | .asleep => 2

def wakeCauseCode : WakeCause → Nat
  | .none => 0
  | .localNeed => 1
  | .wuf => 2
  | .wup => 3
  | .fec => 4

/-- NWS_STATE (Table 7.10). -/
def nwsState (d : Dev) (n : Nat) : Word :=
  let x := netOf d n
  let left := if x.state = .asleep ∨ ¬ bit (netCfg d n) 31 then 0 else (x.until_ - d.wall) / 1000000
  at_ (netStateCode x.state) 30 ||| flag x.confirmed 29 ||| flag x.frozen 28 ||| flag x.latched.isSome 27
    ||| flag (needHolds d n) 26 ||| at_ (min 65535 left) 0

def partStateCode : PartState → Nat
  | .free => 0
  | .present => 1
  | .lost => 2
  | .assigning => 3
  | .own => 4
  | .peer => 5

/-- NWS_PART[n][m], word `i` (Table 7.15). -/
def partWord (e : Partner) (i : Nat) : Word :=
  match i with
  | 0 => w32 e.uid
  | 1 => at_ e.kind 24 ||| at_ (e.uid >>> 32) 0
  | 2 => at_ (partStateCode e.state) 29 ||| at_ e.misses 20 ||| at_ e.session 0
  | 4 => w32 e.seen
  | 5 => w32 (e.seen >>> 32)
  | 6 => w32 e.first
  | 7 => w32 (e.first >>> 32)
  | _ => 0

/-- NWS_LLDP_NBR[p][k], word `i` (Table 7.17). -/
def nbrWord (d : Dev) (x : Option Neighbour) (i : Nat) : Word :=
  match x with
  | none => 0
  | some y =>
    match i with
    | 0 => flag true 31 ||| flag (decide (12 < y.chassis.length) || decide (12 < y.portId.length)) 30
        ||| at_ y.chSub 27 ||| at_ y.portSub 24 ||| at_ y.chassis.length 16 ||| at_ y.portId.length 8
    | 1 => at_ (min 65535 ((y.expires - d.wall) / 1000000000)) 16 ||| at_ y.pvid 0
    | 2 | 3 | 4 => leWord (y.chassis.take 12) (i - 2)
    | _ => leWord (y.portId.take 12) (i - 5)

def nwsRead (d : Dev) (a : Nat) : Word :=
  if a = 0xE00000 then
    flag (decide (rd d 0xE00018 &&& rd d 0xE0001C ≠ 0)) 16 ||| summary d (fun n => netBase n + 0x18) 16 0
  else if 0xE01000 ≤ a ∧ a < 0xE02000 then
    let n := (a - 0xE01000) / 0x100
    let x := netOf d n
    match a % 0x100 with
    | 0x10 => w32 (needBits d n)
    | 0x14 => nwsState d n
    | 0x20 | 0x24 => half (seenMap d n) a
    | 0x48 => at_ (wakeCauseCode x.causeCode) 29 ||| flag x.causeLatched 28 ||| at_ x.causeNeed 24 ||| at_ x.causeNode 0
    | 0x50 | 0x54 => half x.wakeTs a
    | 0x58 | 0x5C => half x.awakeTs a
    | _ => rd d a
  else if 0xE10000 ≤ a ∧ a < 0xE20000 then
    let i := (a - 0xE10000) / 32
    partWord (partView d (i / 64) (i % 64)) (a % 32 / 4)
  else if 0xE20000 ≤ a then
    let i := (a - 0xE20000) / 32
    nbrWord d (nbrOf d (i / 4) (i % 4)) (a % 32 / 4)
  else rd d a

/-! ## LDC, WGS, FIO, BWK (Tables 8.9–8.22, 9.6–9.14, 10.9–10.15, 11.10–11.14) -/

/-- LDC_SEG[n] (Table 8.20). -/
def segWord (n : Nat) (x : Load) : Word :=
  at_ (2 ^ ((loadClass n).segs + 1) - 1) 24 ||| at_ (inService n x).toNat 16 ||| at_ x.retiredSegs.toNat 8
    ||| at_ x.lastCause 5 ||| at_ (activeSegs n x) 0

def ldcRead (d : Dev) (a : Nat) : Word :=
  if a = 0xF00008 then summary d (fun n => ldcBase n + 0x28) 40 0
  else if a = 0xF0000C then summary d (fun n => ldcBase n + 0x28) 40 32
  else if 0xF00020 ≤ a ∧ a < 0xF00030 then
    let b := bankOf d ((a - 0xF00020) / 8)
    if a % 8 = 0 then flag (!b.outOfRange) 31 ||| flag b.reversed 30 ||| at_ (wrapInt b.volt 16) 0
    else at_ (wrapInt b.curr 16) 0
  else if 0xF01000 ≤ a ∧ a < 0xF01A00 then
    let n := (a - 0xF01000) / 0x40
    match a % 0x40 with
    | 0x20 => loadStatus d n
    | 0x24 => loadCur d n
    | 0x30 => segWord n (loadOf d n)
    | _ => rd d a
  else if 0xF08000 ≤ a then
    let n := (a - 0xF08000) / 32
    let s := a % 32 / 4
    if s ≤ (loadClass n).segs then
      at_ (Config.segBase n s).toNat 16 ||| at_ (min 65535 (tget 0 (loadOf d n).segLast s)) 0
    else 0
  else rd d a

def slCode (x : Load) : Nat :=
  if x.shed then 5
  else match x.slState with
    | .off => 0
    | .waiting => 1
    | .window => 2
    | .on => 3
    | .ramping => 4

def wgsRead (d : Dev) (a : Nat) : Word :=
  if a = 0x1000004 then
    at_ d.ldc.restore 30 ||| flag d.ldc.mainsLow 29 ||| flag (bankOf d 1).inDip 28 ||| flag (bankOf d 0).inDip 27
      ||| at_ (min 65535 d.ldc.elapsed) 0
  else if a = 0x1000020 ∨ a = 0x1000024 then
    bitsAt (fun n => decide (n < 40) && (loadOf d n).warn) ((a - 0x1000020) / 4)
  else if 0x1000100 ≤ a ∧ a < 0x1000180 ∧ a % 0x40 = 0x08 then
    let b := (a - 0x1000100) / 0x40
    at_ (min 65535 (reserved d b / 100)) 16 ||| at_ (budget d b / 100) 0
  else if 0x1000100 ≤ a ∧ a < 0x1000180 ∧ a % 0x40 = 0x0C then
    let b := bankOf d ((a - 0x1000100) / 0x40)
    at_ (min 255 b.queue.length) 24 ||| at_ (min 65535 b.lastDur) 0
  else if 0x1001000 ≤ a then
    let n := (a - 0x1001000) / 0x40
    let x := loadOf d n
    match a % 0x40 with
    | 0x20 => if wgEn (actWg d n) then at_ (wrapInt (x.theta * 64 / deg) 16) 0 else 0
    | 0x24 => at_ (slCode x) 29 ||| flag x.unfit 28 ||| flag x.extended 27 ||| flag (bankOf d (bankIdx n)).held 26
        ||| at_ (min 4095 (reservation d n / 100)) 0
    | _ => rd d a
  else rd d a

def fioRead (d : Dev) (a : Nat) : Word :=
  if a = 0x1100008 then summary d (fun n => fioBase n + 0x14) 32 0
  else if a = 0x1100014 then flag d.fio.up 31 ||| flag d.fio.parked 30 ||| at_ d.fio.safe.toNat 16
  else if 0x1100040 ≤ a ∧ a < 0x1100060 then
    let q := (a - 0x1100040) / 4
    flag (!d.fio.quadBad.getLsbD q) 31 ||| at_ (tget 0 d.fio.quadVolt q % 65536) 0
  else if 0x1101000 ≤ a then
    let n := (a - 0x1101000) / 0x40
    match a % 0x40 with
    | 0x10 => fieldStatus d n
    | 0x20 | 0x24 => half (fieldOf d n).count.toNat a
    | _ => rd d a
  else rd d a

def bwkStateCode : BwkState → Nat
  | .empty => 0
  | .running => 1
  | .fault => 2

/-- An age in ms with its freshness: never written reads the maximum (Table 11.10). -/
def ageWord (d : Dev) (at_' : Option Nat) (fresh : Bool) : Word :=
  match at_' with
  | none => 0x7FFF0000
  | some t => flag fresh 31 ||| at_ (min 0x7FFF ((d.wall - t) / 1000000)) 16

/-- BWK_OUTSTAT[k] (Table 11.14). -/
def outStat (d : Dev) (k : Nat) : Word :=
  let o := tget {} d.bwk.presented k
  let h := tget (0, false) d.bwk.held k
  flag o.permit 31 ||| flag o.forced 30 ||| flag o.forceOn 29 ||| flag (tget false d.bwk.watching k) 28
    ||| flag (decide (d.bwk.state = .fault)) 27 ||| flag d.bwk.fuseRow 26 ||| flag h.2 25
    ||| at_ (latchOf d k).2 0

def bwkRead (d : Dev) (a : Nat) : Word :=
  let b := d.bwk
  if a = 0x1200000 then
    at_ (bwkStateCode b.state) 30 ||| at_ b.cause 27 ||| flag b.active 26 ||| flag b.anchored 25
      ||| flag (!resultValid d 0x1200010 || b.commit) 24
  else if a = 0x1200018 then b.qm.seq.setWidth 32
  else if a = 0x120001C then b.cl.seq.setWidth 32
  else if a = 0x1200020 then flag b.qm.live 31 ||| flag b.cl.live 30 ||| flag b.peerSeen 29 ||| flag b.anchored 28
  else if a = 0x1200024 then b.last.alarms
  else if a = 0x120002C then bankWord d 8
  else if a = 0x1200030 ∨ a = 0x1200034 then half b.cycles a
  else if a = 0x1200038 then at_ (min 65535 b.evalMax) 16 ||| at_ (min 65535 b.evalLast) 0
  else if 0x1200100 ≤ a ∧ a < 0x1200220 then outStat d ((a - 0x1200100) / 4)
  else if 0x1200300 ≤ a ∧ a < 0x1200320 then bitsAt (tget false b.last.flags) ((a - 0x1200300) / 4)
  else if 0x1200320 ≤ a ∧ a < 0x12003A0 then bitsAt (tget false b.last.results) ((a - 0x1200320) / 4)
  else if 0x1200400 ≤ a ∧ a < 0x1200440 then tget 0 b.sig ((a - 0x1200400) / 4)
  else if 0x1200440 ≤ a ∧ a < 0x1200480 then
    let g := (a - 0x1200440) / 4
    ageWord d (tget none b.sigAt g) (groupFresh d g)
  else if 0x1201000 ≤ a ∧ a < 0x1201400 then
    let w := (a - 0x1201000) / 4
    ageWord d (tget none b.wordAt w) (wordFresh d w) ||| (tget 0 b.word w).setWidth 32
  else if 0x1210000 ≤ a ∧ a < 0x1218000 then tget 0 (inactiveBank d) (a - 0x1210000)
  else if 0x1218000 ≤ a then bankWord d (a - 0x1218000)
  else rd d a

/-! ## RST, WLD, KEY, PAIR, SVC, CLT (Tables 14.10, 12.15, 13.14, 15.12, 15.15, 12.5) -/

def pstateCode : PState → Nat
  | .underway => 0
  | .berthing => 1
  | .berthed => 2
  | .unberthing => 3
  | .mooring => 4
  | .moored => 5
  | .unmooring => 6

/-- Unprogrammed rows 1–3, the row in effect, and which rows have a good CRC (Table 14.16). -/
def fmapStat (d : Dev) : Word :=
  bitsAt (fun r => match d.rst.rows[r]? with | some x => decide (r < 4) && x.good | none => false) 0 <<< 28
    ||| at_ d.rst.fmapRow 26 ||| at_ (4 - d.rst.rows.length) 24

def rstRead (d : Dev) (a : Nat) : Word :=
  let r := d.rst
  if a = 0x100000 then
    at_ (pstateCode r.pstate) 29 ||| flag r.xtalFail 28 ||| flag r.clkFail 27 ||| flag r.scOk 26
      ||| flag d.ldc.gateHold 25 ||| flag r.wakeLatched 24
  else if a = 0x10001C then r.inReset.setWidth 32
  else if a = 0x100020 then r.sources.setWidth 32
  else if a = 0x100024 then rstCause d
  else if a = 0x100028 ∨ a = 0x10002C then half r.causeTs a
  else if a = 0x100030 ∨ a = 0x100034 then half (aonCount d) a
  else if a = 0x100044 then at_ r.wakeCause 29 ||| at_ r.wakeChan 0
  else if a = 0x100048 ∨ a = 0x10004C then half r.wakeTs a
  else if a = 0x100050 then fmapStat d
  else if 0x100080 ≤ a ∧ a < 0x1000CC then
    let b := (a - 0x100080) / 4
    rd d a ||| flag (decide (b = 17 ∨ b = 18) || sOwned d b) 31
  else if 0x100220 ≤ a ∧ a < 0x100234 then r.fmap.getD ((a - 0x100220) / 4) 0
  else rd d a

def wldRead (d : Dev) (a : Nat) : Word :=
  let w := d.wld
  if a = 0x1300000 then
    flag w.lockReady 31 ||| flag w.regionsSet 30 ||| bitsAt (fun b => decide (b < 17) && sOwned d b) 0
  else if a = 0x130001C then
    flag w.nInv 31 ||| flag w.nNinv 30 ||| flag w.sInv 29 ||| flag w.sNinv 28 ||| flag w.qmDbg 27
  else if 0x1300040 ≤ a ∧ a < 0x1300084 then
    let h := hoOf d ((a - 0x1300040) / 4)
    at_ h.state.code 29 ||| flag h.forced 28 ||| at_ h.count.toNat 0
  else rd d a

def keyRead (d : Dev) (a : Nat) : Word :=
  let k := d.keys
  if a = 0x1400000 then
    flag k.ready 31 ||| at_ k.lc 28 ||| (bitsAt (fun s => decide (s < 8) && decide ((mbxOf d s).state ≠ .free)) 0 <<< 16)
      ||| at_ (k.slots.filter fun e => e.2.alg ≠ 0).length 0
  else if a = 0x140000C then keyLc d
  else if 0x1401800 ≤ a ∧ a < 0x1402000 ∧ a % 0x100 = 0x84 then
    w32 (mbxOf d ((a - 0x1401000) / 0x100)).state.code
  else if 0x1404000 ≤ a then
    let i := (a - 0x1404000) / 8
    if a % 8 = 0 then slotWord i (keyOfSlot d i) else (keyOfSlot d i).gen
  else rd d a

def pairRead (d : Dev) (a : Nat) : Word :=
  let p := d.pair
  if a = 0x1500004 then pairStatus d
  else if a = 0x1500018 then p.peerVer
  else if a = 0x1500020 ∨ a = 0x1500024 then half p.bound a
  else if a = 0x1500028 then
    if p.role = .primary then at_ ((p.mirrorSeq - p.acked).toNat % 65536) 16 ||| (p.acked &&& 0xFFFF)
    else p.mirrorSeq &&& 0xFFFF
  else rd d a

/-- SVC_BANK[t], word `i` (Table 15.17). -/
def bankWordOf (x : ImgType) (i : Nat) : Word :=
  match i with
  | 0 => flag x.active 31 ||| flag x.inact.valid 30 ||| flag x.fallback 29
  | 1 => x.act.ver
  | 2 => if x.inact.valid then x.inact.ver else 0
  | _ => at_ (x.svnMin.toNat % 65536) 16 ||| at_ (x.act.svn.toNat % 65536) 0

def svcRead (d : Dev) (a : Nat) : Word :=
  if a = 0x1600030 then d.svc.cfgGen
  else if a = 0x1600034 then at_ (d.svc.store.length - 1) 8 ||| at_ d.svc.cfgState 0
  else if 0x1600050 ≤ a ∧ a < 0x1600090 then bankWordOf (imgType d ((a - 0x1600040) / 16)) (a % 16 / 4)
  else if 0x1600100 ≤ a ∧ a < 0x1600158 then
    let r := (a - 0x1600100) / 8
    let left := reserveLeft d r
    if a % 8 = 0 then
      rd d a ||| at_ (if left = 0 then 2 else if left ≤ fld (rd d a) 15 0 then 1 else 0) 30
    else at_ (reserveTotal r) 16 ||| at_ left 0
  else rd d a

def cltRead (d : Dev) (a : Nat) : Word :=
  let c := d.clt
  match a - 0x4000000 with
  | 0x100 | 0x104 => half (mtime d) a
  | 0x208 => w32 c.wdog
  | 0x308 => (List.range 8).foldl (fun w h => w ||| at_ (c.map.getD h 15) (4 * h)) 0
  | 0x30C => at_ c.retired.toNat 16 ||| bitsAt (fun k => decide (k ∈ freeCores d)) 0
  | 0x310 => (List.range 8).foldl (fun w h => w ||| at_ (c.cause.getD h 0) (4 * h)) 0
  | _ => rd d a

/-! ## Every register -/

/-- The counter whose half lies at `a`, if `a` lies in a row of counters. -/
def counterAt (d : Dev) (a : Nat) : Option DWord :=
  let low := a / 8 * 8
  let n := (low - 0xF04000) / 0x80
  if 0xF04000 ≤ low ∧ n < 40 ∧ low = aLdcCnt n 10 then some (cnt d low + BitVec.ofNat 64 (onTimeDue d n))
  else
  match d.cnts.find? (·.1 == low) with
  | some e => some e.2
  | none => none

/-- What a read of the register at `a` returns; an address that holds none reads zero (R36). -/
def regRead (d : Dev) (a : Nat) : Word :=
  match regDesc a with
  | none => 0
  | some _ =>
    match counterAt d a with
    | some v => half v.toNat a
    | none =>
      if a < 0x100000 then devRead d a
      else if a < 0x200000 then rstRead d a
      else if a < 0x400000 then swRead d a
      else if a < 0x800000 then chtRead d a
      else if a < 0xC00000 then slpRead d a
      else if a < 0xD00000 then brgRead d a
      else if a < 0xE00000 then canRead d a
      else if a < 0xF00000 then nwsRead d a
      else if a < 0x1000000 then ldcRead d a
      else if a < 0x1100000 then wgsRead d a
      else if a < 0x1200000 then fioRead d a
      else if a < 0x1300000 then bwkRead d a
      else if a < 0x1400000 then wldRead d a
      else if a < 0x1500000 then keyRead d a
      else if a < 0x1600000 then pairRead d a
      else if a < 0x1700000 then svcRead d a
      else cltRead d a

end Sys2Proof.Machine
end

