-- ==== Sys2Proof/Machine/StrictWrite.lean ====
section
/-! DEFINITION. What a 32-bit write does to each register of the strict windows RST, BWK, WLD and KEY (R160, R161) and
of the cluster timer and control block CLT. A refusal answers the requester with an error. -/

namespace Sys2Proof.Machine

/-- RST_CMD (Table 14.13); a torn FMAP_PROG row is a free outcome of a write that names none. -/
def rstCmdWrite (d : Dev) (v : Word) : Dev :=
  let key := BitVec.ofNat 8 (fld v 23 16)
  match fld v 31 28 with
  | 1 => cmdReset d 8 1 0
  | 2 => cmdReset d 5 2 key
  | 3 => cmdReset d 4 3 key
  | 4 => berth d
  | 5 => moor d key
  | 6 => underway d
  | 7 => fmapProg d key false
  | _ => rstCommand d fun d => rstEnd d 1

/-- A write of an RST register (Table 14.10). -/
def rstWrite (d : Dev) (who : Requester) (a : Nat) (v : Word) : Dev :=
  if a = 0x100010 then rstCmdWrite d v
  else if a = 0x100018 then qmKick d who
  else if a = 0x100054 then (if bit v 0 then rstClear d else d)
  else if 0x100080 ≤ a ∧ a < 0x1000CC then blkctlWrite d (some who) ((a - 0x100080) / 4) v
  else fieldWrite d a v

/-- A write of a BWK register (Table 11.10): the heartbeats take their own sources only, and BWK_LOAD no write while a
CHECK or COMMIT runs (R324, R328). -/
def bwkWrite (d : Dev) (who : Requester) (a : Nat) (v : Word) : Dev :=
  if a = 0x120000C then
    match fld v 31 28 with
    | 1 => bwkCheck d
    | 2 => bwkCommit d
    | _ => bwkBadOp d
  else if a = 0x1200018 then (if who = .qm then beatQm d (v.setWidth 8) else answerError d who)
  else if a = 0x120001C then
    match who with
    | .hart h => if hartRuns d h.val then beatCl d (v.setWidth 8) else d
    | _ => answerError d who
  else if a = 0x1200060 then (if bit v 0 then bwkClear d else d)
  else if 0x1210000 ≤ a ∧ a < 0x1218000 then
    if resultValid d 0x1200010 && !d.bwk.commit then bankWrite d (a - 0x1210000) v else answerError d who
  else fieldWrite d a v

/-- A write of word `w` of region `r` of memory `m` (R352). -/
def regionWordWrite (d : Dev) (who : Requester) (m r w : Nat) (v : Word) : Dev :=
  if w = 3 then regionWrite d (.worldN who) m r v
  else if regionOpen d who m r then plainWrite d (aRegion m r w) v
  else regionRefused d who m r w

/-- A write of a WLD register (Table 12.15). -/
def wldWrite (d : Dev) (who : Requester) (a : Nat) (v : Word) : Dev :=
  if a = 0x1300010 then (if fld v 31 28 = 1 then hoCmdRelease d (fld v 4 0) else hoBadOp d)
  else if a = 0x1300018 then (if who = .pf then plainWrite d a v else answerError d who)
  else if a = 0x130001C then debugLower d v
  else if a = 0x1300024 then doIf (bit v 1) wldClearLog (doIf (bit v 0) wldClearCounters d)
  else if 0x1310000 ≤ a then
    let o := a - 0x1310000
    regionWordWrite d who (o / 0x400) (o % 0x400 / 16) (o % 16 / 4) v
  else fieldWrite d a v

/-- A write of a KEY register (Table 13.14): a requester reaches only its own mailbox slots (R346). -/
def keyWrite (d : Dev) (who : Requester) (a : Nat) (v : Word) : Dev :=
  if a = 0x1400010 then (if bit v 0 then keyClear d else d)
  else if 0x1401000 ≤ a ∧ a < 0x1402000 then
    let s := (a - 0x1401000) / 0x100
    let o := a % 0x100
    if !mbxOwner who s then answerError d who
    else if o = 0 then mbxHeader d who s v
    else if o = 0x80 then
      let d1 := if bit v 1 then mbxCancel d who s else d
      if bit v 0 then mbxAck d1 who s else d1
    else plainWrite d a v
  else fieldWrite d a v

/-- A write of a CLT register by a hart (Table 12.5). A compare value above CLT_MTIME ends its pending interrupt
(R339); an enable set while its event is held raises the APLIC source (R338). -/
def cltWrite (d : Dev) (a : Nat) (v : Word) : Dev :=
  let o := a - 0x4000000
  if o < 0x40 then
    let d1 := plainWrite d a v
    let h := o / 8
    if timerPending d1 h then d1
    else { d1 with clt := { d1.clt with timerPend := d1.clt.timerPend &&& ~~~(1#8 <<< h) } }
  else if o = 0x108 then (if bit v 0 then cltCapture d else d)
  else if o = 0x200 then wdogConfig d v
  else if o = 0x204 then wdogKick d (v.setWidth 16)
  else if o = 0x304 then
    let d1 := plainWrite d a v
    (List.range 6).foldl (fun d' b =>
      if bit (rd d 0x4000300) b && bit (rd d1 a) b && !bit (rd d a) b then emit d' (.aplic (b + 1)) else d') d1
  else plainWrite d a v

/-- A 32-bit write of the register at BAR0 offset `a`, with slip 0's authority; none where no register lies. -/
def regWrite (d : Dev) (who : Requester) (a : Nat) (v : Word) : Option Dev :=
  if (regDesc a).isNone then none
  else if 0x100000 ≤ a ∧ a < 0x200000 then some (rstWrite d who a v)
  else if 0x1200000 ≤ a ∧ a < 0x1300000 then some (bwkWrite d who a v)
  else if 0x1300000 ≤ a ∧ a < 0x1400000 then some (wldWrite d who a v)
  else if 0x1400000 ≤ a ∧ a < 0x1500000 then some (keyWrite d who a v)
  else if 0x1600000 ≤ a ∧ a < 0x1700000 then some (svcWrite d a v)
  else writeReg d a v

end Sys2Proof.Machine
end

