-- ==== Sys2Proof/Machine/RegWrite.lean ====
section
/-! DEFINITION. Accesses of requesters performed (R11, R36, R155–R173): register writes and reads, the failure of an access
on the peripheral bus, and the operations under the peripheral bridge's semaphores. -/

namespace Sys2Proof.Machine

/-! ## Register writes -/

/-- A doorbell write of 32 bits (Table 4.6). -/
def bellWrite (d : Dev) (n o : Nat) (v : Word) : Dev :=
  let idx := fld v 15 0
  if o < 0x40 then (if o % 8 = 0 then sqTail d n (o / 8) idx else cqHead d n (o / 8) idx)
  else if o = 0x40 then lbCons d n idx
  else bellErr d n

/-- A part of a write reaches its register, or fails (R11, R36, R164). -/
def partWrite (d : Dev) (e : BusAcc) (p : BusPart) : Dev :=
  let t := targetAdd e.target p.off
  let v : Word := p.value.setWidth 32
  let fails (cause : Nat) : Dev := partFails d e p cause (accDelay d e)
  if p.width ≠ 4 ∨ targetAddr t % 4 ≠ 0 then
    match placeOf d e.who t with
    | .reg a => fails (if farCause d a ≠ 0 then farCause d a else 2)
    | _ => fails 2
  else match placeOf d e.who t with
    | .bell n o => bellWrite d n o v
    | .clt a => if (regDesc a).isSome then cltWrite d a v else fails 1
    | .window n o => if o < 0x200 ∧ (regDesc (slipWin n + o)).isSome then windowWrite d n o v else fails 1
    | .reg a =>
      if farCause d a ≠ 0 then fails (farCause d a)
      else if peripheral a ∧ p.far = .parity then fails 6
      else match regWrite (breakReservations d e.who a) e.who a v with
        | some d1 => d1
        | none => fails 1
    | _ => fails 1

/-- Whether a part of a write is issued on the peripheral bus and finds no response. -/
def partSilent (d : Dev) (e : BusAcc) (p : BusPart) : Bool :=
  decide (p.far = .silent ∧ p.width = 4) &&
    match placeOf d e.who (targetAdd e.target p.off) with
    | .reg a => peripheral a && decide (a % 4 = 0) && decide (farCause d a = 0)
    | _ => false

/-- Perform the parts of a write in order. Where the far side is silent it stays issued and unresolved; once its last part
is performed or has failed, a strict write has its outcome (R11, R161). -/
def runParts (d : Dev) (e : BusAcc) : List BusPart → Bool → Dev
  | [], failed => if e.strict then strictOutcome d e.who (targetAddr e.target) e.width failed else d
  | p :: t, failed =>
    if partSilent d e p then busHold d { e with op := .write (p :: t) failed, silent := true }
    else
      let x := takeError d (partWrite d e p) e.who
      runParts x.2 e t (failed || x.1)

/-- The parts of a write of `width` bytes (R11). -/
def partsOf (t : Target) (width : Nat) (value : DWord) (far far2 : FarSide) : List BusPart :=
  if width = 8 ∧ targetAddr t % 8 = 0 then
    [⟨0, 4, (value.setWidth 32).setWidth 64, far⟩, ⟨4, 4, value >>> 32, far2⟩]
  else [⟨0, clamp 1 8 width, value, far⟩]

/-! ## Register reads (R11, R13, R36, R163, R168) -/

/-- The value an aligned read of 32 or 64 bits returns. -/
def readValue (d : Dev) (a : Nat) (wide : Bool) : DWord :=
  let lo := (regRead d a).setWidth 64
  if wide then lo ||| ((regRead d (a + 4)).setWidth 64 <<< 32) else lo

/-- The low `width` bytes of a value. -/
def lowBytes (v : DWord) (width : Nat) : DWord := BitVec.ofNat 64 (v.toNat % 2 ^ (8 * width))

/-- What a read of 1, 2, 4 or 8 bytes returns: the addressed bytes (R11). -/
def readBytes (d : Dev) (a width : Nat) : DWord := lowBytes (readValue d (a / 8 * 8) true >>> (8 * (a % 8))) width

/-- Whether an enabled prefetch window holds the 64-byte block of `a`, which no strict window does (R168). -/
def prefetched (d : Dev) (a : Nat) : Bool :=
  !strictTarget d (.bar0 (BitVec.ofNat 26 a)) && (List.range 8).any fun k =>
    let base := rd d (0xC00100 + 8 * k)
    bit base 31 && decide (fld base 25 6 ≤ a / 64) && decide (a / 64 ≤ fld (rd d (0xC00104 + 8 * k)) 25 6)

/-- Whether `a` lies in a mailbox slot of another requester, which reads zero (R346, R386). -/
def slotHidden (who : Requester) (a : Nat) : Bool :=
  decide (0x1401800 ≤ a ∧ a < 0x1402000) && !mbxOwner who ((a - 0x1401000) / 0x100)

/-- The value a requester's aligned read of 32 or 64 bits returns. -/
def ownedValue (d : Dev) (who : Requester) (a : Nat) (wide : Bool) : DWord :=
  if slotHidden who a then 0 else readValue d a wide

/-- A read served through the bridges: in a prefetch window from the requester's copy of the 64-byte block, younger than
1 µs, or from a new copy of it; elsewhere from the register (R168). A mailbox slot of another requester reads zero
(R386). -/
def bridgeRead (d : Dev) (who : Requester) (a width : Nat) : DWord × Dev :=
  if slotHidden who a then (0, d)
  else if prefetched d a then
    let of (c : PfCopy) : DWord :=
      let i := a % 64 / 8 * 2
      lowBytes (((c.words.getD i 0).setWidth 64 ||| ((c.words.getD (i + 1) 0).setWidth 64 <<< 32)) >>> (8 * (a % 8))) width
    match d.brg.pf.find? fun c => decide (c.who = who ∧ c.block = a / 64 ∧ d.wall - c.at_ < 1000) with
    | some c => (of c, d)
    | none =>
      let c : PfCopy := ⟨who, a / 64, d.wall, (List.range 16).map fun i => regRead d (a / 64 * 64 + 4 * i)⟩
      (of c, { d with brg := { d.brg with
        pf := c :: d.brg.pf.filter fun x => decide (x.who ≠ who ∨ x.block ≠ c.block) } })
  else (readBytes d a width, d)

/-- A read accepted `delay` µs ago fails at the far side: an error response in a window that was strict then; in a posted one data zero and a log entry with
READ = 1 (R163). -/
def readFails (d : Dev) (who : Requester) (t : Target) (width cause delay : Nat) : Dev :=
  let slip := chargedSlip d who t
  if strictWindow (allStrictAt d (d.wall - 1000 * delay)) t then answerFault d who 5
  else emit (errLog d who t slip width 0 true cause delay (devTime d - 1000 * delay) (slipOf d slip).inc) (.busOk who 0)

/-- A read as a requester makes it. An address that holds no register reads zero; a register of a World S block, or of one
in Block reset, hand-over or without clock or power, fails, and reads zero in a posted window (R34, R36, R163, R164). -/
def plainRead (d : Dev) (who : Requester) (t : Target) (width : Nat) (far : FarSide) : Dev :=
  match placeOf d who t with
  | .outside => emit d (.unsupported who)
  | .nothing => emit d (.busOk who 0)
  | .bell n o =>
    let both := (bellRead d n (o / 8 * 8)).setWidth 64 ||| ((bellRead d n (o / 8 * 8 + 4)).setWidth 64 <<< 32)
    emit d (.busOk who (lowBytes (both >>> (8 * (o % 8))) width))
  | .clt a => emit d (.busOk who (readBytes d a width))
  | .window n o => emit d (.busOk who (if o < 0x200 then readBytes d (slipWin n + o) width else 0))
  | .reg a =>
    if farCause d a ≠ 0 then readFails d who t width (farCause d a) 0
    else if peripheral a ∧ far = .parity then readFails d who t width 6 0
    else
      let x := bridgeRead d who a width
      emit x.2 (.busOk who x.1)

/-! ## Atomic operations (R170, R172) -/

/-- A value of 64 or 32 bits read as signed. -/
def asSigned (v : DWord) (wide : Bool) : Int := if wide then v.toInt else (v.setWidth 32).toInt

/-- What a read-modify-write writes, none where it writes nothing. -/
def rmwNew (op : Rmw) (wide : Bool) (orig operand cmp : DWord) : Option DWord :=
  let lt (a b : DWord) : Bool := if wide then decide (a.toNat < b.toNat) else decide (a.toNat % 2 ^ 32 < b.toNat % 2 ^ 32)
  match op with
  | .atomic .fetchAdd => some (orig + operand)
  | .atomic .swap => some operand
  | .atomic .cas => if orig = (if wide then cmp else (cmp.setWidth 32).setWidth 64) then some operand else none
  | .amo .add => some (orig + operand)
  | .amo .swap => some operand
  | .amo .and => some (orig &&& operand)
  | .amo .or => some (orig ||| operand)
  | .amo .xor => some (orig ^^^ operand)
  | .amo .min => some (if asSigned operand wide < asSigned orig wide then operand else orig)
  | .amo .max => some (if asSigned orig wide < asSigned operand wide then operand else orig)
  | .amo .minU => some (if lt operand orig then operand else orig)
  | .amo .maxU => some (if lt orig operand then operand else orig)

/-- The words an operation or an SC writes, as parts of an access that answers with an error when it fails (R163). -/
def opParts (wide : Bool) (v : DWord) : List BusPart :=
  if wide then [⟨0, 4, (v.setWidth 32).setWidth 64, .responds⟩, ⟨4, 4, v >>> 32, .responds⟩]
  else [⟨0, 4, (v.setWidth 32).setWidth 64, .responds⟩]

/-- Write the words of an operation: whether one failed, and the effect. -/
def opWrite (d : Dev) (who : Requester) (a : Nat) (wide : Bool) (v : DWord) : Bool × Dev :=
  let e : BusAcc := { accessOf d who (.bar0 (BitVec.ofNat 26 a)) (.write [] false) with strict := true }
  takeError d ((opParts wide v).foldl (fun d p => partWrite d e p) d) who

/-- The operation reads, computes, writes and answers with the original value, or with an error and no write when its
access fails (R170). -/
def atomicRun (d : Dev) (q : AtomicReq) : Dev :=
  let orig := ownedValue d q.who q.addr q.wide
  let absent := (regDesc q.addr).isNone || (q.wide && (regDesc (q.addr + 4)).isNone)
  if decide (farCause d q.addr ≠ 0) || absent || decide (q.far = .parity) then answerFault d q.who 7
  else match rmwNew q.op q.wide orig q.operand q.cmp with
    | none => emit d (.busOk q.who orig)
    | some v =>
      let x := opWrite d q.who q.addr q.wide v
      if x.1 then answerFault d q.who 7 else emit x.2 (.busOk q.who orig)

def reqKind (q : AtomicReq) : SemKind := match q.op with | .atomic _ => .atomicOp | .amo _ => .amo

/-- Semaphore `s` is taken for an operation. -/
def takeSem (d : Dev) (s : Nat) (q : AtomicReq) : Dev :=
  setSem d s { held := true, kind := reqKind q, block := q.addr / 8 * 8, at_ := d.wall, req := some q }

/-- Whether a field of the operand is WO or W1C (R170). -/
def hasWriteOnly (a : Nat) (wide : Bool) : Bool :=
  let f (a : Nat) : Bool := match regDesc a with | some r => r.wo || decide (r.w1c ≠ 0) | none => false
  f a || (wide && f (a + 4))

/-- An AtomicOp or AMO is performed: it takes a semaphore and keeps it until SEMAPHORE_FREED when `slow`, until
PERIPHERAL_BUS_TIMEOUT when the far side is silent, and otherwise completes at once (R170). -/
def atomicStart (d : Dev) (q : AtomicReq) (slow : Bool) : Dev :=
  if hasWriteOnly q.addr q.wide then answerFault d q.who 7
  else match freeSem d with
    | none => d
    | some s => if slow ∨ q.far = .silent then takeSem d s q else atomicRun d q

/-! ## LR and SC (R171) -/

/-- The reservation of hart `h`. -/
def reservationOf (d : Dev) (h : Nat) : Option Nat :=
  (List.range 64).find? fun s => let x := semOf d s; x.held && decide (x.kind = .lr) && x.hart == h

/-- The oldest reservation, whose semaphore an LR takes when none is free (R172). -/
def oldestReservation (d : Dev) : Option Nat :=
  (List.range 64).foldl (fun o s =>
    let x := semOf d s
    if x.held && decide (x.kind = .lr) then
      match o with
      | none => some s
      | some p => if x.at_ < (semOf d p).at_ then some s else o
    else o) none

/-- Hart `h` releases its reservation. -/
def dropReservation (d : Dev) (h : Nat) : Dev :=
  match reservationOf d h with
  | some s => setSem d s {}
  | none => d

/-- An LR of hart `h` is performed: in peripheral space it takes a semaphore as the hart's reservation, and a failure is
answered with an error; elsewhere it is a plain load. With every semaphore held by an AtomicOp or AMO, no reservation is
taken. -/
def lrRun (d : Dev) (e : BusAcc) (h : Fin 8) (wide : Bool) (far : FarSide) : Dev :=
  match placeOf d e.who e.target with
  | .reg a =>
    if !peripheral a then plainRead d e.who e.target (if wide then 8 else 4) far
    else if farCause d a ≠ 0 ∨ far = .parity then answerFault d e.who 5
    else if far = .silent then busHold d { e with silent := true }
    else
      let d1 := dropReservation d h.val
      let d2 := match (freeSem d1).or (oldestReservation d1) with
        | some s => setSem d1 s { held := true, kind := .lr, block := a / 8 * 8, hart := h.val, at_ := d.wall }
        | none => d1
      emit d2 (.busOk e.who (ownedValue d e.who a wide))
  | _ => plainRead d e.who e.target (if wide then 8 else 4) far

/-- RES_TIMEOUT in ns (Table 5.10); 0 acts as 1. -/
def resTimeout (d : Dev) : Nat := 1000 * atLeast1 (fld (rd d 0xC00000) 23 16)

/-- Whether an SC to `a` finds an intact reservation of its block, younger than RES_TIMEOUT. -/
def scIntact (d : Dev) (h a : Nat) (wide : Bool) : Bool :=
  match reservationOf d h with
  | some s =>
    let x := semOf d s
    !x.broken && x.block == a / 8 * 8 && decide (a % (if wide then 8 else 4) = 0)
      && decide (d.wall - x.at_ < resTimeout d)
  | none => false

/-- An SC of hart `h` is performed: it writes and succeeds under an intact reservation, answers with an error and writes
nothing when the far side refuses it, and otherwise returns failure (R163, R171). -/
def scRun (d : Dev) (e : BusAcc) (h : Fin 8) (wide : Bool) (value : DWord) (far : FarSide) : Dev :=
  let d1 := dropReservation d h.val
  match placeOf d e.who e.target with
  | .reg a =>
    if !scIntact d h.val a wide then emit d1 (.scResult h.val false)
    else if far = .silent then busHold d { e with silent := true }
    else
      let x := opWrite d1 e.who a wide value
      if far = .parity ∨ x.1 then answerFault d1 e.who 7 else emit x.2 (.scResult h.val true)
  | _ => emit d1 (.scResult h.val false)

/-! ## Accesses in order (R156–R158) -/

/-- The hart of a cluster access; LR and SC come from harts alone. -/
def hartOf : Requester → Fin 8
  | .hart h => h
  | _ => 0

/-- Perform an access. -/
def busRun (d : Dev) (e : BusAcc) : Dev :=
  match e.op with
  | .write parts failed => runParts d e parts failed
  | .atomic q slow => atomicStart d q slow
  | .lr wide far => lrRun d e (hartOf e.who) wide far
  | .sc wide value far => scRun d e (hartOf e.who) wide value far

/-- The first unresolved access that need not wait. -/
def busPick (d : Dev) : List BusAcc → List BusAcc → Option BusAcc
  | _, [] => none
  | before, e :: t => if !e.silent && !busWaits d before e then some e else busPick d (before ++ [e]) t

/-- Perform the accesses that no longer wait; `fuel` bounds their number. -/
def busDrain (d : Dev) : Nat → Dev
  | 0 => d
  | k + 1 =>
    match busPick d [] d.brg.queue with
    | none => d
    | some e => busDrain (busRun { d with brg := { d.brg with queue := d.brg.queue.erase e } } e) k

/-- Let the accesses that wait proceed where they can. -/
def busGo (d : Dev) : Dev := busDrain d d.brg.queue.length

/-- The host bridge accepts an access: it is performed, or waits in its order, and what waited for it may go on. -/
def busAccept (d : Dev) (e : BusAcc) : Dev :=
  let d1 := busAccepted d e
  if busWaits d1 d1.brg.queue e then busHold d1 e else busGo (busRun d1 e)

/-- REGISTER_WRITE: a write as a requester makes it. While the fabric is in reset or without power no path leads to a
register. `far` and `far2` are what the far side answers to the write, or to its halves. -/
def registerWrite (d : Dev) (who : Requester) (t : Target) (width : Nat) (value : DWord) (far far2 : FarSide) : Dev :=
  if !fabricUp d then d
  else if placeOf d who t = .outside then emit d (.unsupported who)
  else busAccept d (accessOf d who t (.write (partsOf t width value far far2) false))

/-- An AtomicOp or AMO whose target is a register, or no register, of BAR0: refused in any other space and misaligned
(R170). -/
def atomicAt (d : Dev) (t : Target) (q : AtomicReq) (slow : Bool) (refused : Dev) : Dev :=
  if !peripheral q.addr || decide (q.addr % (if q.wide then 8 else 4) ≠ 0) then refused
  else busAccept d (accessOf d q.who t (.atomic q slow))

/-- ATOMIC_OP of PCIe function `fn` (0: the physical function). -/
def atomicOp (d : Dev) (fn : Fin 4096) (t : Target) (wide : Bool) (k : AtomicKind) (operand cmp : DWord) (slow : Bool)
    (far : FarSide) : Dev :=
  let who : Requester := if fn.val = 0 then .pf else .vf fn
  if !fabricUp d then d
  else match placeOf d who t with
    | .reg a => atomicAt d t ⟨who, a, wide, .atomic k, operand, cmp, far⟩ slow (emit d (.unsupported who))
    | _ => emit d (.unsupported who)

/-- CLUSTER_AMO: an access fault outside peripheral space, or where the image does not reach. -/
def clusterAmo (d : Dev) (h : Fin 8) (t : Target) (wide : Bool) (k : AmoKind) (operand : DWord) (slow : Bool)
    (far : FarSide) : Dev :=
  if !fabricUp d then d
  else match placeOf d (.hart h) t with
    | .reg a => atomicAt d t ⟨.hart h, a, wide, .amo k, operand, 0, far⟩ slow (answerFault d (.hart h) 7)
    | _ => answerError d (.hart h)

/-- SEMAPHORE_FREED: the operation that holds semaphore `s` completes, and the accesses that waited, the oldest first,
proceed where they can (R170, R172). -/
def semFreed (d : Dev) (s : Nat) : Dev :=
  let x := semOf d s
  if x.held && decide (x.kind = .lr) then d
  else
    match x.req with
    | some q => if q.far = .silent then d else busGo (atomicRun (setSem d s {}) q)
    | none => busGo d

/-- CLUSTER_LR. -/
def clusterLr (d : Dev) (h : Fin 8) (t : Target) (wide : Bool) (far : FarSide) : Dev :=
  if !fabricUp d then d
  else if targetAddr t % (if wide then 8 else 4) ≠ 0 then answerFault d (.hart h) 5
  else busAccept d (accessOf d (.hart h) t (.lr wide far))

/-- CLUSTER_SC. -/
def clusterSc (d : Dev) (h : Fin 8) (t : Target) (wide : Bool) (value : DWord) (far : FarSide) : Dev :=
  if !fabricUp d then d else busAccept d (accessOf d (.hart h) t (.sc wide value far))

/-- RESERVATION_EXPIRE: the reservation of hart `h` reaches RES_TIMEOUT. -/
def reservationExpire (d : Dev) (h : Fin 8) : Dev :=
  match reservationOf d h.val with
  | some s =>
    if d.wall - (semOf d s).at_ < resTimeout d then d else setSem d s { semOf d s with broken := true }
  | none => d

/-! ## A peripheral bus that does not answer (R163, R164) -/

/-- The AtomicOp or AMO of `who` in progress, by its semaphore. -/
def pendingAtomic (d : Dev) (who : Requester) : Option Nat :=
  (List.range 64).find? fun s => let x := semOf d s
    x.held && match x.req with | some q => decide (q.who = who) | none => false

/-- An issued access that found no response fails TIMEOUT: the part of a write that was issued, and the parts after it are
performed; an LR or SC with an error response. -/
def accessTimeout (d : Dev) (e : BusAcc) : Dev :=
  match e.op with
  | .write (p :: rest) failed =>
    let x := takeError d (partFails d e p 5 (max (pbTimeout d) (accDelay d e))) e.who
    runParts x.2 { e with silent := false } rest (failed || x.1)
  | .sc _ _ _ => answerFault (dropReservation d (hartOf e.who).val) e.who 7
  | .lr _ _ => answerFault d e.who 5
  | _ => d

/-- PERIPHERAL_BUS_TIMEOUT: the oldest access of `who` that was issued and found no response fails TIMEOUT; with none, its
AtomicOp or AMO in progress completes with Completer Abort (R170). `read` is a plain read of the requester, of a width,
and what the far side answers it: it fails WORLD or BLOCK_RESET where its block refuses it, PARITY, or TIMEOUT when it
was issued PB_TIMEOUT ago. A read is not issued while an access it stands behind is unresolved (R156, R158). -/
def busTimeout (d : Dev) (who : Requester) (read : Option (Target × Nat × FarSide)) : Dev :=
  if !fabricUp d then d
  else match read with
    | some (t, width, far) =>
      if (d.brg.queue.any fun q => decide (q.who = who)) || atomicOf d who then d
      else match placeOf d who t with
        | .reg a =>
          let w := clamp 1 8 width
          if !peripheral a then d
          else if farCause d a ≠ 0 then readFails d who t w (farCause d a) 0
          else match far with
            | .responds => d
            | .parity => readFails d who t w 6 0
            | .silent => readFails d who t w 5 (pbTimeout d)
        | _ => d
    | none =>
      match d.brg.queue.find? fun e => e.silent && decide (e.who = who), pendingAtomic d who with
      | some e, _ => busGo (accessTimeout { d with brg := { d.brg with queue := d.brg.queue.erase e } } e)
      | none, some s => busGo (answerFault (setSem d s {}) who 7)
      | none, none => d

/-! ## Meanings -/

def execRegisterWrite (who : Requester) (t : Target) (width : Nat) (value : DWord) (far far2 : FarSide) (s : State) :
    Answer := onDev (registerWrite · who t width value far far2) s
def execPeripheralBusTimeout (who : Requester) (read : Option (Target × Nat × FarSide)) (s : State) : Answer :=
  onDev (busTimeout · who read) s
def execAtomicOp (fn : Fin 4096) (t : Target) (wide : Bool) (k : AtomicKind) (operand cmp : DWord) (slow : Bool)
    (far : FarSide) (s : State) : Answer := onDev (atomicOp · fn t wide k operand cmp slow far) s
def execClusterAmo (h : Fin 8) (t : Target) (wide : Bool) (k : AmoKind) (operand : DWord) (slow : Bool) (far : FarSide)
    (s : State) : Answer := onDev (clusterAmo · h t wide k operand slow far) s
def execClusterLr (h : Fin 8) (t : Target) (wide : Bool) (far : FarSide) (s : State) : Answer :=
  onDev (clusterLr · h t wide far) s
def execClusterSc (h : Fin 8) (t : Target) (wide : Bool) (value : DWord) (far : FarSide) (s : State) : Answer :=
  onDev (clusterSc · h t wide value far) s
def execReservationExpire (h : Fin 8) (s : State) : Answer := onDev (reservationExpire · h) s
def execSemaphoreFreed (k : Fin 64) (s : State) : Answer := onDev (semFreed · k) s

end Sys2Proof.Machine
end

