-- ==== Sys2Proof/Machine/Ingress.lean ====
section
/-! DEFINITION. Frames received on the wire ports (R49–R51, R59, Table 2.3), and the Quaymaster's work: its queue
(R29, R30), the handling of punts and learning (R107–R109, R432). -/

namespace Sys2Proof.Machine

/-! ## The Quaymaster's work queue (R29, R30) -/

/-! ## Learning (R109, R432) -/

/-- One word of a template field at byte `o`. -/
def tplWord (t : List Byte) (o i : Nat) : Word := leWord (t.drop o) i

/-- A key as a number. -/
def keyNat (k : ChtKey) : Nat :=
  k.k0.toNat + 2 ^ 32 * k.k1.toNat + 2 ^ 64 * k.k2.toNat + 2 ^ 96 * k.k3.toNat

def natKey (n : Nat) : ChtKey := ⟨w32 n, w32 (n >>> 32), w32 (n >>> 64), w32 (n >>> 96)⟩

/-- Whether a template matches a lookup key. -/
def tplMatches (t : List Byte) (k : ChtKey) : Bool :=
  let ok (i : Nat) (w : Word) : Bool := (w &&& tplWord t 16 i) == (tplWord t 0 i &&& tplWord t 16 i)
  ok 0 k.k0 && ok 1 k.k1 && ok 2 k.k2 && ok 3 k.k3

/-- The entry a template gives a lookup key, LEARNED set. -/
def tplEntry (t : List Byte) (k : ChtKey) : ChtCopy :=
  let x (i : Nat) (w : Word) : Word := w &&& tplWord t 32 i
  { valid := true
    k0 := x 0 k.k0, k1 := x 1 k.k1, k2 := x 2 k.k2, k3 := x 3 k.k3
    a0 := tplWord t 48 0, a1 := tplWord t 48 1, a2 := tplWord t 48 2
    a3 := (tplWord t 48 3 &&& 0x1FFFFFFF) ||| flag true 29 }

/-- Invalidate the exact entry with a key. -/
def exactDrop (d : Dev) (k : ChtKey) : Dev :=
  match findExact d k with
  | some i =>
    let e := exactAt d i
    mirrorNote (setExact d i (putCopy e { inCopy e with valid := false })) 0 (3 * 2 ^ 24 + i)
  | none => d

/-- The keys of the learned entries of template `i` that still exist. -/
def learnedOf (d : Dev) (i : Nat) : List Nat :=
  (tget [] d.svc.inserted i).filter fun n =>
    match findExact d (natKey n) with
    | some j => bit (inCopy (exactAt d j)).a3 29
    | none => false

def setLearned (d : Dev) (i : Nat) (l : List Nat) : Dev :=
  { d with svc := { d.svc with inserted := tset [] d.svc.inserted i l } }

/-- The learned INSERT of template `i` for a lookup key: an existing key changes nothing; with MAX entries in place
the oldest is deleted first. -/
def learnInsert (d : Dev) (i : Nat) (t : List Byte) (k : ChtKey) : Dev :=
  let c := tplEntry t k
  if keyBad (keyOf c) || actBad c || (findExact d (keyOf c)).isSome then d
  else
    let cap := leNat ((t.drop 64).take 2)
    let have_ := learnedOf d i
    if cap = 0 then d
    else
      let gone := have_.take (have_.length + 1 - cap)
      let d1 := gone.foldl (fun d n => exactDrop d (natKey n)) d
      let left := have_.drop (have_.length + 1 - cap)
      match placeExact d1 c with
      | (some j, d2) => setLearned (mirrorNote d2 0 (2 ^ 24 + j)) i (left ++ [keyNat (keyOf c)])
      | (none, d2) => setLearned d2 i left

/-- The first template that matches the key of a punted miss. -/
def learn (d : Dev) (uid : Nat) : Dev :=
  match frameOf d uid with
  | none => d
  | some f =>
    let k := lookupKey d f
    match (List.range d.svc.templates.length).find? fun i => tplMatches (d.svc.templates.getD i []) k with
    | some i => if hasAuthority d then learnInsert d i (d.svc.templates.getD i []) k else d
    | none => d

/-! ## Punts (R107) -/

/-- The Quaymaster handles a punted frame or copy: it learns from a whole frame and returns it for its second lookup,
and releases a copy. -/
def puntServe (d : Dev) (uid : Nat) (copy : Bool) : Dev :=
  let release (d : Dev) : Dev := setBasin d { d.basin with punts := d.basin.punts.filter fun p => p != ⟨uid, copy⟩ }
  if copy then freeIfDone (release d) uid
  else takePunts (verdict (release (learn d uid)) uid true)

/-- QM_WORK_SERVE: the next item by class, then by arrival. -/
def qmServe (d : Dev) : Dev :=
  if !qmAwake d then d
  else match qmNext d with
    | none => d
    | some e =>
      match e.2 with
      | .punt uid copy => puntServe (qmTake d e) uid copy
      | .slp op n a0 a1 => slpRun (qmTake d e) op n a0 a1
      | .logRead n r idx => logServe (qmTake d e) n r idx
      | .logFlush => logMove (qmTake d e)
      | .hail w => hailServe (qmTake d e) w
      | .lldpTx p => lldpServeTx (qmTake d e) p
      | .lldpRx p pdu => lldpServeRx (qmTake d e) p pdu
      | .other _ => qmTake d e

/-- PUNT_HANDLE: the next item is a punt, and the Quaymaster handles it. -/
def puntHandle (d : Dev) : Dev :=
  match qmNext d with
  | some (_, .punt _ _) => qmServe d
  | _ => d

/-- OCC_PEAK_INTERVAL: DEV_QM_OCC.PEAK takes the highest occupancy of the interval that ends (Table 1.16). -/
def occPeakInterval (d : Dev) : Dev :=
  if fabricUp d then
    let d1 := qmJudge d
    { d1 with qm := { d1.qm with peak := d1.qm.peakRun, peakRun := qmOcc d1 } }
  else d

/-! ## Reception on a wire port (R50, R59, R75, R81, R225, R416) -/

/-- MAXLEN of a wire port (Table 2.19). -/
def maxLen (d : Dev) (p : Nat) : Nat := clamp 64 9216 (fld (rd d (aPort p 0)) 13 0)

/-- SW_MS_CFG.VALIDATE: 0 Disabled, 1 Check, 2 Strict. -/
def msValidate (d : Dev) (k : Nat) : Nat := min 2 (fld (rd d (0x205000 + 0x100 * k)) 9 8)

/-- The lowest PN a receive channel accepts: REPLAY frames below the next one, or any with REPLAY off. -/
def msTooLate (d : Dev) (k last pn : Nat) : Bool :=
  bit (rd d (0x205000 + 0x100 * k)) 12 && decide (pn + (rd d (0x205004 + 0x100 * k)).toNat < last + 1)

/-- MACsec validation of engine `k` (R81, Table 2.6): whether the frame passes, and the engine after it. A first
valid frame of an SCI opens a receive channel, with the SAKs the engine holds, while fewer than 4 are active. A frame of
an association that is not in use passes as one that is not protected by it: only where VALIDATE is not Strict. -/
def msReceive (d : Dev) (k etype : Nat) (m : MsCheck) : Bool × Dev :=
  match m with
  | .unprotected => (etype == 0x888E || decide (msValidate d k < 2), d)
  | .failed enc => (!enc && decide (msValidate d k < 2), d)
  | .valid sci an pn =>
    let x := msOf d k
    let heard (l : List MsRxSa) : List MsRxSa :=
      l.map fun a => if a.an == an then { a with last := max a.last pn } else a
    match x.rx.find? (·.sci == sci) with
    | some c =>
      match c.sas.find? (·.an == an) with
      | none => (decide (msValidate d k < 2), d)
      | some a =>
        if msTooLate d k a.last pn then (false, d)
        else (true, setMs d k { x with rx := x.rx.map fun c =>
          if c.sci == sci then { c with sas := heard c.sas } else c })
    | none =>
      if x.rx.length < 4 && x.sas.any (·.an == an) then
        (true, setMs d k { x with rx := x.rx ++ [⟨sci, heard x.sas⟩] })
      else (decide (msValidate d k < 2), d)

/-- The VID and PCP of a received frame (R59). -/
def rxVlan (d : Dev) (p : Nat) (b : List Byte) : Nat × Nat :=
  let pvid := fld (rd d (aPort p 4)) 11 0
  if hasTag b then
    let tci := eth16 b 14
    (if tci % 4096 = 0 then pvid else tci % 4096, tci / 8192)
  else (pvid, fld (rd d (aPort p 0)) 26 24)

/-- VLAN ingress rules: VID 4095, or a port that is no member while VLAN_FILTER is 1. -/
def vlanDrops (d : Dev) (p vid : Nat) : Bool :=
  decide (vid = 4095) || (bit (rd d (aPort p 0)) 27 && !bit (rd d (0x210000 + 4 * vid)) p)

/-- A pairs frame taken by the pairs engine (Table 15.2). A mirror record is the command MIRROR_RECORD_RX, which
carries what its body says. -/
def pairFrame (d : Dev) (b : List Byte) : Dev :=
  let w (o n : Nat) : Nat := leNat ((b.drop o).take n)
  let h : PairHdr := { role := b.getD 1 0, flags := b.getD 2 0, fmt := b.getD 3 0, hbSeq := BitVec.ofNat 16 (w 4 2)
                       mirrorSeq := w32 (w 8 4), version := w32 (w 12 4), serial := BitVec.ofNat 64 (w 16 8)
                       ts := BitVec.ofNat 64 (w 24 8) }
  match b.getD 0 0 with
  | 1 => heartbeatRx d h
  | 2 => d
  | 3 => mirrorAck d h.mirrorSeq
  | 4 => handoverRx d h.mirrorSeq
  | 5 => resyncSend d
  | _ => pairInc d 6

/-- A MAC control frame: opcode, class enables and pause times. -/
def macControl (d : Dev) (p : Nat) (b : List Byte) : Dev :=
  pfcFrameRx d p (eth16 b 14) (BitVec.ofNat 8 (eth16 b 16)) ((List.range 8).map fun i => eth16 b (18 + 2 * i))

/-- The frame as the Basin holds it. -/
def wireFrame (d : Dev) (p : Nat) (b : List Byte) (ts : Nat) : Frame :=
  let v := rxVlan d p b
  { uid := 0, body := .eth b, inPort := p, ts := ts, vid := v.1, pcp := v.2, tagged := hasTag b
    cls := fld (rd d (aPort p 8)) (3 * v.2 + 2) (3 * v.2) }

/-- Count a frame that passed its checks. -/
def rxCounted (d : Dev) (p : Nat) (b : List Byte) : Dev := cntAdd (inc d (aPcnt p 0)) (aPcnt p 1) (b.length + 4)

/-- What becomes of a frame that passed checks 1–4. -/
def wireAccept (d : Dev) (p : Nat) (b : List Byte) (ts : Nat) : Dev :=
  let e := etherType b
  if e = 0x88B6 then
    if p = 10 then pairFrame (rxCounted d p b) (b.drop (if hasTag b then 18 else 14)) else inc d (aPcnt p 5)
  else if e = 0x88CC ∧ ¬ hasTag b ∧ b.take 6 = [0x01, 0x80, 0xC2, 0x00, 0x00, 0x0E] then
    lldpReceive (rxCounted d p b) p (b.drop 14) b ts
  else if vlanDrops d p (rxVlan d p b).1 then inc d (aPcnt p 5)
  else (enterBasin (rxCounted d p b) (wireFrame d p b ts)).2

/-- FRAME_RECEIVED: `b` runs from the destination MAC to the last byte before the FCS, SecTAG and ICV removed; `ts` is
the time of its first bit. -/
def frameReceived (d : Dev) (p : Nat) (b : List Byte) (ts : Nat) (fcsOk : Bool) (m : MsCheck) : Dev :=
  if !portPowered d p || !wireUp d p then d
  else if !fcsOk then inc d (aPcnt p 2)
  else if eth16 b 12 = 0x8808 then macControl d p b
  else if b.length + 4 < 64 then inc d (aPcnt p 3)
  else if maxLen d p < b.length + 4 then inc d (aPcnt p 4)
  else
    let x : Bool × Dev := if macsecOn d p then msReceive d (p - 8) (etherType b) m else (true, d)
    if x.1 then wireAccept x.2 p b ts else inc x.2 (aPcnt p 15)

/-! ## Meanings -/

def execQmWorkEnqueue (cls : Fin 5) (id : Nat) (s : State) : Answer :=
  onDev (fun d => if fabricUp d then qmEnqueue d (cls.val + 1) (.other id) else d) s
def execQmWorkServe (s : State) : Answer := onDev qmServe s
def execOccPeakInterval (s : State) : Answer := onDev occPeakInterval s
def execPuntHandle (s : State) : Answer := onDev puntHandle s
def execFrameReceived (p : Fin 11) (bytes : List Byte) (ts : Nat) (fcsOk : Bool) (m : MsCheck) (s : State) : Answer :=
  onDev (frameReceived · p bytes ts fcsOk m) s

end Sys2Proof.Machine
end

