-- ==== Sys2Proof/Machine/Dispatch.lean ====
section
/-! DEFINITION. exec: one arm per command, each one call of its meaning. -/

namespace Sys2Proof.Machine

def exec (i : Instr) (s : State) : Host.Outcome State Fault Refusal :=
  match i with
  | .registerWrite who t width value far far2 => Sys2Proof.Machine.execRegisterWrite who t width value far far2 s
  | .peripheralBusTimeout who read => Sys2Proof.Machine.execPeripheralBusTimeout who read s
  | .atomicOp fn t wide k operand cmp slow far => Sys2Proof.Machine.execAtomicOp fn t wide k operand cmp slow far s
  | .clusterAmo h t wide k operand slow far => Sys2Proof.Machine.execClusterAmo h t wide k operand slow far s
  | .clusterLr h t wide far => Sys2Proof.Machine.execClusterLr h t wide far s
  | .clusterSc h t wide value far => Sys2Proof.Machine.execClusterSc h t wide value far s
  | .reservationExpire h => Sys2Proof.Machine.execReservationExpire h s
  | .semaphoreFreed k => Sys2Proof.Machine.execSemaphoreFreed k s
  | .qmWorkEnqueue cls id => Sys2Proof.Machine.execQmWorkEnqueue cls id s
  | .qmWorkServe => Sys2Proof.Machine.execQmWorkServe s
  | .occPeakInterval => Sys2Proof.Machine.execOccPeakInterval s
  | .timeAonCopy => Sys2Proof.Machine.execTimeAonCopy s
  | .frameReceived p bytes ts fcsOk m => Sys2Proof.Machine.execFrameReceived p bytes ts fcsOk m s
  | .pfcXoffRepeat p c => Sys2Proof.Machine.execPfcXoffRepeat p c s
  | .txFrameStart p ts => Sys2Proof.Machine.execTxFrameStart p ts s
  | .txFrameEnd p c => Sys2Proof.Machine.execTxFrameEnd p c s
  | .basinMarchEnd failed => Sys2Proof.Machine.execBasinMarchEnd failed s
  | .basinPatrol c => Sys2Proof.Machine.execBasinPatrol c s
  | .retireMapSave => Sys2Proof.Machine.execRetireMapSave s
  | .limitCommit => Sys2Proof.Machine.execLimitCommit s
  | .limitApplied => Sys2Proof.Machine.execLimitApplied s
  | .portDisable p => Sys2Proof.Machine.execPortDisable p s
  | .portLinkLoss p => Sys2Proof.Machine.execPortLinkLoss p s
  | .portLinkUp p => Sys2Proof.Machine.execPortLinkUp p s
  | .asSync offset slavePort state prio => Sys2Proof.Machine.execAsSync offset slavePort state prio s
  | .gateChange p => Sys2Proof.Machine.execGateChange p s
  | .qbvCommit p => Sys2Proof.Machine.execQbvCommit p s
  | .qbvChangeTime p => Sys2Proof.Machine.execQbvChangeTime p s
  | .pfcFrameRx p opcode classes times => Sys2Proof.Machine.execPfcFrameRx p opcode classes times s
  | .pfcPauseExpire p c => Sys2Proof.Machine.execPfcPauseExpire p c s
  | .pfcWatchdog p c => Sys2Proof.Machine.execPfcWatchdog p c s
  | .pfcWatchdogEnd p c => Sys2Proof.Machine.execPfcWatchdogEnd p c s
  | .logbookEnable v => Sys2Proof.Machine.execLogbookEnable v s
  | .logbookRecordWrite c => Sys2Proof.Machine.execLogbookRecordWrite c s
  | .logbookInterrupt => Sys2Proof.Machine.execLogbookInterrupt s
  | .lbCons n v => Sys2Proof.Machine.execLbCons n v s
  | .swClearPeaks => Sys2Proof.Machine.execSwClearPeaks s
  | .swClearPcnt => Sys2Proof.Machine.execSwClearPcnt s
  | .swClearGdrop => Sys2Proof.Machine.execSwClearGdrop s
  | .swClearEdrop => Sys2Proof.Machine.execSwClearEdrop s
  | .swClearDrop => Sys2Proof.Machine.execSwClearDrop s
  | .insert => Sys2Proof.Machine.execInsert s
  | .update => Sys2Proof.Machine.execUpdate s
  | .delete => Sys2Proof.Machine.execDelete s
  | .twrite idx => Sys2Proof.Machine.execTwrite idx s
  | .tdelete idx => Sys2Proof.Machine.execTdelete idx s
  | .mwrite => Sys2Proof.Machine.execMwrite s
  | .policerWrite k w2 => Sys2Proof.Machine.execPolicerWrite k w2 s
  | .puntHandle => Sys2Proof.Machine.execPuntHandle s
  | .chtClearAll => Sys2Proof.Machine.execChtClearAll s
  | .chtClearDrops => Sys2Proof.Machine.execChtClearDrops s
  | .chtClearIndex k => Sys2Proof.Machine.execChtClearIndex k s
  | .create n => Sys2Proof.Machine.execCreate n s
  | .destroy n => Sys2Proof.Machine.execDestroy n s
  | .bind n => Sys2Proof.Machine.execBind n s
  | .unbind n => Sys2Proof.Machine.execUnbind n s
  | .release n => Sys2Proof.Machine.execRelease n s
  | .setshare n => Sys2Proof.Machine.execSetshare n s
  | .reset n => Sys2Proof.Machine.execReset n s
  | .setvfmax => Sys2Proof.Machine.execSetvfmax s
  | .slpClear => Sys2Proof.Machine.execSlpClear s
  | .vfEnable k ctl => Sys2Proof.Machine.execVfEnable k ctl s
  | .vfDisable => Sys2Proof.Machine.execVfDisable s
  | .vfFlr n => Sys2Proof.Machine.execVfFlr n s
  | .pfReset => Sys2Proof.Machine.execPfReset s
  | .hostLinkLoss => Sys2Proof.Machine.execHostLinkLoss s
  | .slipCtrlReset n => Sys2Proof.Machine.execSlipCtrlReset n s
  | .slipResetDone n => Sys2Proof.Machine.execSlipResetDone n s
  | .ringEnable n r cfg => Sys2Proof.Machine.execRingEnable n r cfg s
  | .ringDisable n r => Sys2Proof.Machine.execRingDisable n r s
  | .ringDisableDone n r => Sys2Proof.Machine.execRingDisableDone n r s
  | .sqTail n r v => Sys2Proof.Machine.execSqTail n r v s
  | .cqHead n r v => Sys2Proof.Machine.execCqHead n r v s
  | .descriptorFetch n r words => Sys2Proof.Machine.execDescriptorFetch n r words s
  | .descFetchFail n r idx cpl => Sys2Proof.Machine.execDescFetchFail n r idx cpl s
  | .dmaReadComplete fab t data => Sys2Proof.Machine.execDmaReadComplete fab t data s
  | .nop n r => Sys2Proof.Machine.execNop n r s
  | .rxBuf n r cr => Sys2Proof.Machine.execRxBuf n r cr s
  | .txEth n r data => Sys2Proof.Machine.execTxEth n r data s
  | .txCan n r data => Sys2Proof.Machine.execTxCan n r data s
  | .txCanConfirmDone n r => Sys2Proof.Machine.execTxCanConfirmDone n r s
  | .loadSet n r => Sys2Proof.Machine.execLoadSet n r s
  | .loadSetDone n r => Sys2Proof.Machine.execLoadSetDone n r s
  | .loadQuery n r => Sys2Proof.Machine.execLoadQuery n r s
  | .fieldSet n r => Sys2Proof.Machine.execFieldSet n r s
  | .fieldSetDone n r => Sys2Proof.Machine.execFieldSetDone n r s
  | .fieldQuery n r => Sys2Proof.Machine.execFieldQuery n r s
  | .bwkReq n r => Sys2Proof.Machine.execBwkReq n r s
  | .keyReq n r data => Sys2Proof.Machine.execKeyReq n r data s
  | .keyReqDone k => Sys2Proof.Machine.execKeyReqDone k s
  | .keyReqTimeout k => Sys2Proof.Machine.execKeyReqTimeout k s
  | .logRead n r => Sys2Proof.Machine.execLogRead n r s
  | .logReadTimeout n r => Sys2Proof.Machine.execLogReadTimeout n r s
  | .logFlush => Sys2Proof.Machine.execLogFlush s
  | .msixHoldoffExpire n r => Sys2Proof.Machine.execMsixHoldoffExpire n r s
  | .msixUnmask n v whole => Sys2Proof.Machine.execMsixUnmask n v whole s
  | .tunnelWrap c => Sys2Proof.Machine.execTunnelWrap c s
  | .tunnelUnwrap c => Sys2Proof.Machine.execTunnelUnwrap c s
  | .tunCfgWrite k v => Sys2Proof.Machine.execTunCfgWrite k v s
  | .switch k => Sys2Proof.Machine.execSwitch k s
  | .brgClearLog => Sys2Proof.Machine.execBrgClearLog s
  | .brgClearTun => Sys2Proof.Machine.execBrgClearTun s
  | .brgClearOverwrite => Sys2Proof.Machine.execBrgClearOverwrite s
  | .canFrameRx n m ts => Sys2Proof.Machine.execCanFrameRx n m ts s
  | .hpDeliver n => Sys2Proof.Machine.execHpDeliver n s
  | .canEnable n v => Sys2Proof.Machine.execCanEnable n v s
  | .canDisable n => Sys2Proof.Machine.execCanDisable n s
  | .canBusIntegrated n => Sys2Proof.Machine.execCanBusIntegrated n s
  | .canTxLoad n c => Sys2Proof.Machine.execCanTxLoad n c s
  | .canTxAttempt n lost delay sof => Sys2Proof.Machine.execCanTxAttempt n lost delay sof s
  | .canTxOk n => Sys2Proof.Machine.execCanTxOk n s
  | .canBusError n code phase window x => Sys2Proof.Machine.execCanBusError n code phase window x s
  | .canTxTimeout n idx => Sys2Proof.Machine.execCanTxTimeout n idx s
  | .canBoDelayExpire n => Sys2Proof.Machine.execCanBoDelayExpire n s
  | .canRecovered n => Sys2Proof.Machine.execCanRecovered n s
  | .recover n => Sys2Proof.Machine.execRecover n s
  | .abortTx n => Sys2Proof.Machine.execAbortTx n s
  | .canTrcvFault n supply => Sys2Proof.Machine.execCanTrcvFault n supply s
  | .canTrcvFaultClear n supply => Sys2Proof.Machine.execCanTrcvFaultClear n supply s
  | .canPex n => Sys2Proof.Machine.execCanPex n s
  | .canClear n => Sys2Proof.Machine.execCanClear n s
  | .nwsEnable n v => Sys2Proof.Machine.execNwsEnable n v s
  | .nwsDisable n v => Sys2Proof.Machine.execNwsDisable n v s
  | .keepAliveRx n m => Sys2Proof.Machine.execKeepAliveRx n m s
  | .keepAliveDue n => Sys2Proof.Machine.execKeepAliveDue n s
  | .localNeed n host => Sys2Proof.Machine.execLocalNeed n host s
  | .idleTimerExpire n => Sys2Proof.Machine.execIdleTimerExpire n s
  | .drainTimerExpire n busIdle => Sys2Proof.Machine.execDrainTimerExpire n busIdle s
  | .tMaxExpire n => Sys2Proof.Machine.execTMaxExpire n s
  | .transceiverSleepDone n => Sys2Proof.Machine.execTransceiverSleepDone n s
  | .busWake n c m => Sys2Proof.Machine.execBusWake n c m s
  | .controllerOnline n => Sys2Proof.Machine.execControllerOnline n s
  | .hailPeriodExpire n => Sys2Proof.Machine.execHailPeriodExpire n s
  | .hailCallAll n => Sys2Proof.Machine.execHailCallAll n s
  | .hailCallNew n => Sys2Proof.Machine.execHailCallNew n s
  | .forget n m => Sys2Proof.Machine.execForget n m s
  | .announce n uid session held kind confirm ts => Sys2Proof.Machine.execAnnounce n uid session held kind confirm ts s
  | .leave n uid => Sys2Proof.Machine.execLeave n uid s
  | .foreignCall n uid => Sys2Proof.Machine.execForeignCall n uid s
  | .hailWindowClose n => Sys2Proof.Machine.execHailWindowClose n s
  | .hailAssignTimeout n m => Sys2Proof.Machine.execHailAssignTimeout n m s
  | .lldpRx p frame ts => Sys2Proof.Machine.execLldpRx p frame ts s
  | .lldpTx p => Sys2Proof.Machine.execLldpTx p s
  | .lldpTtlExpire p k => Sys2Proof.Machine.execLldpTtlExpire p k s
  | .nwsClear n => Sys2Proof.Machine.execNwsClear n s
  | .slalomAdmit b => Sys2Proof.Machine.execSlalomAdmit b s
  | .turnOffEnd n => Sys2Proof.Machine.execTurnOffEnd n s
  | .shortCircuitTrip n ma => Sys2Proof.Machine.execShortCircuitTrip n ma s
  | .thermalTrip n tj => Sys2Proof.Machine.execThermalTrip n tj s
  | .thermalRestart n tj => Sys2Proof.Machine.execThermalRestart n tj s
  | .restartCountReset n => Sys2Proof.Machine.execRestartCountReset n s
  | .reverseCurrent n cur => Sys2Proof.Machine.execReverseCurrent n cur s
  | .twinReverseBlock n cur => Sys2Proof.Machine.execTwinReverseBlock n cur s
  | .twinForward n mv => Sys2Proof.Machine.execTwinForward n mv s
  | .supplyFault k v => Sys2Proof.Machine.execSupplyFault k v s
  | .supplyRestored k v => Sys2Proof.Machine.execSupplyRestored k v s
  | .segmentMeasure n ms => Sys2Proof.Machine.execSegmentMeasure n ms s
  | .spareCheck n spare mean => Sys2Proof.Machine.execSpareCheck n spare mean s
  | .segmentTest n bad => Sys2Proof.Machine.execSegmentTest n bad s
  | .segmentMapSave => Sys2Proof.Machine.execSegmentMapSave s
  | .openLoad n cur => Sys2Proof.Machine.execOpenLoad n cur s
  | .underCurrent n cur => Sys2Proof.Machine.execUnderCurrent n cur s
  | .offStateTest n mv => Sys2Proof.Machine.execOffStateTest n mv s
  | .sampleIntervalEnd n mean lo hi tj => Sys2Proof.Machine.execSampleIntervalEnd n mean lo hi tj s
  | .ldcApply n => Sys2Proof.Machine.execLdcApply n s
  | .clearTrip n => Sys2Proof.Machine.execClearTrip n s
  | .segTest n bad => Sys2Proof.Machine.execSegTest n bad s
  | .retire n seg => Sys2Proof.Machine.execRetire n seg s
  | .wearRecordSave => Sys2Proof.Machine.execWearRecordSave s
  | .ldcClearAll => Sys2Proof.Machine.execLdcClearAll s
  | .ldcClearChannel n => Sys2Proof.Machine.execLdcClearChannel n s
  | .wgModelUpdate va vb ms => Sys2Proof.Machine.execWgModelUpdate va vb ms s
  | .wgStateSave whole => Sys2Proof.Machine.execWgStateSave whole s
  | .wgsApply n => Sys2Proof.Machine.execWgsApply n s
  | .mainsLow volts => Sys2Proof.Machine.execMainsLow volts s
  | .mainsLowClear volts => Sys2Proof.Machine.execMainsLowClear volts s
  | .bankOvercurrent b => Sys2Proof.Machine.execBankOvercurrent b s
  | .shedHoldExpire n => Sys2Proof.Machine.execShedHoldExpire n s
  | .inrushWindowEnd n => Sys2Proof.Machine.execInrushWindowEnd n s
  | .dipBegin b v => Sys2Proof.Machine.execDipBegin b v s
  | .dipEnd b v => Sys2Proof.Machine.execDipEnd b v s
  | .dipBlankingEnd b => Sys2Proof.Machine.execDipBlankingEnd b s
  | .wgsClearAll => Sys2Proof.Machine.execWgsClearAll s
  | .wgsClearChannel n => Sys2Proof.Machine.execWgsClearChannel n s
  | .fieldInputEdge n level ts => Sys2Proof.Machine.execFieldInputEdge n level ts s
  | .isolationFrameTx => Sys2Proof.Machine.execIsolationFrameTx s
  | .fieldFrameRx crc => Sys2Proof.Machine.execFieldFrameRx crc s
  | .fieldSideFrameRx crc => Sys2Proof.Machine.execFieldSideFrameRx crc s
  | .fieldLinkDown => Sys2Proof.Machine.execFieldLinkDown s
  | .fieldSilence g => Sys2Proof.Machine.execFieldSilence g s
  | .wireBreak n => Sys2Proof.Machine.execWireBreak n s
  | .wireBreakClear n => Sys2Proof.Machine.execWireBreakClear n s
  | .outputOverload n => Sys2Proof.Machine.execOutputOverload n s
  | .outputThermalShutdown n => Sys2Proof.Machine.execOutputThermalShutdown n s
  | .outputMismatch n => Sys2Proof.Machine.execOutputMismatch n s
  | .outputMismatchClear n => Sys2Proof.Machine.execOutputMismatchClear n s
  | .quadSupplyFault q volt => Sys2Proof.Machine.execQuadSupplyFault q volt s
  | .quadSupplyRestored q volt => Sys2Proof.Machine.execQuadSupplyRestored q volt s
  | .counterSnapshot n => Sys2Proof.Machine.execCounterSnapshot n s
  | .fioApply n => Sys2Proof.Machine.execFioApply n s
  | .clearFault n => Sys2Proof.Machine.execClearFault n s
  | .snapshot n => Sys2Proof.Machine.execSnapshot n s
  | .fioClearAll => Sys2Proof.Machine.execFioClearAll s
  | .fioClearChannel n => Sys2Proof.Machine.execFioClearChannel n s
  | .fioClearLink => Sys2Proof.Machine.execFioClearLink s
  | .bwkSample clks => Sys2Proof.Machine.execBwkSample clks s
  | .bwkHbQm seq => Sys2Proof.Machine.execBwkHbQm seq s
  | .bwkHbCl seq => Sys2Proof.Machine.execBwkHbCl seq s
  | .bwkFault cause => Sys2Proof.Machine.execBwkFault cause s
  | .bwkPatrol inactive o r => Sys2Proof.Machine.execBwkPatrol inactive o r s
  | .check => Sys2Proof.Machine.execCheck s
  | .commit => Sys2Proof.Machine.execCommit s
  | .bwkClear => Sys2Proof.Machine.execBwkClear s
  | .coreFailure h hang bad lost => Sys2Proof.Machine.execCoreFailure h hang bad lost s
  | .cacheUe correctable dirty line => Sys2Proof.Machine.execCacheUe correctable dirty line s
  | .poisonConsume who addr => Sys2Proof.Machine.execPoisonConsume who addr s
  | .dramRowRepair row e => Sys2Proof.Machine.execDramRowRepair row e s
  | .msiWrite h f v => Sys2Proof.Machine.execMsiWrite h f v s
  | .mtimerInterrupt h => Sys2Proof.Machine.execMtimerInterrupt h s
  | .capture => Sys2Proof.Machine.execCapture s
  | .cltWdogKick key => Sys2Proof.Machine.execCltWdogKick key s
  | .cltWdogExpire => Sys2Proof.Machine.execCltWdogExpire s
  | .memoryAccess cls source place op => Sys2Proof.Machine.execMemoryAccess cls source place op s
  | .regionWrite who m r v => Sys2Proof.Machine.execRegionWrite who m r v s
  | .mailboxPost who k header => Sys2Proof.Machine.execMailboxPost who k header s
  | .mailboxResponse => Sys2Proof.Machine.execMailboxResponse s
  | .mailboxTimeout k => Sys2Proof.Machine.execMailboxTimeout k s
  | .ack who k => Sys2Proof.Machine.execAck who k s
  | .cancel who k => Sys2Proof.Machine.execCancel who k s
  | .hoClaim b => Sys2Proof.Machine.execHoClaim b s
  | .hoRelease b => Sys2Proof.Machine.execHoRelease b s
  | .hoTimeout b => Sys2Proof.Machine.execHoTimeout b s
  | .hoWithdraw b => Sys2Proof.Machine.execHoWithdraw b s
  | .hoReturn b => Sys2Proof.Machine.execHoReturn b s
  | .hoGrant b => Sys2Proof.Machine.execHoGrant b s
  | .debugEnableLower v => Sys2Proof.Machine.execDebugEnableLower v s
  | .debugLifetimeExpire => Sys2Proof.Machine.execDebugLifetimeExpire s
  | .tapInstruction code => Sys2Proof.Machine.execTapInstruction code s
  | .wldClearLog => Sys2Proof.Machine.execWldClearLog s
  | .wldClearCounters => Sys2Proof.Machine.execWldClearCounters s
  | .generate fl => Sys2Proof.Machine.execGenerate fl s
  | .keyImport fl => Sys2Proof.Machine.execImport fl s
  | .keyExport => Sys2Proof.Machine.execExport s
  | .keyDestroy fl => Sys2Proof.Machine.execKeyDestroy fl s
  | .keyPublic => Sys2Proof.Machine.execPublic s
  | .seal => Sys2Proof.Machine.execSeal s
  | .keyOpen => Sys2Proof.Machine.execOpen s
  | .keyMac => Sys2Proof.Machine.execMac s
  | .macCheck => Sys2Proof.Machine.execMacCheck s
  | .sign => Sys2Proof.Machine.execSign s
  | .verify => Sys2Proof.Machine.execVerify s
  | .keyHash => Sys2Proof.Machine.execHash s
  | .derive fl => Sys2Proof.Machine.execDerive fl s
  | .agree fl => Sys2Proof.Machine.execAgree fl s
  | .random => Sys2Proof.Machine.execRandom s
  | .tunnelKey => Sys2Proof.Machine.execTunnelKey s
  | .mkaIcv => Sys2Proof.Machine.execMkaIcv s
  | .mkaSak => Sys2Proof.Machine.execMkaSak s
  | .mkaSakIn => Sys2Proof.Machine.execMkaSakIn s
  | .challenge => Sys2Proof.Machine.execChallenge s
  | .challengeExpire => Sys2Proof.Machine.execChallengeExpire s
  | .transition fl => Sys2Proof.Machine.execTransition fl s
  | .keyDebug => Sys2Proof.Machine.execDebug s
  | .attest => Sys2Proof.Machine.execAttest s
  | .identity => Sys2Proof.Machine.execIdentity s
  | .keyClear => Sys2Proof.Machine.execKeyClear s
  | .coldPowerOn => Sys2Proof.Machine.execColdPowerOn s
  | .resetPin us => Sys2Proof.Machine.execResetPin us s
  | .logicPowerFail => Sys2Proof.Machine.execLogicPowerFail s
  | .powerFailWarning => Sys2Proof.Machine.execPowerFailWarning s
  | .mainsReturn => Sys2Proof.Machine.execMainsReturn s
  | .resetModule key => Sys2Proof.Machine.execResetModule key s
  | .resetFabric key => Sys2Proof.Machine.execResetFabric key s
  | .resetCluster => Sys2Proof.Machine.execResetCluster s
  | .qmKick who => Sys2Proof.Machine.execQmKick who s
  | .qmWatchdogExpire => Sys2Proof.Machine.execQmWatchdogExpire s
  | .resetSourceRelease c => Sys2Proof.Machine.execResetSourceRelease c s
  | .exitStep k bad damaged found => Sys2Proof.Machine.execExitStep k bad damaged found s
  | .clockConfirmFail k => Sys2Proof.Machine.execClockConfirmFail k s
  | .xtalFail => Sys2Proof.Machine.execXtalFail s
  | .xtalRestored => Sys2Proof.Machine.execXtalRestored s
  | .berth => Sys2Proof.Machine.execBerth s
  | .berthDone => Sys2Proof.Machine.execBerthDone s
  | .moor key => Sys2Proof.Machine.execMoor key s
  | .moorDone => Sys2Proof.Machine.execMoorDone s
  | .underway => Sys2Proof.Machine.execUnderway s
  | .unberthDone => Sys2Proof.Machine.execUnberthDone s
  | .wake cause chan => Sys2Proof.Machine.execWake cause chan s
  | .fmapProg key torn => Sys2Proof.Machine.execFmapProg key torn s
  | .blkctlWrite who b v => Sys2Proof.Machine.execBlkctlWrite who b v s
  | .supercapLow => Sys2Proof.Machine.execSupercapLow s
  | .rstClear => Sys2Proof.Machine.execRstClear s
  | .pairEnable v => Sys2Proof.Machine.execPairEnable v s
  | .pairDisable v => Sys2Proof.Machine.execPairDisable v s
  | .pairHeartbeatTx => Sys2Proof.Machine.execPairHeartbeatTx s
  | .pairHeartbeatRx h => Sys2Proof.Machine.execPairHeartbeatRx h s
  | .pairHeartbeatMiss => Sys2Proof.Machine.execPairHeartbeatMiss s
  | .takeoverBind => Sys2Proof.Machine.execTakeoverBind s
  | .joinWaitExpire => Sys2Proof.Machine.execJoinWaitExpire s
  | .dominanceLost loop => Sys2Proof.Machine.execDominanceLost loop s
  | .loopOpen => Sys2Proof.Machine.execLoopOpen s
  | .loopRestored => Sys2Proof.Machine.execLoopRestored s
  | .mirrorRecordRx seq m => Sys2Proof.Machine.execMirrorRecordRx seq m s
  | .mirrorAckRx seq => Sys2Proof.Machine.execMirrorAckRx seq s
  | .mirrorAckTimeout => Sys2Proof.Machine.execMirrorAckTimeout s
  | .resyncRequestRx => Sys2Proof.Machine.execResyncRequestRx s
  | .handoverRx seq => Sys2Proof.Machine.execHandoverRx seq s
  | .handover => Sys2Proof.Machine.execHandover s
  | .handoverTimeout => Sys2Proof.Machine.execHandoverTimeout s
  | .resync => Sys2Proof.Machine.execResync s
  | .forceSingle key => Sys2Proof.Machine.execForceSingle key s
  | .pairClear => Sys2Proof.Machine.execPairClear s
  | .stage t image => Sys2Proof.Machine.execStage t image s
  | .activate t => Sys2Proof.Machine.execActivate t s
  | .revert t => Sys2Proof.Machine.execRevert t s
  | .raiseSvn t key => Sys2Proof.Machine.execRaiseSvn t key s
  | .converterPhaseFail rail => Sys2Proof.Machine.execConverterPhaseFail rail s
  | .flashBlockFail => Sys2Proof.Machine.execFlashBlockFail s
  | .bulkCapMeasure percent => Sys2Proof.Machine.execBulkCapMeasure percent s
  | .openLoadClear n cur => Sys2Proof.Machine.execOpenLoadClear n cur s
  | .underCurrentClear n cur => Sys2Proof.Machine.execUnderCurrentClear n cur s
  | .peerLineHigh => Sys2Proof.Machine.execPeerLineHigh s
  | .dupSlotDetected => Sys2Proof.Machine.execDupSlotDetected s
  | .cancelledSlotTimeout k => Sys2Proof.Machine.execCancelledSlotTimeout k s
  | .clockRetry k ok => Sys2Proof.Machine.execClockRetry k ok s
  | .hostLinkUp => Sys2Proof.Machine.execHostLinkUp s
  | .supercapRecharged => Sys2Proof.Machine.execSupercapRecharged s
  | .debugHalt who op => Sys2Proof.Machine.execDebugHalt who op s

end Sys2Proof.Machine
end

