-- ==== Sys2Proof/Machine/Ticks.lean ====
section
/-! DEFINITION. What time alone does: the idle step of 10 ns, one period of the 100 MHz reference (assumption 2). -/

namespace Sys2Proof.Machine

/-- Slewing removes 1 ns of offset every 2,000 ns, 500 ppm (R70). -/
def slewTick (d : Dev) : Dev :=
  let a := d.as_
  if a.slew = 0 then d
  else if a.slewAcc + 10 < 2000 then { d with as_ := { a with slewAcc := a.slewAcc + 10 } }
  else
    let one : Int := if 0 < a.slew then 1 else -1
    { d with timeOff := d.timeOff + one, as_ := { a with slew := a.slew - one, slewAcc := 0 } }

/-- As grandmaster the module sends a Sync message on each of its 802.1AS ports every 125 ms (R68); the instants are
those of the wall clock (DESIGN CHOICE, assumption 77). -/
def asTick (d : Dev) : Dev := if d.as_.state = 3 ∧ d.wall % 125000000 = 0 then asSend d 15 else d

/-- One period of the 100 MHz reference: time counts, device time is slewed, a grandmaster
sends its Sync messages, PL looks at its packet number (R82), and a configuration being applied looks
at the outcome it waits for (R433). -/
def tick (d : Dev) : Dev := applyResume (asTick (pnJudge (slewTick { d with wall := d.wall + 10 }) 10))

end Sys2Proof.Machine
end

