-- ==== Sys2Proof/Safety.lean ====
section
/-! DEFINITION. What the claims speak of: the invariant of the memory, which every step keeps, and the commands that may
change a memory. -/

namespace Sys2Proof.Safety

open Sys2Proof.Machine

/-- The memories keep their canonical form: the invariant every step keeps. -/
def MemOk (s : State) : Prop := Memory.wf s.mem = true

/-- The commands that may change a region-controlled memory: an access, a request the Lock serves (its output may go
to memory, R367), and the sources that may assert the Cold reach (R404). All others leave every byte as it was. -/
def touchesMemory : Instr → Bool
  | .memoryAccess .. => true
  | .generate _ | .keyImport _ | .keyExport | .keyDestroy _ | .keyPublic | .seal | .keyOpen | .keyMac | .macCheck
  | .sign | .verify | .keyHash | .derive _ | .agree _ | .random | .tunnelKey | .mkaIcv | .mkaSak | .mkaSakIn
  | .challenge | .transition _ | .keyDebug | .attest | .identity => true
  | .coldPowerOn | .resetPin _ => true
  | _ => false

end Sys2Proof.Safety
end

