-- ==== Sys2Proof/Certificates/Slice0/Obligations.lean ====
section
/-! DEFINITION. The statements about this block: one Prop for each obligation of OBLIGATIONS.json, by the chapters of the
spec, and the small predicates they share. -/

open Sys2Proof Sys2Proof.Machine Sys2Proof.Safety

/-- R92 and the tables it covers: a counter clear zeroes exactly the counters it names, those of `hit`, and changes
nothing else of the block. -/
def ClearsExactly (c : Instr) (hit : Nat → Prop) : Prop :=
  ∀ (s : State), ∃ t, exec c s = .next t ∧ t = { s with dev := { s.dev with cnts := t.dev.cnts } } ∧
    (∀ a, hit a → cnt t.dev a = 0) ∧ (∀ a, ¬ hit a → cnt t.dev a = cnt s.dev a)


/-- Nothing of requester `who` is unresolved, and no other requester's access waits (Table 5.2). -/
def BusFree (d : Dev) (who : Requester) : Prop := d.brg.queue = [] ∧ atomicOf d who = false

/-- A row that is the manager's write of the register at `a` of peripheral space is performed at once: a path leads there,
no access is unresolved and none of the manager's is being performed, no other requester's operation holds its block, and
nothing fails it (R156, R164, R170, R354; that these rows are such writes is assumption 109). -/
def RowReady (d : Dev) (a : Nat) : Prop :=
  fabricUp d = true ∧ BusFree d .pf ∧ blockBusy d .pf a = false ∧ farCause d a = 0

/-- A counter clear that is a write of the register at `a` zeroes exactly the counters of `hit` (R92) and changes nothing
else beside the bridge. -/
def RowClears (c : Instr) (a : Nat) (hit : Nat → Prop) : Prop :=
  ∀ (s : State), RowReady s.dev a → ∃ t, exec c s = .next t ∧
    t = { s with dev := { s.dev with cnts := t.dev.cnts, brg := t.dev.brg } } ∧
    (∀ b, hit b → cnt t.dev b = 0) ∧ (∀ b, ¬ hit b → cnt t.dev b = cnt s.dev b)

/-- The refusal of a strict write of requester `who` at `addr`: a bus error, for a hart its precise store access fault
beside it, or for a PCIe function its AER record (R160, R161, R336). -/
def StrictRefusal (s : State) (who : Requester) (addr : Nat) : State :=
  { s with dev := match functionOf who with
    | none => answerFault s.dev who 7
    | some fn => aerReport s.dev fn addr 4 }

/-- What answers a strict write that succeeds: OK to a hart or the Quaymaster, nothing to a PCIe function (R161). -/
def StrictDone (s : State) (who : Requester) : State :=
  { s with dev := { s.dev with out := match functionOf who with
    | none => .busOk who 0 :: s.dev.out
    | some _ => s.dev.out } }

/-- A strict write of the register at `a` by `who` waits for nothing: no access of the requester is unresolved or being
performed, none has claimed the register, and no other requester's operation holds its block (R156, R170). -/
def NoneBefore (s : State) (who : Requester) (a : Nat) : Prop :=
  (∀ q ∈ s.dev.brg.queue, q.who ≠ who ∧ a / 4 ∉ claimedWords q) ∧ atomicOf s.dev who = false ∧
  (peripheral a = true → blockBusy s.dev who a = false)

/-- Else it waits in the bridge, and only the bridge changes (R156, R158, R170). -/
def Waits (c : Instr) (s : State) (who : Requester) (a : Nat) : Prop :=
  ¬ NoneBefore s who a → ∃ t, exec c s = .next t ∧ t = { s with dev := { s.dev with brg := t.dev.brg } } ∧
    t.dev.brg.queue.length = s.dev.brg.queue.length + 1 ∧ ∀ q ∈ s.dev.brg.queue, q ∈ t.dev.brg.queue

/-- Descriptor `x` is the oldest in flight of ring `r` of the ACTIVE slip `n`, and none behind it, `rest`, has its outcome. -/
def AtFront (s : State) (n r : Nat) (x : Desc) (rest : List Desc) : Prop :=
  (ringOf s.dev n r).inflight = x :: rest ∧ (∀ y ∈ rest, y.idx ≠ x.idx ∧ ∀ c, y.stage ≠ .done c) ∧
    (slipOf s.dev n).state = .active ∧ (slipOf s.dev n).reset = none

/-- It has also arrived and passed the checks of R139, and none behind it has started. -/
def ReadyAtFront (s : State) (n r : Nat) (x : Desc) (rest : List Desc) : Prop :=
  AtFront s n r x rest ∧ x.stage = .ready ∧ (∀ y ∈ rest, y.stage = .fetching ∨ y.stage = .ready) ∧
    descCheck s.dev n r x = none

/-- `x` has completed with outcome `c` (R136–R138, R142, Table 4.9): after the output `pre`, words 1–7 and then word 0
were written, only messages, if any, after them; the ring advances by one entry; `rest` stays in flight. -/
def Completed (s t : State) (n r : Nat) (x : Desc) (rest : List Desc) (pre : List Out) (c : Compl) : Prop :=
  (∃ l, t.dev.out = l ++
      .compl0 n r (cqBase s.dev n r + 32 * (ringOf s.dev n r).cqTail)
        (flag (ringOf s.dev n r).phase 31 ||| at_ c.status 16 ||| at_ (ringOf s.dev n r).seq 0) ::
      .compl1 n r (cqBase s.dev n r + 32 * (ringOf s.dev n r).cqTail)
        [at_ (ringOf s.dev n r).sqHead 16 ||| at_ (fld (dw x 0) 15 0) 0, w32 c.ts, w32 (c.ts >>> 32),
          c.c4, c.c5, c.c6, c.c7] :: pre ∧
    ∀ o ∈ l, ∃ m v a w, o = .msix m v a w) ∧
  (ringOf t.dev n r).inflight = rest ∧ (ringOf t.dev n r).seq = ((ringOf s.dev n r).seq + 1) % 65536 ∧
  (ringOf t.dev n r).cqTail = ((ringOf s.dev n r).cqTail + 1) % cqSize s.dev n r ∧
  (ringOf t.dev n r).phase = (if ((ringOf s.dev n r).cqTail + 1) % cqSize s.dev n r = 0
    then !(ringOf s.dev n r).phase else (ringOf s.dev n r).phase) ∧
  (ringOf t.dev n r).cqHead = (ringOf s.dev n r).cqHead ∧ (ringOf t.dev n r).sqHead = (ringOf s.dev n r).sqHead

/-- Beside the ring and the output nothing changed but the pending bit of a masked vector. -/
def OnlyRing (s t : State) (n r : Nat) : Prop :=
  t = { s with dev := { s.dev with out := t.dev.out, slips :=
      { s.dev.slips with rings := t.dev.slips.rings, tab := t.dev.slips.tab } } } ∧
  (∀ m q, q < 8 → m ≠ n ∨ q ≠ r → ringOf t.dev m q = ringOf s.dev m q) ∧
  ∀ m, { slipOf t.dev m with pba := 0 } = { slipOf s.dev m with pba := 0 }

/-- R56: COMMIT takes a snapshot of all shadow limits and clears VALID; while a commit runs it is ignored and
CMD_IGNORED is set. The snapshot is then applied whole, and the result is valid; one whose reserves exceed
POOL_CELLS − 1,036 is refused with the active limits unchanged. -/
def Obligations.LimitCommitAppliesWhole : Prop :=
  (∀ s : State, resultValid s.dev 0x200020 = true → ∃ t, exec .limitCommit s = .next t ∧
    t = { s with dev := { s.dev with
      basin := { s.dev.basin with limitPending := t.dev.basin.limitPending }, regs := t.dev.regs } } ∧
    (∀ a, a ≠ 0x200020 → rd t.dev a = rd s.dev a) ∧ rd t.dev 0x200020 = rd s.dev 0x200020 &&& 0x7FFFFFFF ∧
    t.dev.basin.limitPending = some
      { il := (List.range 112).map fun i => (i, rd s.dev (0x201000 + 4 * i))
        el := (List.range 112).map fun i => (i, rd s.dev (0x201200 + 4 * i))
        gr := (List.range 8).map fun i => (i, rd s.dev (0x201400 + 4 * i)) }) ∧
  (∀ s : State, resultValid s.dev 0x200020 = false → ∃ t, exec .limitCommit s = .next t ∧
    t.dev.basin = s.dev.basin ∧ rd t.dev 0x200020 = rd s.dev 0x200020 ∧ bit (rd t.dev 0x200014) 11 = true) ∧
  (∀ (s : State) (il el gr : Nat → Word),
    s.dev.basin.limitPending = some { il := (List.range 112).map fun i => (i, il i)
                                      el := (List.range 112).map fun i => (i, el i)
                                      gr := (List.range 8).map fun i => (i, gr i) } →
    s.dev.basin.poolCells - 1036 < (gr 0).toNat + (gr 1).toNat + (gr 2).toNat + (gr 3).toNat + (gr 4).toNat
      + (gr 5).toNat + (gr 6).toNat + (gr 7).toNat →
    ∃ t, exec .limitApplied s = .next t ∧ t.dev.basin = { s.dev.basin with limitPending := none } ∧
      (∀ a, a ≠ 0x200020 → rd t.dev a = rd s.dev a) ∧ resultValid t.dev 0x200020 = true) ∧
  (∀ (s : State) (il el gr : Nat → Word),
    s.dev.basin.limitPending = some { il := (List.range 112).map fun i => (i, il i)
                                      el := (List.range 112).map fun i => (i, el i)
                                      gr := (List.range 8).map fun i => (i, gr i) } →
    (gr 0).toNat + (gr 1).toNat + (gr 2).toNat + (gr 3).toNat + (gr 4).toNat
      + (gr 5).toNat + (gr 6).toNat + (gr 7).toNat ≤ s.dev.basin.poolCells - 1036 →
    ∃ t, exec .limitApplied s = .next t ∧ t.dev.basin.frames = s.dev.basin.frames ∧ t.dev.basin.overcommit = false ∧
      (∀ p c, p < 14 → c < 8 → limIL t.dev p c = (il (8 * p + c)).toNat ∧ limEL t.dev p c = (el (8 * p + c)).toNat) ∧
      (∀ c, c < 8 → limGR t.dev c = (gr c).toNat) ∧ resultValid t.dev 0x200020 = true)

/-- SW_CNT_CLEAR (Table 2.17): PEAKS sets SW_PEAK to the present SW_INUSE; PCNT, GDROP, EDROP and DROP clear exactly their
counters.
R67: ENABLE written 0, or the loss of link, leaves no frame queued at the wire port; link loss and link up set LINK and
SW_EVENT.LINK. R49: the link comes up only on a powered port. R76: a class that is past its threshold when the port begins
to carry traffic gets its XOFF then. -/
def Obligations.SwitchClearsAndLinkChanges : Prop :=
  (∀ s : State, exec .swClearPeaks s =
    .next { s with dev := { s.dev with basin := { s.dev.basin with peak := inUse s.dev } } }) ∧
  ClearsExactly .swClearPcnt (fun a => 0x21C900 ≤ a ∧ a < 0x21D000) ∧
  ClearsExactly .swClearGdrop (fun a => (0x21C800 ≤ a ∧ a < 0x21C840) ∨ (0x21C850 ≤ a ∧ a < 0x21C858)) ∧
  ClearsExactly .swClearEdrop (fun a => 0x21C400 ≤ a ∧ a < 0x21C800) ∧
  ClearsExactly .swClearDrop (fun a => (0x21C000 ≤ a ∧ a < 0x21C400) ∨ (0x21C840 ≤ a ∧ a < 0x21C850)) ∧
  (∀ (s : State) (p : Fin 11), ∃ t, exec (.portDisable p) s = .next t ∧
    rd t.dev (aPort p 0) = rd s.dev (aPort p 0) &&& 0x7FFFFFFF ∧
    ∀ e ∈ t.dev.basin.queues, e ∈ s.dev.basin.queues ∧ ¬ (e.port = p.val ∧ e.dest = Dest.wire)) ∧
  (∀ (s : State) (p : Fin 11), (portOf s.dev p).link = true → ∃ t, exec (.portLinkLoss p) s = .next t ∧
    (portOf t.dev p).link = false ∧ bit (rd t.dev 0x200014) 8 = true ∧ (∀ k < 4, nbrOf t.dev p k = none) ∧
    ∀ e ∈ t.dev.basin.queues, e ∈ s.dev.basin.queues ∧ ¬ (e.port = p.val ∧ e.dest = Dest.wire)) ∧
  (∀ (s : State) (p : Fin 11), (portOf s.dev p).link = false → portPowered s.dev p = true →
    ∃ t, exec (.portLinkUp p) s = .next t ∧
      portOf t.dev p = { portOf s.dev p with link := true, xoff := (portOf t.dev p).xoff } ∧
      (∀ q, q ≠ p.val → portOf t.dev q = portOf s.dev q) ∧
      (∀ c < 8, pfcOn s.dev p c = true → wireUp t.dev p = true → (portOf s.dev p).xoff.getLsbD c = false →
        (portOf t.dev p).xoff.getLsbD c = decide (limIL s.dev p c - fld (rd s.dev (aPort p 0x14)) 15 0 ≤ iocc s.dev p c ∧
          0 < iocc s.dev p c) ∧
        ((portOf t.dev p).xoff.getLsbD c = true → .pfc p c true ∈ t.dev.out)) ∧
      bit (rd t.dev 0x200014) 8 = true ∧ t.dev.basin = s.dev.basin ∧ t.mem = s.mem ∧ t.pending = s.pending)

/-- Nothing is in transmission at wire port `p`, which carries traffic, and of its classes `c` is the highest that has a head
and is not paused: `e`, of frame `f`. -/
def HeadOf (s : State) (p c : Nat) (e : QEntry) (f : Frame) : Prop :=
  (∀ x ∈ s.dev.basin.queues, x.port = p → x.dest = Dest.wire → x.sending = false) ∧ wireUp s.dev p = true ∧
  wireHead s.dev p c = some e ∧ frameOf s.dev e.uid = some f ∧ (portOf s.dev p).paused.getLsbD c = false ∧
  ∀ b, c < b → b < 8 → wireHead s.dev p b = none ∨ (portOf s.dev p).paused.getLsbD b = true

/-- R66, R54, R69: with every gate open and nothing in transmission, the head of the highest unpaused class that has one
starts, and its egress timestamp is taken; at its end, if its cells read well, it is sent, counted in TX_OK and TX_BYTES,
and has left the queue. R81, R82: on a MACsec port a frame it protects takes the next PN, three quarters of whose space
set PN_THR; at the maximum it is dropped in TX_LINK_DISCARD. R72: with gates in operation, a head whose gate stays open
long enough starts, one whose gate is closed, or closes before the frame would end, does not, and one longer than the longest
open interval is dropped. -/
def Obligations.TransmitHighestClassFirst : Prop :=
  (∀ (s : State) (p : Fin 11) (ts c : Nat) (e : QEntry) (f : Frame), c < 8 → HeadOf s p c e f →
    bit (rd s.dev (aPort p 0)) 28 = false →
    (msProtects s.dev p f = false →
      ∃ t, exec (.txFrameStart p ts) s = .next t ∧ (portOf t.dev p).egressTs = ts ∧
        t = { s with dev := (setPort (setEntry s.dev e { e with sending := true }) p
          { portOf s.dev p with egressTs := ts }) }) ∧
    (∀ sa, msProtects s.dev p f = true → (msOf s.dev (p - 8)).txSa = some sa →
      (sa.pn + 1 < pnSpace (msOf s.dev (p - 8)) → ∃ t, exec (.txFrameStart p ts) s = .next t ∧
        (portOf t.dev p).egressTs = ts ∧ { e with sending := true } ∈ t.dev.basin.queues ∧
        (msOf t.dev (p - 8)).txSa = some { sa with
          pn := sa.pn + 1, warned := sa.warned || decide (pnSpace (msOf s.dev (p - 8)) / 4 * 3 ≤ sa.pn + 1) } ∧
        (sa.warned = false → pnSpace (msOf s.dev (p - 8)) / 4 * 3 ≤ sa.pn + 1 →
          bit (rd t.dev 0x200014) 7 = true)) ∧
      (pnSpace (msOf s.dev (p - 8)) ≤ sa.pn + 1 → ∃ t, exec (.txFrameStart p ts) s = .next t ∧
        e ∉ t.dev.basin.queues ∧ cnt t.dev (aPcnt p 9) = cnt s.dev (aPcnt p 9) + 1 ∧ t.dev.ms = s.dev.ms ∧
        t.dev.out = s.dev.out))) ∧
  (∀ (s : State) (p : Fin 11) (ts c : Nat) (e : QEntry) (f : Frame) (g : GateList), c < 8 → HeadOf s p c e f →
    (∀ b < 8, b ≠ c → wireHead s.dev p b = none) → bit (rd s.dev (aPort p 0)) 28 = true →
    (portOf s.dev p).oper = some g →
    ((alwaysOpen c (fitList g.cycle g.entries) = true ∨
        wireTime p (wireBytes f e.untag).length (msProtects s.dev p f) ≤ longestOpen c (fitList g.cycle g.entries)) →
      ((gatesNow s.dev p).getLsbD c = false ∨ (∃ n, openFor s.dev p c = some n ∧
        n < wireTime p (wireBytes f e.untag).length (msProtects s.dev p f))) →
      exec (.txFrameStart p ts) s = .next s) ∧
    ((alwaysOpen c (fitList g.cycle g.entries) = true ∨
        wireTime p (wireBytes f e.untag).length (msProtects s.dev p f) ≤ longestOpen c (fitList g.cycle g.entries)) →
      (gatesNow s.dev p).getLsbD c = true → msProtects s.dev p f = false →
      (∀ n, openFor s.dev p c = some n → wireTime p (wireBytes f e.untag).length (msProtects s.dev p f) ≤ n) →
      exec (.txFrameStart p ts) s = .next { s with
        dev := (setPort (setEntry s.dev e { e with sending := true }) p { portOf s.dev p with egressTs := ts }) }) ∧
    (alwaysOpen c (fitList g.cycle g.entries) = false →
      longestOpen c (fitList g.cycle g.entries) < wireTime p (wireBytes f e.untag).length (msProtects s.dev p f) →
      ∃ t, exec (.txFrameStart p ts) s = .next t ∧ e ∉ t.dev.basin.queues ∧
        cnt t.dev (aPcnt p 10) = cnt s.dev (aPcnt p 10) + 1)) ∧
  (∀ (s : State) (p : Fin 11) (e : QEntry) (f : Frame),
    (s.dev.basin.queues.find? fun e => e.port == p.val && e.dest == Dest.wire && e.sending) = some e →
    frameOf s.dev e.uid = some f → readGood s.dev f .clean = true →
    ∃ t, exec (.txFrameEnd p .clean) s = .next t ∧
      .wireFrame p (wireBytes f e.untag) (msProtects s.dev p f) true ∈ t.dev.out ∧
      cnt t.dev (aPcnt p 6) = cnt s.dev (aPcnt p 6) + 1 ∧
      cnt t.dev (aPcnt p 7) = cnt s.dev (aPcnt p 7) + BitVec.ofNat 64 ((wireBytes f e.untag).length + 4) ∧
      (∀ x, x ∈ t.dev.basin.queues ↔ x ∈ s.dev.basin.queues ∧ x ≠ e) ∧ t.mem = s.mem ∧ t.pending = s.pending)

/-- R75–R77, R49: on a port that carries traffic a PFC frame with a pause time pauses exactly the classes it names that are
enabled, for its time; a pause whose time has passed, and a watchdog 1 s old, end for their class; the watchdog, WATCHDOG
ms after the pause began, ignores received pause for its class and counts; XOFF is repeated while its condition holds.
Every MAC control frame received counts in PFC_RX. -/
def Obligations.PriorityFlowControl : Prop :=
  (∀ (s : State) (p : Fin 11) (classes : BitVec 8) (times : List (BitVec 16)), portPowered s.dev p = true →
    wireUp s.dev p = true → (∀ c < 8, pfcOn s.dev p c = true) → (portOf s.dev p).ignorePause = 0 →
    (∀ c < 8, times.getD c 0 ≠ 0) →
    ∃ t, exec (.pfcFrameRx p 0x0101 classes times) s = .next t ∧
      cnt t.dev (aPcnt p 13) = cnt s.dev (aPcnt p 13) + 1 ∧
      (portOf t.dev p).paused = (portOf s.dev p).paused ||| classes ∧
      (∀ c < 8, classes.getLsbD c = true →
        tget 0 (portOf t.dev p).pauseEnd c = s.dev.wall + pauseNs p (times.getD c 0).toNat) ∧
      t = { s with dev := { s.dev with cnts := t.dev.cnts, ports := t.dev.ports } }) ∧
  (∀ (s : State) (p : Fin 11) (opcode : BitVec 16) (classes : BitVec 8) (times : List (BitVec 16)),
    portPowered s.dev p = true → wireUp s.dev p = true → opcode ≠ 0x0101 ∨ p.val < 8 →
    exec (.pfcFrameRx p opcode classes times) s = .next { s with dev := inc s.dev (aPcnt p 13) }) ∧
  (∀ (s : State) (p : Fin 11) (opcode : BitVec 16) (classes : BitVec 8) (times : List (BitVec 16)),
    wireUp s.dev p = false → exec (.pfcFrameRx p opcode classes times) s = .next s) ∧
  (∀ (s : State) (p : Fin 11) (c : Fin 8), tget 0 (portOf s.dev p).pauseEnd c ≤ s.dev.wall →
    ∃ t, exec (.pfcPauseExpire p c) s = .next t ∧
    t = { s with dev := { s.dev with ports := t.dev.ports } } ∧
    portOf t.dev p = { portOf s.dev p with paused := (portOf s.dev p).paused &&& ~~~(1#8 <<< c.val) } ∧
    ∀ q, q ≠ p.val → portOf t.dev q = portOf s.dev q) ∧
  (∀ (s : State) (p : Fin 11) (c : Fin 8), tget 0 (portOf s.dev p).ignoreAt c + 1000000000 ≤ s.dev.wall →
    ∃ t, exec (.pfcWatchdogEnd p c) s = .next t ∧
    t = { s with dev := { s.dev with ports := t.dev.ports } } ∧
    portOf t.dev p = { portOf s.dev p with ignorePause := (portOf s.dev p).ignorePause &&& ~~~(1#8 <<< c.val) } ∧
    ∀ q, q ≠ p.val → portOf t.dev q = portOf s.dev q) ∧
  (∀ (s : State) (p : Fin 11) (c : Fin 8), 8 ≤ p.val → (portOf s.dev p).paused.getLsbD c = true →
    fld (rd s.dev (aPort p 0x10)) 31 16 ≠ 0 →
    tget 0 (portOf s.dev p).pauseStart c + 1000000 * fld (rd s.dev (aPort p 0x10)) 31 16 ≤ s.dev.wall →
    ∃ t, exec (.pfcWatchdog p c) s = .next t ∧ (portOf t.dev p).paused.getLsbD c = false ∧
      (portOf t.dev p).ignorePause.getLsbD c = true ∧ cnt t.dev (aPcnt p 14) = cnt s.dev (aPcnt p 14) + 1 ∧
      bit (rd t.dev 0x200014) 3 = true) ∧
  (∀ (s : State) (p : Fin 11) (c : Fin 8), wireUp s.dev p = true → pfcOn s.dev p c = true →
    (portOf s.dev p).xoff.getLsbD c = true →
    limIL s.dev p c - fld (rd s.dev (aPort p 0x14)) 15 0 ≤ iocc s.dev p c → 0 < iocc s.dev p c →
    exec (.pfcXoffRepeat p c) s = .next { s with dev := sendPfc s.dev p c true })

/-- R68: 802.1AS is enabled and the clock follows a master heard on an enabled port that carries traffic: the module
cannot be grandmaster, or its PRIORITY1 is no better than the master's (the comparison is assumption 77). -/
def AsFollows (d : Dev) (slave : Fin 16) (state : Fin 4) (prio : Byte) : Prop :=
  bit (rd d 0x204008) 31 = true ∧ bit (rd d 0x204008) slave = true ∧ slave.val < 11 ∧
    (state.val = 1 ∨ state.val = 2) ∧ wireUp d slave = true ∧
    (bit (rd d 0x204008) 30 = true → prio.toNat ≤ fld (rd d 0x204008) 23 16)

/-- R71, R73: a valid administrative list becomes the pending request with its change time at least 2 µs away; one with a bad
length or interval, or a bad cycle time, is refused; at the change time it becomes operative; a gate change goes to the
next entry, the first one following the last.
R70, R33: an offset from a master the clock follows is slewed if it is at most 1 ms, and a larger one is removed by one step
that sets TIME_STEP; with no master and GM_CAPABLE = 0 the clock runs free; the time is copied to the always-on domain
with the always-on count it was copied at. R68: a sync message that is followed goes on from the other ports of PORTS. -/
def Obligations.GateListsAndDeviceTime : Prop :=
  (∀ (s : State) (p : Fin 11), 1 ≤ fld (rd s.dev (aPort p 0x18)) 6 0 → fld (rd s.dev (aPort p 0x18)) 6 0 ≤ 64 →
    (∀ i < fld (rd s.dev (aPort p 0x18)) 6 0, 64 ≤ (rd s.dev (aGcl p i)).toNat) →
    1000 ≤ (rd s.dev (aPort p 0x1C)).toNat → (rd s.dev (aPort p 0x1C)).toNat ≤ 1000000000 →
    ∃ t g, exec (.qbvCommit p) s = .next t ∧ (portOf t.dev p).pendList = some g ∧
      g.entries.length = fld (rd s.dev (aPort p 0x18)) 6 0 ∧ g.cycle = (rd s.dev (aPort p 0x1C)).toNat ∧
      g.base = rd64 s.dev (aPort p 0x20) ∧ devTime s.dev + 2000 ≤ (portOf t.dev p).changeTime ∧
      (∃ k, (portOf t.dev p).changeTime = g.base + k * g.cycle) ∧ resultValid t.dev (aPort p 0x2C) = false ∧
      (portOf t.dev p).oper = (portOf s.dev p).oper) ∧
  (∀ (s : State) (p : Fin 11), fld (rd s.dev (aPort p 0x18)) 6 0 = 0 ∨ 64 < fld (rd s.dev (aPort p 0x18)) 6 0 ∨
      (∃ i < fld (rd s.dev (aPort p 0x18)) 6 0, (rd s.dev (aGcl p i)).toNat < 64) →
    ∃ t, exec (.qbvCommit p) s = .next t ∧ (portOf t.dev p).pendList = none ∧
      resultValid t.dev (aPort p 0x2C) = true ∧ fld (rd t.dev (aPort p 0x2C)) 30 28 = 1 ∧
      (portOf t.dev p).oper = (portOf s.dev p).oper) ∧
  (∀ (s : State) (p : Fin 11), 1 ≤ fld (rd s.dev (aPort p 0x18)) 6 0 → fld (rd s.dev (aPort p 0x18)) 6 0 ≤ 64 →
    (∀ i < fld (rd s.dev (aPort p 0x18)) 6 0, 64 ≤ (rd s.dev (aGcl p i)).toNat) →
    (rd s.dev (aPort p 0x1C)).toNat < 1000 ∨ 1000000000 < (rd s.dev (aPort p 0x1C)).toNat →
    ∃ t, exec (.qbvCommit p) s = .next t ∧ (portOf t.dev p).pendList = none ∧
      resultValid t.dev (aPort p 0x2C) = true ∧ fld (rd t.dev (aPort p 0x2C)) 30 28 = 2 ∧
      (portOf t.dev p).oper = (portOf s.dev p).oper) ∧
  (∀ (s : State) (p : Fin 11) (g : GateList), (portOf s.dev p).pendList = some g →
    (portOf s.dev p).changeTime ≤ devTime s.dev →
    ∃ t, exec (.qbvChangeTime p) s = .next t ∧ (portOf t.dev p).oper = some g ∧ (portOf t.dev p).pendList = none ∧
      (portOf t.dev p).gateIdx = 0 ∧ resultValid t.dev (aPort p 0x2C) = true) ∧
  (∀ (s : State) (p : Fin 11) (g : GateList), (portOf s.dev p).oper = some g →
    (portOf s.dev p).gateNext ≤ devTime s.dev →
    ∃ t, exec (.gateChange p) s = .next t ∧ t = { s with dev := { s.dev with ports := t.dev.ports } } ∧
      (portOf t.dev p).gateIdx = (if (portOf s.dev p).gateIdx + 1 < (fitList g.cycle g.entries).length
        then (portOf s.dev p).gateIdx + 1 else 0) ∧
      (∀ q, q ≠ p.val → portOf t.dev q = portOf s.dev q)) ∧
  (∀ (s : State) (offset : Int) (slave : Fin 16) (state : Fin 4) (prio : Byte), AsFollows s.dev slave state prio →
    offset.natAbs ≤ 1000000 →
    ∃ t, exec (.asSync offset slave state prio) s = .next t ∧ t.dev.timeOff = s.dev.timeOff ∧
      t.dev.as_.slew = -offset ∧ t.dev.as_.slavePort = slave ∧ t.dev.as_.state = state ∧ t.dev.ports = s.dev.ports ∧
      ∀ q : Fin 11, bit (rd s.dev 0x204008) q = true → q.val ≠ slave.val → portPowered s.dev q = true →
        wireUp s.dev q = true → macsecOn s.dev q = false → ∃ n, .gptp q n false ∈ t.dev.out) ∧
  (∀ (s : State) (offset : Int) (slave : Fin 16) (state : Fin 4) (prio : Byte), AsFollows s.dev slave state prio →
    1000000 < offset.natAbs →
    ∃ t, exec (.asSync offset slave state prio) s = .next t ∧ t.dev.timeOff = s.dev.timeOff - offset ∧
      t.dev.as_.slew = 0 ∧ bit (rd t.dev 0x200014) 4 = true) ∧
  (∀ (s : State) (offset : Int) (slave : Fin 16) (state : Fin 4) (prio : Byte),
    bit (rd s.dev 0x204008) 30 = false → bit (rd s.dev 0x204008) slave = false →
    ∃ t, exec (.asSync offset slave state prio) s = .next t ∧ t.dev.as_.state = 0 ∧ t.dev.as_.slew = 0 ∧
      t.dev.timeOff = s.dev.timeOff ∧ t.dev.ports = s.dev.ports) ∧
  (∀ s : State, exec .timeAonCopy s =
    .next { s with dev := { s.dev with aonTime := devTime s.dev, aonAt := aonCount s.dev } })

/-- R43–R47: the march ends with admission and every failed cell retired; a corrected error below the threshold counts
against its free cell and in SW_CE_COUNT, an uncorrectable one retires it; a clean patrol read changes nothing; the map is
saved as it stands while flash can be written (Table 15.5). The patrol's UE event is assumption 81. -/
def Obligations.BasinTestsAndRetirement : Prop :=
  (∀ (s : State) (failed : List Nat), s.dev.basin.marching = true → ∃ t, exec (.basinMarchEnd failed) s = .next t ∧
    t.dev.basin.marching = false ∧ t.dev.basin.frames = s.dev.basin.frames ∧
    (∀ c, c ∈ t.dev.basin.retiredCells ↔ c ∈ s.dev.basin.retiredCells ∨ c ∈ failed)) ∧
  (∀ s : State, exec (.basinPatrol .clean) s = .next s) ∧
  (∀ (s : State) (c : Nat), cellFree s.dev [] c = true → tget 0 s.dev.basin.ceCount c + 1 < fld (rd s.dev 0x200010) 3 0 →
    ∃ t, exec (.basinPatrol (.corrected c)) s = .next t ∧
      tget 0 t.dev.basin.ceCount c = tget 0 s.dev.basin.ceCount c + 1 ∧
      cnt t.dev 0x21C848 = cnt s.dev 0x21C848 + 1 ∧
      t.dev.basin = { s.dev.basin with ceCount := t.dev.basin.ceCount }) ∧
  (∀ (s : State) (c : Nat), cellFree s.dev [] c = true → ∃ t, exec (.basinPatrol (.uncorrectable c)) s = .next t ∧
    c ∈ t.dev.basin.retiredCells ∧ bit (rd t.dev 0x200014) 9 = true) ∧
  (∀ s : State, flashWorn s.dev = false → exec .retireMapSave s = .next { s with dev := { s.dev with
    basin := { s.dev.basin with savedRetired := s.dev.basin.retiredCells }
    out := .flash 0 s.dev.basin.retired :: s.dev.out } })

/-- The owner of host slip `n` has no unresolved posted write ahead of a doorbell write of the slip (R156, R159); a doorbell
write of an internal slip, whose hart the row does not name, waits for none (assumption 109). -/
def BellFree (d : Dev) (n : Fin 4096) : Prop :=
  internalSlip d n = true ∨ ∀ e ∈ d.brg.queue, isPosted e = true → e.who ≠ (if n.val = 0 then .pf else .vf n)

/-- R84–R89: ENABLE = 1 is accepted for a slip that can own the Logbook, starting a first pass, and refused with LB_CFG
otherwise; the oldest copy is written as a record at the producer index, word 3 last; a full ring discards it; LB_CONS returns space;
unconsumed records raise the interrupt. -/
def Obligations.LogbookRecords : Prop :=
  (∀ (s : State) (v : Word), bit (rd s.dev 0x206000) 31 = false → bit v 31 = true → lbSlip s.dev = 0 → bit v 0 = false →
    ∃ t, exec (.logbookEnable v) s = .next t ∧ rd t.dev 0x206000 = v &&& 0x800F3701 ∧ t.dev.lb.phase = true ∧
      t.dev.lb.index = 0 ∧ t.dev.lb.written = 0 ∧ t.dev.lb.consumed = 0 ∧ t.dev.lb.seq = s.dev.lb.seq) ∧
  (∀ (s : State) (v : Word), bit (rd s.dev 0x206000) 31 = false → bit v 31 = true → lbSlip s.dev ≠ 0 →
    (slipOf s.dev (lbSlip s.dev)).state ≠ .active →
    ∃ t, exec (.logbookEnable v) s = .next t ∧ bit (rd t.dev 0x206000) 31 = false ∧ bit (rd t.dev 0x200014) 10 = true) ∧
  (∀ (s : State) (c : LbCopy) (rest : List LbCopy) (f : Frame), s.dev.basin.copies = c :: rest →
    frameOf s.dev c.uid = some f → readGood s.dev f .clean = true →
    s.dev.lb.written - s.dev.lb.consumed < lbSize s.dev →
    ∃ t, exec (.logbookRecordWrite .clean) s = .next t ∧ t.dev.basin.copies = rest ∧
      (∃ l, t.dev.out = l ++
        .dma s.dev.lb.slip (s.dev.lb.base + s.dev.lb.index * (32 + lbSnap s.dev) + 12)
          (((lbRecord s.dev f c).drop 12).take 4) ::
        .dma s.dev.lb.slip (s.dev.lb.base + s.dev.lb.index * (32 + lbSnap s.dev) + 16)
          (((lbRecord s.dev f c).drop 16).take ((lbRecord s.dev f c).length - 16)) ::
        .dma s.dev.lb.slip (s.dev.lb.base + s.dev.lb.index * (32 + lbSnap s.dev)) ((lbRecord s.dev f c).take 12) ::
        s.dev.out) ∧
      t.dev.lb.index = (s.dev.lb.index + 1) % lbSize s.dev ∧ t.dev.lb.seq = (s.dev.lb.seq + 1) % 65536 ∧
      t.dev.lb.written = s.dev.lb.written + 1 ∧ t.dev.lb.consumed = s.dev.lb.consumed) ∧
  (∀ (s : State) (c : LbCopy) (rest : List LbCopy) (f : Frame), s.dev.basin.copies = c :: rest →
    frameOf s.dev c.uid = some f → readGood s.dev f .clean = true → lbSize s.dev ≤ s.dev.lb.written - s.dev.lb.consumed →
    ∃ t, exec (.logbookRecordWrite .clean) s = .next t ∧ t.dev.basin.copies = rest ∧ t.dev.lb = s.dev.lb ∧
      cnt t.dev 0x21C840 = cnt s.dev 0x21C840 + 1 ∧ bit (rd t.dev 0x200014) 6 = true) ∧
  (∀ (s : State) (n : Fin 4096) (v : BitVec 16), BellFree s.dev n → lbSlip s.dev = n → v.toNat < lbSize s.dev →
    (v.toNat + lbSize s.dev - s.dev.lb.cons % lbSize s.dev) % lbSize s.dev ≤ s.dev.lb.written - s.dev.lb.consumed →
    ∃ t, exec (.lbCons n v) s = .next t ∧ t = { s with dev := { s.dev with lb := t.dev.lb } } ∧
      t.dev.lb.cons = v.toNat ∧ t.dev.lb.written = s.dev.lb.written ∧
      (v.toNat ≠ s.dev.lb.cons → s.dev.lb.cons < lbSize s.dev → t.dev.lb.consumed =
        s.dev.lb.consumed + (v.toNat + lbSize s.dev - s.dev.lb.cons % lbSize s.dev) % lbSize s.dev)) ∧
  (∀ s : State, s.dev.lb.consumed < s.dev.lb.written → exec .logbookInterrupt s =
    .next { s with dev := sendVec s.dev (lbSlip s.dev) (fld (rd s.dev (slipWin (lbSlip s.dev) + 4)) 10 8) })

/-- R29, R30: work is queued in order of arrival, class-5 work is shed and counted at level 1 and above, and the
Quaymaster serves the lowest class first, within it the oldest. Each change of the shedding level sets DEV_EVENT, and the
first one discards the queued class-5 work. R107: a punted frame gets its second lookup, from which it is not punted again.
The peak register takes the interval's highest. -/
def Obligations.QuaymasterWorkQueue : Prop :=
  (∀ (s : State) (cls : Fin 5) (id : Nat), fabricUp s.dev = true → s.dev.qm.queue.length < 2048 →
    cls.val < 4 ∨ s.dev.qm.shed = 0 → shedLevel s.dev.qm.shed (s.dev.qm.queue.length + 1) = s.dev.qm.shed →
    ∃ t, exec (.qmWorkEnqueue cls id) s = .next t ∧
      t.dev.qm.queue = s.dev.qm.queue ++ [(cls.val + 1, .other id)] ∧ t.dev.qm.shedCount = s.dev.qm.shedCount ∧
      t = { s with dev := { s.dev with qm := t.dev.qm } }) ∧
  (∀ (s : State) (id : Nat), fabricUp s.dev = true → 0 < s.dev.qm.shed → exec (.qmWorkEnqueue 4 id) s =
    .next { s with dev := { s.dev with qm := { s.dev.qm with shedCount := s.dev.qm.shedCount + 1 } } }) ∧
  (∀ (s : State) (cls id : Nat) (before after : List (Nat × QmWork)), qmAwake s.dev = true → cls ≤ 5 →
    s.dev.qm.queue = before ++ (cls, .other id) :: after → (∀ e ∈ before, cls < e.1) → (∀ e ∈ after, cls ≤ e.1) →
    shedLevel s.dev.qm.shed (before.length + after.length) = s.dev.qm.shed →
    ∃ t, exec .qmWorkServe s = .next t ∧ t.dev.qm.queue = before ++ after ∧
      t = { s with dev := { s.dev with qm := t.dev.qm } }) ∧
  (∀ (s : State) (uid : Nat) (rest : List (Nat × QmWork)), qmAwake s.dev = true →
    s.dev.qm.queue = (5, .punt uid true) :: rest → (∀ e ∈ rest, 5 ≤ e.1) →
    shedLevel s.dev.qm.shed rest.length = s.dev.qm.shed →
    ∃ t, exec .puntHandle s = .next t ∧ t.dev.qm.queue = rest ∧
      (∀ p, p ∈ t.dev.basin.punts ↔ p ∈ s.dev.basin.punts ∧ p ≠ ⟨uid, true⟩)) ∧
  (∀ (s : State) (uid : Nat) (rest : List (Nat × QmWork)), qmAwake s.dev = true →
    s.dev.qm.queue = (5, .punt uid false) :: rest → (∀ e ∈ rest, 5 ≤ e.1) →
    shedLevel s.dev.qm.shed rest.length = s.dev.qm.shed → s.dev.svc.templates = [] →
    ∃ t d, exec .puntHandle s = .next t ∧ t.dev = (verdict d uid true).2 ∧ (verdict d uid true).1 = [] ∧
      d = { s.dev with qm := d.qm, basin := { s.dev.basin with punts := d.basin.punts } } ∧ d.qm.queue = rest ∧
      ∀ p, p ∈ d.basin.punts ↔ p ∈ s.dev.basin.punts ∧ p ≠ ⟨uid, false⟩) ∧
  (∀ (s : State) (cls : Fin 5) (id : Nat) (q : List (Nat × QmWork)), fabricUp s.dev = true → cls.val < 4 →
    q = s.dev.qm.queue ++ [(cls.val + 1, .other id)] → s.dev.qm.shed = 0 → 0 < shedLevel 0 q.length →
    ∃ t, exec (.qmWorkEnqueue cls id) s = .next t ∧ bit (rd t.dev 0x1C) 1 = true ∧
      t.dev.qm.queue = q.filter (·.1 != 5) ∧
      t.dev.qm.shed = shedLevel (shedLevel 0 q.length) (q.filter (·.1 != 5)).length ∧
      ((∀ e ∈ q, e.1 = 5 → ∃ k, e.2 = .other k) →
        t.dev.qm.shedCount = s.dev.qm.shedCount + (q.filter (·.1 == 5)).length)) ∧
  (∀ (s : State) (cls id : Nat) (rest : List (Nat × QmWork)), qmAwake s.dev = true → cls ≤ 5 →
    s.dev.qm.queue = (cls, .other id) :: rest → (∀ e ∈ rest, cls ≤ e.1) → 0 < s.dev.qm.shed →
    shedLevel s.dev.qm.shed rest.length < s.dev.qm.shed →
    ∃ t, exec .qmWorkServe s = .next t ∧ t.dev.qm.queue = rest ∧ bit (rd t.dev 0x1C) 1 = true ∧
      t.dev.qm.shed = shedLevel s.dev.qm.shed rest.length) ∧
  (∀ s : State, fabricUp s.dev = true → shedLevel s.dev.qm.shed s.dev.qm.queue.length = s.dev.qm.shed →
    ∃ t, exec .occPeakInterval s = .next t ∧ t.dev.qm.peak = max s.dev.qm.peakRun (qmOcc s.dev) ∧
      t.dev.qm.peakRun = qmOcc s.dev ∧ t.dev.qm.queue = s.dev.qm.queue)

/-- An Ethernet frame `b` that passed the checks at wire port `p` is counted in RX_OK and RX_BYTES and goes to admission and
classification with its VID, PCP and class (R50, R52). -/
def Received (d : Dev) (p : Fin 11) (b : List Byte) (ts : Nat) : Dev :=
  (enterBasin (cntAdd (inc d (aPcnt p 0)) (aPcnt p 1) (b.length + 4))
    { uid := 0, body := .eth b, inPort := p, ts := ts, vid := (rxVlan d p b).1, pcp := (rxVlan d p b).2
      tagged := hasTag b
      cls := fld (rd d (aPort p 8)) (3 * (rxVlan d p b).2 + 2) (3 * (rxVlan d p b).2) }).2

/-- R50, R23, R81: the checks of Table 2.3 act in order. A frame with a bad FCS is dropped and counted and nothing else
happens; so are a runt and an oversize frame; a frame that passes them all is counted in RX_OK and RX_BYTES and goes to
admission and classification with its VID, PCP and class. On a MACsec port MKA frames pass; a frame that fails validation
under the configured mode, or that replay protection finds too late, is counted and dropped; a valid one moves its SA's
last PN. -/
def Obligations.WireReceptionChecks : Prop :=
  (∀ (s : State) (p : Fin 11) (b : List Byte) (ts : Nat) (m : MsCheck), portPowered s.dev p = true →
    wireUp s.dev p = true →
    exec (.frameReceived p b ts false m) s = .next { s with dev := inc s.dev (aPcnt p 2) }) ∧
  (∀ (s : State) (p : Fin 11) (b : List Byte) (ts : Nat) (m : MsCheck), portPowered s.dev p = true →
    wireUp s.dev p = true → eth16 b 12 ≠ 0x8808 → b.length + 4 < 64 →
    exec (.frameReceived p b ts true m) s = .next { s with dev := inc s.dev (aPcnt p 3) }) ∧
  (∀ (s : State) (p : Fin 11) (b : List Byte) (ts : Nat) (m : MsCheck), portPowered s.dev p = true →
    wireUp s.dev p = true → eth16 b 12 ≠ 0x8808 → 64 ≤ b.length + 4 → maxLen s.dev p < b.length + 4 →
    exec (.frameReceived p b ts true m) s = .next { s with dev := inc s.dev (aPcnt p 4) }) ∧
  (∀ (s : State) (p : Fin 11) (b : List Byte) (ts : Nat) (m : MsCheck), portPowered s.dev p = true →
    wireUp s.dev p = true → eth16 b 12 ≠ 0x8808 → 64 ≤ b.length + 4 → b.length + 4 ≤ maxLen s.dev p →
    etherType b ≠ 0x88B6 → etherType b ≠ 0x88CC → vlanDrops s.dev p (rxVlan s.dev p b).1 = false →
    (macsecOn s.dev p = false ∨ (m = .unprotected ∧ (etherType b = 0x888E ∨ msValidate s.dev (p - 8) < 2)) →
      exec (.frameReceived p b ts true m) s = .next { s with dev := Received s.dev p b ts }) ∧
    (macsecOn s.dev p = true →
      (m = .unprotected → etherType b ≠ 0x888E → msValidate s.dev (p - 8) = 2 →
        exec (.frameReceived p b ts true m) s = .next { s with dev := inc s.dev (aPcnt p 15) }) ∧
      (∀ enc, m = .failed enc → enc = true ∨ msValidate s.dev (p - 8) = 2 →
        exec (.frameReceived p b ts true m) s = .next { s with dev := inc s.dev (aPcnt p 15) }) ∧
      (∀ sci an pn c a, m = .valid sci an pn → (msOf s.dev (p - 8)).rx.find? (·.sci == sci) = some c →
        c.sas.find? (·.an == an) = some a →
        (msTooLate s.dev (p - 8) a.last pn = true →
          exec (.frameReceived p b ts true m) s = .next { s with dev := inc s.dev (aPcnt p 15) }) ∧
        (msTooLate s.dev (p - 8) a.last pn = false → ∃ d, exec (.frameReceived p b ts true m) s =
            .next { s with dev := Received d p b ts } ∧ d = { s.dev with ms := d.ms } ∧
          ∃ c' a', (msOf d (p - 8)).rx.find? (·.sci == sci) = some c' ∧ c'.sas.find? (·.an == an) = some a' ∧
            a' = { a with last := max a.last pn }))))

/-- R53, R46: a frame is admitted exactly if every test of Table 2.4 passes, and is then charged to its port and class; a
refused frame increments SW_DROP of its port and class, also SW_GDROP where the reserve test failed and SW_PDROP where
the pool test failed, and is charged nothing. -/
def Obligations.AdmissionTests : Prop :=
  ∀ (d : Dev) (f : Frame), d.basin.marching = false →
    ((limIL d f.inPort f.cls < iocc d f.inPort f.cls + cellsOf f ∨ limGR d f.cls < gocc d f.cls + cellsOf f ∨
      (d.basin.overcommit = true ∧ d.basin.poolCells - 1036 < inUse d + cellsOf f)) →
      (admitFrame d f).1 = none ∧ (admitFrame d f).2.basin = d.basin ∧
      (f.inPort < 14 → f.cls < 8 →
        cnt (admitFrame d f).2 (aDrop f.inPort f.cls) = cnt d (aDrop f.inPort f.cls) + 1 ∧
        cnt (admitFrame d f).2 (aGdrop f.cls) =
          cnt d (aGdrop f.cls) + (if limGR d f.cls < gocc d f.cls + cellsOf f then 1 else 0) ∧
        cnt (admitFrame d f).2 aPdrop = cnt d aPdrop +
          (if d.basin.overcommit = true ∧ d.basin.poolCells - 1036 < inUse d + cellsOf f then 1 else 0))) ∧
    (iocc d f.inPort f.cls + cellsOf f ≤ limIL d f.inPort f.cls → gocc d f.cls + cellsOf f ≤ limGR d f.cls →
      (d.basin.overcommit = true → inUse d + cellsOf f ≤ d.basin.poolCells - 1036) →
      (admitFrame d f).1 = some d.basin.nextUid ∧
      iocc (admitFrame d f).2 f.inPort f.cls = iocc d f.inPort f.cls + cellsOf f ∧
      gocc (admitFrame d f).2 f.cls = gocc d f.cls + cellsOf f)

/-- The result word after an outcome with status 0: VALID, and the next SEQ (R40). -/
def okWord (old : Word) : Word := 0x80000000 ||| at_ ((fld old 15 0 + 1) % 65536) 0

/-- R111–R113: with no command running and authority, INSERT puts the shadow entry in the lowest empty way and inverts GEN;
UPDATE replaces the entry with the shadow key; DELETE and TDELETE invalidate; TWRITE and MWRITE write theirs. Each ends
with STATUS OK and the next SEQ, and no other entry changes. -/
def Obligations.ChartCommandsWriteEntries : Prop :=
  (∀ (s : State) (i : Nat), resultValid s.dev 0x400014 = true → hasAuthority s.dev = true →
    keyBad (shadowKey s.dev) = false → actBad (shadowCopy s.dev false) = false →
    findExact s.dev (shadowKey s.dev) = none →
    ((List.range 4).map (bucketOf (shadowKey s.dev))).find? (bucketFree s.dev) = some i →
    ∃ t, exec .insert s = .next t ∧ inCopy (exactAt t.dev i) = shadowCopy s.dev false ∧
      (exactAt t.dev i).gen = !(exactAt s.dev i).gen ∧ (∀ j, j ≠ i → exactAt t.dev j = exactAt s.dev j) ∧
      t.dev.cht.tern = s.dev.cht.tern ∧ t.dev.cht.miss = s.dev.cht.miss ∧
      rd t.dev 0x400014 = okWord (rd s.dev 0x400014)) ∧
  (∀ (s : State) (i : Nat), resultValid s.dev 0x400014 = true → hasAuthority s.dev = true →
    actBad (shadowCopy s.dev false) = false → findExact s.dev (shadowKey s.dev) = some i →
    ∃ t, exec .update s = .next t ∧ inCopy (exactAt t.dev i) = shadowCopy s.dev false ∧
      (exactAt t.dev i).gen = !(exactAt s.dev i).gen ∧ (∀ j, j ≠ i → exactAt t.dev j = exactAt s.dev j) ∧
      t.dev.cht.tern = s.dev.cht.tern ∧ rd t.dev 0x400014 = okWord (rd s.dev 0x400014)) ∧
  (∀ (s : State) (i : Nat), resultValid s.dev 0x400014 = true → hasAuthority s.dev = true →
    findExact s.dev (shadowKey s.dev) = some i →
    ∃ t, exec .delete s = .next t ∧ (inCopy (exactAt t.dev i)).valid = false ∧
      (∀ j, j ≠ i → exactAt t.dev j = exactAt s.dev j) ∧ t.dev.cht.tern = s.dev.cht.tern ∧
      rd t.dev 0x400014 = okWord (rd s.dev 0x400014)) ∧
  (∀ (s : State) (i : BitVec 10), resultValid s.dev 0x400014 = true → hasAuthority s.dev = true →
    keyBad (shadowKey s.dev) = false → fld (rd s.dev 0x40011C) 31 28 = 15 → actBad (shadowCopy s.dev true) = false →
    ∃ t, exec (.twrite i) s = .next t ∧ inCopy (ternAt t.dev i.toNat) = shadowCopy s.dev true ∧
      (∀ j, j ≠ i.toNat → ternAt t.dev j = ternAt s.dev j) ∧ t.dev.cht.exact = s.dev.cht.exact ∧
      rd t.dev 0x400014 = okWord (rd s.dev 0x400014)) ∧
  (∀ (s : State) (i : BitVec 10), resultValid s.dev 0x400014 = true → hasAuthority s.dev = true →
    ∃ t, exec (.tdelete i) s = .next t ∧ (inCopy (ternAt t.dev i.toNat)).valid = false ∧
      (∀ j, j ≠ i.toNat → ternAt t.dev j = ternAt s.dev j) ∧ t.dev.cht.exact = s.dev.cht.exact ∧
      rd t.dev 0x400014 = okWord (rd s.dev 0x400014)) ∧
  (∀ (s : State) (k : Nat), resultValid s.dev 0x400014 = true → hasAuthority s.dev = true → k < 4 →
    rd s.dev 0x40010C = at_ k 28 → actBad (shadowCopy s.dev false) = false →
    ∃ t, exec .mwrite s = .next t ∧ (inCopy (missAt t.dev k)).a0 = rd s.dev 0x400120 ∧
      (inCopy (missAt t.dev k)).a1 = rd s.dev 0x400124 ∧ (inCopy (missAt t.dev k)).a2 = rd s.dev 0x400128 ∧
      (∀ j, j ≠ k → missAt t.dev j = missAt s.dev j) ∧ t.dev.cht.exact = s.dev.cht.exact ∧
      rd t.dev 0x400014 = okWord (rd s.dev 0x400014))

/-- R114: a Chart command written while one runs is ignored: the entries and the result word stay, and CMD_IGNORED is
set. R422: with no authority the command ends BAD_OP (STATUS 5) and writes no entry. -/
def Obligations.ChartCommandsIgnoredOrRefused : Prop :=
  ∀ (s : State) (i : BitVec 10) (c : Instr), c ∈ [.insert, .update, .delete, .twrite i, .tdelete i, .mwrite] →
    (resultValid s.dev 0x400014 = false → ∃ t, exec c s = .next t ∧ t.dev.cht = s.dev.cht ∧
      rd t.dev 0x400014 = rd s.dev 0x400014 ∧ bit (rd t.dev 0x400004) 4 = true) ∧
    (resultValid s.dev 0x400014 = true → hasAuthority s.dev = false → ∃ t, exec c s = .next t ∧
      t.dev.cht = s.dev.cht ∧ fld (rd t.dev 0x400014) 30 27 = 5 ∧ resultValid t.dev 0x400014 = true)

/-- Ternary entry `i` is valid, and the key and the entry agree under its mask (R94, point 2). -/
def TernHit (d : Dev) (k : ChtKey) (i : Nat) : Prop :=
  (inCopy (ternAt d i)).valid = true ∧
  k.k0 &&& (inCopy (ternAt d i)).m0 = (inCopy (ternAt d i)).k0 &&& (inCopy (ternAt d i)).m0 ∧
  k.k1 &&& (inCopy (ternAt d i)).m1 = (inCopy (ternAt d i)).k1 &&& (inCopy (ternAt d i)).m1 ∧
  k.k2 &&& (inCopy (ternAt d i)).m2 = (inCopy (ternAt d i)).k2 &&& (inCopy (ternAt d i)).m2 ∧
  k.k3 &&& (inCopy (ternAt d i)).m3 = (inCopy (ternAt d i)).k3 &&& (inCopy (ternAt d i)).m3

/-- R94: a valid exact entry with the key is the match; with none, the valid ternary entry of the lowest index that matches;
with neither, and only then, the miss entry of the key's kind. -/
def Obligations.ExactThenTernaryThenMiss : Prop :=
  ∀ (d : Dev) (k : ChtKey),
    (∀ w, w < 4 → (inCopy (exactAt d (bucketOf k w))).valid = true → keyOf (inCopy (exactAt d (bucketOf k w))) = k →
      (lookup d k).miss = false ∧ (lookup d k).tern = false ∧ (lookup d k).e.valid = true ∧
      keyOf (lookup d k).e = k) ∧
    ((∀ w, w < 4 → (inCopy (exactAt d (bucketOf k w))).valid = false ∨ keyOf (inCopy (exactAt d (bucketOf k w))) ≠ k) →
      (∀ i, TernHit d k i → (∀ j < i, ¬ TernHit d k j) →
        (lookup d k).miss = false ∧ (lookup d k).tern = true ∧ (lookup d k).idx = i ∧
        (lookup d k).e = inCopy (ternAt d i)) ∧
      ((∀ i, ¬ TernHit d k i) → (lookup d k).miss = true ∧ (lookup d k).tern = false ∧
        (lookup d k).e = inCopy (missAt d (fld k.k3 31 28))))

/-- R100: an item whose bytes lie beyond the payload is skipped; another has the value of its bytes in its byte order,
shifted and cut to its width, extended to 16 bits for an analog word and compared with 0 for a signal bit. A skipped item
leaves signals and words alone, is counted and sets XTR_SHORT; the other items of the frame still apply. -/
def Obligations.ExtractionItemValue : Prop :=
  (∀ (item : Word) (p : List Byte) (n : Nat), n = ceilDiv (fld item 28 26 + (fld item 25 22 + 1)) 8 →
    (p.length < fld item 21 11 + n → itemValue item p = none ∧
      ∀ d : Dev, (extractItem d p item).bwk = d.bwk ∧ cnt (extractItem d p item) 0x400270 = cnt d 0x400270 + 1 ∧
        bit (rd (extractItem d p item) 0x400004) 1 = true) ∧
    (fld item 21 11 + n ≤ p.length → bit item 29 = false → itemValue item p =
      some (((List.range n).map fun j => (p.getD (fld item 21 11 + j) 0).toNat * 2 ^ (8 * j)).sum
        / 2 ^ fld item 28 26 % 2 ^ (fld item 25 22 + 1))) ∧
    (fld item 21 11 + n ≤ p.length → bit item 29 = true → itemValue item p =
      some (((List.range n).map fun j => (p.getD (fld item 21 11 + j) 0).toNat * 2 ^ (8 * (n - 1 - j))).sum
        / 2 ^ fld item 28 26 % 2 ^ (fld item 25 22 + 1)))) ∧
  (∀ (d : Dev) (p : List Byte) (item : Word) (v : Nat), itemValue item p = some v →
    (bit item 31 = true → ∀ i < 512, bit (tget 0 (extractItem d p item).bwk.sig (i / 32)) (i % 32) =
      if i = fld item 8 0 then decide (v ≠ 0) else bit (tget 0 d.bwk.sig (i / 32)) (i % 32)) ∧
    (bit item 31 = false → ∀ i < 256, tget 0 (extractItem d p item).bwk.word i =
      if i ≠ fld item 7 0 then tget 0 d.bwk.word i
      else if bit item 30 && decide (2 ^ fld item 25 22 ≤ v) then BitVec.ofNat 16 (v + 65536 - 2 ^ (fld item 25 22 + 1))
      else BitVec.ofNat 16 v)) ∧
  (∀ (d : Dev) (idx len k v : Nat) (body : FrameBody) (item : Nat → Word),
    (∀ j, item j = rd d (0x410000 + 4 * ((idx + j) % 4096))) → k < len → itemValue (item k) (payload body) = some v →
    bit (item k) 31 = true →
    (∀ j, k < j → j < len → itemValue (item j) (payload body) = none ∨ bit (item j) 31 = false ∨
      fld (item j) 8 0 ≠ fld (item k) 8 0) →
    bit (tget 0 (extract d idx len body).bwk.sig (fld (item k) 8 0 / 32)) (fld (item k) 8 0 % 32) = decide (v ≠ 0))

/-- R115: a write of word 2 applies words 0–2 of the policer whole and fills both buckets. R103: a clear of the Chart's
counters zeroes exactly those it names. -/
def Obligations.PolicersAndChartCounters : Prop :=
  (∀ (s : State) (k : Fin 256) (w2 : Word), ∃ t p, exec (.policerWrite k w2) s = .next t ∧
    tget {} t.dev.cht.pol k = p ∧ p.frames = bit (rd s.dev (0x430000 + 16 * k.val)) 31 ∧
    p.redPass = bit (rd s.dev (0x430000 + 16 * k.val)) 30 ∧ p.cir = fld (rd s.dev (0x430000 + 16 * k.val)) 23 0 ∧
    p.pir = fld (rd s.dev (0x430004 + 16 * k.val)) 23 0 ∧ p.cbs = fld w2 15 0 ∧ p.pbs = fld w2 31 16 ∧
    p.tc = p.cbs * polUnit p ∧ p.tp = p.pbs * polUnit p ∧
    (∀ j, j ≠ k.val → tget {} t.dev.cht.pol j = tget {} s.dev.cht.pol j) ∧
    t.dev.cht = { s.dev.cht with pol := t.dev.cht.pol }) ∧
  ClearsExactly .chtClearAll (fun a => 0x440000 ≤ a ∧ a < 0x450000) ∧
  ClearsExactly .chtClearDrops (fun a => 0x400208 ≤ a ∧ a < 0x400380) ∧
  (∀ k : Fin 4096, ClearsExactly (.chtClearIndex k) (fun a => 0x440000 + 16 * k.val ≤ a ∧ a < 0x440010 + 16 * k.val))

/-- SLP_RESULT after an outcome with status `st`: VALID, STATUS and the next SEQ (R40, Table 4.20). -/
def slpWord (old : Word) (st : Nat) : Word := 0x80000000 ||| at_ st 27 ||| at_ ((fld old 15 0 + 1) % 65536) 0

/-- A command that ends refused with status `st`: SLP_RESULT says so, and no slip, ring, resource, output or signal changes. -/
def SlpRefused (c : Instr) (s : State) (st : Nat) : Prop :=
  ∃ t, exec c s = .next t ∧ rd t.dev 0x80000C = slpWord (rd s.dev 0x80000C) st ∧ t.dev.slips.tab = s.dev.slips.tab ∧
    t.dev.slips.rings = s.dev.slips.rings ∧ t.dev.slips.res = s.dev.slips.res ∧ t.dev.ldc = s.dev.ldc ∧
    t.dev.fio = s.dev.fio ∧ t.dev.bwk = s.dev.bwk ∧ t.mem = s.mem

/-- The Quaymaster serves work of class `cls` as soon as it is queued: it runs, nothing queued is of the class or a higher
one, and the queue is far from shedding (R29, R30; that it serves it then at once is assumption 29). -/
def QmFree (d : Dev) (cls : Nat) : Prop :=
  qmAwake d = true ∧ (∀ e ∈ d.qm.queue, cls < e.1) ∧ d.qm.shed = 0 ∧ d.qm.queue.length < 1600

/-- R122, R126, R127, R147, Tables 4.4 and 4.5: CREATE, SETSHARE, SETVFMAX, and DESTROY and RESET of a DETACHED slip have
exactly their effect and end OK; the refusals of Table 4.5 come in its order; without authority CREATE, BIND, UNBIND,
RELEASE and SETSHARE end BUSY (R422); a command while one runs is ignored. A command
waits with its snapshot as class-2 work while the Quaymaster does not run, and is executed from it in its turn. -/
def Obligations.SlipCommandsAndTheirOutcomes : Prop :=
  (∀ (s : State) (n : Fin 4096), resultValid s.dev 0x80000C = true → QmFree s.dev 2 → hasAuthority s.dev = true →
    fld (rd s.dev 0x800004) 31 30 < 3 → fld (rd s.dev 0x800004) 16 0 ≤ 97268 → argMin (rd s.dev 0x800008) ≤ argMax (rd s.dev 0x800008) → argMax (rd s.dev 0x800008) ≤ 4096 →
    n.val ≠ 0 → (slipOf s.dev n).state = .free → minSum s.dev + argMin (rd s.dev 0x800008) ≤ 4096 →
    ∃ t, exec (.create n) s = .next t ∧
      (slipOf t.dev n).state = (if attached s.dev n then SlipState.active else SlipState.detached) ∧
      (slipOf t.dev n).cls = fld (rd s.dev 0x800004) 31 30 ∧ (slipOf t.dev n).classMax = fld (rd s.dev 0x800004) 26 24 ∧
      (slipOf t.dev n).rxq = fld (rd s.dev 0x800004) 16 0 ∧ (slipOf t.dev n).min = argMin (rd s.dev 0x800008) ∧
      (slipOf t.dev n).max = argMax (rd s.dev 0x800008) ∧ (∀ r, r < 8 → ringOf t.dev n r = {}) ∧
      (∀ a, slipWin n ≤ a → a < slipWin n + 0x200 → rd t.dev a = regReset a) ∧
      (∀ m, m ≠ n.val → slipOf t.dev m = slipOf s.dev m) ∧ t.dev.slips.res = s.dev.slips.res ∧
      rd t.dev 0x80000C = slpWord (rd s.dev 0x80000C) 0) ∧
  (∀ (s : State) (n : Fin 4096), resultValid s.dev 0x80000C = true → QmFree s.dev 2 → hasAuthority s.dev = true →
    argMin (rd s.dev 0x800008) ≤ argMax (rd s.dev 0x800008) → argMax (rd s.dev 0x800008) ≤ 4096 →
    (slipOf s.dev n).state = .active ∨ (slipOf s.dev n).state = .detached →
    minSum s.dev - (slipOf s.dev n).min + argMin (rd s.dev 0x800008) ≤ 4096 →
    ∃ t, exec (.setshare n) s = .next t ∧
      slipOf t.dev n = { slipOf s.dev n with min := argMin (rd s.dev 0x800008), max := argMax (rd s.dev 0x800008) } ∧
      (∀ m, m ≠ n.val → slipOf t.dev m = slipOf s.dev m) ∧ t.dev.slips.rings = s.dev.slips.rings ∧
      t.dev.slips.res = s.dev.slips.res ∧ rd t.dev 0x80000C = slpWord (rd s.dev 0x80000C) 0) ∧
  (∀ s : State, resultValid s.dev 0x80000C = true → QmFree s.dev 2 → fld (rd s.dev 0x800004) 16 0 ≤ 4095 → s.dev.slips.vfEnable = false →
    (∀ n ∈ created s.dev, n = 0 ∨ (n ≤ fld (rd s.dev 0x800004) 16 0 ↔ n ≤ hostMax s.dev)) →
    ∃ t, exec .setvfmax s = .next t ∧ hostMax t.dev = fld (rd s.dev 0x800004) 16 0 ∧ t.dev.slips.tab = s.dev.slips.tab ∧
      (∀ a, a ≠ 0x800010 → a ≠ 0x80000C → rd t.dev a = rd s.dev a) ∧
      rd t.dev 0x80000C = slpWord (rd s.dev 0x80000C) 0) ∧
  (∀ (s : State) (n : Fin 4096), resultValid s.dev 0x80000C = true → QmFree s.dev 2 → n.val ≠ 0 → (slipOf s.dev n).state = .detached →
    ((∀ k < 88, (resOf s.dev k).owner ≠ n.val) → ∃ t, exec (.destroy n) s = .next t ∧
      (slipOf t.dev n).state = .free ∧ (slipOf t.dev n).min = 0 ∧ (∀ m, m ≠ n.val → slipOf t.dev m = slipOf s.dev m) ∧
      t.dev.slips.res = s.dev.slips.res ∧ rd t.dev 0x80000C = slpWord (rd s.dev 0x80000C) 0) ∧
    ∃ t, exec (.reset n) s = .next t ∧ (slipOf t.dev n).state = .detached ∧ (slipOf t.dev n).report = 0 ∧
      (∀ m, m ≠ n.val → slipOf t.dev m = slipOf s.dev m) ∧ t.dev.slips.res = s.dev.slips.res ∧
      rd t.dev 0x80000C = slpWord (rd s.dev 0x80000C) 0) ∧
  (∀ (s : State) (n : Fin 4096), resultValid s.dev 0x80000C = true → QmFree s.dev 2 →
    (hasAuthority s.dev = true → fld (rd s.dev 0x800004) 31 30 = 3 → SlpRefused (.create n) s 3) ∧
    (hasAuthority s.dev = true → fld (rd s.dev 0x800004) 31 30 < 3 → fld (rd s.dev 0x800004) 16 0 ≤ 97268 → argMin (rd s.dev 0x800008) ≤ 4096 →
      argMax (rd s.dev 0x800008) ≤ 4096 → SlpRefused (.create 0) s 9 ∧
      (n.val ≠ 0 → (slipOf s.dev n).state ≠ .free → SlpRefused (.create n) s 1) ∧
      (n.val ≠ 0 → (slipOf s.dev n).state = .free → argMax (rd s.dev 0x800008) < argMin (rd s.dev 0x800008) ∨ 4096 < minSum s.dev + argMin (rd s.dev 0x800008) →
        SlpRefused (.create n) s 6)) ∧
    (hasAuthority s.dev = false →
      (fld (rd s.dev 0x800004) 31 30 < 3 → fld (rd s.dev 0x800004) 16 0 ≤ 97268 → argMin (rd s.dev 0x800008) ≤ 4096 →
        argMax (rd s.dev 0x800008) ≤ 4096 → n.val ≠ 0 → (slipOf s.dev n).state = .free → SlpRefused (.create n) s 7) ∧
      (argMin (rd s.dev 0x800008) ≤ 4096 → argMax (rd s.dev 0x800008) ≤ 4096 → (slipOf s.dev n).state ≠ .free →
        SlpRefused (.setshare n) s 7) ∧
      (∀ k, argRes (rd s.dev 0x800004) = some k →
        (fld (rd s.dev 0x800004) 29 28 < 3 → (40 ≤ k → k < 72 → fieldMode s.dev (k - 40) = 2) →
          (slipOf s.dev n).state ≠ .free → SlpRefused (.bind n) s 7) ∧
        (n.val = 0 ∨ (slipOf s.dev n).state ≠ .free → (resOf s.dev k).owner = n.val →
          SlpRefused (.unbind n) s 7 ∧
          (n.val ≠ 0 → (resOf s.dev k).state ≠ .unbound → SlpRefused (.release n) s 7)))) ∧
    SlpRefused (.destroy 0) s 9 ∧ SlpRefused (.reset 0) s 9 ∧
    (n.val ≠ 0 → (slipOf s.dev n).state = .free → SlpRefused (.destroy n) s 2 ∧ SlpRefused (.reset n) s 2) ∧
    (n.val ≠ 0 → (slipOf s.dev n).state = .resetting → SlpRefused (.destroy n) s 7) ∧
    (∀ k < 88, n.val ≠ 0 → (slipOf s.dev n).state = .active ∨ (slipOf s.dev n).state = .detached →
      (resOf s.dev k).owner = n.val → SlpRefused (.destroy n) s 4)) ∧
  (∀ (s : State) (n : Fin 4096) (c : Instr), resultValid s.dev 0x80000C = false →
    c ∈ [.create n, .destroy n, .bind n, .unbind n, .release n, .setshare n, .reset n, .setvfmax] →
    ∃ t, exec c s = .next t ∧ t.dev.slips.res = s.dev.slips.res ∧ t.dev.slips.rings = s.dev.slips.rings ∧
      rd t.dev 0x80000C = rd s.dev 0x80000C ∧ bit (rd t.dev 0x80001C) 0 = true ∧
      (∀ m, (slipOf t.dev m).state = (slipOf s.dev m).state)) ∧
  (∀ (s : State) (n : Fin 4096) (c : Nat × Instr), resultValid s.dev 0x80000C = true → qmAwake s.dev = false →
    c ∈ [(1, .create n), (2, .destroy n), (3, .bind n), (4, .unbind n), (5, .release n), (6, .setshare n), (7, .reset n)] →
    ∃ t, exec c.2 s = .next t ∧ t.dev.slips = s.dev.slips ∧ resultValid t.dev 0x80000C = false ∧
      (2, .slp c.1 n (rd s.dev 0x800004) (rd s.dev 0x800008)) ∈ t.dev.qm.queue) ∧
  (∀ (s : State) (op n : Nat) (a0 a1 : Word) (rest : List (Nat × QmWork)), qmAwake s.dev = true →
    s.dev.qm.queue = (2, .slp op n a0 a1) :: rest → (∀ e ∈ rest, 2 ≤ e.1) →
    exec .qmWorkServe s = .next { s with dev := slpRun (qmTake s.dev (2, .slp op n a0 a1)) op n a0 a1 })

/-- R128–R130: BIND makes a resource COMMANDED by its control slip with its declared release state, keeping its output;
RELEASE applies the release state; UNBIND needs it RELEASED; the refusals name their causes. -/
def Obligations.ResourcesBindReleaseUnbind : Prop :=
  (∀ (s : State) (n : Fin 4096) (k : Nat), resultValid s.dev 0x80000C = true → QmFree s.dev 2 → hasAuthority s.dev = true →
    argRes (rd s.dev 0x800004) = some k → fld (rd s.dev 0x800004) 29 28 < 3 → (40 ≤ k → k < 72 → fieldMode s.dev (k - 40) = 2) →
    n.val ≠ 0 → (slipOf s.dev n).state = .active ∨ (slipOf s.dev n).state = .detached → (slipOf s.dev n).cls = 1 →
    (resOf s.dev k).owner = 0 ∨ (resOf s.dev k).owner = n.val →
    ∃ t, exec (.bind n) s = .next t ∧
      resOf t.dev k = { state := .commanded, release := relOf (fld (rd s.dev 0x800004) 29 28), owner := n.val } ∧
      (∀ j, j ≠ k → resOf t.dev j = resOf s.dev j) ∧ t.dev.slips.tab = s.dev.slips.tab ∧ t.dev.ldc = s.dev.ldc ∧
      t.dev.fio = s.dev.fio ∧ t.dev.bwk = s.dev.bwk ∧ rd t.dev 0x80000C = slpWord (rd s.dev 0x80000C) 0) ∧
  (∀ (s : State) (n : Fin 4096) (k : Nat), resultValid s.dev 0x80000C = true → QmFree s.dev 2 → hasAuthority s.dev = true →
    argRes (rd s.dev 0x800004) = some k → (resOf s.dev k).owner = n.val → (resOf s.dev k).state = .released →
    n.val = 0 ∨ (slipOf s.dev n).state = .active ∨ (slipOf s.dev n).state = .detached →
    ∃ t, exec (.unbind n) s = .next t ∧ resOf t.dev k = {} ∧
      (∀ j, j ≠ k → resOf t.dev j = resOf s.dev j) ∧ t.dev.slips.tab = s.dev.slips.tab ∧ t.dev.ldc = s.dev.ldc ∧
      t.dev.fio = s.dev.fio ∧ t.dev.bwk = s.dev.bwk ∧ rd t.dev 0x80000C = slpWord (rd s.dev 0x80000C) 0) ∧
  (∀ (s : State) (n : Fin 4096) (k : Nat), resultValid s.dev 0x80000C = true → QmFree s.dev 2 → hasAuthority s.dev = true →
    argRes (rd s.dev 0x800004) = some k → n.val ≠ 0 → (slipOf s.dev n).state ≠ .free → (resOf s.dev k).owner = n.val →
    (resOf s.dev k).state ≠ .unbound → 72 ≤ k ∨ (resOf s.dev k).release = .hold →
    ∃ t, exec (.release n) s = .next t ∧
      resOf t.dev k = { resOf s.dev k with state := .released, applying := false } ∧
      (∀ j, j ≠ k → resOf t.dev j = resOf s.dev j) ∧ t.dev.ldc = s.dev.ldc ∧ t.dev.fio = s.dev.fio ∧
      (∀ g, tget 0 t.dev.bwk.sig g = (if k < 72 ∨ g ≠ k - 72 then tget 0 s.dev.bwk.sig g else
        match (resOf s.dev k).release with
        | .off => 0 | .on => 0xFFFFFFFF | .hold => tget 0 s.dev.bwk.sig g)) ∧
      rd t.dev 0x80000C = slpWord (rd s.dev 0x80000C) 0) ∧
  (∀ (s : State) (n : Fin 4096), resultValid s.dev 0x80000C = true → QmFree s.dev 2 → hasAuthority s.dev = true →
    (argRes (rd s.dev 0x800004) = none → SlpRefused (.bind n) s 3 ∧ SlpRefused (.unbind n) s 3 ∧ SlpRefused (.release n) s 3) ∧
    (∀ k, argRes (rd s.dev 0x800004) = some k → fld (rd s.dev 0x800004) 29 28 < 3 →
      (40 ≤ k → k < 72 → fieldMode s.dev (k - 40) ≠ 2 → SlpRefused (.bind n) s 3) ∧
      ((40 ≤ k → k < 72 → fieldMode s.dev (k - 40) = 2) →
        ((slipOf s.dev n).state = .free → SlpRefused (.bind n) s 2) ∧
        ((slipOf s.dev n).state = .resetting → SlpRefused (.bind n) s 7) ∧
        ((slipOf s.dev n).state = .active ∨ (slipOf s.dev n).state = .detached →
          (n.val = 0 ∨ (slipOf s.dev n).cls ≠ 1 → SlpRefused (.bind n) s 8) ∧
          (n.val ≠ 0 → (slipOf s.dev n).cls = 1 → (resOf s.dev k).owner ≠ 0 → (resOf s.dev k).owner ≠ n.val →
            SlpRefused (.bind n) s 10))) ∧
      ((slipOf s.dev n).state = .active → n.val ≠ 0 → (resOf s.dev k).state ≠ .released → SlpRefused (.unbind n) s 5) ∧
      (n.val = 0 → (resOf s.dev k).owner = 0 → (resOf s.dev k).state ≠ .released → SlpRefused (.unbind n) s 5) ∧
      ((resOf s.dev k).owner ≠ 0 → SlpRefused (.unbind 0) s 2)))

/-- R125, R151–R153, Tables 4.4 and 4.12: a reset request makes an ACTIVE slip RESETTING and its resources HELD; a DETACHED
one stays so with its report zero; the end makes it ACTIVE or DETACHED with its window at its reset values; clearing VF
Enable leaves no host slip ACTIVE. That clearing by a PF reset or a lost link clears VF Enable too is the model's choice (log
entry 49). -/
def Obligations.SlipResetAndRemoval : Prop :=
  (∀ (s : State) (n : Fin 4096), internalSlip s.dev n = true → (slipOf s.dev n).state = .active →
    ∃ t, exec (.slipCtrlReset n) s = .next t ∧ (slipOf t.dev n).state = .resetting ∧
      (∀ r, r < 8 → (ringOf s.dev n r).active = true → (ringOf t.dev n r).fetchOn = false) ∧
      (∀ k, k < 88 → (resOf s.dev k).owner = n.val → n.val ≠ 0 → (resOf s.dev k).state ≠ .unbound →
        (resOf t.dev k).state = .held ∧ (resOf t.dev k).owner = n.val) ∧
      (∀ m, m ≠ n.val → (slipOf t.dev m).state = (slipOf s.dev m).state) ∧ t.dev.ldc = s.dev.ldc ∧ t.dev.fio = s.dev.fio) ∧
  (∀ (s : State) (n : Fin 4096), internalSlip s.dev n = false → exec (.slipCtrlReset n) s = .next s) ∧
  (∀ (s : State) (n : Fin 4096), vfExists s.dev n = true → (slipOf s.dev n).state = .active →
    ∃ t, exec (.vfFlr n) s = .next t ∧ (slipOf t.dev n).state = .resetting ∧ bit (rd t.dev 0x80001C) 2 = true ∧
      (∀ m, m ≠ n.val → (slipOf t.dev m).state = (slipOf s.dev m).state)) ∧
  (∀ (s : State) (n : Fin 4096), resultValid s.dev 0x80000C = true → QmFree s.dev 2 → n.val ≠ 0 →
    (slipOf s.dev n).state = .active →
    ∃ t, exec (.reset n) s = .next t ∧ (slipOf t.dev n).state = .resetting ∧ resultValid t.dev 0x80000C = false ∧
      t.dev.slips.cmdWait = some (7, n.val)) ∧
  (∀ s : State, ∃ t, exec .vfDisable s = .next t ∧ t.dev.slips.vfEnable = false ∧ t.dev.slips.numVfs = 0 ∧
    ∀ m, m ≠ 0 → internalSlip s.dev m = false → (slipOf t.dev m).state ≠ .active) ∧
  (∀ s : State, ∃ t, exec .pfReset s = .next t ∧ t.dev.slips.vfEnable = false ∧ (slipOf t.dev 0).state ≠ .active ∧
    ∀ m, m ≠ 0 → internalSlip s.dev m = false → (slipOf t.dev m).state ≠ .active) ∧
  (∀ s : State, s.dev.rst.hostLink = true → ∃ t, exec .hostLinkLoss s = .next t ∧ t.dev.rst.hostLink = false ∧
    t.dev.slips.vfEnable = false ∧ (∀ o ∈ t.dev.slips.outst, o.fabric = true) ∧ (slipOf t.dev 0).state ≠ .active) ∧
  (∀ (s : State) (n : Fin 4096) (z : SlipReset), (slipOf s.dev n).state = .resetting → (slipOf s.dev n).reset = some z →
    inFlightDesc s.dev n = [] → z.destroy = false → z.drained ≤ 65535 → z.squashed ≤ 65535 →
    ∃ t, exec (.slipResetDone n) s = .next t ∧
      (slipOf t.dev n).state = (if attached s.dev n then SlipState.active else SlipState.detached) ∧
      (slipOf t.dev n).report = at_ z.drained 16 ||| at_ z.squashed 0 ∧ (slipOf t.dev n).reset = none ∧
      (∀ r, r < 8 → ringOf t.dev n r = { sqStop := (ringOf s.dev n r).sqStop }) ∧
      (∀ a, slipWin n ≤ a → a < slipWin n + 0x200 → rd t.dev a = regReset a) ∧
      (∀ a, cnt t.dev a = cnt s.dev a) ∧ (∀ m, m ≠ n.val → slipOf t.dev m = slipOf s.dev m) ∧
      t.dev.slips.res = s.dev.slips.res) ∧
  (∀ (s : State) (k : Fin 4096) (ctl : HostCtl), k.val ≤ hostMax s.dev → (∀ m, (slipOf s.dev m).state = .active → m = 0 ∨ internalSlip s.dev m) →
    ∃ t, exec (.vfEnable k ctl) s = .next t ∧ t.dev.slips.vfEnable = true ∧ t.dev.slips.numVfs = k.val ∧
      t.dev.slips.ctl = ctl ∧
      ∀ m, 0 < m → m ≤ k.val → (slipOf s.dev m).state = .detached → (slipOf t.dev m).state = .active)

/-- R132–R136, R147–R149, R156, R159, Tables 4.4, 4.6: enabling a ring pair starts it afresh, or sets ERR 1; a doorbell in
its range is accepted while the ring is enabled, another sets DB_ERR, also at a FREE slip with a function; behind an earlier
posted write of its owner it waits; a descriptor is fetched when the ring, the manifest and a completion slot allow, under a
free tag, and waits for one otherwise; a failed fetch stops the ring there with ERR 2, a completion write of an internal slip
that faults with ERR 3; a disabled ring with nothing in flight falls inactive. The model's choices: the ring stops with ERR 3
after what it has fetched completes (log entry 87); a fetch that waits for a tag, and an access without a response, wait as
they are (log entry 88). -/
def Obligations.RingsDoorbellsAndFetches : Prop :=
  (∀ (s : State) (n : Fin 4096) (r : Fin 8) (cfg : Word), (slipOf s.dev n).state ≠ .free →
    (ringOf s.dev n r).active = false → bit cfg 31 = true → 4 ≤ fld cfg 27 24 → 4 ≤ fld cfg 23 20 →
    ∃ t, exec (.ringEnable n r cfg) s = .next t ∧
      ringOf t.dev n r = { active := true, fetchOn := true, sqStop := (ringOf s.dev n r).sqStop,
                             dbSq := (ringOf s.dev n r).dbSq, dbCq := (ringOf s.dev n r).dbCq } ∧
      rd t.dev (ringBase n r + 0x10) = cfg &&& 0xCFFF0000 ∧
      (∀ a, a ≠ ringBase n r + 0x10 → rd t.dev a = rd s.dev a) ∧ t.dev.slips.tab = s.dev.slips.tab) ∧
  (∀ (s : State) (n : Fin 4096) (r : Fin 8) (cfg : Word), (slipOf s.dev n).state ≠ .free →
    (ringOf s.dev n r).active = false → fld cfg 27 24 < 4 ∨ fld cfg 23 20 < 4 →
    ∃ t, exec (.ringEnable n r cfg) s = .next t ∧ ringOf t.dev n r = { ringOf s.dev n r with err := 1 } ∧
      bit (rd t.dev (ringBase n r + 0x10)) 31 = false) ∧
  (∀ (s : State) (n : Fin 4096) (r : Fin 8), (ringOf s.dev n r).active = true → (ringOf s.dev n r).fetchOn = true →
    (ringOf s.dev n r).inflight = [] → (slipOf s.dev n).state = .active →
    ∃ t, exec (.ringDisable n r) s = .next t ∧
      ringOf t.dev n r = { ringOf s.dev n r with fetchOn := false, sqStop := (ringOf s.dev n r).sqHead } ∧
      rd t.dev (ringBase n r + 0x10) = rd s.dev (ringBase n r + 0x10) &&& 0x7FFFFFFF) ∧
  (∀ (s : State) (n : Fin 4096) (r : Fin 8), (ringOf s.dev n r).active = true → (ringOf s.dev n r).fetchOn = false →
    (ringOf s.dev n r).inflight = [] → (slipOf s.dev n).state ≠ .resetting → (ringOf s.dev n r).err < 2 →
    exec (.ringDisableDone n r) s = .next { s with dev := setRing s.dev n r { ringOf s.dev n r with active := false } }) ∧
  (∀ (s : State) (n : Fin 4096) (r : Fin 8) (v : BitVec 16), BellFree s.dev n → (slipOf s.dev n).state = .active →
    ((ringOf s.dev n r).active = true → bit (ringCfg s.dev n r) 31 = true → v.toNat < sqSize s.dev n r →
      exec (.sqTail n r v) s = .next { s with dev :=
        (setRing s.dev n r { ringOf s.dev n r with sqTail := v.toNat, dbSq := v.toNat }) }) ∧
    ((ringOf s.dev n r).active = true → bit (ringCfg s.dev n r) 31 = true → v.toNat < cqSize s.dev n r →
      (v.toNat + cqSize s.dev n r - (ringOf s.dev n r).cqHead) % cqSize s.dev n r
        ≤ ((ringOf s.dev n r).cqTail + cqSize s.dev n r - (ringOf s.dev n r).cqHead) % cqSize s.dev n r →
      exec (.cqHead n r v) s = .next { s with dev :=
        (setRing s.dev n r { ringOf s.dev n r with cqHead := v.toNat, dbCq := v.toNat }) }) ∧
    ((ringOf s.dev n r).active = false ∨ bit (ringCfg s.dev n r) 31 = false → ∀ c ∈ [Instr.sqTail n r v, Instr.cqHead n r v],
      ∃ t, exec c s = .next t ∧ t.dev.slips.rings = s.dev.slips.rings ∧ bit (rd t.dev (slipWin n + 0xC)) 1 = true)) ∧
  (∀ (s : State) (n : Fin 4096) (r : Fin 8) (v : BitVec 16), ∀ c ∈ [Instr.sqTail n r v, Instr.cqHead n r v],
    (BellFree s.dev n → (slipOf s.dev n).state = .free → vfExists s.dev n = true →
      ∃ t, exec c s = .next t ∧ t.dev.slips.rings = s.dev.slips.rings ∧ bit (rd t.dev (slipWin n + 0xC)) 1 = true) ∧
    (¬ BellFree s.dev n → ∃ t, exec c s = .next t ∧ t = { s with dev := { s.dev with brg := t.dev.brg } } ∧
      t.dev.brg.queue.length = s.dev.brg.queue.length + 1 ∧ ∀ q ∈ s.dev.brg.queue, q ∈ t.dev.brg.queue)) ∧
  (∀ (s : State) (n : Fin 4096) (r : Fin 8) (g : Nat), fabricUp s.dev = true → (slipOf s.dev n).state = .active →
    (ringOf s.dev n r).active = true → (ringOf s.dev n r).fetchOn = true →
    (ringOf s.dev n r).sqHead ≠ (ringOf s.dev n r).sqTail → manifestFree s.dev n = true →
    cqUsed s.dev n r + 1 < cqSize s.dev n r → rxMode s.dev n r = false → internalSlip s.dev n = false →
    s.dev.slips.waits = [] → freeTag s.dev n = some g →
    ∃ t, exec (.descriptorFetch n r none) s = .next t ∧
      ringOf t.dev n r = { ringOf s.dev n r with
        inflight := (ringOf s.dev n r).inflight ++ [{ idx := (ringOf s.dev n r).sqHead }],
        sqHead := ((ringOf s.dev n r).sqHead + 1) % sqSize s.dev n r } ∧
      t.dev.out = .readReq n g (sqBase s.dev n r + 64 * (ringOf s.dev n r).sqHead) 64 :: s.dev.out ∧
      t.dev.slips.outst = s.dev.slips.outst ++ [{ tag := g, fabric := false, slip := n, ring := r,
                                                  idx := (ringOf s.dev n r).sqHead, off := 0 }] ∧
      (∀ m, { slipOf t.dev m with rr := 0 } = { slipOf s.dev m with rr := 0 })) ∧
  (∀ (s : State) (n : Fin 4096) (r : Fin 8),
    manifestFree s.dev n = false ∨ cqSize s.dev n r ≤ cqUsed s.dev n r + 1 ∨ fabricUp s.dev = false ∨
      (internalSlip s.dev n = true ∧ parked s.dev = true) →
    ∀ words, exec (.descriptorFetch n r words) s = .next s) ∧
  (∀ (s : State) (n : Fin 4096) (r : Fin 8) (words : Option (List Word)), fetchable s.dev n r = true →
    s.dev.slips.waits = [] → freeTag s.dev n = none →
    exec (.descriptorFetch n r words) s = .next { s with dev := { s.dev with slips :=
      { s.dev.slips with waits := [{ slip := n, ring := r, fetch := true }] } } }) ∧
  (∀ (s : State) (n : Fin 4096) (r : Fin 8) (idx : BitVec 16) (before rest : List Desc) (x : Desc),
    (ringOf s.dev n r).inflight = before ++ x :: rest → x.idx = idx.toNat → x.stage = .fetching →
    (∀ y ∈ before, y.idx ≠ x.idx) → s.dev.slips.waits = [] →
    ∃ t, exec (.descFetchFail n r idx false) s = .next t ∧
      (ringOf t.dev n r).inflight = before ∧ (ringOf t.dev n r).err = 2 ∧ (ringOf t.dev n r).sqStop = idx.toNat ∧
      (ringOf t.dev n r).fetchOn = false) ∧
  (∀ (s : State) (n : Fin 4096) (r : Fin 8) (idx : BitVec 16), internalSlip s.dev n = true →
    (slipOf s.dev n).state = .active → (ringOf s.dev n r).active = true → (ringOf s.dev n r).err ≠ 3 →
    ∃ t, exec (.descFetchFail n r idx true) s = .next t ∧ (ringOf t.dev n r).err = 3 ∧
      (ringOf t.dev n r).fetchOn = false ∧ (ringOf t.dev n r).inflight = (ringOf s.dev n r).inflight) ∧
  (∀ (s : State) (n : Fin 4096) (r : Fin 8) (fab : Bool) (g : Fin 768) (o : ReadOut) (x : Desc) (rest : List Desc)
    (b : List Byte), s.dev.slips.waits = [] →
    (s.dev.slips.outst.find? fun o => o.fabric == fab && o.tag == g.val) = some o → o.live = true → o.slip = n.val →
    o.ring = r.val → o.idx = x.idx → (ringOf s.dev n r).inflight = x :: rest → x.stage = .fetching →
    descCheck s.dev n r { x with words := (List.range 16).map (leWord b) } = none → (∀ y ∈ rest, y.idx ≠ x.idx) →
    ∃ t, exec (.dmaReadComplete fab g (some b)) s = .next t ∧
      (ringOf t.dev n r).inflight = { x with words := (List.range 16).map (leWord b), stage := .ready } :: rest ∧
      t.dev.slips.outst = s.dev.slips.outst.erase o ∧ t.dev.out = s.dev.out ∧ t.dev.slips.tab = s.dev.slips.tab)

/-- R136–R138, R141, R142, R146: NOP, the queries, LOG_READ and its timeout, and BWK_REQ complete with the words of Table
4.10; a control operation on a resource not bound to the slip completes NOT_BOUND and changes nothing. A LOG_READ is class-4
work: with the Quaymaster halted it waits (that it is served at once otherwise is assumption 29). -/
def Obligations.OperationsComplete : Prop :=
  (∀ (s : State) (n : Fin 4096) (r : Fin 8) (x : Desc) (rest : List Desc), ReadyAtFront s n r x rest →
    (opOf x = 0x00 → ∃ t, exec (.nop n r) s = .next t ∧ OnlyRing s t n r ∧
      Completed s t n r x rest s.dev.out { status := 0, ts := devTime s.dev }) ∧
    (opOf x = 0x21 → ∃ t, exec (.loadQuery n r) s = .next t ∧ OnlyRing s t n r ∧
      Completed s t n r x rest s.dev.out { status := 0, ts := (loadOf s.dev (fld (dw x 5) 5 0)).sampleTs
                                           c4 := loadStatus s.dev (fld (dw x 5) 5 0)
                                           c5 := loadCur s.dev (fld (dw x 5) 5 0) &&& 0xFFFF }) ∧
    (opOf x = 0x23 → ∃ t, exec (.fieldQuery n r) s = .next t ∧ OnlyRing s t n r ∧
      Completed s t n r x rest s.dev.out { status := 0, ts := s.dev.fio.reportTs
                                           c4 := fieldStatus s.dev (fld (dw x 5) 4 0) }) ∧
    (opOf x = 0x31 → QmFree s.dev 4 → s.dev.log.flash ≠ [] → (∀ e ∈ s.dev.log.flash, serialBefore e.seq (dw x 5) = true) →
      ∃ t c, exec (.logRead n r) s = .next t ∧ OnlyRing { s with dev := { s.dev with qm := t.dev.qm } } t n r ∧ Completed s t n r x rest s.dev.out c ∧
        c.status = 0 ∧ c.c4 = 0 ∧ c.c5 = dw x 5 ∧ c.c7 = s.dev.log.seq ∧
        (∀ e, s.dev.log.flash.head? = some e → c.c6 = e.seq)) ∧
    (opOf x = 0x31 → QmFree s.dev 4 → ∀ (e : LogRec) (l : List LogRec), s.dev.log.flash = e :: l → serialBefore e.seq (dw x 5) = false →
      ∃ t c, exec (.logRead n r) s = .next t ∧ OnlyRing { s with dev := { s.dev with qm := t.dev.qm } } t n r ∧
        Completed s t n r x rest (.dma n (bufAddr x)
          (((e :: l).take (fld (dw x 4) 15 0 / 32)).flatMap logBytes) :: s.dev.out) c ∧
        c.status = 0 ∧ c.c4 = w32 (min (fld (dw x 4) 15 0 / 32) (l.length + 1)) ∧ c.c6 = e.seq) ∧
    (opOf x = 0x31 → qmAwake s.dev = false → ∃ t, exec (.logRead n r) s = .next t ∧
      (ringOf t.dev n r).inflight = { x with stage := .started } :: rest ∧ t.dev.log.flash = s.dev.log.flash ∧
      (4, .logRead n.val r.val x.idx) ∈ t.dev.qm.queue) ∧
    (opOf x = 0x24 → n.val ≠ 0 → (resOf s.dev (72 + fld (dw x 5) 3 0)).owner = n.val →
      (resOf s.dev (72 + fld (dw x 5) 3 0)).state ≠ .unbound →
      ∃ t pre, exec (.bwkReq n r) s = .next t ∧
        Completed s t n r x rest pre { status := 0, ts := devTime s.dev, c4 := tget 0 t.dev.bwk.sig (fld (dw x 5) 3 0) } ∧
        (∀ k < 32, bit (tget 0 t.dev.bwk.sig (fld (dw x 5) 3 0)) k =
          (if bit (dw x 7) k then bit (dw x 6) k else bit (tget 0 s.dev.bwk.sig (fld (dw x 5) 3 0)) k)) ∧
        (∀ g, g ≠ fld (dw x 5) 3 0 → tget 0 t.dev.bwk.sig g = tget 0 s.dev.bwk.sig g) ∧
        (resOf t.dev (72 + fld (dw x 5) 3 0)).state = .commanded) ∧
    (∀ c ∈ [(0x20, Instr.loadSet n r), (0x22, Instr.fieldSet n r), (0x24, Instr.bwkReq n r)], opOf x = c.1 →
      (∀ k, resKey x = some k → n.val = 0 ∨ (resOf s.dev k).owner ≠ n.val) →
      ∃ t, exec c.2 s = .next t ∧ OnlyRing s t n r ∧
        Completed s t n r x rest s.dev.out { status := 4, ts := devTime s.dev })) ∧
  (∀ (s : State) (n : Fin 4096) (r : Fin 8) (x : Desc) (rest : List Desc), AtFront s n r x rest → x.stage = .started →
    opOf x = 0x31 → ∃ t, exec (.logReadTimeout n r) s = .next t ∧
      OnlyRing { s with dev := { s.dev with qm := t.dev.qm } } t n r ∧
      (4, .logRead n.val r.val x.idx) ∉ t.dev.qm.queue ∧
      Completed s t n r x rest s.dev.out { status := 0x0E, ts := devTime s.dev })

/-- The data read of transmit descriptor `x` before its first request (R148). -/
def dataWait (n : Fin 4096) (r : Fin 8) (x : Desc) : ReadWait :=
  { slip := n, ring := r, fetch := false, idx := x.idx, addr := bufAddr x, len := txLen x }

/-- The frame that transmit descriptor `x` with data `b` sends (R61, R124, R140, Table 4.8): the bytes of TX_ETH padded to 60,
or the CAN message of TX_CAN; its class bounded by the slip's; its ingress port and source those of the slip. -/
def SentFrame (s : State) (n : Fin 4096) (r : Fin 8) (x : Desc) (b : List Byte) (f : Frame) : Prop :=
  f.src = some ⟨n, r, fld (dw x 1) 15 0⟩ ∧ f.inPort = (if internalSlip s.dev n then 12 else 11) ∧ f.ts = devTime s.dev ∧
    (opOf x = 0x10 → f.body = .eth (b ++ List.replicate (60 - b.length) 0) ∧
      f.cls = min (fld (dw x 5) 2 0) (slipOf s.dev n).classMax) ∧
    (opOf x = 0x11 → f.cls = min (fld (dw x 6) 2 0) (slipOf s.dev n).classMax ∧ f.confirm = bit (dw x 0) 19 ∧
      ∃ m, f.body = .can m 0 false ∧ m.id = BitVec.ofNat 29 (fld (dw x 5) 28 0) ∧ m.rtr = bit (dw x 6) 7 ∧
        m.fmt = Fin.ofNat 5 (fld (dw x 6) 6 4) ∧ m.data = b)

/-- R140, R142–R144, R148: a transmit descriptor reads its data, or waits for a tag; with its data in hand its frame, padded
and with the class and key of R140, goes to the Basin, and one that the march or a test of Table 2.4 refuses completes
DROPPED 0xFE; an ended confirmation reports SENT and FAILED; an
RX_BUF in hand receives the waiting frame from the start of its buffer. -/
def Obligations.TransmitAndReceiveDescriptors : Prop :=
  (∀ (s : State) (n : Fin 4096) (r : Fin 8) (x : Desc) (rest : List Desc) (c : Nat × (Option (List Byte) → Instr)),
    ReadyAtFront s n r x rest → c ∈ [(0x10, .txEth n r), (0x11, .txCan n r)] → opOf x = c.1 → s.dev.slips.waits = [] →
    0 < txLen x →
    (freeTag s.dev n = none → ∀ data, ∃ t, exec (c.2 data) s = .next t ∧
      (ringOf t.dev n r).inflight = { x with stage := .reading } :: rest ∧ t.dev.out = s.dev.out ∧
      t.dev.slips.waits = [dataWait n r x] ∧ t.dev.basin = s.dev.basin) ∧
    (∀ g, freeTag s.dev n = some g → txLen x ≤ partLen s.dev (dataWait n r x) →
      (∃ t, exec (c.2 none) s = .next t ∧ (ringOf t.dev n r).inflight = { x with stage := .reading } :: rest ∧
        t.dev.out = .readReq n g (bufAddr x) (txLen x) :: s.dev.out ∧ t.dev.basin = s.dev.basin) ∧
      (∀ b : List Byte, s.dev.basin.marching = true → opOf x = 0x11 ∨ bit (dw x 5) 31 = false →
        ∃ t, exec (c.2 (some b)) s = .next t ∧ t.dev.basin = s.dev.basin ∧
          Completed s t n r x rest (.readReq n g (bufAddr x) (txLen x) :: s.dev.out)
            { status := 8, ts := devTime s.dev, c4 := 0xFE000000 }) ∧
      (∀ (b : List Byte) (f : Frame), b.length = txLen x → opOf x = 0x11 ∨ bit (dw x 5) 31 = false →
        s.dev.basin.marching = false → SentFrame s n r x b f →
        limIL s.dev f.inPort f.cls < iocc s.dev f.inPort f.cls + cellsOf f ∨
          limGR s.dev f.cls < gocc s.dev f.cls + cellsOf f ∨
          (s.dev.basin.overcommit = true ∧ s.dev.basin.poolCells - 1036 < inUse s.dev + cellsOf f) →
        ∃ t, exec (c.2 (some b)) s = .next t ∧ t.dev.basin = s.dev.basin ∧
          cnt t.dev (aDrop f.inPort f.cls) = cnt s.dev (aDrop f.inPort f.cls) + 1 ∧
          Completed s t n r x rest (.readReq n g (bufAddr x) (txLen x) :: s.dev.out)
            { status := 8, ts := devTime s.dev, c4 := 0xFE000000 }) ∧
      (∀ b : List Byte, b.length = txLen x → opOf x = 0x11 ∨ bit (dw x 5) 31 = false →
        ∃ t d f, exec (c.2 (some b)) s = .next t ∧ d.basin = s.dev.basin ∧ d.cht = s.dev.cht ∧ SentFrame s n r x b f ∧
          ((enterBasin d f).1 ≠ none → t = { s with dev := (enterBasin d f).2 })))) ∧
  (∀ (s : State) (n : Fin 4096) (r : Fin 8) (x : Desc) (rest : List Desc), ReadyAtFront s n r x rest →
    (opOf x = 0x11 → txLen x = 0 → s.dev.basin.marching = true →
      ∃ t, exec (.txCan n r none) s = .next t ∧ t.dev.basin = s.dev.basin ∧
        Completed s t n r x rest s.dev.out { status := 8, ts := devTime s.dev, c4 := 0xFE000000 }) ∧
    (opOf x = 0x01 → ∀ (e : QEntry) (f : Frame), rxHead s.dev n r = some e → frameOf s.dev e.uid = some f →
      readGood s.dev f .clean = true →
      ∃ t pre c, exec (.rxBuf n r .clean) s = .next t ∧
        Completed s t n r x rest (pre ++ .dma n (bufAddr x) ((delivered f.body).take (fld (dw x 4) 15 0)) :: s.dev.out) c ∧
        c.status = (if fld (dw x 4) 15 0 < (delivered f.body).length then 0x0A else 0) ∧ c.ts = f.ts ∧
        c.c4 = at_ (delivered f.body).length 16 ||| at_ (kindCode f.body) 12 ||| at_ f.inPort 8 ||| at_ f.cls 5 ∧
        (∀ q, q ∈ t.dev.basin.queues ↔ q ∈ s.dev.basin.queues ∧ q ≠ e))) ∧
  (∀ (s : State) (n : Fin 4096) (r : Fin 8) (x : Desc) (rest : List Desc), AtFront s n r x rest → x.stage = .started →
    x.named ≠ 0 → x.sent ||| x.failed = x.named →
    ∃ t, exec (.txCanConfirmDone n r) s = .next t ∧ OnlyRing s t n r ∧
      Completed s t n r x rest s.dev.out
        { status := if x.collided then 0x0B else if x.failed ≠ 0 then 0x0C else 0
          ts := if x.sent ≠ 0 then x.sof else devTime s.dev, c5 := x.c5
          c6 := at_ x.sent.toNat 16 ||| at_ x.failed.toNat 0 })

/-- R129, R141, Tables 8.4 and 10.4: a turn-on without permit completes NO_PERMIT and changes nothing; one to a forced
output completes FORCED and is recorded; a turn-on of a free load channel is recorded and waits in its bank's queue, and
completes when its gate is on; field sets likewise, with the first report after the request. -/
def Obligations.OutputCommandsComplete : Prop :=
  (∀ (s : State) (n : Fin 4096) (r : Fin 8) (x : Desc) (rest : List Desc), ReadyAtFront s n r x rest →
    (opOf x = 0x20 → ∀ k, k = fld (dw x 5) 5 0 → boundTo s.dev n k = true →
      (fld (dw x 5) 9 8 = 1 → (loadOf s.dev k).forced = false → (loadOf s.dev k).permit = false →
        ∃ t c, exec (.loadSet n r) s = .next t ∧ OnlyRing s t n r ∧ Completed s t n r x rest s.dev.out c ∧ c.status = 5) ∧
      (fld (dw x 5) 9 8 < 2 → (loadOf s.dev k).forced = true →
        ∃ t pre c, exec (.loadSet n r) s = .next t ∧ Completed s t n r x rest pre c ∧ c.status = 6 ∧
          (loadOf t.dev k).recorded = (decide (fld (dw x 5) 9 8 = 1)) ∧ (resOf t.dev k).state = .commanded) ∧
      (fld (dw x 5) 9 8 = 1 → (loadOf s.dev k).forced = false → wantOn s.dev k = true → (loadOf s.dev k).gate = true →
        ∃ t pre c, exec (.loadSet n r) s = .next t ∧ Completed s t n r x rest pre c ∧ c.status = 0 ∧
          t.dev.ldc.banks = s.dev.ldc.banks ∧ (∀ m, loadOf t.dev m = loadOf s.dev m)) ∧
      (fld (dw x 5) 9 8 = 1 → (loadOf s.dev k).forced = false → (loadOf s.dev k).permit = true →
        (loadOf s.dev k).trip = 0 → (loadOf s.dev k).restartWait = false → supplyOff s.dev k = false →
        s.dev.ldc.gateHold = false → (loadOf s.dev k).gate = false → (loadOf s.dev k).ramping = false →
        (loadOf s.dev k).shed = false → (loadOf s.dev k).slState = .off → k ∉ (bankOf s.dev (bankIdx k)).queue →
        ∃ t, exec (.loadSet n r) s = .next t ∧ (loadOf t.dev k).recorded = true ∧ (loadOf t.dev k).slState = .waiting ∧
          k ∈ (bankOf t.dev (bankIdx k)).queue ∧ (resOf t.dev k).state = .commanded ∧
          ∃ y, (ringOf t.dev n r).inflight = y :: rest ∧ y.stage = .started ∧ y.idx = x.idx)) ∧
    (opOf x = 0x22 → ∀ k, k = fld (dw x 5) 4 0 → boundTo s.dev n (40 + k) = true →
      (bit (dw x 5) 8 = true → (fieldOf s.dev k).forced = false → (fieldOf s.dev k).permit = false →
        ∃ t c, exec (.fieldSet n r) s = .next t ∧ OnlyRing s t n r ∧ Completed s t n r x rest s.dev.out c ∧ c.status = 5) ∧
      ((fieldOf s.dev k).forced = true →
        ∃ t pre c, exec (.fieldSet n r) s = .next t ∧ Completed s t n r x rest pre c ∧ c.status = 6 ∧
          (fieldOf t.dev k).recorded = bit (dw x 5) 8 ∧ (resOf t.dev (40 + k)).state = .commanded) ∧
      ((fieldOf s.dev k).forced = false → (fieldOf s.dev k).permit = true → s.dev.fio.up = true →
        groupSafe s.dev k = false → (fieldOf s.dev k).latched = 0 → quadBad s.dev k = false →
        (fieldOf s.dev k).repDrive = (!bit (dw x 5) 8) →
        ∃ t, exec (.fieldSet n r) s = .next t ∧ (fieldOf t.dev k).recorded = bit (dw x 5) 8 ∧
          (resOf t.dev (40 + k)).state = .commanded ∧
          ∃ y, (ringOf t.dev n r).inflight = y :: rest ∧ y.stage = .started ∧ y.idx = x.idx))) ∧
  (∀ (s : State) (n : Fin 4096) (r : Fin 8) (x : Desc) (rest : List Desc), AtFront s n r x rest → x.stage = .started →
    (opOf x = 0x20 → fld (dw x 5) 9 8 = 1 → (loadOf s.dev (fld (dw x 5) 5 0)).gate = true →
      ∃ t c, exec (.loadSetDone n r) s = .next t ∧ OnlyRing s t n r ∧ Completed s t n r x rest s.dev.out c ∧
        c.status = 0 ∧ c.ts = (loadOf s.dev (fld (dw x 5) 5 0)).changeTs) ∧
    (opOf x = 0x22 → x.since < s.dev.fio.reported → (fieldOf s.dev (fld (dw x 5) 4 0)).latched = 0 →
      ∃ t c, exec (.fieldSetDone n r) s = .next t ∧ OnlyRing s t n r ∧ Completed s t n r x rest s.dev.out c ∧
        c.status = 0 ∧ c.c4 = fieldStatus s.dev (fld (dw x 5) 4 0)))

/-- R145, R150: log records move to flash in order; an unmasked pending vector is sent and its pending bit falls; a
hold-off that ends sends the message owed, if any, and then waits again; SLP_CNT_CLEAR clears exactly its counters. -/
def Obligations.MessagesAndDeviceLog : Prop :=
  (∀ s : State, QmFree s.dev 4 → flashWorn s.dev = false →
    s.dev.log.flash.length + s.dev.log.staging.length ≤ 262144 →
    ∃ t, exec .logFlush s = .next t ∧ t.dev.qm.queue = s.dev.qm.queue ∧
      t = { s with dev := { s.dev with qm := t.dev.qm, log :=
        { s.dev.log with flash := s.dev.log.flash ++ s.dev.log.staging, staging := [] } } }) ∧
  (∀ (s : State) (n : Fin 4096) (v : Fin 8), (slipOf s.dev n).state ≠ .free → msixOpen s.dev n = true →
    (slipOf s.dev n).pba.getLsbD v = true → ∃ t, exec (.msixUnmask n v false) s = .next t ∧
      t.dev.out = .msix n v (rd64 s.dev (slipWin n + 0x180 + 16 * v.val)) (rd s.dev (slipWin n + 0x188 + 16 * v.val))
        :: s.dev.out ∧
      slipOf t.dev n = { slipOf s.dev n with pba := (slipOf s.dev n).pba &&& ~~~(1#8 <<< v.val) } ∧
      bit (rd t.dev (slipWin n + 0x18C + 16 * v.val)) 0 = false ∧
      (∀ a, a ≠ slipWin n + 0x18C + 16 * v.val → rd t.dev a = rd s.dev a) ∧ (∀ m, m ≠ n.val → slipOf t.dev m = slipOf s.dev m)) ∧
  (∀ (s : State) (n : Fin 4096) (v : Fin 8), (slipOf s.dev n).state ≠ .free → (slipOf s.dev n).pba.getLsbD v = false →
    ∃ t, exec (.msixUnmask n v false) s = .next t ∧ t = { s with dev := { s.dev with regs := t.dev.regs } } ∧
      bit (rd t.dev (slipWin n + 0x18C + 16 * v.val)) 0 = false) ∧
  (∀ (s : State) (n : Fin 4096) (r : Fin 8), (ringOf s.dev n r).held = true →
    ((ringOf s.dev n r).owed = false → exec (.msixHoldoffExpire n r) s =
      .next { s with dev := setRing s.dev n r { ringOf s.dev n r with held := false, owed := false } }) ∧
    ((ringOf s.dev n r).owed = true → ∃ t, exec (.msixHoldoffExpire n r) s = .next t ∧
      (ringOf t.dev n r).held = true ∧ (ringOf t.dev n r).owed = false ∧ t.dev.regs = s.dev.regs ∧
      (msixOpen s.dev n = true → bit (rd s.dev (slipWin n + 0x18C + 16 * fld (ringCfg s.dev n r) 18 16)) 0 = false →
        ∃ addr data, t.dev.out = .msix n (fld (ringCfg s.dev n r) 18 16) addr data :: s.dev.out))) ∧
  (∀ (s : State) (n : Fin 4096) (r : Fin 8), (ringOf s.dev n r).held = false →
    exec (.msixHoldoffExpire n r) s = .next s) ∧
  ClearsExactly .slpClear (fun a => (0x800028 ≤ a ∧ a < 0x800030) ∨ (0xA00000 ≤ a ∧ a < 0xC00000))

/-- Word 1 of the shadow settings of load channel `n`, wholly RW, in a posted window of peripheral space (Table 8.9). -/
def ldcWord1 (n : Fin 40) : Nat := 0xF01004 + 0x40 * n.val
def ldcWord1At (n : Fin 40) : Target := .bar0 (BitVec.ofNat 26 (ldcWord1 n))

/-- An access changes registers, the bridge's own state and what is sent out, and nothing else. -/
def OnlyRegsBrgOut (s t : State) : Prop :=
  t = { s with dev := { s.dev with regs := t.dev.regs, brg := t.dev.brg, out := t.dev.out } }

/-- The entry of the bridge error log that the next failure writes. -/
def nextErr (d : Dev) : Nat := 0xC01000 + 32 * fld (rd d 0xC00010) 3 0

/-- The rows that are the manager's write of a command, enable or clear register of peripheral space, with the register. -/
def PeripheralRows (n : Fin 16) (l : Fin 64) (f : Fin 32) (m : Fin 64) (v : Word) : List (Nat × Instr) :=
  [(canBase n, .canEnable n v), (canBase n, .canDisable n), (canBase n + 0x34, .recover n), (canBase n + 0x34, .abortTx n),
   (canBase n + 0x58, .canClear n), (netBase n, .nwsEnable n v), (netBase n, .nwsDisable n v),
   (netBase n + 0x64, .hailCallAll n), (netBase n + 0x64, .hailCallNew n), (netBase n + 0x64, .forget n m),
   (netBase n + 0x6C, .nwsClear n), (0xF00010, .ldcApply l), (0xF00010, .clearTrip l), (0xF00010, .segTest l none),
   (0xF00010, .retire l 1), (0xF0001C, .ldcClearAll), (0xF0001C, .ldcClearChannel l), (0x1000010, .wgsApply l),
   (0x1000018, .wgsClearAll), (0x1000018, .wgsClearChannel l), (0x110000C, .fioApply f), (0x110000C, .clearFault f),
   (0x110000C, .snapshot f), (0x1100018, .fioClearAll), (0x1100018, .fioClearChannel f), (0x1100018, .fioClearLink)]

/-- R11, R12, R36, R134, R160–R166, R354: an aligned 32-bit write sets the RW bits and clears the W1C bits it has 1s in; a
write to no register, or a narrow one, changes no register and is reported, in the error log for a posted window, by an error
to a hart or the Quaymaster for a strict one and in the function's error state for a strict one of a function; a narrow
doorbell write sets only DB_ERR; in reset no path leads to a register; an access without a response waits, unresolved, until
it fails TIMEOUT. A row that is a write of peripheral space waits behind its requester's posted writes and another's
operation on its block, and fails BLOCK_RESET while its block is in reset or hand-over (that these rows are such writes, and
the Lock's while World S owns the block, is assumption 109). That no path leads to a register in reset, with no effect, is
the model's choice too (log entry 18). -/
def Obligations.RegisterWritesAndTheirFailures : Prop :=
  (∀ (s : State) (n : Fin 40) (v : Word) (f : FarSide), fabricUp s.dev = true → bit (rd s.dev 0xC00000) 31 = false →
    s.dev.brg.queue = [] → blockBusy s.dev .pf (ldcWord1 n) = false →
    ∃ t, exec (.registerWrite .pf (ldcWord1At n) 4 (v.setWidth 64) .responds f) s = .next t ∧
      rd t.dev (ldcWord1 n) = v ∧ (∀ a, a ≠ ldcWord1 n → rd t.dev a = rd s.dev a) ∧
      t = { s with dev := { s.dev with regs := t.dev.regs, brg := t.dev.brg } }) ∧
  (∀ (s : State) (v : Word) (e : Nat × Word) (f : FarSide), fabricUp s.dev = true → bit (rd s.dev 0xC00000) 31 = false →
    s.dev.brg.queue = [] → e ∈ [(0x1C, 0x1E), (0x200014, 0xFFF)] →
    ∃ t, exec (.registerWrite .pf (.bar0 (BitVec.ofNat 26 e.1)) 4 (v.setWidth 64) .responds f) s = .next t ∧
      rd t.dev e.1 = rd s.dev e.1 &&& ~~~(v &&& e.2) ∧ (∀ a, a ≠ e.1 → rd t.dev a = rd s.dev a) ∧
      t = { s with dev := { s.dev with regs := t.dev.regs, brg := t.dev.brg } }) ∧
  (∀ (s : State) (o : BitVec 26) (v : DWord) (f : FarSide), fabricUp s.dev = true → bit (rd s.dev 0xC00000) 31 = false →
    s.dev.brg.queue = [] → o.toNat % 4 = 0 → regDesc o.toNat = none → peripheral o.toNat = false → barBlock o.toNat ≠ 1 →
    ∃ t, exec (.registerWrite .pf (.bar0 o) 4 v .responds f) s = .next t ∧
      bit (rd t.dev (nextErr s.dev)) 31 = true ∧ fld (rd t.dev (nextErr s.dev)) 28 24 = 1 ∧
      fld (rd t.dev (nextErr s.dev)) 15 0 = fld (rd s.dev 0xC00010) 31 16 ∧
      rd t.dev (nextErr s.dev + 4) = at_ o.toNat 0 ∧
      fld (rd t.dev 0xC00010) 31 16 = (fld (rd s.dev 0xC00010) 31 16 + 1) % 65536 ∧
      bit (rd t.dev 0xC00008) 0 = true ∧ bit (rd t.dev (slipWin 0 + 0xC)) 2 = true ∧ t.dev.basin = s.dev.basin ∧
      (∀ a, a < 0xA00000 → rd t.dev a = rd s.dev a) ∧ (∀ a, 0xC01200 ≤ a → rd t.dev a = rd s.dev a)) ∧
  (∀ (s : State) (o : BitVec 26) (w : Nat) (v : DWord) (f f2 : FarSide), fabricUp s.dev = true → barBlock o.toNat = 1 →
    w ≠ 4 → w ≠ 8 →
    (BusFree s.dev .pf → ∃ t, exec (.registerWrite .pf (.bar0 o) w v f f2) s = .next t ∧
      t = { s with dev := { s.dev with brg := t.dev.brg, out := t.dev.out } } ∧ t.dev.brg.queue = [] ∧
      (tget {} t.dev.brg.aer 0).abort = true ∧ (tget {} t.dev.brg.aer 0).addr = o.toNat ∧
      t.dev.out = if s.dev.slips.ctl.errMsg then .errorMessage 0 :: s.dev.out else s.dev.out) ∧
    (BusFree s.dev .qm → ∃ t, exec (.registerWrite .qm (.bar0 o) w v f f2) s = .next t ∧
      t = { s with dev := { s.dev with brg := t.dev.brg, out := .busError .qm :: s.dev.out } })) ∧
  (∀ (s : State) (o : BitVec 16) (v : DWord) (f f2 : FarSide), fabricUp s.dev = true → s.dev.brg.queue = [] →
    o.toNat < 4096 → (slipOf s.dev 0).state ≠ .free → (slipOf s.dev 0).state ≠ .resetting →
    ∃ t, exec (.registerWrite .pf (.doorbell 0 o) 2 v f f2) s = .next t ∧
      bit (rd t.dev (slipWin 0 + 0xC)) 1 = true ∧ t.dev.slips.rings = s.dev.slips.rings ∧
      (∀ a, a ≠ slipWin 0 + 0xC → rd t.dev a = rd s.dev a) ∧ t.dev.lb = s.dev.lb) ∧
  (∀ (s : State) (n : Fin 16) (l : Fin 64) (f : Fin 32) (m : Fin 64) (v : Word), ∀ c ∈ PeripheralRows n l f m v,
    (farCause s.dev c.1 ≠ 3 → fabricUp s.dev = false → exec c.2 s = .next s) ∧
    (farCause s.dev c.1 ≠ 3 → fabricUp s.dev = true →
      blockBusy s.dev .pf c.1 = true ∨ (∃ q ∈ s.dev.brg.queue, q.who = .pf ∧ isPosted q = true) →
      ∃ t, exec c.2 s = .next t ∧ t = { s with dev := { s.dev with brg := t.dev.brg } } ∧
        t.dev.brg.queue.length = s.dev.brg.queue.length + 1) ∧
    (farCause s.dev c.1 = 4 → fabricUp s.dev = true → s.dev.brg.queue = [] → blockBusy s.dev .pf c.1 = false →
      bit (rd s.dev 0xC00000) 31 = false → ∃ t, exec c.2 s = .next t ∧
        fld (rd t.dev (nextErr s.dev)) 28 24 = 4 ∧ bit (rd t.dev 0xC00008) 0 = true ∧ t.dev.can = s.dev.can ∧
        t.dev.nws = s.dev.nws ∧ t.dev.ldc = s.dev.ldc ∧ t.dev.fio = s.dev.fio ∧ t.dev.qm = s.dev.qm) ∧
    (farCause s.dev c.1 = 3 → lockUp s.dev = false → exec c.2 s = .next s)) ∧
  (∀ (s : State) (who : Requester) (g : Target) (w : Nat) (v : DWord) (f f2 : FarSide), fabricUp s.dev = false →
    exec (.registerWrite who g w v f f2) s = .next s) ∧
  (∀ (s : State) (n : Fin 40) (far : FarSide) (cause : Nat), fabricUp s.dev = true → BusFree s.dev .pf →
    farCause s.dev (ldcWord1 n) = 0 → (far, cause) ∈ [(FarSide.silent, 5), (.parity, 6)] →
    (∀ at_, allStrictAt s.dev at_ = false) →
    ∃ t, exec (.peripheralBusTimeout .pf (some (ldcWord1At n, 4, far))) s = .next t ∧
      t.dev.out.head? = some (.busOk .pf 0) ∧ bit (rd t.dev 0xC00008) 0 = true ∧
      fld (rd t.dev (nextErr s.dev)) 28 24 = cause ∧ bit (rd t.dev (nextErr s.dev)) 29 = true) ∧
  (∀ (s : State) (n : Fin 40) (v : Word) (f : FarSide), fabricUp s.dev = true → bit (rd s.dev 0xC00000) 31 = false →
    s.dev.brg.queue = [] → blockBusy s.dev .pf (ldcWord1 n) = false →
    ∃ t e, exec (.registerWrite .pf (ldcWord1At n) 4 (v.setWidth 64) .silent f) s = .next t ∧
      t = { s with dev := { s.dev with brg := t.dev.brg } } ∧ t.dev.brg.queue = [e] ∧ e.silent = true ∧
      e.who = .pf ∧ e.target = ldcWord1At n ∧ e.strict = false) ∧
  (∀ (s : State) (n : Fin 40) (e : BusAcc) (p : BusPart), fabricUp s.dev = true → s.dev.brg.queue = [e] →
    e.silent = true → e.who = .pf → e.target = ldcWord1At n → e.strict = false → e.op = .write [p] false →
    ∃ t, exec (.peripheralBusTimeout .pf none) s = .next t ∧ t.dev.brg.queue = [] ∧
      fld (rd t.dev (nextErr s.dev)) 28 24 = 5 ∧ bit (rd t.dev (nextErr s.dev)) 29 = false ∧
      bit (rd t.dev 0xC00008) 0 = true ∧ ∀ a, a < 0xA00000 ∨ 0xD00000 ≤ a → rd t.dev a = rd s.dev a)

/-- R170–R172: an accepted AMO or AtomicOp returns the original value and writes the result; outside peripheral space it is
refused and one on a WO or W1C field ends with an error, nothing written; a slow one keeps its semaphore until it is freed;
without a free semaphore it waits. LR reserves its block; SC writes only under an intact reservation young enough. The
operations are those of the A extension (presumed, log entry 21); the order of those that wait, and what LR and SC do outside
peripheral space, are the model's choices (log entry 22). -/
def Obligations.AtomicOperationsAndReservations : Prop :=
  (∀ (s : State) (h : Fin 8) (n : Fin 40) (v : Word), fabricUp s.dev = true → BusFree s.dev (.hart h) →
    bit (rd s.dev 0x1300018) 8 = true → freeSem s.dev ≠ none → atomicOn s.dev (ldcWord1 n) = false →
    ∃ t, exec (.clusterAmo h (ldcWord1At n) false .add (v.setWidth 64) false .responds) s = .next t ∧
      t.dev.out = .busOk (.hart h) (readValue s.dev (ldcWord1 n) false) :: s.dev.out ∧
      rd t.dev (ldcWord1 n) = (readValue s.dev (ldcWord1 n) false).setWidth 32 + v ∧
      (∀ a, a ≠ ldcWord1 n → rd t.dev a = rd s.dev a) ∧ OnlyRegsBrgOut s t) ∧
  (∀ (s : State) (n : Fin 40) (v c : Word), fabricUp s.dev = true → BusFree s.dev .pf →
    freeSem s.dev ≠ none → atomicOn s.dev (ldcWord1 n) = false →
    ∃ t, exec (.atomicOp 0 (ldcWord1At n) false .cas (v.setWidth 64) (c.setWidth 64) false .responds) s = .next t ∧
      t.dev.out = .busOk .pf (readValue s.dev (ldcWord1 n) false) :: s.dev.out ∧
      rd t.dev (ldcWord1 n) =
        (if readValue s.dev (ldcWord1 n) false = c.setWidth 64 then v else rd s.dev (ldcWord1 n)) ∧
      (∀ a, a ≠ ldcWord1 n → rd t.dev a = rd s.dev a) ∧ OnlyRegsBrgOut s t) ∧
  (∀ (s : State) (o : BitVec 26) (wide slow : Bool) (k : AtomicKind) (v c : DWord) (f : FarSide), fabricUp s.dev = true →
    peripheral o.toNat = false ∨ o.toNat % (if wide then 8 else 4) ≠ 0 → exec (.atomicOp 0 (.bar0 o) wide k v c slow f) s =
      .next { s with dev := { s.dev with out := .unsupported .pf :: s.dev.out } }) ∧
  (∀ (s : State) (slow : Bool) (k : AtomicKind) (v c : DWord) (f : FarSide), fabricUp s.dev = true → BusFree s.dev .pf →
    freeSem s.dev ≠ none → atomicOn s.dev 0xF00000 = false →
    ∃ t, exec (.atomicOp 0 (.bar0 0xF00000) false k v c slow f) s = .next t ∧
      t = { s with dev := { s.dev with brg := t.dev.brg, out := .busError .pf :: s.dev.out } } ∧
      t.dev.brg.sems = s.dev.brg.sems) ∧
  (∀ (s : State) (n : Fin 40) (k : AtomicKind) (v c : DWord) (slow : Bool) (f : FarSide), fabricUp s.dev = true →
    BusFree s.dev .pf →
    (freeSem s.dev = none ∨ atomicOn s.dev (ldcWord1 n) = true →
      ∃ t, exec (.atomicOp 0 (ldcWord1At n) false k v c slow f) s = .next t ∧
        t = { s with dev := { s.dev with brg := t.dev.brg } } ∧ t.dev.brg.sems = s.dev.brg.sems ∧
        t.dev.brg.queue = [accessOf s.dev .pf (ldcWord1At n) (.atomic ⟨.pf, ldcWord1 n, false, .atomic k, v, c, f⟩ slow)]) ∧
    (∀ j, freeSem s.dev = some j → atomicOn s.dev (ldcWord1 n) = false →
      ∃ t, exec (.atomicOp 0 (ldcWord1At n) false k v c true f) s = .next t ∧
        semOf t.dev j = { held := true, kind := .atomicOp, block := ldcWord1 n / 8 * 8, at_ := s.dev.wall,
                          req := some ⟨.pf, ldcWord1 n, false, .atomic k, v, c, f⟩ } ∧
        (∀ i, i ≠ j → semOf t.dev i = semOf s.dev i) ∧ t = { s with dev := { s.dev with brg := t.dev.brg } })) ∧
  (∀ (s : State) (j : Fin 64) (n : Fin 40) (v : Word),
    (semOf s.dev j).held = true → (semOf s.dev j).kind = .amo →
    (semOf s.dev j).req = some ⟨.pf, ldcWord1 n, false, .amo .swap, v.setWidth 64, 0, .responds⟩ →
    s.dev.brg.queue = [] →
    ∃ t, exec (.semaphoreFreed j) s = .next t ∧ (semOf t.dev j).held = false ∧ rd t.dev (ldcWord1 n) = v ∧
      t.dev.out = .busOk .pf (readValue s.dev (ldcWord1 n) false) :: s.dev.out ∧
      (∀ a, a ≠ ldcWord1 n → rd t.dev a = rd s.dev a) ∧ OnlyRegsBrgOut s t) ∧
  (∀ (s : State) (h : Fin 8) (n : Fin 40) (j : Nat), fabricUp s.dev = true → BusFree s.dev (.hart h) →
    bit (rd s.dev 0x1300018) 8 = true → reservationOf s.dev h = none → freeSem s.dev = some j →
    ∃ t, exec (.clusterLr h (ldcWord1At n) false .responds) s = .next t ∧
      semOf t.dev j = { held := true, kind := .lr, block := ldcWord1 n / 8 * 8, hart := h, at_ := s.dev.wall } ∧
      (∀ i, i ≠ j → semOf t.dev i = semOf s.dev i) ∧ t.dev.regs = s.dev.regs ∧
      t.dev.out = .busOk (.hart h) (readValue s.dev (ldcWord1 n) false) :: s.dev.out ∧ OnlyRegsBrgOut s t) ∧
  (∀ (s : State) (h : Fin 8) (n : Fin 40) (j : Nat) (v : Word), fabricUp s.dev = true → BusFree s.dev (.hart h) →
    blockBusy s.dev (.hart h) (ldcWord1 n) = false → bit (rd s.dev 0x1300018) 8 = true →
    reservationOf s.dev h = some j → (semOf s.dev j).block = ldcWord1 n / 8 * 8 →
    ((semOf s.dev j).broken = false → s.dev.wall - (semOf s.dev j).at_ < resTimeout s.dev →
      ∃ t, exec (.clusterSc h (ldcWord1At n) false (v.setWidth 64) .responds) s = .next t ∧ rd t.dev (ldcWord1 n) = v ∧
        t.dev.out = .scResult h true :: s.dev.out ∧ (semOf t.dev j).held = false ∧
        (∀ a, a ≠ ldcWord1 n → rd t.dev a = rd s.dev a) ∧ OnlyRegsBrgOut s t) ∧
    ((semOf s.dev j).broken = true ∨ resTimeout s.dev ≤ s.dev.wall - (semOf s.dev j).at_ →
      ∃ t, exec (.clusterSc h (ldcWord1At n) false (v.setWidth 64) .responds) s = .next t ∧ t.dev.regs = s.dev.regs ∧
        t.dev.out = .scResult h false :: s.dev.out ∧ (semOf t.dev j).held = false ∧ OnlyRegsBrgOut s t)) ∧
  (∀ (s : State) (h : Fin 8) (g : Target) (wide : Bool) (v : DWord) (f : FarSide), fabricUp s.dev = true →
    BusFree s.dev (.hart h) → blockBusy s.dev (.hart h) (targetAddr g) = false → reservationOf s.dev h = none →
    ∃ t, exec (.clusterSc h g wide v f) s = .next t ∧
      t = { s with dev := { s.dev with brg := t.dev.brg, out := .scResult h false :: s.dev.out } } ∧
      t.dev.brg.sems = s.dev.brg.sems) ∧
  (∀ (s : State) (h : Fin 8), (reservationOf s.dev h = none → exec (.reservationExpire h) s = .next s) ∧
    ∀ j, reservationOf s.dev h = some j → resTimeout s.dev ≤ s.dev.wall - (semOf s.dev j).at_ →
      exec (.reservationExpire h) s =
        .next { s with dev := setSem s.dev j { semOf s.dev j with broken := true } })

/-- R174–R176, R180–R182: the fields of a stream beside its enables are written only while both were 0; SWITCH moves TX_NUM
only to an installed key; a refused wrap is counted by its cause; a wrap goes to the Basin marked TUNNELLED with the next
sequence number; a frame already TUNNELLED, or of no tunnel format, is not unwrapped; the clears are exact. -/
def Obligations.TunnelStreams : Prop :=
  (∀ (s : State) (k : Fin 256) (v : Word), ∃ t, exec (.tunCfgWrite k v) s = .next t ∧
    t = { s with dev := { s.dev with regs := t.dev.regs, brg := { s.dev.brg with pf := t.dev.brg.pf } } } ∧ (∀ a, a ≠ tunBase k → rd t.dev a = rd s.dev a) ∧
    fld (rd t.dev (tunBase k)) 31 30 = fld v 31 30 ∧
    (fld (rd s.dev (tunBase k)) 31 30 ≠ 0 → fld (rd t.dev (tunBase k)) 29 0 = fld (rd s.dev (tunBase k)) 29 0) ∧
    (fld (rd s.dev (tunBase k)) 31 30 = 0 → rd t.dev (tunBase k) = v &&& 0xFFF71F0F)) ∧
  (∀ (s : State) (k : Fin 256),
    ((if (streamOf s.dev k).txNum then (streamOf s.dev k).valid0 else (streamOf s.dev k).valid1) = true →
      exec (.switch k) s = .next { s with
        dev := setStream s.dev k { streamOf s.dev k with txNum := !(streamOf s.dev k).txNum } }) ∧
    ((if (streamOf s.dev k).txNum then (streamOf s.dev k).valid0 else (streamOf s.dev k).valid1) = false →
      ∃ t, exec (.switch k) s = .next t ∧ t.dev.brg.streams = s.dev.brg.streams ∧ bit (rd t.dev 0xC00008) 2 = true)) ∧
  (∀ (s : State) (e : QEntry) (k : Nat) (f : Frame) (m : CanMsg) (ch : Fin 16) (tn : Bool), k < 256 →
    tunHead s.dev = some e → e.dest = .wrap k →
    frameOf s.dev e.uid = some f → readGood s.dev f .clean = true → f.body = .can m ch tn →
    (∀ c, wrapRefusal s.dev k m = some c → ∃ t, exec (.tunnelWrap .clean) s = .next t ∧
      cnt t.dev (aRefused c) = cnt s.dev (aRefused c) + 1 ∧ bit (rd t.dev 0xC00008) 2 = true ∧
      t.dev.brg.streams = s.dev.brg.streams ∧ ∀ q, q ∈ t.dev.basin.queues ↔ q ∈ s.dev.basin.queues ∧ q ≠ e) ∧
    (wrapRefusal s.dev k m = none → ∃ d g, exec (.tunnelWrap .clean) s = .next { s with dev := (enterBasin d g).2 } ∧
      g.body = .eth (wrapBuild s.dev k m f.ts).1 ∧ g.inPort = 13 ∧ g.tunnelled = true ∧
      g.cls = fld (tunCfg s.dev k) 22 20 ∧ cnt d (aTun k 0) = cnt s.dev (aTun k 0) + 1 ∧
      (streamOf d k).txSeq = ((streamOf s.dev k).txSeq + 1) % (if tunMode s.dev k < 2 then 256 else 65536) ∧
      ∀ q, q ∈ d.basin.queues ↔ q ∈ s.dev.basin.queues ∧ q ≠ e)) ∧
  (∀ (s : State) (e : QEntry) (f : Frame) (b : List Byte), tunHead s.dev = some e → e.dest = .unwrap →
    frameOf s.dev e.uid = some f → readGood s.dev f .clean = true → f.body = .eth b →
    (f.tunnelled = true → ∃ t, exec (.tunnelUnwrap .clean) s = .next t ∧
      cnt t.dev (aRefused 1) = cnt s.dev (aRefused 1) + 1 ∧
      ∀ q, q ∈ t.dev.basin.queues ↔ q ∈ s.dev.basin.queues ∧ q ≠ e) ∧
    (f.tunnelled = false → etherType b ≠ 0x22F0 → etherType b ≠ 0x88B5 → ∃ t, exec (.tunnelUnwrap .clean) s = .next t ∧
      cnt t.dev aBadFormat = cnt s.dev aBadFormat + 1 ∧
      ∀ q, q ∈ t.dev.basin.queues ↔ q ∈ s.dev.basin.queues ∧ q ≠ e)) ∧
  (∀ s : State, ∃ t, exec .brgClearLog s = .next t ∧ t = { s with dev := { s.dev with regs := t.dev.regs } } ∧
    (∀ e < 16, rd t.dev (0xC01000 + 32 * e) = rd s.dev (0xC01000 + 32 * e) &&& 0x7FFFFFFF) ∧
    ∀ a, (∀ e < 16, a ≠ 0xC01000 + 32 * e) → rd t.dev a = rd s.dev a) ∧
  ClearsExactly .brgClearTun (fun a => 0xC08000 ≤ a ∧ a < 0xC0A048) ∧
  ClearsExactly .brgClearOverwrite (fun a => 0xC0A048 ≤ a ∧ a < 0xC0A050)

/-- R179, R181, R182: a frame wrapped by a mode 2 stream without authentication is unwrapped by a stream that matches it to
the same message, with its timestamp, channel and class from the stream, and enters the Basin through port 13. -/
def Obligations.UnwrapRecoversWrappedFrame : Prop :=
  ∀ (s : State) (k : Nat) (e : QEntry) (f : Frame) (m : CanMsg) (ts : Nat), k < 256 →
    tunHead s.dev = some e → e.dest = .unwrap → frameOf s.dev e.uid = some f → readGood s.dev f .clean = true →
    f.tunnelled = false →
    f.body = .eth (wrapBuild s.dev k m ts).1 → tunMode s.dev k = 2 → tunAuth s.dev k = false →
    rxStream s.dev (tunSid s.dev k) (tunBus s.dev k) true = some k → ts < 2 ^ 64 →
    m.fmt = 4 → 1 ≤ m.data.length → m.data.length ≤ 2048 → m.id.toNat ≤ 0x7FF → m.rtr = false → m.brs = false →
    m.esi = false → m.dlc = 0 →
    ∃ d g, exec (.tunnelUnwrap .clean) s = .next { s with dev := leaveQueue (enterBasin d g).2 e } ∧
      g.body = .can m (Fin.ofNat 16 (fld (tunCfg s.dev k) 3 0)) true ∧ g.ts = ts ∧ g.inPort = 13 ∧
      g.tunnelled = true ∧ g.cls = fld (tunCfg s.dev k) 18 16 ∧ cnt d (aTun k 1) = cnt s.dev (aTun k 1) + 1

/-- The settings a channel takes as it leaves CONFIG with `v` written to CAN_CTRL, as Table 6.4 checks them. -/
def canSettings (s : State) (n : Fin 16) (v : Word) : Nat :=
  cfgCheck n (v &&& rwMask (canBase n) ||| 0x80000000) (rd s.dev (canBase n + 0x10)) (rd s.dev (canBase n + 0x14))
    (rd s.dev (canBase n + 0x18)) (rd s.dev (canBase n + 0x1C))

/-- R187, R197, R200–R202, Table 6.6: leaving CONFIG by the checks of Table 6.4, returning to it with every loaded frame
abandoned, which waits for the end of the frame on the bus, integration, bus-off recovery, the commands, faults and the
protocol exception event. That the channel keeps its state until the attempt has ended, and what ends a frame at once, is the
model's choice (log entry 41). -/
def Obligations.CanChannelStates : Prop :=
  (∀ (s : State) (n : Fin 16) (v : Word), RowReady s.dev (canBase n) → (canOf s.dev n).state = .config →
    (canOf s.dev n).stopping = false →
    (canSettings s n v = 0 →
      ∃ t, exec (.canEnable n v) s = .next t ∧ (canOf t.dev n).state = .integrating ∧ (canOf t.dev n).tec = 0 ∧
        (canOf t.dev n).recv = 0 ∧ (canOf t.dev n).cfgErr = 0 ∧ bit (rd t.dev (canBase n)) 31 = true ∧
        ∀ m, m ≠ n.val → canOf t.dev m = canOf s.dev m) ∧
    (canSettings s n v ≠ 0 →
      ∃ t, exec (.canEnable n v) s = .next t ∧ canOf t.dev n = { canOf s.dev n with cfgErr := canSettings s n v } ∧
        bit (rd t.dev (canBase n)) 31 = false ∧ bit (rd t.dev (canBase n + 8)) 9 = true ∧
        ∀ m, m ≠ n.val → canOf t.dev m = canOf s.dev m)) ∧
  (∀ (s : State) (n : Fin 16) (v : Word), bit v 25 = false → bit v 24 = false →
    (1 ≤ fld (rd s.dev (canBase n + 0x10)) 23 16 → 1 ≤ fld (rd s.dev (canBase n + 0x10)) 14 8 →
      80 ≤ (fld (rd s.dev (canBase n + 0x10)) 7 0 + 1) *
        (3 + fld (rd s.dev (canBase n + 0x10)) 23 16 + fld (rd s.dev (canBase n + 0x10)) 14 8) →
      (fld (rd s.dev (canBase n + 0x10)) 7 0 + 1) *
        (3 + fld (rd s.dev (canBase n + 0x10)) 23 16 + fld (rd s.dev (canBase n + 0x10)) 14 8) ≤ 8000 →
      fld (rd s.dev (canBase n + 0x10)) 30 24 ≤ fld (rd s.dev (canBase n + 0x10)) 14 8 →
      bit (rd s.dev (canBase n + 0x10)) 31 = false → canSettings s n v = 0) ∧
    (fld (rd s.dev (canBase n + 0x10)) 23 16 = 0 ∨ fld (rd s.dev (canBase n + 0x10)) 14 8 = 0 → canSettings s n v = 1)) ∧
  (∀ (s : State) (n : Fin 16), RowReady s.dev (canBase n) → (canOf s.dev n).state ≠ .config →
    ((canOf s.dev n).onBus = none → ∃ t, exec (.canDisable n) s = .next t ∧
      (canOf t.dev n).state = .config ∧ (canOf t.dev n).loaded = [] ∧ bit (rd t.dev (canBase n)) 31 = false ∧
      cnt t.dev (aCanCnt n 4) = cnt s.dev (aCanCnt n 4) + BitVec.ofNat 64 (canOf s.dev n).loaded.length) ∧
    (∀ u, (canOf s.dev n).onBus = some u → ∃ t, exec (.canDisable n) s = .next t ∧
      (canOf t.dev n).state = (canOf s.dev n).state ∧ (canOf t.dev n).stopping = true ∧ (canOf t.dev n).onBus = some u ∧
      (canOf t.dev n).loaded = (canOf s.dev n).loaded ∧ bit (rd t.dev (canBase n)) 31 = false)) ∧
  (∀ (s : State) (n : Fin 16), (canOf s.dev n).state = .integrating → (netOf s.dev n).frozen = false →
    coreUp s.dev 4 = true → (∃ t, exec (.canBusIntegrated n) s = .next t ∧ (canOf t.dev n).state = .active ∧
      ∀ m, m ≠ n.val → canOf t.dev m = canOf s.dev m) ∧
    ((netOf s.dev n).callDue = false → exec (.canBusIntegrated n) s =
      .next { s with dev := setCan s.dev n { canOf s.dev n with state := .active } })) ∧
  (∀ (s : State) (n : Fin 16), (canOf s.dev n).state = .busOff → bit (canOf s.dev n).ctrl 22 = false →
    (netOf s.dev n).frozen = false → coreUp s.dev 4 = true → exec (.canBoDelayExpire n) s =
      .next { s with dev := setCan s.dev n { canOf s.dev n with state := .recovering, recov := 0 } }) ∧
  (∀ (s : State) (n : Fin 16), (canOf s.dev n).state = .recovering → (netOf s.dev n).frozen = false →
    coreUp s.dev 4 = true → ∃ t, exec (.canRecovered n) s = .next t ∧ (canOf t.dev n).state = .active ∧
      (canOf t.dev n).tec = 0 ∧ (canOf t.dev n).recv = 0 ∧ bit (rd t.dev (canBase n + 8)) 3 = true) ∧
  (∀ (s : State) (n : Fin 16), RowReady s.dev (canBase n + 0x34) → resultValid s.dev (canBase n + 0x38) = true →
    ((canOf s.dev n).state = .busOff → (netOf s.dev n).frozen = false →
      ∃ t, exec (.recover n) s = .next t ∧ (canOf t.dev n).state = .recovering ∧
        fld (rd t.dev (canBase n + 0x38)) 30 28 = 0) ∧
    ((canOf s.dev n).state ≠ .busOff → ∃ t, exec (.recover n) s = .next t ∧ t.dev.can = s.dev.can ∧
      fld (rd t.dev (canBase n + 0x38)) 30 28 = 1 ∧ resultValid t.dev (canBase n + 0x38) = true) ∧
    ∃ t, exec (.abortTx n) s = .next t ∧ fld (rd t.dev (canBase n + 0x38)) 30 28 = 0 ∧
      (canOf t.dev n).loaded = ((canOf s.dev n).loaded.filter fun x => (canOf s.dev n).onBus == some x.uid).map
        fun x => { x with abort := true }) ∧
  (∀ (s : State) (n : Fin 16), (canOf s.dev n).state ≠ .config → (canOf s.dev n).state ≠ .offline →
    (netOf s.dev n).frozen = false → (canOf s.dev n).stopping = false → coreUp s.dev 4 = true →
    ∃ t, exec (.canTrcvFault n false) s = .next t ∧ (canOf t.dev n).state = .offline ∧ (canOf t.dev n).loaded = [] ∧
      (canOf t.dev n).thermalFault = true ∧ bit (rd t.dev (canBase n + 8)) 7 = true ∧
      ∀ m, m ≠ n.val → canOf t.dev m = canOf s.dev m) ∧
  (∀ (s : State) (n : Fin 16), (canOf s.dev n).state = .offline → (canOf s.dev n).supplyFault = false →
    (netOf s.dev n).frozen = false → coreUp s.dev 4 = true →
    ∃ t, exec (.canTrcvFaultClear n false) s = .next t ∧ t = { s with dev := { s.dev with can := t.dev.can } } ∧
      canOf t.dev n = { canOf s.dev n with
        thermalFault := false, state := .integrating, tec := 0, recv := 0, warn := false } ∧
      ∀ m, m ≠ n.val → canOf t.dev m = canOf s.dev m) ∧
  (∀ (s : State) (n : Fin 16), canOnline (canOf s.dev n) = true → (netOf s.dev n).frozen = false →
    coreUp s.dev 4 = true →
    (bit (canOf s.dev n).ctrl 23 = true →
      ∃ t, exec (.canPex n) s = .next t ∧ (canOf t.dev n).state = .integrating ∧ bit (rd t.dev (canBase n + 8)) 8 = true ∧
        cnt t.dev (aCanCnt n 16) = cnt s.dev (aCanCnt n 16) + 1) ∧
    (bit (canOf s.dev n).ctrl 23 = false →
      ∃ t, exec (.canPex n) s = .next t ∧ cnt t.dev (aCanCnt n 10) = cnt s.dev (aCanCnt n 10) + 1)) ∧
  (∀ n : Fin 16, RowClears (.canClear n) (canBase n + 0x58) (fun a => canBase n + 0x2000 ≤ a ∧ a < canBase n + 0x2088))

/-- R190, R192, R193: a valid frame is counted in RX_OK; the acceptance test gives its class or rejects it; an accepted one
enters the Basin through port 13, or is counted in RX_DISCARD without the fabric; one for the high-priority buffer waits
there and is delivered, with fixed words, to the next RX_BUF of its ring. -/
def Obligations.CanReceptionAndHighPriority : Prop :=
  (∀ (s : State) (n : Fin 16) (m : CanMsg) (ts : Nat), canOnline (canOf s.dev n) = true →
    (netOf s.dev n).frozen = false → coreUp s.dev 4 = true → canDecodes n (canOf s.dev n) m = true →
    sOwned s.dev n = false →
    bit (rd s.dev (canBase n + 0x50)) 31 = false →
    (∀ cls, acceptTest s.dev n m = some cls → fabricUp s.dev = true →
      ∃ d f, exec (.canFrameRx n m ts) s = .next { s with dev := (enterBasin d f).2 } ∧ f.body = .can m n false ∧
        f.inPort = 13 ∧ f.cls = cls ∧ f.ts = ts ∧ f.tunnelled = false ∧
        cnt d (aCanCnt n 0) = cnt s.dev (aCanCnt n 0) + 1) ∧
    (∀ cls, acceptTest s.dev n m = some cls → fabricUp s.dev = false → ∃ t, exec (.canFrameRx n m ts) s = .next t ∧
      cnt t.dev (aCanCnt n 0) = cnt s.dev (aCanCnt n 0) + 1 ∧ cnt t.dev (aCanCnt n 2) = cnt s.dev (aCanCnt n 2) + 1) ∧
    (acceptTest s.dev n m = none → ∃ t, exec (.canFrameRx n m ts) s = .next t ∧
      cnt t.dev (aCanCnt n 0) = cnt s.dev (aCanCnt n 0) + 1 ∧ cnt t.dev (aCanCnt n 1) = cnt s.dev (aCanCnt n 1) + 1)) ∧
  (∀ (s : State) (n : Fin 16) (m : CanMsg),
    (fld (rd s.dev (canBase n + 0x2C)) 31 30 = 0 → acceptTest s.dev n m = some (fld (rd s.dev (canBase n + 0x2C)) 2 0)) ∧
    (fld (rd s.dev (canBase n + 0x2C)) 31 30 = 1 → (∀ k < 128, canMatch s.dev (aAcc n k) m = false) →
      acceptTest s.dev n m = none) ∧
    (∀ k < 128, fld (rd s.dev (canBase n + 0x2C)) 31 30 = 1 → canMatch s.dev (aAcc n k) m = true →
      bit (rd s.dev (aAcc n k + 8)) 23 = true →
      (∀ j < k, canMatch s.dev (aAcc n j) m = false ∨ bit (rd s.dev (aAcc n j + 8)) 23 = false) →
      acceptTest s.dev n m = some (fld (rd s.dev (aAcc n k + 8)) 22 20)) ∧
    (∀ k < 128, fld (rd s.dev (canBase n + 0x2C)) 31 30 = 2 → canMatch s.dev (aAcc n k) m = true →
      acceptTest s.dev n m = none)) ∧
  (∀ (s : State) (n : Fin 16) (m : CanMsg) (ts : Nat), canOnline (canOf s.dev n) = false →
    exec (.canFrameRx n m ts) s = .next s) ∧
  (∀ (s : State) (n : Fin 16) (m : CanMsg) (ts k : Nat), canOnline (canOf s.dev n) = true →
    (netOf s.dev n).frozen = false → coreUp s.dev 4 = true → canDecodes n (canOf s.dev n) m = true →
    sOwned s.dev n = false →
    bit (rd s.dev (canBase n + 0x50)) 31 = true → k < 16 → canMatch s.dev (aHp n k) m = true →
    bit (rd s.dev (aHp n k + 8)) 30 = false → (∀ j < k, canMatch s.dev (aHp n j) m = false) →
    hpTakes s.dev (rd s.dev (canBase n + 0x50)) = true → (canOf s.dev n).hp.length < 32 →
    (canOf s.dev n).tec < 256 →
    ∃ t, exec (.canFrameRx n m ts) s = .next t ∧ t.dev.basin = s.dev.basin ∧
      (canOf t.dev n).hp = (canOf s.dev n).hp ++ [⟨m, ts, fld (rd s.dev (canBase n + 0x2C)) 2 0⟩] ∧
      cnt t.dev (aCanCnt n 0) = cnt s.dev (aCanCnt n 0) + 1 ∧ cnt t.dev (aCanCnt n 1) = cnt s.dev (aCanCnt n 1)) ∧
  (∀ (s : State) (n : Fin 16) (h : HpFrame) (l : List HpFrame) (sl r : Nat) (x : Desc) (rest : List Desc),
    (canOf s.dev n).hp = h :: l → sl = fld (rd s.dev (canBase n + 0x50)) 11 0 →
    r = fld (rd s.dev (canBase n + 0x50)) 18 16 → ReadyAtFront s sl r x rest → opOf x = 0x01 →
    ∃ t, exec (.hpDeliver n.castSucc) s = .next t ∧ (canOf t.dev n).hp = l ∧
      Completed s t sl r x rest (Out.dma sl (bufAddr x) ((canDelivered h.msg).take (fld (dw x 4) 15 0)) :: s.dev.out)
        { status := if fld (dw x 4) 15 0 < (canDelivered h.msg).length then 0x0A else 0, ts := h.ts
          c4 := at_ (canDelivered h.msg).length 16 ||| at_ (kindCode (.can h.msg n false)) 12 ||| at_ 13 8 ||| at_ h.cls 5
          c5 := 0x00010000, c6 := at_ h.msg.id.toNat 0, c7 := canC7 h.msg n })

/-- R195–R199, R203, R464: a queued frame is loaded into a mailbox or the FIFO, or discarded and counted; the candidate of
highest arbitration priority is offered; a sent frame leaves its place, counted, with the channel's own ESI; a bit error in
the collision window counts, and at COLL_LIMIT the frame is abandoned and reported; a timeout abandons. What the bus did
comes with the command, and the counters rise as ISO 11898-1 has it (presumed, log entry 76); a frame that cannot be carried
is discarded, counted and reported FAILED by the model's choice (log entry 84). -/
def Obligations.CanTransmission : Prop :=
  (∀ (s : State) (n : Fin 16) (e : QEntry) (f : Frame) (m : CanMsg) (ch : Fin 16) (tn : Bool),
    sOwned s.dev n = false → netAwake s.dev n = true → coreUp s.dev 4 = true → (canOf s.dev n).stopping = false →
    frameOf s.dev e.uid = some f → f.body = .can m ch tn →
    (canDoomed s.dev n = none → canHead s.dev n = some e → readGood s.dev f .clean = true →
      ∃ t x, exec (.canTxLoad n .clean) s = .next t ∧
      t.dev = setCan (setEntry s.dev e { e with sending := true }) n
        { canOf s.dev n with loaded := (canOf s.dev n).loaded ++ [x] } ∧ t.mem = s.mem ∧ t.pending = s.pending ∧
      x.uid = e.uid ∧ x.msg = m ∧ x.coll = 0 ∧
      (fld (rd s.dev (canBase n + 0x28)) 26 24 ≤ e.cls → ∃ k, k < 32 ∧ x.slot = some k ∧
        ∀ y ∈ (canOf s.dev n).loaded, y.slot ≠ some k) ∧
      (e.cls < fld (rd s.dev (canBase n + 0x28)) 26 24 → x.slot = none)) ∧
    (∀ cr, canDoomed s.dev n = some e ∨
        (canDoomed s.dev n = none ∧ canHead s.dev n = some e ∧ readGood s.dev f cr = false) →
      ∃ t, exec (.canTxLoad n cr) s = .next t ∧ t.dev.can = s.dev.can ∧
      cnt t.dev (aCanCnt n 5) = cnt s.dev (aCanCnt n 5) + 1 ∧
      ∀ q, q ∈ t.dev.basin.queues ↔ q ∈ s.dev.basin.queues ∧ q ≠ e)) ∧
  (∀ (c : Can) (x : CanLoaded), canOffer c = some x → x ∈ c.loaded ∧ ∀ y ∈ c.loaded, y.slot.isSome →
    arbKey x.msg ≤ arbKey y.msg) ∧
  (∀ (s : State) (n : Fin 16) (x : CanLoaded) (delay sof : Nat), canOnline (canOf s.dev n) = true →
    (canOf s.dev n).onBus = none → (netOf s.dev n).frozen = false → coreUp s.dev 4 = true → kaFirst s.dev n = false →
    canOffer (canOf s.dev n) = some x →
    (∃ t, exec (.canTxAttempt n false delay sof) s = .next t ∧ (canOf t.dev n).onBus = some x.uid ∧
      (canOf t.dev n).sof = sof ∧ (canOf t.dev n).loaded = (canOf s.dev n).loaded ∧ t.dev.basin = s.dev.basin) ∧
    (bit (rd s.dev (canBase n + 0x28)) 31 = false → ∃ t, exec (.canTxAttempt n true delay sof) s = .next t ∧
      (canOf t.dev n).onBus = none ∧ (canOf t.dev n).loaded = (canOf s.dev n).loaded ∧
      cnt t.dev (aCanCnt n 6) = cnt s.dev (aCanCnt n 6) + 1 ∧ t.dev.basin = s.dev.basin)) ∧
  (∀ (s : State) (n : Fin 16) (x : CanLoaded), (canOf s.dev n).onBus = some x.uid →
    (canOf s.dev n).loaded.find? (·.uid == x.uid) = some x → (canOf s.dev n).tec < 256 → coreUp s.dev 4 = true →
    (canOf s.dev n).stopping = false →
    ∃ t, exec (.canTxOk n) s = .next t ∧ (canOf t.dev n).onBus = none ∧
      (canOf t.dev n).loaded = (canOf s.dev n).loaded.filter (·.uid != x.uid) ∧
      cnt t.dev (aCanCnt n 3) = cnt s.dev (aCanCnt n 3) + 1 ∧
      ∀ e, e = ((x.msg.fmt == 2 || x.msg.fmt == 3) && (canOf s.dev n).state == .passive) →
        Out.canFrame n { x.msg with esi := e } ∈ t.dev.out) ∧
  (∀ (s : State) (n : Fin 16) (x : CanLoaded) (ph : Fin 3) (er : ErrDetail), canOnline (canOf s.dev n) = true →
    (netOf s.dev n).frozen = false → coreUp s.dev 4 = true → (canOf s.dev n).onBus = some x.uid →
    (canOf s.dev n).loaded.find? (·.uid == x.uid) = some x →
    (atLeast1 (fld (rd s.dev (canBase n + 0x28)) 19 16) ≤ x.coll + 1 →
      ∃ t, exec (.canBusError n 0 ph true er) s = .next t ∧ (∀ y ∈ (canOf t.dev n).loaded, y.uid ≠ x.uid) ∧
        cnt t.dev (aCanCnt n 8) = cnt s.dev (aCanCnt n 8) + 1 ∧ cnt t.dev (aCanCnt n 7) = cnt s.dev (aCanCnt n 7) + 1 ∧
        rd t.dev (canBase n + 0x40) = at_ x.msg.id.toNat 0 ∧ bit (rd t.dev (canBase n + 8)) 5 = true) ∧
    (x.coll + 1 < atLeast1 (fld (rd s.dev (canBase n + 0x28)) 19 16) → bit (rd s.dev (canBase n + 0x28)) 31 = false →
      x.abort = false → (canOf s.dev n).stopping = false → (canOf s.dev n).tec + 8 + 8 * er.runs.val < 256 → ∃ t, exec (.canBusError n 0 ph true er) s = .next t ∧
        (canOf t.dev n).onBus = none ∧ cnt t.dev (aCanCnt n 7) = cnt s.dev (aCanCnt n 7) ∧
        (canMode (canOf s.dev n) = 0 → (canOf t.dev n).tec = (canOf s.dev n).tec + 8 + 8 * er.runs.val) ∧
        (canOf t.dev n).loaded = (canOf s.dev n).loaded.map fun y =>
          if y.uid = x.uid then { x with coll := x.coll + 1 } else y)) ∧
  (∀ (s : State) (n : Fin 16) (i : Fin 48) (x : CanLoaded), (canOf s.dev n).loaded[i.val]? = some x →
    fld (rd s.dev (canBase n + 0x28)) 15 0 ≠ 0 → (canOf s.dev n).onBus = none → coreUp s.dev 4 = true →
    x.at_ + 1000000 * fld (rd s.dev (canBase n + 0x28)) 15 0 ≤ s.dev.wall →
    ∃ t, exec (.canTxTimeout n i) s = .next t ∧ (∀ y ∈ (canOf t.dev n).loaded, y.uid ≠ x.uid) ∧
      cnt t.dev (aCanCnt n 4) = cnt s.dev (aCanCnt n 4) + 1 ∧ bit (rd t.dev (canBase n + 8)) 4 = true)

/-- R207–R214, Table 7.2: enabling, keep-alives counted or held, local need, the timers, sleep with the error counters
kept, wakes served or latched, and the return of the controller. -/
def Obligations.NetworkSleepAndWake : Prop :=
  (∀ (s : State) (n : Fin 16) (v : Word), RowReady s.dev (netBase n) → bit (netCfg s.dev n) 31 = false → ∃ t, exec (.nwsEnable n v) s = .next t ∧
    bit (netCfg t.dev n) 31 = true ∧ (netOf t.dev n).state = .awake ∧ (netOf t.dev n).confirmed = true) ∧
  (∀ (s : State) (n : Fin 16) (v : Word), RowReady s.dev (netBase n) → bit (netCfg s.dev n) 31 = true → bit v 31 = false →
    ∃ t, exec (.nwsDisable n v) s = .next t ∧ bit (netCfg t.dev n) 31 = false ∧ (netOf t.dev n).state = .awake ∧
      (netOf t.dev n).frozen = (netOf s.dev n).frozen ∧ (netOf t.dev n).waking = false ∧
      heldMap t.dev n = heldMap s.dev n) ∧
  (∀ (s : State) (n : Fin 16) (m : CanMsg) (k : Nat), sOwned s.dev n = false → netRuns s.dev n = true →
    (netOf s.dev n).frozen = false → kaNode s.dev n m = some k →
    ((leNat m.data).testBit k = true → (heldMap s.dev n).testBit k = false → (netOf s.dev n).state ≠ .asleep →
      ∃ t, exec (.keepAliveRx n m) s = .next t ∧ (netOf t.dev n).state = .awake ∧ (netOf t.dev n).confirmed = true ∧
        (netOf t.dev n).until_ = s.dev.wall + 1000000 * tIdle s.dev n ∧ tget 0 (netOf t.dev n).seen k = s.dev.wall) ∧
    ((leNat m.data).testBit k = false ∨ (heldMap s.dev n).testBit k = true →
      exec (.keepAliveRx n m) s = .next s)) ∧
  (∀ (s : State) (n : Fin 16), netRuns s.dev n = true → needHolds s.dev n = true → (netOf s.dev n).state = .awake →
    (canOnline (canOf s.dev n) = true → ∃ t, exec (.keepAliveDue n) s = .next t ∧
      netOf t.dev n = { netOf s.dev n with kaPending := true } ∧ cnt t.dev (aNetCnt n 7) =
        (if (netOf s.dev n).kaPending then cnt s.dev (aNetCnt n 7) + 1 else cnt s.dev (aNetCnt n 7))) ∧
    ((canOf s.dev n).state = .busOff → exec (.keepAliveDue n) s = .next { s with dev := inc s.dev (aNetCnt n 7) })) ∧
  (∀ (s : State) (n : Fin 16), bit (netCfg s.dev n) 31 = true → (canOf s.dev n).state = .config →
    needHolds s.dev n = true → (netOf s.dev n).state = .awake →
    exec (.keepAliveDue n) s = .next { s with dev := inc s.dev (aNetCnt n 7) }) ∧
  (∀ (s : State) (n : Fin 16), netRuns s.dev n = true → needHolds s.dev n = false →
    ((netOf s.dev n).state ≠ .asleep → canOnline (canOf s.dev n) = true → ∃ t, exec (.localNeed n true) s = .next t ∧
      (netOf t.dev n).state = .awake ∧ (netOf t.dev n).kaPending = true ∧ bit (rd t.dev (netBase n + 0x10)) 0 = true) ∧
    ((netOf s.dev n).state = .asleep → (netOf s.dev n).waking = false → (netOf s.dev n).latched = none →
      ∃ t, exec (.localNeed n true) s = .next t ∧ (netOf t.dev n).state = .asleep ∧
        ((netOf s.dev n).switching = true → (netOf t.dev n).latched = some .localNeed) ∧
        ((netOf s.dev n).switching = false → (netOf t.dev n).waking = true))) ∧
  (∀ (s : State) (n : Fin 16), netRuns s.dev n = true → (netOf s.dev n).state = .awake →
    (netOf s.dev n).until_ ≤ s.dev.wall →
    (needHolds s.dev n = false → ∃ t, exec (.idleTimerExpire n) s = .next t ∧ (netOf t.dev n).state = .draining ∧
      (netOf t.dev n).until_ = s.dev.wall + 1000000 * tDrain s.dev n ∧ cnt t.dev (aNetCnt n 3) =
        (if (netOf s.dev n).confirmed then cnt s.dev (aNetCnt n 3) else cnt s.dev (aNetCnt n 3) + 1)) ∧
    (needHolds s.dev n = true → ∃ t, exec (.idleTimerExpire n) s = .next t ∧ (netOf t.dev n).state = .awake ∧
      t.dev.cnts = s.dev.cnts)) ∧
  (∀ (s : State) (n : Fin 16), netRuns s.dev n = true → (netOf s.dev n).state = .draining →
    (netOf s.dev n).until_ ≤ s.dev.wall → (canOf s.dev n).onBus = none →
    (∃ t, exec (.drainTimerExpire n true) s = .next t ∧ (netOf t.dev n).state = .asleep ∧
      (netOf t.dev n).frozen = true ∧ (netOf t.dev n).switching = true ∧ t.dev.can = s.dev.can ∧
      cnt t.dev (aNetCnt n 4) = cnt s.dev (aNetCnt n 4) + 1 ∧ bit (rd t.dev (netBase n + 0x18)) 0 = true) ∧
    exec (.drainTimerExpire n false) s = .next s) ∧
  (∀ (s : State) (n : Fin 16), netRuns s.dev n = true → (netOf s.dev n).state ≠ .asleep → needHolds s.dev n = false →
    fld (rd s.dev (netBase n + 8)) 31 16 ≠ 0 → ∃ t, exec (.tMaxExpire n) s = .next t ∧
      (∀ m, m < 64 → (heldMap t.dev n).testBit m = ((heldMap s.dev n).testBit m ||
        ((seenMap s.dev n).testBit m && m != fld (netCfg s.dev n) 5 0))) ∧
      cnt t.dev (aNetCnt n 5) = cnt s.dev (aNetCnt n 5) + 1 ∧ bit (rd t.dev (netBase n + 0x18)) 1 = true ∧
      t.dev.nws.nets = s.dev.nws.nets) ∧
  (∀ (s : State) (n : Fin 16), (netOf s.dev n).switching = true → ∃ t, exec (.transceiverSleepDone n) s = .next t ∧
    t = { s with dev := { s.dev with nws := t.dev.nws } } ∧ netOf t.dev n = { netOf s.dev n with
      switching := false, latched := none, waking := (netOf s.dev n).latched.isSome || (netOf s.dev n).waking }) ∧
  (∀ (s : State) (n : Fin 16) (m : CanMsg), netRuns s.dev n = true →
    (netOf s.dev n).state = .asleep → (netOf s.dev n).waking = false → (netOf s.dev n).latched = none →
    (bit (rd s.dev (netBase n + 0x38)) 31 = true → wufRate s.dev n = true → wufMatch s.dev n m = true →
      ∃ t, exec (.busWake n .frame m) s = .next t ∧ (netOf t.dev n).causeCode = .wuf ∧
        ((netOf s.dev n).switching = true → (netOf t.dev n).latched = some .wuf) ∧
        ((netOf s.dev n).switching = false → (netOf t.dev n).waking = true)) ∧
    (wufMatch s.dev n m = false ∨ wufRate s.dev n = false → ∃ t, exec (.busWake n .frame m) s = .next t ∧
      (netOf t.dev n).waking = false ∧ (netOf t.dev n).latched = none) ∧
    (bit (rd s.dev (netBase n + 0x38)) 30 = true → ∃ t, exec (.busWake n .wup m) s = .next t ∧
      (netOf t.dev n).causeCode = .wup ∧ ((netOf s.dev n).switching = false → (netOf t.dev n).waking = true)) ∧
    (bit (rd s.dev (netBase n + 0x38)) 30 = false → exec (.busWake n .wup m) s = .next s)) ∧
  (∀ (s : State) (n : Fin 16), (netOf s.dev n).state = .asleep → (netOf s.dev n).frozen = true →
    (netOf s.dev n).waking = true → (netOf s.dev n).switching = false →
    coreUp s.dev 4 = true → ∃ t, exec (.controllerOnline n) s = .next t ∧ (netOf t.dev n).state = .awake ∧
      (netOf t.dev n).frozen = false ∧ (netOf t.dev n).waking = false ∧ (netOf t.dev n).confirmed = false ∧
      (∀ m, (canOf t.dev m).tec = (canOf s.dev m).tec ∨ (canOf s.dev n).state = .offline) ∧
      ((netOf s.dev n).causeCode = .localNeed → cnt t.dev (aNetCnt n 1) = cnt s.dev (aNetCnt n 1) + 1) ∧
      ((netOf s.dev n).causeCode ≠ .localNeed → cnt t.dev (aNetCnt n 0) = cnt s.dev (aNetCnt n 0) + 1)) ∧
  (∀ n : Fin 16, RowClears (.nwsClear n) (netBase n + 0x6C) (fun a => netBase n + 0x80 ≤ a ∧ a < netBase n + 0xD0))

/-- R218–R223, Table 7.5: calls are sent by the caller alone, with the frame of Table 7.5; announced partners become PRESENT
or are assigned a number; LEAVE and missed calls make them LOST; an ASSIGN is repeated, three in all. While the Quaymaster
does not run, the work waits in its queue. R355: what arrives on a channel of World S is not the Quaymaster's. -/
def Obligations.HailDiscovery : Prop :=
  (∀ (s : State) (n : Fin 16), hailCaller s.dev n = true → QmFree s.dev 3 → canSend s.dev n = true →
    (netOf s.dev n).callOpen = false → (netOf s.dev n).callDue = false → (netOf s.dev n).state ≠ .asleep →
    (fld (rd s.dev (netBase n + 0x60)) 31 24 ≠ 0 → ∃ t, exec (.hailPeriodExpire n) s = .next t ∧
      (netOf t.dev n).session = (netOf s.dev n).session + 1 ∧ (netOf t.dev n).callOpen = true ∧
      Out.hail n (hailMsg s.dev n 0 ownUid ((netOf s.dev n).session + 1).toNat (hailWindow s.dev n) 0 1) ∈ t.dev.out) ∧
    (RowReady s.dev (netBase n + 0x64) → resultValid s.dev (netBase n + 0x68) = true →
      (∃ t, exec (.hailCallAll n) s = .next t ∧ resultValid t.dev (netBase n + 0x68) = false ∧
        Out.hail n (hailMsg s.dev n 0 ownUid ((netOf s.dev n).session + 1).toNat (hailWindow s.dev n) 0 1) ∈ t.dev.out) ∧
      ∃ t, exec (.hailCallNew n) s = .next t ∧ resultValid t.dev (netBase n + 0x68) = false ∧
        Out.hail n (hailMsg s.dev n 0 ownUid ((netOf s.dev n).session + 1).toNat (hailWindow s.dev n) 0 0) ∈ t.dev.out)) ∧
  (∀ (s : State) (n : Fin 16) (m : Fin 64) (c : Instr), hailCaller s.dev n = false → QmFree s.dev 3 →
    RowReady s.dev (netBase n + 0x64) → resultValid s.dev (netBase n + 0x68) = true →
    c ∈ [.hailCallAll n, .hailCallNew n, .forget n m] →
    ∃ t, exec c s = .next t ∧
      t = { s with dev := { s.dev with regs := t.dev.regs, qm := t.dev.qm, brg := t.dev.brg } } ∧
      fld (rd t.dev (netBase n + 0x68)) 30 28 = 1 ∧ resultValid t.dev (netBase n + 0x68) = true) ∧
  (∀ (s : State) (n : Fin 16) (uid : BitVec 56), sOwned s.dev n = true →
    exec (.leave n uid) s = .next s ∧ exec (.foreignCall n uid) s = .next s ∧
    ∀ (ss held kind : BitVec 8) (confirm : Bool) (ts : Nat), exec (.announce n uid ss held kind confirm ts) s = .next s) ∧
  (∀ (s : State) (n : Fin 16) (uid : BitVec 56), sOwned s.dev n = false → qmAwake s.dev = false → s.dev.qm.shed = 0 →
    s.dev.qm.queue.length < 1600 → ∃ t, exec (.leave n uid) s = .next t ∧
      t = { s with dev := { s.dev with qm := t.dev.qm } } ∧
      t.dev.qm.queue = s.dev.qm.queue ++ [(3, .hail (.leave n uid.toNat))]) ∧
  (∀ (d : Dev) (n type uid b0 b1 b2 b3 : Nat), type < 4 → (hailMsg d n type uid b0 b1 b2 b3).fmt = 1 ∧
    (hailMsg d n type uid b0 b1 b2 b3).id.toNat =
      fld (rd d (netBase n + 0x60)) 7 5 * 2 ^ 26 + type * 2 ^ 24 + uid % 2 ^ 24 ∧
    (hailMsg d n type uid b0 b1 b2 b3).data.length = 8) ∧
  (∀ (s : State) (n : Fin 16) (m : Fin 64), hailCaller s.dev n = true → QmFree s.dev 3 →
    RowReady s.dev (netBase n + 0x64) → resultValid s.dev (netBase n + 0x68) = true →
    (partView s.dev n m).state = .lost → ∃ t, exec (.forget n m) s = .next t ∧ partOf t.dev n m = {} ∧
      (∀ k, k < 64 → k ≠ m.val → partOf t.dev n k = partOf s.dev n k) ∧ fld (rd t.dev (netBase n + 0x68)) 30 28 = 0) ∧
  (∀ (s : State) (n : Fin 16) (uid : BitVec 56) (ss kind : BitVec 8) (k : Fin 64) (confirm : Bool) (ts : Nat),
    sOwned s.dev n = false → hailCaller s.dev n = true → QmFree s.dev 3 →
    confirm = true ∨ ((netOf s.dev n).callOpen = true ∧ (netOf s.dev n).callDue = false ∧
      ss = (netOf s.dev n).session) →
    (partFind s.dev n uid.toNat (fun st => st == .present || st == .assigning || st == .lost) = some k.val →
      ∃ t, exec (.announce n uid ss (BitVec.ofNat 8 k.val) kind confirm ts) s = .next t ∧
        (partOf t.dev n k).state = .present ∧ (partOf t.dev n k).misses = 0 ∧ (partOf t.dev n k).uid = (partOf s.dev n k).uid ∧
        (partOf t.dev n k).answered = true ∧ ∀ m, m < 64 → m ≠ k.val → partOf t.dev n m = partOf s.dev n m) ∧
    (partFind s.dev n uid.toNat (fun st => st == .present || st == .assigning || st == .lost) = none →
      (partView s.dev n k).state = .free →
      ∃ t, exec (.announce n uid ss (BitVec.ofNat 8 k.val) kind confirm ts) s = .next t ∧
        (partOf t.dev n k).state = .assigning ∧ (partOf t.dev n k).uid = uid.toNat ∧ (partOf t.dev n k).tries = 1 ∧
        (∀ m, m < 64 → m ≠ k.val → partOf t.dev n m = partOf s.dev n m) ∧ bit (rd t.dev (netBase n + 0x18)) 2 = true ∧
        (canSend s.dev n = true →
          Out.hail n (hailMsg s.dev n 2 uid.toNat (netOf s.dev n).session.toNat k 0 0) ∈ t.dev.out))) ∧
  (∀ (s : State) (n : Fin 16) (uid : BitVec 56) (k : Nat), sOwned s.dev n = false → hailCaller s.dev n = true →
    QmFree s.dev 3 →
    partFind s.dev n uid.toNat (fun st => st == .present || st == .assigning) = some k →
    ∃ t, exec (.leave n uid) s = .next t ∧ (partOf t.dev n k).state = .lost ∧ (partOf t.dev n k).uid = uid.toNat ∧
      (∀ m, m < 64 → m ≠ k → partOf t.dev n m = partOf s.dev n m) ∧ bit (rd t.dev (netBase n + 0x18)) 3 = true) ∧
  (∀ (s : State) (n : Fin 16) (uid : BitVec 56), sOwned s.dev n = false → QmFree s.dev 3 → uid.toNat ≠ ownUid →
    uid.toNat ≠ s.dev.pair.bound % 2 ^ 56 →
    ∃ t, exec (.foreignCall n uid) s = .next t ∧ cnt t.dev (aNetCnt n 9) = cnt s.dev (aNetCnt n 9) + 1 ∧
      bit (rd t.dev (netBase n + 0x18)) 6 = true ∧ t.dev.nws.parts = s.dev.nws.parts) ∧
  (∀ (s : State) (n : Fin 16), QmFree s.dev 3 → (netOf s.dev n).callOpen = true → (netOf s.dev n).callDue = false →
    ∃ t, exec (.hailWindowClose n) s = .next t ∧ (netOf t.dev n).callOpen = false ∧
      ∀ m, m < 64 → ((netOf s.dev n).callAll = false ∨ (partView s.dev n m).state ≠ .present ∨
            (partView s.dev n m).answered = true → partOf t.dev n m = partOf s.dev n m) ∧
        ((netOf s.dev n).callAll = true → (partView s.dev n m).state = .present → (partView s.dev n m).answered = false →
          ((partOf s.dev n m).misses + 1 < atLeast1 (fld (rd s.dev (netBase n + 0x60)) 15 12) →
            (partOf t.dev n m).state = .present ∧ (partOf t.dev n m).misses = (partOf s.dev n m).misses + 1) ∧
          (atLeast1 (fld (rd s.dev (netBase n + 0x60)) 15 12) ≤ (partOf s.dev n m).misses + 1 →
            (partOf t.dev n m).state = .lost ∧ (partOf t.dev n m).uid = (partOf s.dev n m).uid))) ∧
  (∀ (s : State) (n : Fin 16) (m : Fin 64), (partView s.dev n m).state = .assigning → QmFree s.dev 3 →
    hailCaller s.dev n = true →
    ((partOf s.dev n m).tries < 3 → canSend s.dev n = true → ∃ t, exec (.hailAssignTimeout n m) s = .next t ∧
      partOf t.dev n m = { partOf s.dev n m with tries := (partOf s.dev n m).tries + 1 } ∧
      Out.hail n (hailMsg s.dev n 2 (partOf s.dev n m).uid (netOf s.dev n).session.toNat m 0 0) ∈ t.dev.out) ∧
    (3 ≤ (partOf s.dev n m).tries → ∃ t, exec (.hailAssignTimeout n m) s = .next t ∧ partOf t.dev n m = {} ∧
      bit (rd t.dev (netBase n + 0x18)) 4 = true))

/-- Port `p` runs LLDP and carries traffic (R49, R224). -/
def LldpLive (d : Dev) (p : Fin 11) : Prop := lldpOn d p = true ∧ wireUp d p = true ∧ portPowered d p = true

/-- R193, R224–R226: an enabled port with link sends its LLDPDU and counts it; a received one is counted, a malformed one
discarded, a new neighbour entered while one of four places is free, and an entry ends with its TTL, not before; a copy that
is asked for waits for the next RX_BUF of its ring and is written into it. The agent is class-3 work of the Quaymaster, which
waits while it does not run (R29); R49: a port without traffic takes and sends nothing. -/
def Obligations.LldpNeighbours : Prop :=
  (∀ (s : State) (p : Fin 11) (b : List Byte) (ts : Nat), lldpOn s.dev p = false ∨ wireUp s.dev p = false →
    exec (.lldpTx p) s = .next s ∧ exec (.lldpRx p b ts) s = .next s) ∧
  (∀ (s : State) (p : Fin 11) (b : List Byte) (ts : Nat), LldpLive s.dev p → qmAwake s.dev = false → s.dev.qm.shed = 0 →
    s.dev.qm.queue.length < 1600 → bit (rd s.dev 0xE00014) 31 = false →
    (∃ t, exec (.lldpTx p) s = .next t ∧ t = { s with dev := { s.dev with qm := t.dev.qm } } ∧
      t.dev.qm.queue = s.dev.qm.queue ++ [(3, .lldpTx p)]) ∧
    ∃ t, exec (.lldpRx p b ts) s = .next t ∧ t = { s with dev := { s.dev with qm := t.dev.qm, cnts := t.dev.cnts } } ∧
      cnt t.dev (aLldp p 1) = cnt s.dev (aLldp p 1) + 1 ∧
      t.dev.qm.queue = s.dev.qm.queue ++ [(3, .lldpRx p (b.drop 14))]) ∧
  (∀ (s : State) (p : Fin 11), LldpLive s.dev p → QmFree s.dev 3 → macsecTx s.dev p = false →
    (∃ t, exec (.lldpTx p) s = .next t ∧ t.dev.qm.queue = s.dev.qm.queue ∧ t =
      { s with dev := (emit (inc { s.dev with qm := t.dev.qm } (aLldp p 0)) (.lldp p (lldpFrame s.dev p) false)) }) ∧
    (lldpFrame s.dev p).take 6 = [0x01, 0x80, 0xC2, 0x00, 0x00, 0x0E] ∧ ((lldpFrame s.dev p).drop 12).take 2 = [0x88, 0xCC]) ∧
  (∀ (s : State) (p : Fin 11) (b : List Byte) (ts : Nat), LldpLive s.dev p → QmFree s.dev 3 →
    bit (rd s.dev 0xE00014) 31 = false →
    (lldpParse (b.drop 14) = none → ∃ t, exec (.lldpRx p b ts) s = .next t ∧
      cnt t.dev (aLldp p 1) = cnt s.dev (aLldp p 1) + 1 ∧ cnt t.dev (aLldp p 2) = cnt s.dev (aLldp p 2) + 1 ∧
      t.dev.nws = s.dev.nws) ∧
    (∀ m, lldpParse (b.drop 14) = some m → m.ttl ≠ 0 → (∀ k < 4, (nbrOf s.dev p k).any (sameNbr m) = false) →
      (∀ k < 4, nbrOf s.dev p k = none → (∀ j < k, nbrOf s.dev p j ≠ none) → ∃ t, exec (.lldpRx p b ts) s = .next t ∧
        nbrOf t.dev p k = some { m with expires := s.dev.wall + 1000000000 * m.ttl } ∧
        (∀ j, j < 4 → j ≠ k → nbrOf t.dev p j = nbrOf s.dev p j) ∧ bit (rd t.dev 0xE00018) 0 = true ∧
        cnt t.dev (aLldp p 1) = cnt s.dev (aLldp p 1) + 1) ∧
      ((∀ k < 4, nbrOf s.dev p k ≠ none) → ∃ t, exec (.lldpRx p b ts) s = .next t ∧ t.dev.nws = s.dev.nws ∧
        bit (rd t.dev 0xE00018) 2 = true))) ∧
  (∀ (s : State) (p : Fin 11) (b : List Byte) (ts : Nat), LldpLive s.dev p → bit (rd s.dev 0xE00014) 31 = true →
    hpTakes s.dev (rd s.dev 0xE00014) = true → s.dev.nws.copies.length < 32 → ∃ t c, exec (.lldpRx p b ts) s = .next t ∧
      t.dev.nws.copies = s.dev.nws.copies ++ [c] ∧ c.port = p.val ∧ c.bytes = b ∧ c.ts = ts) ∧
  (∀ (s : State) (c : LldpCopy) (l : List LldpCopy) (sl r : Nat) (x : Desc) (rest : List Desc),
    s.dev.nws.copies = c :: l → sl = fld (rd s.dev 0xE00014) 11 0 → r = fld (rd s.dev 0xE00014) 18 16 →
    ReadyAtFront s sl r x rest → opOf x = 0x01 →
    ∃ t, exec (.hpDeliver 16) s = .next t ∧ t.dev.nws.copies = l ∧
      Completed s t sl r x rest (Out.dma sl (bufAddr x) (c.bytes.take (fld (dw x 4) 15 0)) :: s.dev.out)
        { status := if fld (dw x 4) 15 0 < c.bytes.length then 0x0A else 0, ts := c.ts,
          c4 := at_ c.bytes.length 16 ||| at_ c.port 8 ||| at_ c.cls 5, c5 := 0x00010000,
          c6 := at_ 0x88CC 16 ||| at_ c.pcp 12 ||| at_ c.vid 0 }) ∧
  (∀ (s : State) (p : Fin 11) (k : Fin 4) (m : Neighbour), nbrOf s.dev p k = some m →
    (m.expires ≤ s.dev.wall → ∃ t, exec (.lldpTtlExpire p k) s = .next t ∧
      nbrOf t.dev p k = none ∧ (∀ j, j < 4 → j ≠ k.val → nbrOf t.dev p j = nbrOf s.dev p j) ∧
      bit (rd t.dev 0xE00018) 1 = true) ∧
    (s.dev.wall < m.expires → exec (.lldpTtlExpire p k) s = .next s))

/-- The channel's event bit `b` is set (Table 8.20). -/
def chEvent (d : Dev) (n b : Nat) : Bool := bit (rd d (ldcBase n + 0x28)) b

/-- The trip code after a trip of code `c`: code 5 stays (R234). -/
def tripAfter (x : Load) (c : Nat) : Nat := if x.trip = 5 then 5 else c

/-- R242–R245, R249, R273, R277: a current certainly over the class's threshold clamps and latches code 1 at once, ramps too;
a shaped turn-on holds the current at its ceiling, compares what is held the same way and keeps whether the current it held
down was over the threshold; a hot junction turns the channel off and restarts or latches code 2; reverse current is counted
and trips only when enabled; a twin feed blocks and conducts again; a clamp or ramp ends and is counted. Which trip code
overwrites which is the model's choice (log entry 42). -/
def Obligations.LoadTripsAndRestarts : Prop :=
  (∀ (s : State) (n : Fin 40) (ma : Int),
    ((loadOf s.dev n).gate = true ∨ (loadOf s.dev n).ramping = true → (loadOf s.dev n).shaped = false →
      11 * (loadClass n).short ≤ 10 * ma.natAbs → ∃ t, exec (.shortCircuitTrip n ma) s = .next t ∧
      (loadOf t.dev n).gate = false ∧ (loadOf t.dev n).ramping = false ∧ (loadOf t.dev n).clamping = true ∧
      (loadOf t.dev n).trip = tripAfter (loadOf s.dev n) 1 ∧ (loadOf t.dev n).recorded = false ∧
      (loadOf t.dev n).slState = .off ∧
      (loadOf t.dev n).theta = (loadOf s.dev n).theta ∧ chEvent t.dev n 1 = true ∧
      cnt t.dev (aLdcCnt n 0) = cnt s.dev (aLdcCnt n 0) + 1 ∧ ∀ m, m ≠ n.val → loadOf t.dev m = loadOf s.dev m) ∧
    ((loadOf s.dev n).gate = true ∨ (loadOf s.dev n).ramping = true → (loadOf s.dev n).shaped = false →
      10 * ma.natAbs < 9 * (loadClass n).short →
      exec (.shortCircuitTrip n ma) s = .next { s with dev := { s.dev with free := s.dev.free + 1 } }) ∧
    (∀ held : Int, held = min ma (ceiling s.dev n) → (loadOf s.dev n).gate = true ∨ (loadOf s.dev n).ramping = true →
      (loadOf s.dev n).shaped = true →
      (11 * (loadClass n).short ≤ 10 * held.natAbs → ∃ t, exec (.shortCircuitTrip n ma) s = .next t ∧
        (loadOf t.dev n).gate = false ∧ (loadOf t.dev n).clamping = true ∧
        (loadOf t.dev n).trip = tripAfter (loadOf s.dev n) 1 ∧ chEvent t.dev n 1 = true ∧
        cnt t.dev (aLdcCnt n 0) = cnt s.dev (aLdcCnt n 0) + 1) ∧
      (10 * held.natAbs < 9 * (loadClass n).short → ∃ b, exec (.shortCircuitTrip n ma) s =
          .next { s with dev := (setLoad { s.dev with free := s.dev.free + 1 } n
            { loadOf s.dev n with shortHeld := b, nowMa := held }) } ∧
        (11 * (loadClass n).short ≤ 10 * ma.natAbs → b = true) ∧
        (10 * ma.natAbs < 9 * (loadClass n).short → b = false))) ∧
    ((loadOf s.dev n).gate = false → (loadOf s.dev n).ramping = false →
      exec (.shortCircuitTrip n ma) s = .next s)) ∧
  (∀ (s : State) (n : Fin 40) (tj : Int), (loadOf s.dev n).gate = true → 175 ≤ tj →
    ∃ t, exec (.thermalTrip n tj) s = .next t ∧ (loadOf t.dev n).gate = false ∧
      cnt t.dev (aLdcCnt n 1) = cnt s.dev (aLdcCnt n 1) + 1 ∧ (∀ m, m ≠ n.val → loadOf t.dev m = loadOf s.dev m) ∧
      (fld (actLoad s.dev n) 23 0 ≠ 0 → 0 < (loadOf s.dev n).nowMa → (loadOf t.dev n).ramping = true ∧
        (loadOf t.dev n).rampI0 = (loadOf s.dev n).nowMa.toNat ∧ (loadOf t.dev n).slState = .ramping) ∧
      (fld (actLoad s.dev n) 23 0 = 0 ∨ (loadOf s.dev n).nowMa ≤ 0 → (loadOf t.dev n).clamping = true) ∧
      (bit (actCfg s.dev n) 30 = false → (loadOf s.dev n).restarts < fld (actCfg s.dev n) 29 26 →
        (loadOf t.dev n).restartWait = true ∧ (loadOf t.dev n).trip = (loadOf s.dev n).trip ∧
        (loadOf t.dev n).recorded = (loadOf s.dev n).recorded) ∧
      (bit (actCfg s.dev n) 30 = true ∨ fld (actCfg s.dev n) 29 26 ≤ (loadOf s.dev n).restarts →
        (loadOf t.dev n).trip = tripAfter (loadOf s.dev n) 2 ∧ (loadOf t.dev n).recorded = false ∧
        chEvent t.dev n 1 = true)) ∧
  (∀ (s : State) (n : Fin 40) (tj : Int), (loadOf s.dev n).restartWait = true →
    (tj < 150 → ∃ t, exec (.thermalRestart n tj) s = .next t ∧ (loadOf t.dev n).restartWait = false ∧
      (loadOf t.dev n).restarts = (loadOf s.dev n).restarts + 1 ∧ chEvent t.dev n 2 = true ∧
      cnt t.dev (aLdcCnt n 2) = cnt s.dev (aLdcCnt n 2) + 1) ∧
    (150 ≤ tj → exec (.thermalRestart n tj) s = .next s)) ∧
  (∀ (s : State) (n : Fin 40), (loadOf s.dev n).gate = true →
    exec (.restartCountReset n) s =
      .next { s with dev := setLoad s.dev n { loadOf s.dev n with restarts := 0 } }) ∧
  (∀ (s : State) (n : Fin 40) (cur : Int), (loadOf s.dev n).gate = true → bit (actCfg s.dev n) 31 = false →
    (cur < -128 * (atLeast1 (fld (actCfg s.dev n) 23 16) : Int) →
      (bit (actCfg s.dev n) 25 = false → ∃ t, exec (.reverseCurrent n cur) s = .next t ∧
        loadOf t.dev n = { loadOf s.dev n with reverse := true } ∧ chEvent t.dev n 3 = true ∧
        cnt t.dev (aLdcCnt n 3) = cnt s.dev (aLdcCnt n 3) + 2 ^ 32) ∧
      (bit (actCfg s.dev n) 25 = true → ∃ t, exec (.reverseCurrent n cur) s = .next t ∧
        (loadOf t.dev n).trip = tripAfter (loadOf s.dev n) 3 ∧
        (loadOf t.dev n).gate = false ∧ (loadOf t.dev n).clamping = true ∧ chEvent t.dev n 3 = true ∧
        cnt t.dev (aLdcCnt n 3) = cnt s.dev (aLdcCnt n 3) + 2 ^ 32 + 1)) ∧
    (-128 * (atLeast1 (fld (actCfg s.dev n) 23 16) : Int) ≤ cur → exec (.reverseCurrent n cur) s = .next s)) ∧
  (∀ (s : State) (n : Fin 40) (v : Int), bit (actCfg s.dev n) 31 = true → (loadOf s.dev n).gate = true →
    (100 * v < -32768 → exec (.twinReverseBlock n v) s =
      .next { s with dev := setLoad s.dev n { loadOf s.dev n with reverse := true } }) ∧
    (-32768 ≤ 100 * v → exec (.twinReverseBlock n v) s = .next s) ∧
    ((loadOf s.dev n).reverse = true → 20 < v → exec (.twinForward n v) s =
      .next { s with dev := setLoad s.dev n { loadOf s.dev n with reverse := false } }) ∧
    (v ≤ 20 → exec (.twinForward n v) s = .next s)) ∧
  (∀ (s : State) (n : Fin 40), domUp s.dev 1 = true → s.dev.ldc.resetDue = false → (loadOf s.dev n).gate = false →
    ((loadOf s.dev n).ramping = true → ∃ t, exec (.turnOffEnd n) s = .next t ∧ (loadOf t.dev n).ramping = false ∧
      (loadOf t.dev n).clamping = false ∧ cnt t.dev (aLdcCnt n 5) = cnt s.dev (aLdcCnt n 5) + 1) ∧
    ((loadOf s.dev n).ramping = false → (loadOf s.dev n).clamping = true → ∃ t, exec (.turnOffEnd n) s = .next t ∧
      (loadOf t.dev n).clamping = false ∧ cnt t.dev (aLdcCnt n 4) = cnt s.dev (aLdcCnt n 4) + 1))

/-- R247, R248, R250 in exact rational arithmetic: the clamp is chosen exactly when no inductance is declared, no forward
current flows or the stored energy is within E_allowed; otherwise the ramp is the longest of the three terms, rounded down to
1 ns, and capped at 50 ms. A bank at exactly 70 V, where R248 divides by zero, is capped: log entry 60, the model's choice. -/
def Obligations.ClampOrRampChoice : Prop :=
  ∀ (n ind : Nat) (i0 v tj : Int) (eL pRamp eAllowed iA vV l : ℚ),
    eL = (loadClass n).e85 / 1000 → pRamp = (loadClass n).pRamp → iA = i0 / 1000 → vV = v / 100 → l = ind / 1000000 →
    eAllowed = (if tj ≤ 85 then eL else if tj < 175 then eL * (175 - tj) / 90 else 0) →
    (rampChoice n ind i0 v tj = none ↔ ind = 0 ∨ i0 ≤ 0 ∨ l * iA * iA / 2 ≤ eAllowed) ∧
    (∀ (t : Nat) (capped : Bool), rampChoice n ind i0 v tj = some (t, capped) → 20000 ≤ t ∧ t ≤ 50000000 ∧
      (capped = true → t = 50000000) ∧
      (capped = false → 0 < pRamp - vV * iA / 4 ∧ vV ≠ 70 ∧
        (t : ℚ) / 1000000000 ≤ max (max (l * iA * iA / (pRamp - vV * iA / 4)) (l * iA / (70 - vV))) (1 / 50000) ∧
        max (max (l * iA * iA / (pRamp - vV * iA / 4)) (l * iA / (70 - vV))) (1 / 50000) <
          ((t : ℚ) + 1) / 1000000000) ∧
      (capped = true → pRamp - vV * iA / 4 ≤ 0 ∨ vV = 70 ∨ 1 / 20 <
        max (max (l * iA * iA / (pRamp - vV * iA / 4)) (l * iA / (70 - vV))) (1 / 50000)))

/-- R231–R235, R251–R256, Tables 8.3 and 8.6: retirements with and without a spare, measurements, the copies in flash, the
diagnostics and the off-state test, samples and their blocks. The model's choices: a segment out of service for want of a
spare counts as a retirement (log entry 43); the flags of a block without samples, and the swap decided before a turn-off
(log entry 94). -/
def Obligations.SegmentsDiagnosticsAndSamples : Prop :=
  (∀ (s : State) (n : Fin 40) (w : SegSwap) (spare mean : Nat), (loadOf s.dev n).swap = some w → w.seg < 7 →
    ∃ t, exec (.spareCheck n spare mean) s = .next t ∧ (loadOf t.dev n).swap = none ∧
      (loadOf t.dev n).retiredSegs.getLsbD w.seg = true ∧ (loadOf t.dev n).lastCause = w.cause ∧
      chEvent t.dev n 9 = true ∧ bit (rd t.dev 0xF00000) 0 = true ∧ bit (rd t.dev 0x1C) 3 = true ∧
      (4 * spare < mean → chEvent t.dev n 8 = true) ∧
      (mean ≤ 4 * spare → (loadOf t.dev n).spareIn = true ∧
        cnt t.dev (aLdcCnt n 12) = cnt s.dev (aLdcCnt n 12) + 1) ∧
      (4 * spare < mean → (loadOf t.dev n).retiredSegs.getLsbD (loadClass n).segs = true ∧
        cnt t.dev (aLdcCnt n 12) = cnt s.dev (aLdcCnt n 12) + 2)) ∧
  (∀ (s : State) (n : Fin 40) (g : Fin 7), (loadOf s.dev n).gate = false → (loadOf s.dev n).ramping = false →
    (loadOf s.dev n).clamping = false → exec (.segmentTest n none) s = .next s ∧
    ((g.val ≤ (loadClass n).segs) → (loadOf s.dev n).retiredSegs.getLsbD g = false →
      ∃ t, exec (.segmentTest n (some g)) s = .next t ∧ (loadOf t.dev n).retiredSegs.getLsbD g = true ∧
        (loadOf t.dev n).lastCause = 3 ∧ cnt t.dev (aLdcCnt n 12) = cnt s.dev (aLdcCnt n 12) + 1 ∧
        (g.val < (loadClass n).segs → spareLeft n (loadOf s.dev n) = true → (loadOf t.dev n).spareIn = true) ∧
        (g.val < (loadClass n).segs → spareLeft n (loadOf s.dev n) = false → chEvent t.dev n 8 = true))) ∧
  (∀ (s : State) (n : Fin 40) (ms : List SegMeas), (loadOf s.dev n).gate = true →
    ((loadClass n).rated : Int) ≤ 5 * (loadOf s.dev n).nowMa → (loadOf s.dev n).swap = none →
    (∃ t, exec (.segmentMeasure n ms) s = .next t ∧ ∀ (i : Nat) (m : SegMeas), ms[i]? = some m →
      (inService n (loadOf s.dev n)).getLsbD i = true → tget 0 (loadOf t.dev n).segLast i = normR m.res m.tj) ∧
    ((∀ (i : Nat) (m : SegMeas), ms[i]? = some m → 100 * normR m.res m.tj < 140 * (Config.segBase n i).toNat ∧
        ms.foldl (fun a m => a + m.ma) 0 ≤ 2 * m.ma * activeSegs n (loadOf s.dev n)) →
      ∃ t, exec (.segmentMeasure n ms) s = .next t ∧ t = { s with dev := { s.dev with ldc := t.dev.ldc } } ∧
        loadOf t.dev n = { loadOf s.dev n with
          segLast := (loadOf t.dev n).segLast, drift := (loadOf t.dev n).drift, openCnt := (loadOf t.dev n).openCnt })) ∧
  (∀ s : State, flashWorn s.dev = false → ∃ t, exec .segmentMapSave s = .next t ∧
    t = { s with dev := { s.dev with ldc := t.dev.ldc, out := .flash 1 0 :: s.dev.out } } ∧
    t.dev.ldc = { s.dev.ldc with maps := t.dev.ldc.maps } ∧ ∀ n < 40, t.dev.ldc.maps[n]? = some (n,
      (loadOf s.dev n).retiredSegs.toNat, (loadOf s.dev n).spareIn, (loadOf s.dev n).lastCause)) ∧
  (∀ s : State, flashWorn s.dev = false → ∃ t, exec .wearRecordSave s = .next t ∧
    t = { s with dev := { s.dev with ldc := t.dev.ldc, cnts := t.dev.cnts, out := .flash 2 0 :: s.dev.out } } ∧
    ∀ n < 40, t.dev.ldc.wear[n]? = some (n,
        cnt t.dev (aLdcCnt n 10), cnt t.dev (aLdcCnt n 11), cnt t.dev (aLdcCnt n 12)) ∧
      cnt t.dev (aLdcCnt n 10) = cnt s.dev (aLdcCnt n 10) + BitVec.ofNat 64 (onTimeDue s.dev n) ∧
      cnt t.dev (aLdcCnt n 11) = cnt s.dev (aLdcCnt n 11) ∧ cnt t.dev (aLdcCnt n 12) = cnt s.dev (aLdcCnt n 12)) ∧
  (∀ (s : State) (n : Fin 40) (cur : Int),
    ((loadOf s.dev n).gate = true → (loadOf s.dev n).slState = .on → (bankOf s.dev (bankIdx n)).held = false →
      (bit (actDiag s.dev n) 7 = true → (loadOf s.dev n).openLoad = false → cur < 128 →
        ∃ t, exec (.openLoad n cur) s = .next t ∧
        loadOf t.dev n = { loadOf s.dev n with openLoad := true } ∧ chEvent t.dev n 4 = true ∧
        cnt t.dev (aLdcCnt n 7) = cnt s.dev (aLdcCnt n 7) + 1) ∧
      ((loadOf s.dev n).underCur = false → cur < 32 * (fld (actDiag s.dev n) 31 24 : Int) →
        fld (actDiag s.dev n) 31 24 ≠ 0 →
        ∃ t, exec (.underCurrent n cur) s = .next t ∧ loadOf t.dev n = { loadOf s.dev n with underCur := true } ∧
        chEvent t.dev n 5 = true ∧ cnt t.dev (aLdcCnt n 8) = cnt s.dev (aLdcCnt n 8) + 1)) ∧
    ((loadOf s.dev n).gate = false ∨ (loadOf s.dev n).slState = .window ∨ (bankOf s.dev (bankIdx n)).held = true →
      exec (.openLoad n cur) s = .next s ∧ exec (.underCurrent n cur) s = .next s) ∧
    (128 ≤ cur → exec (.openLoad n cur) s = .next s) ∧
    (32 * (fld (actDiag s.dev n) 31 24 : Int) ≤ cur → exec (.underCurrent n cur) s = .next s) ∧
    ((loadOf s.dev n).openLoad = true → 128 < cur → exec (.openLoadClear n cur) s =
      .next { s with dev := setLoad s.dev n { loadOf s.dev n with openLoad := false } }) ∧
    ((loadOf s.dev n).underCur = true → 32 * (fld (actDiag s.dev n) 31 24 : Int) < cur →
      exec (.underCurrentClear n cur) s =
        .next { s with dev := setLoad s.dev n { loadOf s.dev n with underCur := false } })) ∧
  (∀ (s : State) (n : Fin 40) (mv : Int), bit (actCfg s.dev n) 24 = true → (loadOf s.dev n).gate = false →
    (loadOf s.dev n).ramping = false → (loadOf s.dev n).clamping = false →
    ∃ t o, exec (.offStateTest n mv) s = .next t ∧ loadOf t.dev n = { loadOf s.dev n with offTest := o } ∧
      (mv < 1500 → o = 1) ∧ (1500 ≤ mv → mv < 3500 → o = 1 ∨ o = 2) ∧ (3500 ≤ mv → mv ≤ 5500 → o = 2) ∧
      (5500 < mv → mv ≤ 6000 → o = 2 ∨ o = 3) ∧ (6000 < mv → o = 3) ∧
      (o ≠ (loadOf s.dev n).offTest → chEvent t.dev n 6 = true)) ∧
  (∀ (s : State) (n : Fin 40) (mean lo hi tj : Int), ∃ t, exec (.sampleIntervalEnd n mean lo hi tj) s = .next t ∧
    (loadOf t.dev n).cur = max (-32767) (min 32767 mean) ∧ (loadOf t.dev n).tj = tj ∧
    (loadOf t.dev n).sampleTs = devTime s.dev ∧
    (bit (actSample s.dev n) 31 = true →
      ((loadOf s.dev n).block.samples.length + 1 < fld (actSample s.dev n) 27 21 →
        (loadOf t.dev n).block.samples = (loadOf s.dev n).block.samples ++ [max (-32767) (min 32767 mean)] ∧
        t.dev.basin = s.dev.basin) ∧
      (fld (actSample s.dev n) 27 21 ≤ (loadOf s.dev n).block.samples.length + 1 →
        (loadOf t.dev n).block = { ramp := (loadOf s.dev n).ramping } ∧ (loadOf t.dev n).blockSeq = (loadOf s.dev n).blockSeq + 1 ∧
        (fabricUp s.dev = false → (loadOf t.dev n).gap = true ∧ chEvent t.dev n 0 = true ∧
          cnt t.dev (aLdcCnt n 9) = cnt s.dev (aLdcCnt n 9) + 1))))

/-- R246, R270–R273, R275, R276, R278, R279: supplies out of their ranges gate their channels; a request is admitted within
the budget and its window begins; dips hold and extend windows; shedding turns channels off without a trip and they come
back. -/
def Obligations.SlalomAndSupplies : Prop :=
  (∀ v : Int, (supplyOut 0 v = decide (v < 1800)) ∧ (supplyOut 1 v = decide (v < 1600 ∨ 6300 < v)) ∧
    (supplyOut 2 v = decide (v < -100)) ∧ (supplyIn 0 v = decide (2100 ≤ v)) ∧
    (supplyIn 1 v = decide (1700 ≤ v ∧ v ≤ 6100)) ∧ (supplyIn 2 v = decide (0 ≤ v))) ∧
  (∀ (s : State) (k : Fin 4) (v : Int), (supplyOut k v = false → exec (.supplyFault k v) s = .next s) ∧
    (supplyOut k v = true → ∃ t, exec (.supplyFault k v) s = .next t ∧ bit (rd t.dev 0xF00000) (k.val + 1) = true ∧
      ∀ n < 40, k = 3 ∨ (n < 24 ↔ k = 0) → supplyOff t.dev n = true ∧ (loadOf t.dev n).gate = false ∧
        (loadOf t.dev n).trip = (loadOf s.dev n).trip ∧ (loadOf t.dev n).recorded = (loadOf s.dev n).recorded)) ∧
  (∀ (s : State) (k : Fin 4) (v : Int), (supplyIn k v = false → exec (.supplyRestored k v) s = .next s) ∧
    (supplyIn k v = true → ∃ t, exec (.supplyRestored k v) s = .next t ∧ ∀ n < 40, wantOn t.dev n = true →
      (loadOf s.dev n).gate = false → (loadOf s.dev n).ramping = false → (loadOf s.dev n).shed = false →
      (loadOf s.dev n).slState = .off → n ∉ (bankOf s.dev (bankIdx n)).queue →
      (loadOf t.dev n).slState = .waiting ∧ n ∈ (bankOf t.dev (bankIdx n)).queue)) ∧
  (∀ (s : State) (b : Fin 2),
    (∀ n : Fin 40, domUp s.dev 1 = true → s.dev.ldc.resetDue = false → (bankOf s.dev b).held = false → gapOk s.dev b = true → firstFit s.dev b = some n.val → bankIdx n = b →
      reserved s.dev b + inrushRes s.dev n ≤ budget s.dev b → ∃ t, exec (.slalomAdmit b) s = .next t ∧
      (loadOf t.dev n).gate = true ∧ (loadOf t.dev n).slState = .window ∧
      (loadOf t.dev n).windowRes = inrushRes s.dev n ∧ (loadOf t.dev n).windowEnd = s.dev.wall + inrushLen s.dev n ∧
      n.val ∉ (bankOf t.dev b).queue ∧ (bankOf t.dev b).lastAdmit = some s.dev.wall ∧
      cnt t.dev (aBcnt b 0) = cnt s.dev (aBcnt b 0) + 1 ∧ reserved t.dev b ≤ budget t.dev b) ∧
    (s.dev.ldc.resetDue = false → (bankOf s.dev b).held = true ∨ gapOk s.dev b = false ∨ domUp s.dev 1 = false ∨
      firstFit s.dev b = none ∨ (∃ n, firstFit s.dev b = some n ∧ budget s.dev b < reserved s.dev b + inrushRes s.dev n) →
      ∃ t, exec (.slalomAdmit b) s = .next t ∧ t.dev.ldc = s.dev.ldc)) ∧
  (∀ (s : State) (n : Fin 40), (loadOf s.dev n).slState = .window → (loadOf s.dev n).windowEnd ≤ s.dev.wall →
    ((loadOf s.dev n).shortHeld = false → exec (.inrushWindowEnd n) s =
      .next { s with dev := setLoad s.dev n { loadOf s.dev n with shaped := false, slState :=
        if (bankOf s.dev (bankIdx n)).inDip = true then .window else .on } }) ∧
    ((loadOf s.dev n).shortHeld = true → ∃ t, exec (.inrushWindowEnd n) s = .next t ∧ (loadOf t.dev n).gate = false ∧
      (loadOf t.dev n).trip = tripAfter (loadOf s.dev n) 1 ∧ (loadOf t.dev n).clamping = true)) ∧
  (∀ (s : State) (n : Fin 40), s.dev.wall < (loadOf s.dev n).windowEnd → exec (.inrushWindowEnd n) s = .next s) ∧
  (∀ (s : State) (b : Fin 2) (v : Int), ((bankOf s.dev b).inDip = false →
      (dipThr s.dev b < bankMean s.dev b - v → exec (.dipBegin b v) s =
        .next { s with dev := setBank s.dev b { bankOf s.dev b with
          inDip := true, held := true, frozen := bankMean s.dev b, dipAt := s.dev.wall } }) ∧
      (bankMean s.dev b - v ≤ dipThr s.dev b → exec (.dipBegin b v) s = .next s)) ∧
    ((bankOf s.dev b).inDip = true → ∀ us, us = (s.dev.wall - (bankOf s.dev b).dipAt) / 1000 →
      2 * ((bankOf s.dev b).frozen - v) ≤ dipThr s.dev b → 2 * (v - (bankOf s.dev b).frozen) ≤ dipThr s.dev b →
      ∃ t, exec (.dipEnd b v) s = .next t ∧
      bankOf t.dev b = { bankOf s.dev b with inDip := false, lastDur := min 65535 us } ∧
      cnt t.dev (aBcnt b 2) = cnt s.dev (aBcnt b 2) + 1 ∧ bit (rd t.dev 0x1000008) (2 + b.val) = true ∧
      ∀ n < 40, bankIdx n = b → loadOf t.dev n =
        if (loadOf s.dev n).slState = .window ∧ (loadOf s.dev n).extended = false then { loadOf s.dev n with
          extended := true, windowEnd := (loadOf s.dev n).windowEnd + min (1000 * us) (loadOf s.dev n).windowLen }
        else loadOf s.dev n) ∧
    ((bankOf s.dev b).inDip = false → exec (.dipBlankingEnd b) s =
      .next { s with dev := setBank s.dev b { bankOf s.dev b with held := false } })) ∧
  (∀ (s : State) (volts : Nat), s.dev.ldc.mainsLow = false → volts < 180 → ∃ t, exec (.mainsLow volts) s = .next t ∧
    t.dev.ldc.mainsLow = true ∧ bit (rd t.dev 0x1000008) 6 = true ∧
    (reserved t.dev 0 ≤ budget t.dev 0 ∨ ∀ n < 24, sheddable t.dev n = false) ∧
    ∀ n < 40, (loadOf t.dev n).trip = (loadOf s.dev n).trip ∧
      (loadOf t.dev n).recorded = (loadOf s.dev n).recorded) ∧
  (∀ (s : State) (volts : Nat), s.dev.ldc.mainsLow = true → 180 ≤ volts → ∃ t, exec (.mainsLowClear volts) s = .next t ∧
    t.dev.ldc.mainsLow = false ∧ bit (rd t.dev 0x1000008) 6 = true ∧ ∀ n < 40, (loadOf t.dev n).shed = false) ∧
  (∀ (d : Dev) (b : Nat), (bankOf d b).currs ≠ [] →
    bankMeanMa d b = (bankOf d b).currs.sum / ((bankOf d b).currs.length : Int)) ∧
  (∀ (s : State) (b : Fin 2), (budget s.dev b < bankMeanMa s.dev b →
      ∀ n : Nat, shedNext s.dev b = some n → ∃ t, exec (.bankOvercurrent b) s = .next t ∧
      (loadOf t.dev n).gate = false ∧ (loadOf t.dev n).shed = true ∧ (loadOf t.dev n).trip = (loadOf s.dev n).trip ∧
      (loadOf t.dev n).recorded = (loadOf s.dev n).recorded ∧ bit (rd t.dev 0x1000008) 5 = true ∧
      cnt t.dev (aBcnt b 4) = cnt s.dev (aBcnt b 4) + 1 ∧ ∀ m, m ≠ n → loadOf t.dev m = loadOf s.dev m) ∧
    (bankMeanMa s.dev b ≤ budget s.dev b ∨ shedNext s.dev b = none → exec (.bankOvercurrent b) s = .next s)) ∧
  (∀ (s : State) (n : Fin 40), (loadOf s.dev n).shed = true → ∃ t, exec (.shedHoldExpire n) s = .next t ∧
    (loadOf t.dev n).shed = false ∧ (wantOn s.dev n = true → (loadOf s.dev n).gate = false →
      (loadOf s.dev n).ramping = false → (loadOf s.dev n).slState = .off →
      n.val ∉ (bankOf s.dev (bankIdx n)).queue →
      (loadOf t.dev n).slState = .waiting ∧ n.val ∈ (bankOf t.dev (bankIdx n)).queue))

/-- R243, R250, R260, R267, R274, R281, Tables 8.4, 8.16, 8.17, 9.14: the commands of both blocks are ignored while another
runs, refused by the first check that fails, and apply all four staged registers or none; the clears. -/
def Obligations.LoadAndGuardCommands : Prop :=
  (∀ (s : State) (n : Fin 64) (bad : Option (Fin 7)) (g : Fin 8) (c : Instr), RowReady s.dev 0xF00010 →
    resultValid s.dev 0xF00014 = false →
    c ∈ [.ldcApply n, .clearTrip n, .segTest n bad, .retire n g] → ∃ t, exec c s = .next t ∧
    t.dev.ldc = s.dev.ldc ∧ rd t.dev 0xF00014 = rd s.dev 0xF00014 ∧ bit (rd t.dev 0xF00000) 5 = true) ∧
  (∀ (s : State) (n : Fin 64) (bad : Option (Fin 7)) (g : Fin 8) (c : Instr), RowReady s.dev 0xF00010 →
    resultValid s.dev 0xF00014 = true →
    40 ≤ n.val → c ∈ [.ldcApply n, .clearTrip n, .segTest n bad, .retire n g] → ∃ t, exec c s = .next t ∧
    t = { s with dev := { s.dev with regs := t.dev.regs, brg := t.dev.brg } } ∧ fld (rd t.dev 0xF00014) 30 28 = 1 ∧
    resultValid t.dev 0xF00014 = true ∧ fld (rd t.dev 0xF00014) 15 0 = (fld (rd s.dev 0xF00014) 15 0 + 1) % 65536 ∧
    ∀ a, a ≠ 0xF00014 → rd t.dev a = rd s.dev a) ∧
  (∀ (s : State) (n : Fin 64) (count intv : Nat), RowReady s.dev 0xF00010 → resultValid s.dev 0xF00014 = true → n.val < 40 →
    count = fld (rd s.dev (ldcBase n + 0xC)) 27 21 → intv = fld (rd s.dev (ldcBase n + 0xC)) 13 0 →
    (count < 1 ∨ 96 < count ∨ intv < 10 ∨ 10000 < intv ∨ count * intv < 100 → ∃ t, exec (.ldcApply n) s = .next t ∧
      t.dev.ldc = s.dev.ldc ∧ fld (rd t.dev 0xF00014) 30 28 = 2 ∧ ∀ a, a ≠ 0xF00014 → rd t.dev a = rd s.dev a) ∧
    (1 ≤ count → count ≤ 96 → 10 ≤ intv → intv ≤ 10000 → 100 ≤ count * intv →
      (rampRangeBad s.dev n (rd s.dev (ldcBase n + 4)) = true → ∃ t, exec (.ldcApply n) s = .next t ∧
        t.dev.ldc = s.dev.ldc ∧ fld (rd t.dev 0xF00014) 30 28 = 3 ∧ ∀ a, a ≠ 0xF00014 → rd t.dev a = rd s.dev a) ∧
      (rampRangeBad s.dev n (rd s.dev (ldcBase n + 4)) = false → ∃ t, exec (.ldcApply n) s = .next t ∧
        fld (rd t.dev 0xF00014) 30 28 = 0 ∧ ∀ o ∈ [0, 4, 8, 0xC],
          rd t.dev (ldcBase n + 0x10 + o) = rd s.dev (ldcBase n + o)))) ∧
  (∀ (s : State) (n : Fin 64), RowReady s.dev 0xF00010 → resultValid s.dev 0xF00014 = true → n.val < 40 → ∃ t, exec (.clearTrip n) s = .next t ∧
    fld (rd t.dev 0xF00014) 30 28 = 0 ∧ (loadOf t.dev n).restarts = 0 ∧
    ((loadOf s.dev n).trip < 4 → (loadOf t.dev n).trip = 0) ∧
    ((loadOf s.dev n).trip = 4 → (loadOf s.dev n).theta ≤ (fld (actTemp s.dev n) 15 8 : Int) * deg →
      (loadOf t.dev n).trip = 0) ∧
    ((loadOf s.dev n).trip = 4 → (fld (actTemp s.dev n) 15 8 : Int) * deg < (loadOf s.dev n).theta →
      (loadOf t.dev n).trip = 4 ∧ bit (rd t.dev 0x1000008) 7 = true) ∧
    ((loadOf s.dev n).trip = 5 → (loadOf t.dev n).trip = 5)) ∧
  (∀ (s : State) (n : Fin 64) (bad : Option (Fin 7)) (g : Fin 8), RowReady s.dev 0xF00010 → resultValid s.dev 0xF00014 = true →
    n.val < 40 →
    ((loadOf s.dev n).gate = true → ∃ t, exec (.segTest n bad) s = .next t ∧ fld (rd t.dev 0xF00014) 30 28 = 5 ∧
      t.dev.ldc = s.dev.ldc) ∧
    ((loadOf s.dev n).gate = false → (loadOf s.dev n).ramping = false → (loadOf s.dev n).clamping = false →
      ∃ t, exec (.segTest n bad) s = .next t ∧ fld (rd t.dev 0xF00014) 30 28 = 0) ∧
    ((inService n (loadOf s.dev n)).getLsbD g = false → ∃ t, exec (.retire n g) s = .next t ∧
      fld (rd t.dev 0xF00014) 30 28 = 5 ∧ t.dev.ldc = s.dev.ldc) ∧
    ((inService n (loadOf s.dev n)).getLsbD g = true → spareLeft n (loadOf s.dev n) = true →
      (loadClass n).segs ≤ 2 * activeSegs n (loadOf s.dev n) →
      ∃ t, exec (.retire n g) s = .next t ∧ fld (rd t.dev 0xF00014) 30 28 = 0 ∧
        ((loadOf s.dev n).gate = true → (loadOf t.dev n).swap = some ⟨g, 4⟩ ∧
          (loadOf t.dev n).retiredSegs = (loadOf s.dev n).retiredSegs) ∧
        ((loadOf s.dev n).gate = false → (loadOf t.dev n).retiredSegs.getLsbD g = true))) ∧
  (∀ (s : State) (n : Fin 64), RowReady s.dev 0x1000010 →
    (resultValid s.dev 0x1000014 = false → ∃ t, exec (.wgsApply n) s = .next t ∧ t.dev.ldc = s.dev.ldc ∧
      rd t.dev 0x1000014 = rd s.dev 0x1000014 ∧ bit (rd t.dev 0x1000008) 8 = true) ∧
    (resultValid s.dev 0x1000014 = true → ∃ t, exec (.wgsApply n) s = .next t ∧
      resultValid t.dev 0x1000014 = true ∧
      (40 ≤ n.val → fld (rd t.dev 0x1000014) 30 28 = 1) ∧
      (n.val < 40 → fld (rd t.dev 0x1000014) 30 28 = wgsCheck s.dev n ∧
        (wgsCheck s.dev n ≠ 0 → ∀ a, a ≠ 0x1000014 → rd t.dev a = rd s.dev a) ∧
        (wgsCheck s.dev n = 0 → (loadOf t.dev n).theta = (loadOf s.dev n).theta ∧
          ∀ o ∈ [0, 4, 8, 0xC], rd t.dev (wgsBase n + 0x10 + o) = rd s.dev (wgsBase n + o))))) ∧
  (∀ (d : Dev) (n : Nat), wgsCheck d n = 0 →
    wgXsec (rd d (wgsBase n)) ≤ 8 ∧ 16 ≤ fld (rd d (wgsBase n)) 26 20 ∧ fld (rd d (wgsBase n)) 26 20 ≤ 64 ∧
    fld (rd d (wgsBase n)) 19 10 ≠ 0 ∧ fld (rd d (wgsBase n + 4)) 15 8 < fld (rd d (wgsBase n + 4)) 23 16 ∧
    fld (rd d (wgsBase n + 4)) 23 16 < fld (rd d (wgsBase n + 4)) 31 24 ∧ fld (rd d (wgsBase n + 4)) 31 24 ≤ 200 ∧
    (∃ x, thetaSs (rd d (wgsBase n)) (signed (fld (rd d 0x1000000) 31 24) 8 * deg) (iDecl d n) = some x ∧
      x < (fld (rd d (wgsBase n + 4)) 23 16 : Int) * deg) ∧
    (bit (rd d (wgsBase n + 8)) 31 = false → 10 * (if fld (rd d (wgsBase n + 8)) 26 16 = 0 then (loadClass n).rated
      else 125 * fld (rd d (wgsBase n + 8)) 26 16) < 9 * (loadClass n).short) ∧
    (bit (rd d (wgsBase n + 8)) 31 = true → 0 < fld (rd d (wgsBase n + 0xC)) 15 0 ∧
      fld (rd d (wgsBase n + 0xC)) 15 0 ≤ 500 ∧ iDecl d n ≤ 125 * fld (rd d (wgsBase n + 0xC)) 26 16)) ∧
  RowClears .ldcClearAll 0xF0001C (fun a => ∃ n < 40, aLdcCnt n 0 ≤ a ∧ a < aLdcCnt n 10) ∧
  (∀ n : Fin 64, RowClears (.ldcClearChannel n) 0xF0001C (fun a => n.val < 40 ∧ aLdcCnt n 0 ≤ a ∧ a < aLdcCnt n 10)) ∧
  RowClears .wgsClearAll 0x1000018 (fun a => (∃ n < 40, wgsBase n + 0x28 ≤ a ∧ a < wgsBase n + 0x38) ∨
    ∃ b < 2, aBcnt b 0 ≤ a ∧ a < aBcnt b 5) ∧
  (∀ n : Fin 64, RowClears (.wgsClearChannel n) 0x1000018 (fun a => n.val < 40 ∧ wgsBase n + 0x28 ≤ a ∧
    a < wgsBase n + 0x38))

/-- R262–R266, R268, Table 9.1: one update moves θ as the equation of R263 says, to within 2 units of 10⁻⁹ °C of the exact
rational value, saturated at 511 °C; with EN = 0 it reads 0; at T_TRIP the channel trips with code 4 and turns off; at T_WARN
it warns; a save goes to the other record. How the bank's mean voltage and current are held is the model's choice (log entry
95). -/
def Obligations.WireGuardModel : Prop :=
  (∀ (w : Word) (amb theta : Int) (ma : Nat) (c iA tau th exact : ℚ),
    c = ((conductor (wgXsec w)).1 : ℚ) / 10000 * (fld w 26 20 / 16) * ((fld w 19 10 / 10) / (fld w 19 10 / 10 + 1 / 4)) →
    iA = ma / 1000 → tau = (conductor (wgXsec w)).2 → th = theta / 1000000000 →
    exact = th + ((amb : ℚ) / 1000000000 + c * iA * iA * (1 + 393 / 100000 * (th - 20)) - th) * (1 / 10000) / tau →
    theta ≤ 511 * deg →
    (exact ≤ 511 → exact * 1000000000 - 2 < thetaStep w amb ma theta ∧
      (thetaStep w amb ma theta : ℚ) ≤ exact * 1000000000) ∧
    thetaStep w amb ma theta ≤ 511 * deg) ∧
  (∀ (d : Dev) (n : Nat) (m : LoadMeas), ((loadOf d n).shaped = false → heldMeas d n m = m) ∧
    ((loadOf d n).shaped = true → (heldMeas d n m).now = min m.now (ceiling d n : Int))) ∧
  (∀ (s : State) (va vb : Int) (ms : List LoadMeas), domUp s.dev 1 = false →
    exec (.wgModelUpdate va vb ms) s = .next s) ∧
  (∀ (s : State) (va vb : Int) (ms : List LoadMeas), domUp s.dev 1 = true → ∃ t, exec (.wgModelUpdate va vb ms) s = .next t ∧
    (bankOf t.dev 0).volt = va / 100 ∧ (bankOf t.dev 1).volt = vb / 100 ∧
    ((bankOf s.dev 0).inDip = true → (bankOf t.dev 0).volts = (bankOf s.dev 0).volts) ∧
    ((bankOf s.dev 0).inDip = false → (bankOf s.dev 0).volts.length < 100 →
      (bankOf t.dev 0).volts = (bankOf s.dev 0).volts ++ [va]) ∧
    (∀ b < 2, (bankOf s.dev b).currs.length < 100 → (bankOf t.dev b).currs = (bankOf s.dev b).currs ++
      [((bankChans b).map fun n => match ms[n]? with | some m => (heldMeas s.dev n m).now | none => 0).sum]) ∧
    ∀ (n : Nat) (m0 m : LoadMeas), n < 40 → ms[n]? = some m0 → m = heldMeas s.dev n m0 →
      (loadOf t.dev n).nowMa = m.now ∧ (loadOf t.dev n).meanMa = m.mean10 ∧
      (bit (actWg s.dev n) 31 = false → (loadOf t.dev n).theta = 0 ∧ (loadOf t.dev n).warn = false ∧
        (loadOf t.dev n).trip = (loadOf s.dev n).trip) ∧
      (bit (actWg s.dev n) 31 = true → ∀ th, th = thetaStep (actWg s.dev n) (ambient s.dev n) (measMean n m) (loadOf s.dev n).theta →
        (loadOf t.dev n).theta = th ∧
        ((fld (actTemp s.dev n) 31 24 : Int) * deg ≤ th → (loadOf s.dev n).trip < 4 →
          (loadOf t.dev n).trip = 4 ∧ (loadOf t.dev n).recorded = false ∧ (loadOf t.dev n).gate = false ∧
          chEvent t.dev n 1 = true ∧ cnt t.dev (wgsBase n + 0x28) = cnt s.dev (wgsBase n + 0x28) + 1) ∧
        (th < (fld (actTemp s.dev n) 31 24 : Int) * deg → (loadOf t.dev n).trip = (loadOf s.dev n).trip ∧
          (loadOf t.dev n).gate = (loadOf s.dev n).gate) ∧
        ((fld (actTemp s.dev n) 23 16 : Int) * deg ≤ th → (loadOf t.dev n).warn = true ∧
          ((loadOf s.dev n).warn = false → bit (rd t.dev 0x1000008) 0 = true ∧
            cnt t.dev (wgsBase n + 0x30) = cnt s.dev (wgsBase n + 0x30) + 1)) ∧
        (th < (fld (actTemp s.dev n) 23 16 : Int) * deg → th < (fld (actTemp s.dev n) 15 8 : Int) * deg →
          (loadOf t.dev n).warn = false))) ∧
  (∀ (s : State) (whole : Bool), ∃ t r, exec (.wgStateSave whole) s = .next t ∧ r.good = whole ∧ r.at_ = aonCount s.dev ∧
    (∀ n < 40, r.chans[n]? = some ((loadOf s.dev n).theta, (conductor (wgXsec (actWg s.dev n))).2,
      ambient s.dev n)) ∧
    t = { s with dev := { s.dev with ldc := if s.dev.ldc.recNext then { s.dev.ldc with recB := some r, recNext := false }
      else { s.dev.ldc with recA := some r, recNext := true } } })

/-- R284, R286–R291, R297–R299: qualified edges and counted edges, the edge queue, wire breaks, quads out of range,
mismatches, snapshots, and what a valid field-side frame brings over. The order of the causes in FAULT, the first EVT_SEQ and
the edges that are sent again (log entry 44), and the order of fault records (log entry 96), are the model's choices. -/
def Obligations.FieldInputsAndRecords : Prop :=
  (∀ (s : State) (n : Fin 32) (level : Bool) (ts : Nat) (want : Bool), coreUp s.dev 4 = true → domUp s.dev 2 = true → (fieldOf s.dev n).state ≠ level →
    fieldMode s.dev n = 1 → want = (if level then bit (actEv s.dev n) 31 else bit (actEv s.dev n) 30) →
    ∃ t, exec (.fieldInputEdge n level ts) s = .next t ∧ (fieldOf t.dev n).state = level ∧
      (fieldOf t.dev n).since = ts ∧ cnt t.dev (aFieldCnt n 0) = cnt s.dev (aFieldCnt n 0) + 1 ∧
      (want = true → s.dev.fio.edges.length < 64 → t.dev.fio.edges = s.dev.fio.edges ++
        [⟨n, level, ts, min 65535 ((ts - (fieldOf s.dev n).since) / 1000000)⟩]) ∧
      (want = true → 64 ≤ s.dev.fio.edges.length → t.dev.fio.edges = s.dev.fio.edges ∧
        (fieldOf t.dev n).edgeLost = true ∧ cnt t.dev (aLinkCnt 4) = cnt s.dev (aLinkCnt 4) + 1 ∧
        bit (rd t.dev 0x1100000) 4 = true) ∧
      (want = false → t.dev.fio.edges = s.dev.fio.edges)) ∧
  (∀ (s : State) (n : Fin 32) (level : Bool) (ts : Nat), domUp s.dev 2 = true → (fieldOf s.dev n).state ≠ level →
    fieldMode s.dev n = 3 →
    exec (.fieldInputEdge n level ts) s = .next { s with dev := setField s.dev n { fieldOf s.dev n with
      state := level, since := ts
      fsCount := if 2 ≤ fld (actField s.dev n) 15 14 ∨ (fld (actField s.dev n) 15 14 = 0 ↔ level = true) then
        (fieldOf s.dev n).fsCount + 1 else (fieldOf s.dev n).fsCount
      fsEdge := if 2 ≤ fld (actField s.dev n) 15 14 ∨ (fld (actField s.dev n) 15 14 = 0 ↔ level = true) then ts
        else (fieldOf s.dev n).fsEdge } }) ∧
  (∀ (s : State) (n : Fin 32) (level : Bool) (ts : Nat), (fieldOf s.dev n).state ≠ level → fieldMode s.dev n = 2 →
    exec (.fieldInputEdge n level ts) s =
      .next { s with dev := setField s.dev n { fieldOf s.dev n with state := level, since := ts } }) ∧
  (∀ (s : State) (n : Fin 32), coreUp s.dev 4 = true → domUp s.dev 2 = true → fieldMode s.dev n = 1 →
    (quadBad s.dev n = false → bit (actField s.dev n) 29 = true → bit (actField s.dev n) 28 = true →
      (fieldOf s.dev n).broken = false → ∃ t, exec (.wireBreak n) s = .next t ∧ (fieldOf t.dev n).broken = true ∧
      (fieldOf t.dev n).repFault = 1 ∧ fieldTerm t.dev n = false ∧
      ((fieldOf s.dev n).repFault ≠ 1 → bit (rd t.dev (fioBase n + 0x14)) 1 = true)) ∧
    (quadBad s.dev n = false → (fieldOf s.dev n).broken = true → ∃ t, exec (.wireBreakClear n) s = .next t ∧
      (fieldOf t.dev n).broken = false ∧ (fieldOf t.dev n).repFault = 0) ∧
    (quadBad s.dev n = true → exec (.wireBreak n) s = .next s ∧ exec (.wireBreakClear n) s = .next s)) ∧
  (∀ (s : State) (q : Fin 8) (v : BitVec 16), coreUp s.dev 4 = true →
    (s.dev.fio.quadBad.getLsbD q = false → v.toNat < 1800 ∨ 3200 < v.toNat →
      ∃ t, exec (.quadSupplyFault q v) s = .next t ∧ tget 0 t.dev.fio.quadVolt q = v.toNat ∧
      t.dev.fio.quadBad.getLsbD q = true ∧ bit (rd t.dev 0x1100000) 3 = true ∧ ∀ n < 32, n / 4 = q.val →
      fieldMode s.dev n = 2 → (fieldOf t.dev n).drive = false ∧
        (fieldOf t.dev n).recorded = (fieldOf s.dev n).recorded ∧ (fieldOf t.dev n).latched = (fieldOf s.dev n).latched ∧
        (fieldOf t.dev n).repFault = if (fieldOf s.dev n).latched ≠ 0 then (fieldOf s.dev n).latched else 4) ∧
    (s.dev.fio.quadBad.getLsbD q = true → 1900 ≤ v.toNat → v.toNat ≤ 3100 →
      ∃ t, exec (.quadSupplyRestored q v) s = .next t ∧ tget 0 t.dev.fio.quadVolt q = v.toNat ∧
      t.dev.fio.quadBad.getLsbD q = false ∧ bit (rd t.dev 0x1100000) 3 = true ∧ ∀ n < 32, n / 4 = q.val →
      fieldMode s.dev n = 2 → (fieldOf t.dev n).drive =
        ((fieldOf s.dev n).want && decide ((fieldOf s.dev n).latched = 0) && !s.dev.ldc.gateHold) ∧
        (fieldOf t.dev n).recorded = (fieldOf s.dev n).recorded)) ∧
  (∀ (s : State) (n : Fin 32), coreUp s.dev 4 = true → fieldMode s.dev n = 2 → (fieldOf s.dev n).drive = false →
    ((fieldOf s.dev n).mismatch = false → ∃ t, exec (.outputMismatch n) s = .next t ∧
      (fieldOf t.dev n).mismatch = true ∧ ((fieldOf s.dev n).latched = 0 → quadBad s.dev n = false →
        (fieldOf t.dev n).repFault = 5)) ∧
    ((fieldOf s.dev n).mismatch = true → ∃ t, exec (.outputMismatchClear n) s = .next t ∧
      (fieldOf t.dev n).mismatch = false ∧ ((fieldOf s.dev n).latched = 0 → quadBad s.dev n = false →
        (fieldOf t.dev n).repFault = 0))) ∧
  (∀ (s : State) (n : Fin 8), fieldMode s.dev n = 3 → fld (actEv s.dev n) 15 0 ≠ 0 →
    exec (.counterSnapshot n) s =
      .next { s with dev := setField s.dev n { fieldOf s.dev n with snapDue := (fieldOf s.dev n).snapDue + 1 } }) ∧
  (∀ (s : State) (u : UpFrame), s.dev.fio.upFrame = some u → coreUp s.dev 4 = true →
    (∀ c, s.dev.fio.rxCount = some c → u.count = c + 1) → ∃ t, exec (.fieldFrameRx true) s = .next t ∧
    (∀ e, e ∈ t.dev.fio.faults ↔ e ∈ s.dev.fio.faults ∧ u.latch < e.ts) ∧
    t.dev.fio.upFrame = none ∧ t.dev.fio.rxCount = some u.count ∧ t.dev.fio.upRun = s.dev.fio.upRun + 1 ∧
    t.dev.fio.edges = s.dev.fio.edges.drop u.edges.length ∧
    (∀ n < 32, (fieldOf t.dev n).repState = u.states.getLsbD n ∧ (fieldOf t.dev n).repDrive = u.drives.getLsbD n ∧
      (fieldOf t.dev n).evtSeq = (fieldOf s.dev n).evtSeq + BitVec.ofNat 16 ((u.edges.filter (·.ch == n)).length +
        (s.dev.fio.faults.filter fun e => e.ch == n && decide (e.ts ≤ u.latch)).length +
        if fieldMode s.dev n = 3 then (u.snaps.filter (·.ch == n)).length else 0)) ∧
    t.dev.fio.snaps = s.dev.fio.snaps.drop u.snaps.length ∧
    (∀ f : Nat → BitVec 32 × Nat, u.counts = (List.range 8).map (fun n => (n, f n)) → ∀ n < 8, fieldMode s.dev n = 3 →
      (fieldOf t.dev n).count =
        (fieldOf s.dev n).count + BitVec.ofNat 64 ((f n).1 - (fieldOf s.dev n).countLast).toNat ∧
      (fieldOf t.dev n).countLast = (f n).1 ∧ (fieldOf t.dev n).lastEdge = (f n).2))

/-- R293, R294, R300–R302, R306, Tables 10.4, 10.13: the link's frames and its counts, drives applied by the field side, link
down, silence and recovery, latched faults, and the FIO commands with their refusals and clears. The end of FIELD_SET, the
order of the causes in FAULT, the park on both sides at once and the level of a terminal are the model's choices (log entry
44). -/
def Obligations.FieldOutputsAndLink : Prop :=
  (∀ s : State, coreUp s.dev 4 = true → domUp s.dev 2 = true → ∃ t u dn, exec .isolationFrameTx s = .next t ∧
    t.dev.fio.upFrame = some u ∧ t.dev.fio.downFrame = some dn ∧
    t = { s with dev := { s.dev with fio := { s.dev.fio with
      ch := t.dev.fio.ch, snaps := u.snaps, txCount := dn.count, fsTxCount := u.count, downFrame := some dn
      upFrame := some u, sent := s.dev.fio.sent + 1 } } } ∧
    dn.count = s.dev.fio.txCount + 1 ∧ u.count = s.dev.fio.fsTxCount + 1 ∧ u.latch = devTime s.dev ∧
    u.edges = s.dev.fio.edges.take 8 ∧ (∀ n < 32, dn.drives.getLsbD n = (fieldOf s.dev n).req ∧
      u.drives.getLsbD n = (fieldOf s.dev n).drive ∧ u.states.getLsbD n = (fieldOf s.dev n).state) ∧
    u.snaps = s.dev.fio.snaps ++ (List.range 8).flatMap (fun n => List.replicate (fieldOf s.dev n).snapDue
      ⟨n, devTime s.dev, (fieldOf s.dev n).fsCount, (fieldOf s.dev n).fsEdge⟩) ∧
    (∀ n < 8, fieldOf t.dev n = { fieldOf s.dev n with snapDue := 0 }) ∧
    ∀ n, 8 ≤ n → fieldOf t.dev n = fieldOf s.dev n) ∧
  (∀ (s : State) (crc : Bool) (u : UpFrame), s.dev.fio.upFrame = some u → coreUp s.dev 4 = true →
    crc = false ∨ (∃ c, s.dev.fio.rxCount = some c ∧ u.count ≠ c + 1) → ∃ t, exec (.fieldFrameRx crc) s = .next t ∧
    t.dev.fio = { s.dev.fio with upFrame := none, upRun := 0 } ∧
    cnt t.dev (aLinkCnt 0) = cnt s.dev (aLinkCnt 0) + 1) ∧
  (∀ (s : State) (u : UpFrame), s.dev.fio.upFrame = some u → (∀ c, s.dev.fio.rxCount = some c → u.count = c + 1) →
    coreUp s.dev 4 = true → s.dev.fio.up = false → ∃ t, exec (.fieldFrameRx true) s = .next t ∧
    (t.dev.fio.up = true ↔ 2 ≤ s.dev.fio.upRun) ∧ (2 ≤ s.dev.fio.upRun → bit (rd t.dev 0x1100000) 1 = true)) ∧
  (∀ (s : State) (crc : Bool) (u : DownFrame), s.dev.fio.downFrame = some u → domUp s.dev 2 = true →
    (crc = false ∨ (∃ c, s.dev.fio.fsRxCount = some c ∧ u.count ≠ c + 1) →
      ∃ t, exec (.fieldSideFrameRx crc) s = .next t ∧ cnt t.dev (aLinkCnt 1) = cnt s.dev (aLinkCnt 1) + 1 ∧
      t.dev.fio = { s.dev.fio with downFrame := none, goodRun := 0 }) ∧
    (crc = true → (∀ c, s.dev.fio.fsRxCount = some c → u.count = c + 1) → s.dev.fio.fsParked = false →
      ∃ t, exec (.fieldSideFrameRx crc) s = .next t ∧ t.dev.fio.goodRun = s.dev.fio.goodRun + 1 ∧
      ∀ n < 32, fieldMode s.dev n = 2 →
        (groupSafe s.dev n = false → (fieldOf t.dev n).want = u.drives.getLsbD n ∧ (fieldOf t.dev n).drive =
          (u.drives.getLsbD n && decide ((fieldOf s.dev n).latched = 0) && !quadBad s.dev n && !s.dev.ldc.gateHold)) ∧
        (groupSafe s.dev n = true → (fieldOf t.dev n).drive = (fieldOf s.dev n).drive ∧
          (s.dev.fio.goodRun < 2 → groupSafe t.dev n = true) ∧
          (2 ≤ s.dev.fio.goodRun → groupSafe t.dev n = false ∧
            (fieldOf t.dev n).recorded = (fieldOf s.dev n).drive ∧ bit (rd t.dev (fioBase n + 0x14)) 3 = true)))) ∧
  (∀ s : State, coreUp s.dev 4 = false → exec .fieldLinkDown s = .next s) ∧
  (∀ s : State, coreUp s.dev 4 = true → s.dev.fio.up = true → ∃ t, exec .fieldLinkDown s = .next t ∧ t.dev.fio.up = false ∧
    t.dev.fio.upRun = 0 ∧ cnt t.dev (aLinkCnt 2) = cnt s.dev (aLinkCnt 2) + 1 ∧ bit (rd t.dev 0x1100000) 0 = true ∧
    ∀ n < 32, fieldMode s.dev n = 1 → fieldTerm t.dev n = false) ∧
  (∀ (s : State) (g : Fin 4), s.dev.fio.fsParked = false → s.dev.fio.safe.getLsbD g = false →
    ∃ t, exec (.fieldSilence g) s = .next t ∧ t.dev.fio.safe = s.dev.fio.safe ||| (1#4 <<< g.val) ∧
    bit (rd t.dev 0x1100000) 2 = true ∧ cnt t.dev (aLinkCnt 3) = cnt s.dev (aLinkCnt 3) + 1 ∧
    ∀ n < 32, n / 8 = g.val → fieldMode s.dev n = 2 → (fieldOf t.dev n).want = safeState s.dev n ∧
      (fieldOf t.dev n).drive = (safeState s.dev n && decide ((fieldOf s.dev n).latched = 0) && !quadBad s.dev n &&
        !s.dev.ldc.gateHold) ∧ bit (rd t.dev (fioBase n + 0x14)) 2 = true) ∧
  (∀ (s : State) (n : Fin 32) (c : Instr) (code : Nat), coreUp s.dev 4 = true → fieldMode s.dev n = 2 → (fieldOf s.dev n).drive = true →
    (c, code) ∈ [(Instr.outputOverload n, 2), (Instr.outputThermalShutdown n, 3)] → ∃ t, exec c s = .next t ∧
    (fieldOf t.dev n).latched = code ∧ (fieldOf t.dev n).drive = false ∧ (fieldOf t.dev n).recorded = false ∧
    (fieldOf t.dev n).repFault = code ∧ cnt t.dev (aFieldCnt n 2) = cnt s.dev (aFieldCnt n 2) + 1 ∧
    ∀ m, m ≠ n.val → fieldOf t.dev m = fieldOf s.dev m) ∧
  (∀ (s : State) (n : Fin 32) (c : Instr), RowReady s.dev 0x110000C → c ∈ [.fioApply n, .clearFault n, .snapshot n] →
    resultValid s.dev 0x1100010 = false → ∃ t, exec c s = .next t ∧ t.dev.fio = s.dev.fio ∧
    rd t.dev 0x1100010 = rd s.dev 0x1100010 ∧ bit (rd t.dev 0x1100000) 5 = true) ∧
  (∀ (s : State) (n : Fin 32) (w : Word) (m : Nat), RowReady s.dev 0x110000C → resultValid s.dev 0x1100010 = true → w = rd s.dev (fioBase n) →
    m = fld w 31 30 →
    ((m = 3 ∧ 8 ≤ n.val) ∨ (bit w 28 = true ∧ (2 ≤ m ∨ (m = 1 ∧ bit w 29 = false))) → ∃ t,
      exec (.fioApply n) s = .next t ∧ t.dev.fio = s.dev.fio ∧ fld (rd t.dev 0x1100010) 30 28 = 1 ∧
      ∀ a, a ≠ 0x1100010 → rd t.dev a = rd s.dev a) ∧
    (m ≤ 1 → bit w 28 = false → fld w 27 26 = 3 → ∃ t, exec (.fioApply n) s = .next t ∧ t.dev.fio = s.dev.fio ∧
      fld (rd t.dev 0x1100010) 30 28 = 2) ∧
    (m ≤ 2 → bit w 28 = false → fld w 27 26 ≠ 3 → m ≠ fieldMode s.dev n → (resOf s.dev (40 + n)).state ≠ .unbound →
      ∃ t, exec (.fioApply n) s = .next t ∧ t.dev.fio = s.dev.fio ∧ fld (rd t.dev 0x1100010) 30 28 = 3) ∧
    (m ≤ 2 → bit w 28 = false → fld w 27 26 ≠ 3 → m = fieldMode s.dev n ∨ (resOf s.dev (40 + n)).state = .unbound →
      ∃ t, exec (.fioApply n) s = .next t ∧ fld (rd t.dev 0x1100010) 30 28 = 0 ∧ actField t.dev n = w ∧
        actEv t.dev n = rd s.dev (fioBase n + 4) ∧ (m ≠ 2 → (fieldOf t.dev n).drive = false) ∧
        ∀ k, k ≠ n.val → fieldOf t.dev k = fieldOf s.dev k)) ∧
  (∀ (s : State) (n : Fin 32), RowReady s.dev 0x110000C → resultValid s.dev 0x1100010 = true →
    ((fieldOf s.dev n).latched = 0 → ∃ t, exec (.clearFault n) s = .next t ∧ t.dev.fio = s.dev.fio ∧
      fld (rd t.dev 0x1100010) 30 28 = 5) ∧
    ((fieldOf s.dev n).latched ≠ 0 → ∃ t, exec (.clearFault n) s = .next t ∧ (fieldOf t.dev n).latched = 0 ∧
      fld (rd t.dev 0x1100010) 30 28 = 0 ∧ (fieldMode s.dev n = 2 → s.dev.fio.up = true → groupSafe s.dev n = false →
        s.dev.fio.parked = false → (fieldOf t.dev n).req =
          (!quadBad s.dev n && (fieldOf s.dev n).permit &&
            if (fieldOf s.dev n).forced then (fieldOf s.dev n).forceOn else (fieldOf s.dev n).recorded))) ∧
    (fieldMode s.dev n ≠ 3 → ∃ t, exec (.snapshot n) s = .next t ∧ t.dev.fio = s.dev.fio ∧
      fld (rd t.dev 0x1100010) 30 28 = 5) ∧
    (fieldMode s.dev n = 3 → ∃ t, exec (.snapshot n) s = .next t ∧ (fieldOf t.dev n).snapDue = (fieldOf s.dev n).snapDue + 1 ∧
      fld (rd t.dev 0x1100010) 30 28 = 0)) ∧
  RowClears .fioClearAll 0x1100018 (fun a => (aLinkCnt 0 ≤ a ∧ a < aLinkCnt 5) ∨
    ∃ n < 32, aFieldCnt n 0 ≤ a ∧ a < aFieldCnt n 3) ∧
  (∀ n : Fin 32, RowClears (.fioClearChannel n) 0x1100018 (fun a => aFieldCnt n 0 ≤ a ∧ a < aFieldCnt n 3)) ∧
  RowClears .fioClearLink 0x1100018 (fun a => aLinkCnt 0 ≤ a ∧ a < aLinkCnt 5)

/-- The bank that is active. -/
def activeBank (d : Dev) : List (Nat × Word) := if d.bwk.active then d.bwk.bank1 else d.bwk.bank0

/-- What is presented to output `k` now: a load channel below 40, a field output from there. -/
def shownTo (d : Dev) (k : Nat) : OutSig :=
  if k < 40 then ⟨(loadOf d k).permit, (loadOf d k).forced, (loadOf d k).forceOn⟩
  else ⟨(fieldOf d (k - 40)).permit, (fieldOf d (k - 40)).forced, (fieldOf d (k - 40)).forceOn⟩

/-- The OR of the results of the rules of kind `kind` that name `k` (R318). -/
def destOr (b : List (Nat × Word)) (results : List (Nat × Bool)) (kind k : Nat) : Prop :=
  ∃ i ∈ rulesOf b, fld (tget 0 b (0x4008 + 16 * i)) 31 29 = kind ∧ fld (tget 0 b (0x4008 + 16 * i)) 7 0 = k ∧
    tget false results i = true

/-- R309, R315–R322: a sample instant applies the last cycle's outputs and evaluates the next: comparators with hysteresis,
rules as the AND of their terms, destinations as the OR of results, flags chained in one cycle, and the row of Table 11.5 for
every output; the two kinds of timer, which count from the cycle after a change of input, with UNIT 1 at the ticks of the
grid only. -/
def Obligations.BreakwaterCycle : Prop :=
  (∀ (s : State) (clks : Nat) (o : Nat → OutSig), domUp s.dev 0 = true → s.dev.bwk.state = .running →
    s.dev.bwk.commit = false →
    s.dev.bwk.next.outs = (List.range 72).map (fun k => (k, o k)) → ∃ t, exec (.bwkSample clks) s = .next t ∧
    (∀ k < 72, shownTo t.dev k = o k) ∧ t.dev.bwk.begun = true ∧
    t.dev.bwk.cycles = s.dev.bwk.cycles + (if s.dev.bwk.begun = true then 1 else 0) ∧
    t.dev.bwk.last = s.dev.bwk.next ∧ t.dev.bwk.evalLast = clks ∧ t.dev.bwk.evalMax = max s.dev.bwk.evalMax clks ∧
    (∀ i < 32, bit (s.dev.bwk.next.alarms) i = true → bit s.dev.bwk.last.alarms i = false →
      bit (rd t.dev 0x1200028) i = true ∧ bit (rd t.dev 0x1200004) 1 = true)) ∧
  (∀ (s : State) (clks : Nat) (d1 : Dev), domUp s.dev 0 = true → s.dev.bwk.state = .running →
    s.dev.bwk.commit = false → d1 = latchAll (sampleBeats (applyCycle (cycleEnd s.dev))) s.dev → (rulesOf (activeBank d1)).Pairwise (· < ·) →
    ∃ t, exec (.bwkSample clks) s = .next t ∧
    (∀ k < 72, ∃ p on off : Bool, (p = true ↔ destOr (activeBank d1) t.dev.bwk.next.results 1 k) ∧
      (on = true ↔ destOr (activeBank d1) t.dev.bwk.next.results 2 k) ∧
      (off = true ↔ destOr (activeBank d1) t.dev.bwk.next.results 3 k) ∧ tget {} t.dev.bwk.next.outs k =
        if watchCond d1 k = true then
          ⟨p, true, if outSafe d1 k = 0 then false else if outSafe d1 k = 1 then true else capture d1 k 3⟩
        else if off = true then ⟨p, true, false⟩ else if on = true then ⟨p, true, true⟩ else ⟨p, false, false⟩) ∧
    (∀ f < 256, tget false t.dev.bwk.next.flags f = true ↔ destOr (activeBank d1) t.dev.bwk.next.results 4 f) ∧
    (flagOrderBad (activeBank d1) = none → ∀ i ∈ rulesOf (activeBank d1),
      bit (bankWord d1 (0x4008 + 16 * i)) 28 = false → tget false t.dev.bwk.next.results i =
        (termVal d1 s.dev t.dev.bwk.comps t.dev.bwk.next.flags (fld (bankWord d1 (0x4000 + 16 * i)) 15 0) &&
         termVal d1 s.dev t.dev.bwk.comps t.dev.bwk.next.flags (fld (bankWord d1 (0x4000 + 16 * i)) 31 16) &&
         termVal d1 s.dev t.dev.bwk.comps t.dev.bwk.next.flags (fld (bankWord d1 (0x4004 + 16 * i)) 15 0) &&
         termVal d1 s.dev t.dev.bwk.comps t.dev.bwk.next.flags (fld (bankWord d1 (0x4004 + 16 * i)) 31 16))) ∧
    (∀ c < 256, ∀ (v k : Int) (sgn stale out : Bool) (h : Nat),
      compSource d1 s.dev (fld (bankWord d1 (0x1000 + 8 * c)) 24 16) (bit (bankWord d1 (0x1000 + 8 * c)) 31) = (v, sgn, stale) →
      k = (if sgn then signed (fld (bankWord d1 (0x1004 + 8 * c)) 15 0) 16 else fld (bankWord d1 (0x1004 + 8 * c)) 15 0) →
      h = fld (bankWord d1 (0x1000 + 8 * c)) 15 0 → tget none t.dev.bwk.comps c = some out →
      (stale = true → out = bit (bankWord d1 (0x1000 + 8 * c)) 29) ∧
      (stale = false → bit (bankWord d1 (0x1000 + 8 * c)) 30 = false → (k ≤ v → out = true) ∧
        (v < k - h → out = false) ∧ (v < k → k - h ≤ v → out = (tget none d1.bwk.comps c).getD false)) ∧
      (stale = false → bit (bankWord d1 (0x1000 + 8 * c)) 30 = true → (v ≤ k → out = true) ∧
        (k + h < v → out = false) ∧ (k < v → v ≤ k + h → out = (tget none d1.bwk.comps c).getD false)))) ∧
  (∀ (w : Word) (m : Nat) (tick : Bool), bit w 30 = false ∨ tick = true → 0 < fld w 15 0 → 0 < m →
    (bit w 31 = false → ((fun x => timerStep w x true tick)^[m] {}).out = decide (fld w 15 0 ≤ m - 1)) ∧
    (bit w 31 = true → ((fun x => timerStep w x false tick)^[m] { count := 0, out := true, last := true }).out =
      decide (m - 1 < fld w 15 0))) ∧
  (∀ (w : Word) (m : Nat) (x : BwkTimer), bit w 30 = true → 0 < fld w 15 0 → x.last ≠ bit w 31 →
    ((fun y => timerStep w y x.last false)^[m] x).count = x.count)

/-- R307, R308, R313, R314, R323–R325, R328, R422, Tables 11.2, 11.5–11.7: kicks accepted or discarded, sources judged,
FAULT with every safe state, the patrol, the EMPTY row, the checks of a bank and its switch. -/
def Obligations.BreakwaterBanksAndFaults : Prop :=
  (∀ (s : State) (q : BitVec 8), qmAwake s.dev = true → Waits (.bwkHbQm q) s .qm 0x1200018) ∧
  (∀ (s : State) (q : BitVec 8), qmAwake s.dev = true → NoneBefore s .qm 0x1200018 →
    (q = s.dev.bwk.qm.seq + 1 ∨ beatLive s.dev s.dev.bwk.qm (qmTimeout s.dev) = false →
      exec (.bwkHbQm q) s = .next { s with dev := { s.dev with bwk := { s.dev.bwk with
        qm := { s.dev.bwk.qm with seq := q, at_ := some s.dev.wall } } } }) ∧
    (q ≠ s.dev.bwk.qm.seq + 1 → beatLive s.dev s.dev.bwk.qm (qmTimeout s.dev) = true →
      exec (.bwkHbQm q) s = .next { s with dev := inc s.dev 0x1200048 })) ∧
  (∀ (s : State) (q : BitVec 8), someHart s.dev = true →
    (q = s.dev.bwk.cl.seq + 1 ∨ beatLive s.dev s.dev.bwk.cl (clTimeout s.dev) = false →
      exec (.bwkHbCl q) s = .next { s with dev := { s.dev with bwk := { s.dev.bwk with
        cl := { s.dev.bwk.cl with seq := q, at_ := some s.dev.wall } } } }) ∧
    (q ≠ s.dev.bwk.cl.seq + 1 → beatLive s.dev s.dev.bwk.cl (clTimeout s.dev) = true →
      exec (.bwkHbCl q) s = .next { s with dev := inc s.dev 0x1200048 })) ∧
  (∀ (s : State) (q : BitVec 8), (qmAwake s.dev = false → exec (.bwkHbQm q) s = .next s) ∧
    (someHart s.dev = false → exec (.bwkHbCl q) s = .next s)) ∧
  (∀ (s : State) (clks : Nat), domUp s.dev 0 = true → s.dev.bwk.state = .running → s.dev.bwk.commit = false →
    ∃ t, exec (.bwkSample clks) s = .next t ∧
    t.dev.bwk.qm.live = beatLive s.dev s.dev.bwk.qm (qmTimeout s.dev) ∧
    t.dev.bwk.cl.live = beatLive s.dev s.dev.bwk.cl (clTimeout s.dev) ∧
    (t.dev.bwk.anchored = true ↔ t.dev.bwk.qm.live = false ∧ t.dev.bwk.cl.live = false) ∧
    (t.dev.bwk.anchored ≠ s.dev.bwk.anchored → bit (rd t.dev 0x1C) 2 = true) ∧
    (t.dev.bwk.qm.live ≠ s.dev.bwk.qm.live → bit (rd t.dev 0x1200004) 3 = true)) ∧
  (∀ (s : State) (cause : BwkFaultCause), domUp s.dev 0 = true → s.dev.bwk.state ≠ .fault → ∃ t, exec (.bwkFault cause) s = .next t ∧
    t.dev.bwk.state = .fault ∧ t.dev.bwk.cause = cause.code ∧ t.dev.bwk.anchored = false ∧
    bit (rd t.dev 0x1200004) 4 = true ∧
    (∀ k < 72, ((latchOf s.dev k).2 = 0 → shownTo t.dev k = ⟨false, true, false⟩) ∧
      ((latchOf s.dev k).2 = 1 → shownTo t.dev k = ⟨true, true, true⟩) ∧
      (2 ≤ (latchOf s.dev k).2 → shownTo t.dev k = ⟨capture s.dev k 1, true, capture s.dev k 1⟩)) ∧
    (resultValid s.dev 0x1200010 = false → fld (rd t.dev 0x1200010) 30 27 = 6 ∧ resultValid t.dev 0x1200010 = true)) ∧
  (∀ (s : State) (cause : BwkFaultCause) (clks : Nat), s.dev.bwk.state = .fault →
    exec (.bwkFault cause) s = .next s ∧ exec (.bwkSample clks) s = .next s) ∧
  (∀ (s : State) (inactive : Bool) (o : Fin 8192), domUp s.dev 0 = true →
    exec (.bwkPatrol inactive o .clean) s = .next s ∧
    (∃ t, exec (.bwkPatrol inactive o .corrected) s = .next t ∧ t.dev.bwk = s.dev.bwk ∧
      cnt t.dev 0x1200040 = cnt s.dev 0x1200040 + 1 ∧ bit (rd t.dev 0x1200004) 5 = true) ∧
    exec (.bwkPatrol true o .uncorrectable) s =
      .next { s with dev := { s.dev with bwk := { s.dev.bwk with bad := (4 * o.val) :: s.dev.bwk.bad } } } ∧
    exec (.bwkPatrol false o .uncorrectable) s = exec (.bwkFault .bankUe) s) ∧
  (∀ (s : State) (clks : Nat), domUp s.dev 0 = true → s.dev.bwk.state = .empty → s.dev.bwk.commit = false →
    ∃ t, exec (.bwkSample clks) s = .next t ∧ t.dev.bwk.state = .empty ∧ t.dev.bwk.anchored = false ∧
    ∀ k < 72, shownTo t.dev k = ⟨fuseOn s.dev k, true, fuseOn s.dev k⟩) ∧
  (∀ (s : State) (clks : Nat), domUp s.dev 0 = true → s.dev.bwk.state ≠ .fault → s.dev.bwk.commit = true →
    (s.dev.bwk.bad = [] →
      ∃ t, exec (.bwkSample clks) s = .next t ∧ t.dev.bwk.state = .running ∧ t.dev.bwk.active = !s.dev.bwk.active ∧
      t.dev.bwk.commit = false ∧ t.dev.bwk.bank0 = s.dev.bwk.bank0 ∧ t.dev.bwk.bank1 = s.dev.bwk.bank1 ∧
      t.dev.bwk.sig = s.dev.bwk.sig ∧ t.dev.bwk.word = s.dev.bwk.word ∧ t.dev.ldc.gateHold = false ∧
      cnt t.dev 0x1200050 = cnt s.dev 0x1200050 + 1 ∧ bit (rd t.dev 0x1200004) 0 = true ∧
      (resultValid s.dev 0x1200010 = false → resultValid t.dev 0x1200010 = true ∧ fld (rd t.dev 0x1200010) 30 27 = 0)) ∧
    (s.dev.bwk.bad ≠ [] → ∃ t, exec (.bwkSample clks) s = .next t ∧ t.dev.bwk.state = .fault ∧ t.dev.bwk.cause = 4)) ∧
  (∀ (s : State) (c : Instr), c ∈ [.check, .commit] →
    (resultValid s.dev 0x1200010 = false → ∃ t, exec c s = .next t ∧ t.dev.bwk = s.dev.bwk ∧
      rd t.dev 0x1200010 = rd s.dev 0x1200010 ∧ bit (rd t.dev 0x1200004) 6 = true) ∧
    (resultValid s.dev 0x1200010 = true → s.dev.bwk.state = .fault → ∃ t, exec c s = .next t ∧
      t.dev.bwk = s.dev.bwk ∧ fld (rd t.dev 0x1200010) 30 27 = 6)) ∧
  (∀ (s : State) (r : Nat × Word), resultValid s.dev 0x1200010 = true → s.dev.bwk.state ≠ .fault →
    r = bankCheck (inactiveBank s.dev) (s.dev.bwk.bad != []) →
    (∃ t, exec .check s = .next t ∧ t.dev.bwk = s.dev.bwk ∧ fld (rd t.dev 0x1200010) 30 27 = r.1 ∧
      resultValid t.dev 0x1200010 = true ∧ (r.1 ≠ 0 → rd t.dev 0x1200014 = r.2)) ∧
    (hasAuthority s.dev = false → ∃ t, exec .commit s = .next t ∧ t.dev.bwk = s.dev.bwk ∧
      fld (rd t.dev 0x1200010) 30 27 = 7) ∧
    (hasAuthority s.dev = true → ∃ t, exec .commit s = .next t ∧
      (r.1 ≠ 0 → t.dev.bwk = s.dev.bwk ∧ fld (rd t.dev 0x1200010) 30 27 = r.1 ∧ rd t.dev 0x1200014 = r.2) ∧
      (r.1 = 0 → t.dev.bwk = { s.dev.bwk with commit := true } ∧ resultValid t.dev 0x1200010 = false))) ∧
  (∀ (b : List (Nat × Word)) (ue : Bool), (bankCheck b ue).1 ≤ 5 ∧
    ((bankCheck b ue).1 = 1 ↔ tget 0 b 0 ≠ 0x49525742 ∨ fld (tget 0 b 4) 15 0 ≠ 1) ∧
    ((bankCheck b ue).1 = 0 → ue = false ∧ crc32c 0xFFFFFFFF (bankBytes b 0x10 0x8000) = tget 0 b 0xC ∧
      (∀ e ∈ b, entryOk e.1 e.2 = true) ∧
      (∀ i ∈ rulesOf b, ∀ j ∈ rulesOf b, i ≤ j → fld (tget 0 b (0x4008 + 16 * j)) 31 29 = 4 →
        readsFlag b i (fld (tget 0 b (0x4008 + 16 * j)) 7 0) = false) ∧
      ∀ i ∈ rulesOf b, ∀ j ∈ rulesOf b, j < i → bit (tget 0 b (0x4008 + 16 * i)) 28 = true →
        bit (tget 0 b (0x4008 + 16 * j)) 28 = true →
        fld (tget 0 b (0x4008 + 16 * j)) 27 22 ≠ fld (tget 0 b (0x4008 + 16 * i)) 27 22)) ∧
  ClearsExactly .bwkClear (fun a => 0x1200040 ≤ a ∧ a < 0x1200060)

/-- R330, R331, R333, R334, R338–R341: cores fail over to spares, cache and DRAM errors poison or repair, poison is consumed,
MSIs and timer interrupts become pending, a capture takes both times, a kick returns the watchdog to RUNNING. -/
def Obligations.ClusterEvents : Prop :=
  (∀ (s : State) (h : Fin 8) (hang : Bool) (bad : BitVec 10) (lost : List Nat), s.dev.clt.map.length = 8 →
    coreOf s.dev h < 10 → coreUp s.dev 7 = true →
    (hang = true → s.dev.clt.halted.getLsbD h = false ∧ parked s.dev = false) →
    ∃ t, exec (.coreFailure h hang bad lost) s = .next t ∧ t.dev.clt.retired.getLsbD (coreOf s.dev h) = true ∧
    (∀ j < 8, j ≠ h.val → coreOf t.dev j = coreOf s.dev j) ∧ (∀ a ∈ lost, a / 64 * 64 ∈ t.dev.clt.poison) ∧
    t.dev.clt.imsic = s.dev.clt.imsic ∧
    (∀ k < 10, s.dev.clt.retired.getLsbD k = false → bad.getLsbD k = false → (∀ j < 8, coreOf s.dev j ≠ k) →
      (∀ i < k, s.dev.clt.retired.getLsbD i = true ∨ bad.getLsbD i = true ∨ ∃ j < 8, coreOf s.dev j = i) →
      coreOf t.dev h = k ∧ t.dev.clt.cause = s.dev.clt.cause.set h 3 ∧ Out.hartStart h 3 ∈ t.dev.out ∧
      bit (rd t.dev 0x4000300) 2 = true ∧ bit (rd t.dev 0x1C) 3 = true) ∧
    ((∀ k < 10, s.dev.clt.retired.getLsbD k = true ∨ bad.getLsbD k = true ∨ ∃ j < 8, coreOf s.dev j = k) →
      coreOf t.dev h = 15)) ∧
  (∀ (s : State) (dirty : Bool) (line : BitVec 56), coreUp s.dev 7 = true →
    (∃ t, exec (.cacheUe true dirty line) s = .next t ∧ bit (rd t.dev 0x4000300) 0 = true ∧ t.dev.clt = s.dev.clt) ∧
    exec (.cacheUe false false line) s = .next s ∧
    ∃ t, exec (.cacheUe false true line) s = .next t ∧
      t = { s with dev := { s.dev with clt := { s.dev.clt with cachePoison := t.dev.clt.cachePoison } } } ∧
      ∀ a, a ∈ t.dev.clt.cachePoison ↔ a ∈ s.dev.clt.cachePoison ∨ a = line.toNat / 64 * 64) ∧
  (∀ (s : State) (who : PoisonUse) (addr : BitVec 56),
    (addr.toNat / 64 * 64 ∈ s.dev.clt.poison ∨ addr.toNat / 64 * 64 ∈ s.dev.clt.cachePoison →
      (match who with | .dma _ _ _ => fabricUp s.dev = true | _ => clusterRuns s.dev = true) → ∃ t, exec (.poisonConsume who addr) s = .next t ∧
      rd64 t.dev 0x4000320 = addr.toNat ∧ bit (rd t.dev 0x4000300) 1 = true ∧ t.dev.clt = s.dev.clt ∧
      (match who with
        | .load h => Out.hartIrq h 5 ∈ t.dev.out
        | .fetch h => Out.hartIrq h 1 ∈ t.dev.out
        | .dma n fab g =>
          ((∀ o ∈ s.dev.slips.outst, ¬ (o.fabric = fab ∧ o.tag = g.val ∧ o.slip = n.val)) → Out.memError 1 n ∈ t.dev.out) ∧
          ((∃ o ∈ s.dev.slips.outst, o.fabric = fab ∧ o.tag = g.val ∧ o.slip = n.val) →
            t = { s with dev := dmaReadComplete (poisonTake s.dev addr.toNat) fab g none }))) ∧
    ((addr.toNat / 64 * 64 ∉ s.dev.clt.poison ∧ addr.toNat / 64 * 64 ∉ s.dev.clt.cachePoison) ∨
        (match who with | .dma _ _ _ => fabricUp s.dev = false | _ => clusterRuns s.dev = false) →
      exec (.poisonConsume who addr) s = .next s)) ∧
  (∀ (s : State) (row : BitVec 24) (lost : List Nat), ∃ t, exec (.dramRowRepair row (.uncorrectable lost)) s = .next t ∧
    (∀ a ∈ lost, a / 64 * 64 ∈ t.dev.clt.poison) ∧ (∀ a ∈ s.dev.clt.poison, a ∈ t.dev.clt.poison) ∧
    (reserveLeft s.dev 3 ≠ 0 → reserveUsed t.dev 3 = reserveUsed s.dev 3 + 1 ∧ t.dev.clt.rowsOut = s.dev.clt.rowsOut ∧
      bit (rd t.dev 0x4000300) 3 = true ∧ bit (rd t.dev 0x1C) 3 = true) ∧
    (reserveLeft s.dev 3 = 0 → ∀ r, r ∈ t.dev.clt.rowsOut ↔ r = row.toNat ∨ r ∈ s.dev.clt.rowsOut)) ∧
  (∀ (s : State) (row : BitVec 24) (l : List Nat),
    l = (tget [] s.dev.clt.dramCe row.toNat).filter (fun a => decide (s.dev.wall - a < day)) →
    (l.length < 3 → exec (.dramRowRepair row .corrected) s = .next { s with dev := { s.dev with clt := { s.dev.clt with
      dramCe := tset [] s.dev.clt.dramCe row.toNat (l ++ [s.dev.wall]) } } }) ∧
    (3 ≤ l.length → ∃ t, exec (.dramRowRepair row .corrected) s = .next t ∧ tget [] t.dev.clt.dramCe row.toNat = [] ∧
      t.dev.clt.poison = s.dev.clt.poison ∧
      (reserveLeft s.dev 3 ≠ 0 → reserveUsed t.dev 3 = reserveUsed s.dev 3 + 1))) ∧
  (∀ (s : State) (h : Fin 8) (f : Fin 9) (v : Word),
    (coreUp s.dev 7 = true → 1 ≤ v.toNat → v.toNat ≤ 255 → ∃ t, exec (.msiWrite h f v) s = .next t ∧
      t = { s with dev := { s.dev with out := t.dev.out, clt := { s.dev.clt with imsic := t.dev.clt.imsic } } } ∧
      (tget 0 t.dev.clt.imsic (16 * h + f)).getLsbD v.toNat = true ∧
      t.dev.out = (if clusterRuns s.dev = true ∧ coreOf s.dev h ≠ 15 then
        .hartIrq h (256 + 256 * f.val + v.toNat) :: s.dev.out else s.dev.out) ∧ ∀ k i, k ≠ 16 * h.val + f.val ∨ i ≠ v.toNat →
        (tget 0 t.dev.clt.imsic k).getLsbD i = (tget 0 s.dev.clt.imsic k).getLsbD i) ∧
    (v.toNat = 0 ∨ 255 < v.toNat ∨ coreUp s.dev 7 = false → exec (.msiWrite h f v) s = .next s)) ∧
  (∀ (s : State) (h : Fin 8), (coreUp s.dev 7 = false → exec (.mtimerInterrupt h) s = .next s) ∧ (coreUp s.dev 7 = true →
    (rd64 s.dev (0x4000000 + 8 * h) ≤ mtime s.dev → s.dev.clt.timerPend.getLsbD h = false →
      ∃ t, exec (.mtimerInterrupt h) s = .next t ∧ t.dev.clt.timerPend = s.dev.clt.timerPend ||| (1#8 <<< h.val) ∧
      t.dev.out = if clusterRuns s.dev = true ∧ coreOf s.dev h ≠ 15 then .hartIrq h 64 :: s.dev.out else s.dev.out) ∧
    (mtime s.dev < rd64 s.dev (0x4000000 + 8 * h) → ∃ t, exec (.mtimerInterrupt h) s = .next t ∧
      t.dev.clt.timerPend.getLsbD h = false ∧ t.dev.out = s.dev.out))) ∧
  (∀ s : State, ∃ t, exec .capture s = .next t ∧ t = { s with dev := { s.dev with regs := t.dev.regs } } ∧
    rd64 t.dev 0x4000110 = mtime s.dev % 2 ^ 64 ∧ rd64 t.dev 0x4000118 = devTime s.dev % 2 ^ 64 ∧
    resultValid t.dev 0x400010C = true ∧
    fld (rd t.dev 0x400010C) 15 0 = (fld (rd s.dev 0x400010C) 15 0 + 1) % 65536) ∧
  (∀ (s : State) (key : BitVec 16),
    (key = 0x5A5A → s.dev.clt.wdog ≠ 0 → someHart s.dev = true → exec (.cltWdogKick key) s =
      .next { s with dev := { s.dev with clt := { s.dev.clt with wdog := 1, wdogAt := s.dev.wall } } }) ∧
    (key ≠ 0x5A5A ∨ s.dev.clt.wdog = 0 ∨ someHart s.dev = false → exec (.cltWdogKick key) s = .next s))

/-- Length and direction of a memory access. -/
def opLen : MemOp → Nat
  | .read n _ => n
  | .write b => b.length
  | .dmaRead _ _ n => n

/-- An access that is no internal slip's DMA read. -/
def NoDma (op : MemOp) : Prop := ∀ fab g n, op ≠ .dmaRead fab g n

/-- R350–R352, Tables 12.11, 12.12, 12.17: an access the regions allow reads or writes exactly its bytes; a refused one changes
no byte and writes a violation entry; regions are written whole, by World N only while neither owned nor locked. A byte of
memory that nothing wrote reads 0 and a byte of the Basin is a free value: log entries 1 and 20, the model's choice. -/
def Obligations.WorldRegionAccesses : Prop :=
  (∀ (d : Dev) (cls m off len : Nat) (write : Bool), regionAllows d cls m off len write = true ↔
    ∃ r < 64, (regionOf d m r).enable = true ∧ (regionOf d m r).contains m off = true ∧
      (∀ q < r, (regionOf d m q).enable = false ∨ (regionOf d m q).contains m off = false) ∧
      (regionOf d m r).contains m (off + len - 1) = true ∧
      (if write then (regionOf d m r).wr else (regionOf d m r).rd).getLsbD cls = true ∧
      ((regionOf d m r).owner = false ∨ cls = 3 ∨ cls = 6)) ∧
  (∀ (s : State) (cls : Fin 7) (src : Fin 4096) (m : Fin 5) (off : BitVec 34) (op : MemOp), classUp s.dev cls = true →
    debugAllows s.dev cls = true → 0 < opLen op → opLen op ≤ 64 → off.toNat + opLen op ≤ memSize m →
    rowFaulted s.dev m off.toNat (opLen op) = false →
    (∀ b, op = .write b → m ≠ 1 → (m = 4 → flashWorn s.dev = false) →
      regionAllows s.dev cls m off.toNat b.length true = true →
      ∃ t, exec (.memoryAccess cls src (.mem m off) op) s = .next t ∧ t = { s with mem := t.mem } ∧
      (∀ i < b.length, b[i]? = some (memByte t.mem (memKey m (off.toNat + i)))) ∧
      ∀ k, k < memKey m off.toNat ∨ memKey m off.toNat + b.length ≤ k → memByte t.mem k = memByte s.mem k) ∧
    (∀ n c, op = .read n c → m ≠ 1 → regionAllows s.dev cls m off.toNat n false = true →
      1 < cls.val ∨ firstPoison s.dev m off.toNat n = none → ∃ l, exec (.memoryAccess cls src (.mem m off) op) s = .next { s with dev := emit s.dev (.memData cls src l) } ∧
      l.length = n ∧ ∀ i < n, l[i]? = some (memByte s.mem (memKey m (off.toNat + i)))) ∧
    (∀ n c a, op = .read n c → m ≠ 1 → regionAllows s.dev cls m off.toNat n false = true → cls.val ≤ 1 →
      firstPoison s.dev m off.toNat n = some a → ∃ t, exec (.memoryAccess cls src (.mem m off) op) s = .next t ∧
      t.mem = s.mem ∧ rd64 t.dev 0x4000320 = a % 2 ^ 64 ∧ bit (rd t.dev 0x4000300) 1 = true ∧
      t.dev.out.head? = some (if cls.val = 0 then .hartIrq src 5 else .memError cls src)) ∧
    (∀ n c k, op = .read n c → m = 1 → regionAllows s.dev cls m off.toNat n false = true →
      cellsRead off.toNat n c = .uncorrectable k → cls.val ≠ 4 →
      ∃ t, exec (.memoryAccess cls src (.mem m off) op) s = .next t ∧ t.mem = s.mem ∧ bit (rd t.dev 0x200014) 9 = true ∧
      t.dev.out.head? = some (if cls.val = 0 then .hartIrq src 5 else .memError cls src)) ∧
    (∀ n, op = .read n .clean → m = 1 → regionAllows s.dev cls m off.toNat n false = true →
      ∃ t l, exec (.memoryAccess cls src (.mem m off) op) s = .next t ∧ t.dev.out = .memData cls src l :: s.dev.out ∧
      l.length = n ∧ t.mem = s.mem ∧ ∀ i < n, ∀ v, basinByte s.dev (off.toNat + i) = some v → l[i]? = some v) ∧
    (∀ fab g n, op = .dmaRead fab g n → regionAllows s.dev cls m off.toNat n false = false →
      (∃ o ∈ s.dev.slips.outst, o.fabric = fab ∧ o.tag = g.val ∧ o.slip = src.val) →
      exec (.memoryAccess cls src (.mem m off) op) s =
        .next { s with dev := dmaReadComplete (accessRefused s.dev cls src m off.toNat false) fab g none }) ∧
    (∀ fab g n, op = .dmaRead fab g n → regionAllows s.dev cls m off.toNat n false = true → m ≠ 1 →
      1 < cls.val ∨ firstPoison s.dev m off.toNat n = none →
      (∃ o ∈ s.dev.slips.outst, o.fabric = fab ∧ o.tag = g.val ∧ o.slip = src.val) →
      exec (.memoryAccess cls src (.mem m off) op) s =
        .next { s with dev := dmaReadComplete s.dev fab g (some (memRead s.mem (memKey m off.toNat) n)) }) ∧
    (∀ write, write = (match op with | .write _ => true | _ => false) → NoDma op →
      regionAllows s.dev cls m off.toNat (opLen op) write = false →
      ∃ t, exec (.memoryAccess cls src (.mem m off) op) s = .next t ∧ t.mem = s.mem ∧
      t.dev.wld.regions = s.dev.wld.regions ∧ t.dev.wld.total = s.dev.wld.total + 1 ∧
      cnt t.dev 0x1300400 = cnt s.dev 0x1300400 + 1 ∧ bit (rd t.dev 0x1300004) 3 = true ∧
      rd t.dev (0x1300100 + 32 * (s.dev.wld.total % 16)) = flag true 31 ||| at_ (if write then 1 else 0) 28 |||
        at_ m 24 ||| at_ cls 20 ||| at_ (s.dev.wld.total % 65536) 0 ∧
      (cls.val ≤ 1 → bit (rd t.dev 0x4000300) 5 = true) ∧
      (cls.val = 0 → Out.hartIrq src (if write then 7 else 5) ∈ t.dev.out) ∧
      (cls.val = 4 → m = 1 → bit (rd t.dev 0x200014) 9 = true) ∧
      (∀ r, regionAt s.dev m off.toNat = some r → (regionOf s.dev m r).owner = true →
        Out.lockIrq 1 r ∈ t.dev.out))) ∧
  (∀ (s : State) (cls : Fin 7) (src : Fin 4096) (m : Fin 5) (off : BitVec 34) (a : BitVec 56) (op : MemOp),
    (classUp s.dev cls = true → NoDma op → rowFaulted s.dev m off.toNat (opLen op) = true →
      exec (.memoryAccess cls src (.mem m off) op) s = .next { s with dev := accessError s.dev cls src (accWrites op) }) ∧
    (classUp s.dev cls = true → NoDma op → debugAllows s.dev cls = false → exec (.memoryAccess cls src (.mem m off) op) s =
      .next { s with dev := emit s.dev (.memError cls src) }) ∧
    (classUp s.dev cls = false → exec (.memoryAccess cls src (.mem m off) op) s = .next s ∧
      exec (.memoryAccess cls src (.phys a) op) s = .next s) ∧
    (clusterMem a.toNat = some (m.val, off.toNat) →
      exec (.memoryAccess cls src (.phys a) op) s = exec (.memoryAccess cls src (.mem m off) op) s) ∧
    (∀ b, classUp s.dev cls = true → clusterMem a.toNat = none → clusterIo a.toNat = false → op = .write b →
      exec (.memoryAccess cls src (.phys a) op) s = .next { s with dev := accessError s.dev cls src true })) ∧
  (∀ (s : State) (q : Requester) (m : Fin 5) (r : Fin 64) (v : Word), Waits (.regionWrite (.worldN q) m r v) s q (aRegion m r 3) ∧
    (NoneBefore s q (aRegion m r 3) → q = .pf ∨ q = .qm → (regionOf s.dev m r).owner = false → (regionOf s.dev m r).locked = false →
      bit v 30 = false → bit v 29 = false → ∃ t, exec (.regionWrite (.worldN q) m r v) s = .next t ∧
      regionOf t.dev m r = { base := (rd s.dev (aRegion m r 0)).toNat, last := (rd s.dev (aRegion m r 1)).toNat
                             rd := BitVec.ofNat 8 (fld (rd s.dev (aRegion m r 2)) 15 8)
                             wr := BitVec.ofNat 8 (fld (rd s.dev (aRegion m r 2)) 7 0)
                             enable := bit v 31, owner := false, locked := false } ∧
      ∀ m' r', m' < 5 → r' < 64 → m' ≠ m.val ∨ r' ≠ r.val → regionOf t.dev m' r' = regionOf s.dev m' r') ∧
    (NoneBefore s q (aRegion m r 3) → (q ≠ .pf ∧ q ≠ .qm) ∨ (regionOf s.dev m r).owner = true ∨ (regionOf s.dev m r).locked = true ∨
      bit v 30 = true ∨ bit v 29 = true → ∃ t, exec (.regionWrite (.worldN q) m r v) s = .next t ∧
      t.dev.wld.regions = s.dev.wld.regions ∧ cnt t.dev 0x1300400 = cnt s.dev 0x1300400 + 1 ∧
      bit (rd t.dev 0x1300004) 3 = true ∧ fld (rd t.dev (0x1300100 + 32 * (s.dev.wld.total % 16))) 30 28 = 3)) ∧
  (∀ (s : State) (m : Fin 5) (r : Fin 64) (w0 w1 w2 v : Word), lockUp s.dev = true → ∃ t,
    exec (.regionWrite (.lock w0 w1 w2) m r v) s = .next t ∧
    regionOf t.dev m r = { base := w0.toNat, last := w1.toNat, rd := BitVec.ofNat 8 (fld w2 15 8)
                           wr := BitVec.ofNat 8 (fld w2 7 0), enable := bit v 31, owner := bit v 30
                           locked := bit v 29 })

/-- R353–R355, R357–R359, R361, Table 12.13: claim, release, forced release, withdrawal, return and grant of a block; the
debug enables and what they allow; the TAP; the clears. That the enables in force are the union of the certificates' is the
model's reading (log entry 39). -/
def Obligations.HandOverAndDebug : Prop :=
  (∀ (s : State) (b : Fin 17), lockUp s.dev = true →
    ((hoOf s.dev b).state = .nOwned → ∃ t, exec (.hoClaim b) s = .next t ∧ (hoOf t.dev b).state = .releaseReq ∧
      (hoOf t.dev b).at_ = s.dev.wall ∧ bit (rd t.dev 0x1300004) 0 = true) ∧
    ((hoOf s.dev b).state ≠ .nOwned → ∃ t, exec (.hoClaim b) s = .next t ∧ t.dev.wld = s.dev.wld) ∧
    ((hoOf s.dev b).state = .releaseReq →
      (s.dev.wall - (hoOf s.dev b).at_ < 1000000 * hoTimeoutMs s.dev → exec (.hoTimeout b) s = .next s) ∧
      (1000000 * hoTimeoutMs s.dev ≤ s.dev.wall - (hoOf s.dev b).at_ → ∃ t, exec (.hoTimeout b) s = .next t ∧ (hoOf t.dev b).state = .toS ∧ (hoOf t.dev b).forced = true ∧
        bit (rd t.dev 0x1300004) 2 = true ∧ cnt t.dev 0x1300408 = cnt s.dev 0x1300408 + 1 ∧
        (b.val < 16 → (canOf t.dev b).state = .config ∧ (canOf t.dev b).loaded = [] ∧
          ∀ e ∈ t.dev.basin.queues, e.dest ≠ Dest.can b) ∧
        ∀ k, k ≠ b.val → hoOf t.dev k = hoOf s.dev k) ∧
      exec (.hoWithdraw b) s =
        .next { s with dev := setHo s.dev b { hoOf s.dev b with state := .nOwned } }) ∧
    ((hoOf s.dev b).state ≠ .releaseReq → exec (.hoTimeout b) s = .next s ∧ exec (.hoWithdraw b) s = .next s) ∧
    ((hoOf s.dev b).state = .sOwned → ∃ t, exec (.hoReturn b) s = .next t ∧ (hoOf t.dev b).state = .toN ∧
      (b.val < 16 → (canOf t.dev b).state = .config)) ∧
    ((hoOf s.dev b).state = .toS → ∃ t, exec (.hoGrant b) s = .next t ∧ (hoOf t.dev b).state = .sOwned ∧
      (hoOf t.dev b).count = (hoOf s.dev b).count + 1 ∧ bit (rd t.dev 0x1300004) 1 = true ∧
      ((hoOf s.dev b).cmd = true → resultValid t.dev 0x1300014 = true ∧ fld (rd t.dev 0x1300014) 30 28 = 0)) ∧
    ((hoOf s.dev b).state = .toN → ∃ t, exec (.hoGrant b) s = .next t ∧ (hoOf t.dev b).state = .nOwned ∧
      (hoOf t.dev b).count = (hoOf s.dev b).count + 1 ∧ bit (rd t.dev 0x1300004) 1 = true)) ∧
  (∀ (s : State) (b : BitVec 5),
    (resultValid s.dev 0x1300014 = false → ∃ t, exec (.hoRelease b) s = .next t ∧ t.dev.wld = s.dev.wld ∧
      rd t.dev 0x1300014 = rd s.dev 0x1300014 ∧ bit (rd t.dev 0x1300004) 6 = true) ∧
    (resultValid s.dev 0x1300014 = true → 16 < b.toNat → ∃ t, exec (.hoRelease b) s = .next t ∧
      t.dev.wld = s.dev.wld ∧ fld (rd t.dev 0x1300014) 30 28 = 1) ∧
    (resultValid s.dev 0x1300014 = true → b.toNat ≤ 16 → (hoOf s.dev b.toNat).state ≠ .releaseReq →
      ∃ t, exec (.hoRelease b) s = .next t ∧ t.dev.wld = s.dev.wld ∧ fld (rd t.dev 0x1300014) 30 28 = 2) ∧
    (resultValid s.dev 0x1300014 = true → b.toNat ≤ 16 → (hoOf s.dev b.toNat).state = .releaseReq →
      ∃ t, exec (.hoRelease b) s = .next t ∧ (hoOf t.dev b.toNat).state = .toS ∧
      (hoOf t.dev b.toNat).forced = false ∧ (hoOf t.dev b.toNat).cmd = true ∧
      resultValid t.dev 0x1300014 = false)) ∧
  (∀ (s : State) (v : Word), ∃ t, exec (.debugEnableLower v) s = .next t ∧
    (bit v 31 = true → t.dev.wld.nInv = false) ∧ (bit v 30 = true → t.dev.wld.nNinv = false) ∧
    (∀ b, b < 5 → b ≠ 1 ∨ bit v 31 = false → b ≠ 0 ∨ bit v 30 = false →
      [t.dev.wld.nNinv, t.dev.wld.nInv, t.dev.wld.sNinv, t.dev.wld.sInv, t.dev.wld.qmDbg][b]? =
        some (s.dev.wld.certs.any fun c => c.grants.getLsbD b)) ∧
    (t.dev.wld.nInv ≠ s.dev.wld.nInv ∨ t.dev.wld.nNinv ≠ s.dev.wld.nNinv → bit (rd t.dev 0x1300004) 5 = true ∧
      (t.dev.wld.nInv = false → t.dev.clt.halted = 0 ∧ t.dev.clt.qmHalted = false ∧
        ∀ k, tget 0 t.dev.clt.triggers k = 0))) ∧
  (∀ s : State, (certDue s.dev = none → exec .debugLifetimeExpire s = .next s) ∧
    ∀ e, certDue s.dev = some e → (s.dev.wall < e → exec .debugLifetimeExpire s = .next s) ∧
      (e ≤ s.dev.wall → ∃ t, exec .debugLifetimeExpire s = .next t ∧
        (∀ c, c ∈ t.dev.wld.certs ↔ c ∈ s.dev.wld.certs ∧ c.ends ≠ some e ∧ c.grants ≠ 0) ∧
        (t.dev.wld.nInv = true ↔ ∃ c ∈ t.dev.wld.certs, c.grants.getLsbD 1 = true) ∧
        (t.dev.wld.sInv = true ↔ ∃ c ∈ t.dev.wld.certs, c.grants.getLsbD 3 = true))) ∧
  (∀ (s : State) (h : Fin 10) (on : Bool) (c : DebugOp), c = (if on then .halt else .resume) →
    (debugCovers s.dev h = false → exec (.debugHalt h c) s = .next { s with dev := emit s.dev (.debugError h) }) ∧
    (debugCovers s.dev h = true → procUp s.dev h = false → exec (.debugHalt h c) s = .next s) ∧
    (debugCovers s.dev h = true → procUp s.dev h = true → ∃ t, exec (.debugHalt h c) s = .next t ∧
      t = { s with dev := { s.dev with out := .halt h on :: s.dev.out, clt := t.dev.clt } } ∧
      (h.val < 8 → t.dev.clt = { s.dev.clt with halted := t.dev.clt.halted } ∧ ∀ k < 8, t.dev.clt.halted.getLsbD k =
        if k = h.val then on else s.dev.clt.halted.getLsbD k) ∧
      (h.val = 8 → t.dev.clt = { s.dev.clt with qmHalted := on }) ∧
      (h.val = 9 → t.dev.clt = { s.dev.clt with lockHalted := on }))) ∧
  (∀ (s : State) (h : Fin 10) (i : Fin 4) (v : DWord), let held := debugCovers s.dev h && debugHalted s.dev h
    (held = false → ∀ c ∈ [DebugOp.step, .access, .trigger i v],
      exec (.debugHalt h c) s = .next { s with dev := emit s.dev (.debugError h) }) ∧
    (held = true → exec (.debugHalt h .step) s = .next { s with dev := emit s.dev (.debugStep h) } ∧
      (∃ x, exec (.debugHalt h .access) s =
        .next { s with dev := { s.dev with free := s.dev.free + 1, out := .debugData h x :: s.dev.out } }) ∧
      (h.val < 8 → ∃ t, exec (.debugHalt h (.trigger i v)) s = .next t ∧
        t = { s with dev := { s.dev with clt := { s.dev.clt with triggers := t.dev.clt.triggers } } } ∧
        ∀ k, tget 0 t.dev.clt.triggers k = if k = 4 * h.val + i.val then v else tget 0 s.dev.clt.triggers k)) ∧
    (debugSees s.dev h = false → exec (.debugHalt h .trace) s = .next { s with dev := emit s.dev (.debugData h 0) })) ∧
  (∀ s : State, (debugCovers s.dev 9 = s.dev.wld.sInv) ∧ (debugCovers s.dev 8 = (s.dev.wld.nInv && s.dev.wld.qmDbg)) ∧
    ∀ h < 8, debugCovers s.dev h = s.dev.wld.nInv) ∧
  (∀ (s : State) (code : Fin 6), ∃ acts, exec (.tapInstruction code) s =
      .next { s with dev := { s.dev with
        out := (if code.val = 1 then [Out.idcode idcode] else []) ++ .tap code acts :: s.dev.out } } ∧
    (acts = true ↔ code.val < 3 ∨ (s.dev.bwk.state = .empty ∧ (s.dev.keys.lc = 0 ∨ s.dev.keys.lc = 3)))) ∧
  (∀ s : State, ∃ t, exec .wldClearLog s = .next t ∧ t = { s with dev := { s.dev with regs := t.dev.regs } } ∧
    (∀ e < 16, rd t.dev (0x1300100 + 32 * e) = rd s.dev (0x1300100 + 32 * e) &&& 0x7FFFFFFF) ∧
    ∀ a, (∀ e < 16, a ≠ 0x1300100 + 32 * e) → rd t.dev a = rd s.dev a) ∧
  ClearsExactly .wldClearCounters (fun a => 0x1300400 ≤ a ∧ a < 0x1300420)

/-- The data read of KEY_REQ `x` (R148, R368). -/
def keyWait (n : Fin 4096) (r : Fin 8) (x : Desc) : ReadWait := { dataWait n r x with len := fld (dw x 4) 12 0 }

/-- R346, R347, R368, R386, Tables 12.8, 12.9: the owner posts, acknowledges and cancels; other requesters are refused; the
Lock's response is written or discarded; a slot times out 1 s after its posting, and a cancelled one is freed 1 s after its
cancellation (which the model counts from there: assumption 99), not before; a KEY_REQ whose data is in hand is posted by the
engine, and completes with its response, KEY_FAIL or TIMEOUT. When REQUESTS counts, and the response a cancelled request
keeps, are the model's reading (log entry 38). -/
def Obligations.MailboxSlots : Prop :=
  (∀ (s : State) (who : Requester) (k : Fin 16) (h : Word), Waits (.mailboxPost who k h) s who (aMbxReq k 0) ∧
    Waits (.ack who k) s who (aMbxReq k 0 + 0x80) ∧ Waits (.cancel who k) s who (aMbxReq k 0 + 0x80)) ∧
  (∀ (s : State) (who : Requester) (k : Fin 16) (h : Word), NoneBefore s who (aMbxReq k 0) →
    NoneBefore s who (aMbxReq k 0 + 0x80) →
    (mbxOwner who k = false → exec (.mailboxPost who k h) s = .next (StrictRefusal s who (aMbxReq k 0)) ∧
      exec (.ack who k) s = .next (StrictRefusal s who (aMbxReq k 0 + 0x80)) ∧
      exec (.cancel who k) s = .next (StrictRefusal s who (aMbxReq k 0 + 0x80))) ∧
    (mbxOwner who k = true →
      ((mbxOf s.dev k).state = .free → ∃ t, exec (.mailboxPost who k h) s = .next t ∧ (mbxOf t.dev k).state = .posted ∧
        (mbxOf t.dev k).at_ = s.dev.wall ∧ (mbxOf t.dev k).order = s.dev.keys.order ∧
        t.dev.keys.order = s.dev.keys.order + 1 ∧ rd t.dev (aMbxReq k 0) = h ∧
        resultValid t.dev (aMbxRsp k 0) = false ∧ t.dev.out = .busOk who 0 :: .lockIrq 0 k :: s.dev.out ∧
        cnt t.dev 0x1400040 = cnt s.dev 0x1400040 + 1 ∧ ∀ j, j ≠ k.val → mbxOf t.dev j = mbxOf s.dev j) ∧
      ((mbxOf s.dev k).state ≠ .free → exec (.mailboxPost who k h) s =
        .next (StrictDone { s with dev := inc s.dev 0x1400050 } who)) ∧
      ((mbxOf s.dev k).state = .done → exec (.ack who k) s =
        .next (StrictDone { s with dev := setMbx s.dev k {} } who)) ∧
      ((mbxOf s.dev k).state ≠ .done → exec (.ack who k) s = .next (StrictDone s who)) ∧
      ((mbxOf s.dev k).state = .posted ∨ (mbxOf s.dev k).state = .taken → ∃ t, exec (.cancel who k) s = .next t ∧
        (mbxOf t.dev k).state = .cancelled ∧ (mbxOf t.dev k).at_ = s.dev.wall ∧ cnt t.dev 0x1400060 = cnt s.dev 0x1400060 + 1 ∧
        fld (rd t.dev (aMbxRsp k 0)) 30 24 = 0x7F ∧ resultValid t.dev (aMbxRsp k 0) = true ∧
        t.dev.out = .busOk who 0 :: s.dev.out) ∧
      ((mbxOf s.dev k).state = .free ∨ (mbxOf s.dev k).state = .done ∨ (mbxOf s.dev k).state = .cancelled →
        exec (.cancel who k) s = .next (StrictDone s who)))) ∧
  (∀ (s : State) (k : Fin 16),
    ((mbxOf s.dev k).state = .posted ∨ (mbxOf s.dev k).state = .taken →
      1000000000 ≤ s.dev.wall - (mbxOf s.dev k).at_ → ∃ t, exec (.mailboxTimeout k) s = .next t ∧
      (mbxOf t.dev k).state = .done ∧ (mbxOf t.dev k).status = 0x7E ∧
      cnt t.dev 0x1400058 = cnt s.dev 0x1400058 + 1 ∧
      (8 ≤ k.val → fld (rd t.dev (aMbxRsp k 0)) 30 24 = 0x7E ∧ resultValid t.dev (aMbxRsp k 0) = true ∧
        fld (rd t.dev (aMbxRsp k 0)) 15 0 = fld (rd s.dev (aMbxReq k 0)) 15 0 ∧
        t.dev.out = (if k.val < 12 then .qmIrq k else .aplic 7) :: s.dev.out)) ∧
    ((mbxOf s.dev k).state = .free ∨ (mbxOf s.dev k).state = .done ∨ (mbxOf s.dev k).state = .cancelled →
      exec (.mailboxTimeout k) s = .next s) ∧
    (s.dev.wall - (mbxOf s.dev k).at_ < 1000000000 → exec (.mailboxTimeout k) s = .next s ∧
      exec (.cancelledSlotTimeout k) s = .next s) ∧
    ((mbxOf s.dev k).state = .cancelled → 1000000000 ≤ s.dev.wall - (mbxOf s.dev k).at_ →
      exec (.cancelledSlotTimeout k) s = .next { s with dev := setMbx s.dev k {} }) ∧
    ((mbxOf s.dev k).state ≠ .cancelled → exec (.cancelledSlotTimeout k) s = .next s)) ∧
  (∀ (s : State) (j : LockJob), lockUp s.dev = true → s.dev.keys.job = some j → j.cut = false → j.slot < 16 →
    ((mbxOf s.dev j.slot).state = .taken → 8 ≤ j.slot → j.out.length ≤ 60 → j.status < 128 →
      ∃ t, exec .mailboxResponse s = .next t ∧ t.dev.keys.job = none ∧ (mbxOf t.dev j.slot).state = .done ∧
      rd t.dev (aMbxRsp j.slot 0) = flag true 31 ||| at_ j.status 24 ||| at_ j.out.length 16 |||
        at_ (fld (rd s.dev (aMbxReq j.slot 0)) 15 0) 0 ∧
      ∀ i < 15, rd t.dev (aMbxRsp j.slot (i + 1)) = leWord j.out i) ∧
    ((mbxOf s.dev j.slot).state = .taken → j.slot < 8 → ∃ t, exec .mailboxResponse s = .next t ∧
      t.dev.keys.job = none ∧ (mbxOf t.dev j.slot).state = .done ∧ (mbxOf t.dev j.slot).status = j.status ∧
      (mbxOf t.dev j.slot).rsp.drop 4 = j.out) ∧
    ((mbxOf s.dev j.slot).state = .cancelled → ∃ t, exec .mailboxResponse s = .next t ∧ t.dev.keys.job = none ∧
      mbxOf t.dev j.slot = {} ∧ t.dev.out = s.dev.out) ∧
    ((mbxOf s.dev j.slot).state = .done → ∃ t, exec .mailboxResponse s = .next t ∧
      t = { s with dev := { s.dev with keys := { s.dev.keys with job := none } } })) ∧
  (∀ (s : State) (n : Fin 4096) (r : Fin 8) (x : Desc) (rest : List Desc), ReadyAtFront s n r x rest →
    opOf x = 0x30 → s.dev.slips.waits = [] →
    (freeTag s.dev n = none → ∀ data, ∃ t, exec (.keyReq n r data) s = .next t ∧ t.dev.keys = s.dev.keys ∧
      (ringOf t.dev n r).inflight = { x with stage := .reading } :: rest ∧ t.dev.slips.waits = [keyWait n r x]) ∧
    (∀ g, freeTag s.dev n = some g → fld (dw x 4) 12 0 ≤ partLen s.dev (keyWait n r x) →
      (∃ t, exec (.keyReq n r none) s = .next t ∧ (ringOf t.dev n r).inflight = { x with stage := .reading } :: rest ∧
        t.dev.out = .readReq n g (bufAddr x) (fld (dw x 4) 12 0) :: s.dev.out ∧ t.dev.keys = s.dev.keys) ∧
      ∀ b : List Byte,
        (∀ k, engineFree s.dev = some k → ∃ t, exec (.keyReq n r (some b)) s = .next t ∧
          (mbxOf t.dev k).state = .posted ∧ (mbxOf t.dev k).slip = n.val ∧ (mbxOf t.dev k).ring = r.val ∧
          (mbxOf t.dev k).idx = x.idx ∧ (mbxOf t.dev k).req = b.take (fld (dw x 4) 12 0) ∧
          (mbxOf t.dev k).at_ = s.dev.wall ∧ cnt t.dev 0x1400040 = cnt s.dev 0x1400040 + 1 ∧
          (ringOf t.dev n r).inflight = { x with stage := .started, data := [], passed := true, parts := [] } :: rest) ∧
        (engineFree s.dev = none → ∃ t, exec (.keyReq n r (some b)) s = .next t ∧ t.dev.keys = s.dev.keys ∧
          (ringOf t.dev n r).inflight =
            { x with stage := .reading, data := b, passed := true, parts := [] } :: rest))) ∧
  (∀ (s : State) (n : Fin 4096) (r : Fin 8) (x : Desc) (rest : List Desc) (k : Nat) (data : Option (List Byte)),
    (ringOf s.dev n r).inflight = x :: rest → x.stage = .reading → opOf x = 0x30 → x.passed = true →
    (∀ y ∈ rest, y.idx ≠ x.idx) → engineFree s.dev = some k → ∃ t, exec (.keyReq n r data) s = .next t ∧
      (mbxOf t.dev k).state = .posted ∧ (mbxOf t.dev k).req = x.data.take (fld (dw x 4) 12 0) ∧
      (ringOf t.dev n r).inflight = { x with stage := .started, data := [] } :: rest) ∧
  (∀ (s : State) (n r : Nat) (x : Desc) (rest : List Desc) (k : Fin 8), AtFront s n r x rest →
    (mbxOf s.dev k).slip = n → (mbxOf s.dev k).ring = r → (mbxOf s.dev k).idx = x.idx →
    ((mbxOf s.dev k).state = .done → (mbxOf s.dev k).status ≠ 0x7E →
      (mbxOf s.dev k).rsp.length ≤ fld (dw x 7) 12 0 → ∃ t, exec (.keyReqDone k) s = .next t ∧ mbxOf t.dev k = {} ∧
      Completed s t n r x rest
        (.dma n ((dw x 5).toNat + 2 ^ 32 * (dw x 6).toNat) (mbxOf s.dev k).rsp :: s.dev.out)
        { status := if (mbxOf s.dev k).status = 0 then 0 else 0x0D, ts := devTime s.dev
          c4 := at_ (mbxOf s.dev k).rsp.length 0, c5 := at_ (mbxOf s.dev k).status 0 }) ∧
    ((mbxOf s.dev k).state = .done → (mbxOf s.dev k).status ≠ 0x7E →
      fld (dw x 7) 12 0 < (mbxOf s.dev k).rsp.length → ∃ t, exec (.keyReqDone k) s = .next t ∧ mbxOf t.dev k = {} ∧
      Completed s t n r x rest s.dev.out { status := 0x0D, ts := devTime s.dev, c5 := 2 }) ∧
    ((mbxOf s.dev k).state = .done → (mbxOf s.dev k).status = 0x7E → ∃ t, exec (.keyReqDone k) s = .next t ∧
      mbxOf t.dev k = {} ∧
      Completed s t n r x rest s.dev.out { status := 0x0E, ts := devTime s.dev, c5 := at_ 0x7E 0 }) ∧
    ((mbxOf s.dev k).state = .posted ∨ (mbxOf s.dev k).state = .taken →
      s.dev.wall - (mbxOf s.dev k).at_ < 1000000000 → exec (.keyReqTimeout k) s = .next s) ∧
    ((mbxOf s.dev k).state = .posted ∨ (mbxOf s.dev k).state = .taken →
      1000000000 ≤ s.dev.wall - (mbxOf s.dev k).at_ → ∃ t, exec (.keyReqTimeout k) s = .next t ∧
      mbxOf t.dev k = {} ∧ Completed s t n r x rest s.dev.out { status := 0x0E, ts := devTime s.dev, c5 := at_ 0x7E 0 } ∧
      cnt t.dev 0x1400058 = cnt s.dev 0x1400058 + 1))

/-- The Lock is about to serve the request `q` of slot `k`, inline, well formed, admitted, and not forbidden by the state;
its input is `inp` (R366, R367). -/
def Served (s : State) (k code : Nat) (q : KeyReq) (inp : List Byte) : Prop :=
  oldestPosted s.dev = some k ∧ lockIdle s.dev = true ∧ q = requestOf s.dev k ∧ q.service = code ∧
  (serviceMask code).testBit q.who.code = true ∧ badLength s.dev k = false ∧ payloadBad q = false ∧
  q.byaddr = false ∧ inp = (q.payload.drop 8).take q.inLen ∧ lcForbids s.dev code = false

/-- The Lock has taken the request and holds the answer of `st` with `out` (R347, R367). -/
def Answered (s t : State) (k st : Nat) (out : List Byte) : Prop :=
  t.dev.keys.job = some { slot := k, status := st, out := leBytes out.length 4 ++ out } ∧
  (mbxOf t.dev k).state = .taken ∧ t.mem = s.mem ∧ t.pending = s.pending

/-- The requester may use the key of World N slot `k` under `usage` with an algorithm of `alg` (R364, R370). -/
def Usable (s : State) (q : KeyReq) (k usage : Nat) (alg : Nat → Bool) : Prop :=
  16 ≤ k ∧ inUsers (keyOfSlot s.dev k) q.who = true ∧ (keyOfSlot s.dev k).alg ≠ 0 ∧
  (keyOfSlot s.dev k).fault = false ∧ (keyOfSlot s.dev k).usage = usage ∧ alg (keyOfSlot s.dev k).alg = true

/-- The requester may create or update slot `k`, which stands at the GEN it expects (R362, R371). -/
def Creatable (s : State) (q : KeyReq) (k : Nat) (inp : List Byte) : Prop :=
  16 ≤ k ∧ mayCreate k q.who = true ∧ (keyOfSlot s.dev k).fault = false ∧
  (keyOfSlot s.dev k).gen.toNat = (leWord inp 1).toNat ∧ attrBad (leWord inp 0) q.who = false

/-- Slot `k` holds a new key with the attributes of `inp` and the next GEN in the other copy, whose flash record is whole and
committed; no other slot changed. A public key is held as x and the parity of y (Table 13.16). -/
def NewKey (s t : State) (k : Nat) (inp key : List Byte) : Prop :=
  keyOfSlot t.dev k = { attrSlot (leWord inp 0) with
    key := key, gen := (keyOfSlot s.dev k).gen + 1, copy := !(keyOfSlot s.dev k).copy
    dom := creationDomain s.dev.keys.lc } ∧
  (∀ j, j ≠ k → keyOfSlot t.dev j = keyOfSlot s.dev j) ∧ bit (rd t.dev 0x1400004) 0 = true ∧
  recOf t.dev k (!(keyOfSlot s.dev k).copy) = some { key := keyOfSlot t.dev k } ∧
  t.dev.keys.journal = s.dev.keys.journal ++
    [{ slot := k, gen := (keyOfSlot s.dev k).gen + 1, copy := !(keyOfSlot s.dev k).copy }] ∧
  ((keyOfSlot s.dev k).alg ≠ 0 → cnt t.dev 0x1400068 = cnt s.dev 0x1400068 + 1)

/-- R362, R364, R369–R371, R373, R375, Table 13.7: GENERATE, IMPORT, DERIVE, AGREE and DESTROY when every check passes, with
a flash that fails and with a power failure before, in and after the commit; a stale EXPECT_GEN and a foreign slot change
nothing. The order among several refusals of one request is the model's reading (log entry 37), as are the lengths a payload
must have; what a flash write that fails twice leaves is log entry 38, the journal log entry 98. -/
def Obligations.KeysCreatedAndDestroyed : Prop :=
  (∀ (s : State) (k : Nat) (q : KeyReq) (inp : List Byte), Served s k 0x02 q inp → inp.length = 8 →
    Creatable s q q.slot inp → isPub (attrSlot (leWord inp 0)).alg = false →
    (k < 8 ∨ isPriv (attrSlot (leWord inp 0)).alg = false → ∃ t key, exec (.generate .ok) s = .next t ∧
      key.length = keyLen (attrSlot (leWord inp 0)).alg ∧ NewKey s t q.slot inp key ∧
      Answered s t k 0 (leBytes ((keyOfSlot s.dev q.slot).gen + 1).toNat 4 ++
        if isPriv (attrSlot (leWord inp 0)).alg then
          eccPublic (curveOf (attrSlot (leWord inp 0)).alg) key else [])) ∧
    (∃ t, exec (.generate .bad) s = .next t ∧ t.dev.keys.slots = s.dev.keys.slots ∧ Answered s t k 11 [] ∧
      q.slot ∈ t.dev.keys.torn ∧ t.dev.keys.journal = s.dev.keys.journal ∧ cnt t.dev 0x1400048 = cnt s.dev 0x1400048 + 1) ∧
    (∃ t j, exec (.generate (.cut .early)) s = .next t ∧ t.dev.keys.slots = s.dev.keys.slots ∧
      t.dev.keys.job = some j ∧ j.cut = true ∧ t.dev.keys.torn = s.dev.keys.torn) ∧
    (∃ t j, exec (.generate (.cut .torn)) s = .next t ∧ t.dev.keys.slots = s.dev.keys.slots ∧
      t.dev.keys.job = some j ∧ j.cut = true ∧ q.slot ∈ t.dev.keys.torn ∧
      (∀ i, commitOf t.dev.keys.journal i = commitOf s.dev.keys.journal i)) ∧
    (∃ t j key, exec (.generate (.cut .whole)) s = .next t ∧ t.dev.keys.job = some j ∧ j.cut = true ∧
      NewKey s t q.slot inp key ∧ q.slot ∉ t.dev.keys.torn)) ∧
  (∀ (s : State) (k : Nat) (q : KeyReq) (inp : List Byte), Served s k 0x03 q inp → 24 ≤ inp.length →
    Creatable s q q.slot inp → Usable s q q.slot2 2 isAes → ∃ t, exec (.keyImport .ok) s = .next t ∧
    (∀ key, keyUnwrap (keyOfSlot s.dev q.slot2).key (inp.drop 8) = some key →
      key.length = wireLen (attrSlot (leWord inp 0)).alg →
      NewKey s t q.slot inp (keyHold (attrSlot (leWord inp 0)).alg key) ∧
      Answered s t k 0 (leBytes ((keyOfSlot s.dev q.slot).gen + 1).toNat 4)) ∧
    (keyUnwrap (keyOfSlot s.dev q.slot2).key (inp.drop 8) = none →
      t.dev.keys.slots = s.dev.keys.slots ∧ Answered s t k 7 []) ∧
    (∀ key, keyUnwrap (keyOfSlot s.dev q.slot2).key (inp.drop 8) = some key →
      key.length ≠ wireLen (attrSlot (leWord inp 0)).alg →
      t.dev.keys.slots = s.dev.keys.slots ∧ Answered s t k 2 [])) ∧
  (∀ (s : State) (k n : Nat) (q : KeyReq) (inp : List Byte), Served s k 0x17 q inp → n = (inp.getD 8 0).toNat →
    9 + n ≤ inp.length → q.arg ≤ 1 → Creatable s q q.slot2 inp → isPub (attrSlot (leWord inp 0)).alg = false →
    Usable s q q.slot 3 (fun g => isAes g || isHmac g || g == 9 || g == 10) → ∃ t, exec (.derive .ok) s = .next t ∧
    NewKey s t q.slot2 inp (hkdf q.arg (keyOfSlot s.dev q.slot).key ((inp.drop 9).take n)
      ((inp.drop 9).drop n) (keyLen (attrSlot (leWord inp 0)).alg)) ∧
    Answered s t k 0 (leBytes ((keyOfSlot s.dev q.slot2).gen + 1).toNat 4)) ∧
  (∀ (s : State) (k g : Nat) (q : KeyReq) (inp : List Byte), Served s k 0x18 q inp → Creatable s q q.slot2 inp →
    g = (keyOfSlot s.dev q.slot).alg → Usable s q q.slot 3 isPriv → inp.length = 8 + 2 * curveSize g →
    (attrSlot (leWord inp 0)).alg = 9 + curveOf g → ∃ t, exec (.agree .ok) s = .next t ∧
    (∀ z, ecdh (curveOf g) (keyOfSlot s.dev q.slot).key (inp.drop 8) = some z → NewKey s t q.slot2 inp z ∧
      Answered s t k 0 (leBytes ((keyOfSlot s.dev q.slot2).gen + 1).toNat 4)) ∧
    (ecdh (curveOf g) (keyOfSlot s.dev q.slot).key (inp.drop 8) = none →
      t.dev.keys.slots = s.dev.keys.slots ∧ Answered s t k 7 [])) ∧
  (∀ (s : State) (k : Nat) (q : KeyReq) (inp : List Byte), Served s k 0x05 q inp → inp.length = 4 → 16 ≤ q.slot →
    mayCreate q.slot q.who = true → (keyOfSlot s.dev q.slot).alg ≠ 0 →
    (keyOfSlot s.dev q.slot).gen.toNat = leNat inp → ∃ t, exec (.keyDestroy .ok) s = .next t ∧ Answered s t k 0 [] ∧
    keyOfSlot t.dev q.slot = {} ∧ recOf t.dev q.slot false = none ∧ recOf t.dev q.slot true = none ∧
    commitOf t.dev.keys.journal q.slot = none ∧ (∀ j, j ≠ q.slot → keyOfSlot t.dev j = keyOfSlot s.dev j) ∧
    bit (rd t.dev 0x1400004) 0 = true ∧
    ((keyOfSlot s.dev q.slot).usage = 3 → ∀ e ∈ t.dev.keys.tunFrom, e.2 ≠ q.slot + 1) ∧
    ∃ t, exec (.keyDestroy (.cut .early)) s = .next t ∧ t.dev.keys.slots = s.dev.keys.slots) ∧
  (∀ (s : State) (k : Nat) (q : KeyReq) (inp : List Byte), Served s k 0x02 q inp → inp.length = 8 →
    attrBad (leWord inp 0) q.who = false → isPub (attrSlot (leWord inp 0)).alg = false →
    (q.slot < 16 → ∃ t, exec (.generate .ok) s = .next t ∧ t.dev.keys.slots = s.dev.keys.slots ∧ Answered s t k 5 []) ∧
    (16 ≤ q.slot → mayCreate q.slot q.who = false → ∃ t, exec (.generate .ok) s = .next t ∧
      t.dev.keys.slots = s.dev.keys.slots ∧ Answered s t k 6 []) ∧
    (16 ≤ q.slot → mayCreate q.slot q.who = true → (keyOfSlot s.dev q.slot).fault = false →
      (keyOfSlot s.dev q.slot).gen.toNat ≠ (leWord inp 1).toNat → ∃ t, exec (.generate .ok) s = .next t ∧
      t.dev.keys.slots = s.dev.keys.slots ∧
      Answered s t k 12 (leBytes (keyOfSlot s.dev q.slot).gen.toNat 4)))

/-- The answer is `out`, where it fits the response: 56 bytes inline in the mailbox (R367); else BAD_ARG. -/
def Returned (s t : State) (k : Nat) (out : List Byte) : Prop :=
  (k < 8 ∨ out.length ≤ 56 → Answered s t k 0 out) ∧ (8 ≤ k → 56 < out.length → Answered s t k 2 [])

/-- R364, R365, R367, R369, R370, R372: each service that uses a key answers with the result of its standard, a tag or
signature that does not match is VERIFY_FAIL, a key outside USERS is DENIED and an empty slot EMPTY; engine keys are
installed; a BYADDR request reads and writes memory where the regions let the Lock. The addresses of the Quaymaster's BYADDR
(presumed, log entry 36), the lengths and refusals of log entry 37, and the form of public keys (log entry 40) are the
model's choices. -/
def Obligations.KeyServicesAnswer : Prop :=
  (∀ (s : State) (k a : Nat) (q : KeyReq) (inp : List Byte), a = aadLen inp →
    (Served s k 0x10 q inp → 14 + a ≤ inp.length → Usable s q q.slot 0 isAes →
      ∃ t, exec .seal s = .next t ∧ t.dev.keys.slots = s.dev.keys.slots ∧ Returned s t k
        (gcmSeal (keyOfSlot s.dev q.slot).key (inp.take 12) ((inp.drop 14).take a) ((inp.drop 14).drop a))) ∧
    (Served s k 0x11 q inp → 30 + a ≤ inp.length → Usable s q q.slot 1 isAes → ∀ c, c = (inp.drop 14).drop a →
      ∃ t, exec .keyOpen s = .next t ∧
        match gcmOpen (keyOfSlot s.dev q.slot).key (inp.take 12) ((inp.drop 14).take a)
          (c.take (c.length - 16)) (c.drop (c.length - 16)) with
        | some p => Returned s t k p
        | none => Answered s t k 7 []) ∧
    (Served s k 0x12 q inp → Usable s q q.slot 0 isHmac → ∃ t, exec .keyMac s = .next t ∧ Returned s t k
      (hmac (hashOf (keyOfSlot s.dev q.slot).alg) (keyOfSlot s.dev q.slot).key inp)) ∧
    (Served s k 0x13 q inp → Usable s q q.slot 1 isHmac → ∀ n, n = hashLen (hashOf (keyOfSlot s.dev q.slot).alg) →
      n ≤ inp.length → ∃ t, exec .macCheck s = .next t ∧ Answered s t k
        (if hmac (hashOf (keyOfSlot s.dev q.slot).alg) (keyOfSlot s.dev q.slot).key (inp.drop n) = inp.take n
          then 0 else 7) []) ∧
    (Served s k 0x14 q inp → Usable s q q.slot 0 isPriv → inp.length = curveSize (keyOfSlot s.dev q.slot).alg →
      ∃ t nonce, exec .sign s = .next t ∧ Returned s t k (ecdsaSign (curveOf (keyOfSlot s.dev q.slot).alg)
        (keyOfSlot s.dev q.slot).key inp nonce)) ∧
    (Served s k 0x15 q inp → Usable s q q.slot 1 isPub → ∀ n, n = curveSize (keyOfSlot s.dev q.slot).alg →
      inp.length = 3 * n → ∃ t, exec .verify s = .next t ∧ Answered s t k
        (if ecdsaVerify (curveOf (keyOfSlot s.dev q.slot).alg) (keyFull (keyOfSlot s.dev q.slot)) (inp.take n)
          (inp.drop n) = true then 0 else 7) []) ∧
    (Served s k 0x16 q inp → q.arg ≤ 2 → ∃ t, exec .keyHash s = .next t ∧ Returned s t k (digest q.arg inp)) ∧
    (Served s k 0x06 q inp → inp = [] → 16 ≤ q.slot → (keyOfSlot s.dev q.slot).fault = false →
      (isPub (keyOfSlot s.dev q.slot).alg = true →
        ∃ t, exec .keyPublic s = .next t ∧ Returned s t k (keyFull (keyOfSlot s.dev q.slot))) ∧
      (isPriv (keyOfSlot s.dev q.slot).alg = true → ∃ t, exec .keyPublic s = .next t ∧
        Returned s t k (eccPublic (curveOf (keyOfSlot s.dev q.slot).alg) (keyOfSlot s.dev q.slot).key))) ∧
    (Served s k 0x04 q inp → inp = [] → 16 ≤ q.slot → (keyOfSlot s.dev q.slot).alg ≠ 0 →
      (keyOfSlot s.dev q.slot).fault = false → Usable s q q.slot2 2 isAes →
      ((keyOfSlot s.dev q.slot).exportable = true → ∃ t, exec .keyExport s = .next t ∧ Returned s t k
        (leBytes (slotWord q.slot (keyOfSlot s.dev q.slot) &&& 0x7F17FFFF).toNat 4 ++
          keyWrap (keyOfSlot s.dev q.slot2).key (keyFull (keyOfSlot s.dev q.slot)))) ∧
      ((keyOfSlot s.dev q.slot).exportable = false → ∃ t, exec .keyExport s = .next t ∧ Answered s t k 4 [])) ∧
    (Served s k 0x21 q inp → Usable s q q.slot 3 isAes → cknBad inp = false → ∃ t, exec .mkaIcv s = .next t ∧
      Answered s t k 0 ((cmac (mkaIck (keyOfSlot s.dev q.slot).key (cknOf inp)) (afterCkn inp)).take 16))) ∧
  (∀ (s : State) (k : Nat) (q : KeyReq) (inp : List Byte), Served s k 0x19 q inp → q.inLen ≤ 4084 →
    ∃ t out, exec .random s = .next t ∧ out.length = q.inLen ∧ Returned s t k out) ∧
  (∀ (s : State) (k num : Nat) (q : KeyReq) (inp : List Byte), Served s k 0x20 q inp → Usable s q q.slot 3 isAes →
    inp.length = 1 → num = (inp.getD 0 0).toNat → num ≤ 1 →
    bit (tunCfg s.dev q.arg) 31 = false ∨ (streamOf s.dev q.arg).txNum ≠ (num == 1) →
    ∃ t key, exec .tunnelKey s = .next t ∧ Answered s t k 0 [] ∧
      key = hkdf 1 (keyOfSlot s.dev q.slot).key [] ([0x74, 0x75, 0x6E, 0x6E, 0x65, 0x6C] ++
        beBytes (rd64 s.dev (tunBase q.arg + 8)) 8 ++ beBytes num 1) 32 ∧
      (num = 0 → (streamOf t.dev q.arg).key0 = key ∧ (streamOf t.dev q.arg).valid0 = true ∧
        (streamOf t.dev q.arg).key1 = (streamOf s.dev q.arg).key1) ∧
      (num = 1 → (streamOf t.dev q.arg).key1 = key ∧ (streamOf t.dev q.arg).valid1 = true ∧
        (streamOf t.dev q.arg).key0 = (streamOf s.dev q.arg).key0)) ∧
  (∀ (s : State) (k : Nat) (q : KeyReq) (inp : List Byte), Served s k 0x20 q inp → inp.length = 1 →
    bit (tunCfg s.dev q.arg) 31 = true → (streamOf s.dev q.arg).txNum = ((inp.getD 0 0).toNat == 1) →
    ∃ t, exec .tunnelKey s = .next t ∧ Answered s t k 2 [] ∧ t.dev.brg = s.dev.brg) ∧
  (∀ (s : State) (k an : Nat) (q : KeyReq) (inp : List Byte), cknBad inp = false → an ≤ 3 → q.arg ≤ 2 →
    Usable s q q.slot 3 isAes → an = ((afterCkn inp).getD 0 0).toNat →
    (Served s k 0x22 q inp → (afterCkn inp).length = 1 → ∃ t sak out, exec .mkaSak s = .next t ∧ sak.length = 32 ∧
      out = keyWrap (mkaKek (keyOfSlot s.dev q.slot).key (cknOf inp)) sak ∧ Returned s t k out ∧
      (out.length ≤ 56 → (msOf t.dev q.arg).txSa = some { an := an, key := sak })) ∧
    (Served s k 0x23 q inp → (afterCkn inp).length = 41 → ∃ t, exec .mkaSakIn s = .next t ∧
      (∀ sak, keyUnwrap (mkaKek (keyOfSlot s.dev q.slot).key (cknOf inp)) ((afterCkn inp).drop 1) = some sak →
        sak.length = 32 → (msOf t.dev q.arg).txSa = some { an := an, key := sak } ∧ Answered s t k 0 []) ∧
      (keyUnwrap (mkaKek (keyOfSlot s.dev q.slot).key (cknOf inp)) ((afterCkn inp).drop 1) = none →
        t.dev.ms = s.dev.ms ∧ Answered s t k 7 []))) ∧
  (∀ (s : State) (k code : Nat) (q : KeyReq) (inp : List Byte) (c : Instr), Served s k code q inp →
    (c, code) ∈ [(Instr.seal, 0x10), (.keyOpen, 0x11), (.keyMac, 0x12), (.macCheck, 0x13), (.sign, 0x14),
      (.verify, 0x15)] → 30 + aadLen inp ≤ inp.length → 16 ≤ q.slot → (keyOfSlot s.dev q.slot).alg = 0 →
    (inUsers (keyOfSlot s.dev q.slot) q.who = false → ∃ t, exec c s = .next t ∧ Answered s t k 6 [] ∧
      t.dev.keys.slots = s.dev.keys.slots ∧ cnt t.dev 0x1400048 = cnt s.dev 0x1400048 + 1) ∧
    (inUsers (keyOfSlot s.dev q.slot) q.who = true → ∃ t, exec c s = .next t ∧ Answered s t k 3 [])) ∧
  (∀ (s : State) (k ki : Nat) (q : KeyReq) (out : List Byte), oldestPosted s.dev = some k → lockIdle s.dev = true →
    q = requestOf s.dev k → q.service = 0x16 → badLength s.dev k = false → payloadBad q = false → q.byaddr = true →
    q.arg ≤ 2 → (lockReach s.dev (q.le 8 8) q.inLen false).1 = some ki →
    out = digest q.arg (memRead s.mem ki q.inLen) → ∃ t, exec .keyHash s = .next t ∧
      (q.le 24 4 < out.length → Answered s t k 2 []) ∧
      (out.length ≤ q.le 24 4 → ∀ ko, (lockReach s.dev (q.le 16 8) out.length true).1 = some ko →
        t.mem = memWrite s.mem ko out ∧
        t.dev.keys.job = some { slot := k, status := 0, out := leBytes out.length 4 }) ∧
      (out.length ≤ q.le 24 4 → (lockReach s.dev (q.le 16 8) out.length true).1 = none → Answered s t k 14 []))

/-- Some debug certificate of `l` grants enable `b` (R383). -/
def granted (l : List DebugCert) (b : Nat) : Bool := l.any fun c => c.grants.getLsbD b

/-- R376–R384, Tables 13.8–13.12: challenges, transitions whole or refused, debug certificates, attestation and identity, and
the clear. The union of debug certificates, the row a torn transition uses and the vendor's certificate are the model's
reading (log entry 39). -/
def Obligations.LifeCycleAndTokens : Prop :=
  (∀ (s : State) (k : Nat) (q : KeyReq) (inp : List Byte), Served s k 0x30 q inp → inp = [] →
    ∃ t out, exec .challenge s = .next t ∧ out.length = 16 ∧ t.dev.keys.challenge = some out ∧
    Answered s t k 0 out) ∧
  (∀ s : State, exec .challengeExpire s =
    .next { s with dev := { s.dev with keys := { s.dev.keys with challenge := none } } }) ∧
  (∀ (s : State) (k to_ : Nat) (q : KeyReq) (tk : List Byte), Served s k 0x31 q tk → to_ = tokByte tk 33 →
    (∃ t, exec (.transition .ok) s = .next t ∧ t.dev.keys.challenge = none ∧
      (tokenStatus s.dev tk 1 ≠ 0 → Answered s t k (tokenStatus s.dev tk 1) [] ∧ t.dev.keys.lc = s.dev.keys.lc ∧
        t.dev.keys.slots = s.dev.keys.slots ∧ cnt t.dev 0x1400078 = cnt s.dev 0x1400078 + 1 ∧
        bit (rd t.dev 0x1400004) 5 = true) ∧
      (tokenStatus s.dev tk 1 = 0 → to_ ≠ 4 → 32 ≤ s.dev.keys.rowsUsed →
        Answered s t k 13 [] ∧ t.dev.keys.lc = s.dev.keys.lc) ∧
      (tokenStatus s.dev tk 1 = 0 → to_ = 4 ∨ s.dev.keys.rowsUsed < 32 → Answered s t k 0 [] ∧ t.dev.keys.lc = to_ ∧
        t.dev.keys.prev = s.dev.keys.lc ∧ bit (rd t.dev 0x1400004) 1 = true ∧
        t.dev.keys.rowsUsed = (if to_ = 4 then s.dev.keys.rowsUsed else s.dev.keys.rowsUsed + 1) ∧
        (to_ = 4 → t.dev.keys.killed = true) ∧
        (∀ j < 256, (keyOfSlot t.dev j).alg ≠ 0 → keepsDomain to_ (keyOfSlot t.dev j).dom = true) ∧
        (∀ j, 2 ≤ j → j < 256 → keepsDomain to_ (keyOfSlot s.dev j).dom = true →
          keyOfSlot t.dev j = keyOfSlot s.dev j) ∧
        (s.dev.keys.lc = 0 → to_ = 1 → (keyOfSlot t.dev 0).alg = 6 ∧ (keyOfSlot t.dev 0).dom = 1) ∧
        (s.dev.keys.lc = 1 → to_ = 2 → (keyOfSlot t.dev 1).alg = 8 ∧ (keyOfSlot t.dev 1).key = pubHold 8 (tok tk 40 96)) ∧
        (to_ ≠ 4 → s.dev.keys.rowsUsed = 27 → bit (rd t.dev 0x1400004) 4 = true) ∧ rd t.dev 0x1C = rd s.dev 0x1C ∧
        t.dev.wld.nInv = false ∧ t.dev.wld.nNinv = false ∧ t.dev.wld.sInv = false ∧ t.dev.wld.sNinv = false ∧
        t.dev.wld.qmDbg = false)) ∧
    (∃ t, exec (.transition .bad) s = .next t ∧ t.dev.keys.lc = s.dev.keys.lc ∧
      t.dev.keys.slots = s.dev.keys.slots) ∧
    (tokenStatus s.dev tk 1 = 0 → to_ ≠ 4 → s.dev.keys.rowsUsed < 32 →
      (∃ t, exec (.transition (.cut .early)) s = .next t ∧ t.dev.keys.lc = s.dev.keys.lc ∧
        t.dev.keys.rowsUsed = s.dev.keys.rowsUsed ∧ t.dev.keys.slots = s.dev.keys.slots) ∧
      (∃ t, exec (.transition (.cut .torn)) s = .next t ∧ t.dev.keys.lc = s.dev.keys.lc ∧
        (s.dev.keys.rowsUsed = 27 → bit (rd t.dev 0x1400004) 4 = true) ∧ t.dev.keys.rowsUsed = s.dev.keys.rowsUsed + 1 ∧ t.dev.keys.slots = s.dev.keys.slots) ∧
      (∃ t, exec (.transition (.cut .whole)) s = .next t ∧ t.dev.keys.lc = to_ ∧
        t.dev.keys.rowsUsed = s.dev.keys.rowsUsed + 1))) ∧
  (∀ (s : State) (k e : Nat) (q : KeyReq) (tk : List Byte), Served s k 0x32 q tk → e = tokByte tk 32 →
    ∃ t, exec .keyDebug s = .next t ∧ t.dev.keys.challenge = none ∧ t.dev.keys.slots = s.dev.keys.slots ∧
    (tokenStatus s.dev tk 2 ≠ 0 → Answered s t k (tokenStatus s.dev tk 2) [] ∧ t.dev.wld = s.dev.wld ∧
      bit (rd t.dev 0x1400004) 5 = true) ∧
    (tokenStatus s.dev tk 2 = 0 → ∀ c l, c.grants = BitVec.ofNat 5 e →
      c.ends = (if leNat (tok tk 36 4) = 0 then none else some (s.dev.wall + leNat (tok tk 36 4) * 1000000000)) →
      l = s.dev.wld.certs ++ [c] → Answered s t k 0 [] ∧ t.dev.wld = { s.dev.wld with
        nNinv := granted l 0, nInv := granted l 1, sNinv := granted l 2, sInv := granted l 3, qmDbg := granted l 4
        certs := l.filter fun c => c.grants != 0 })) ∧
  (∀ (d : Dev) (tk : List Byte), tk.length ≠ 232 ∨ leNat (tok tk 0 4) ≠ 0x4E4B4F54 ∨ tokByte tk 4 ≠ 1 ∨
    leNat (tok tk 8 8) ≠ Config.serial.toNat ∨ d.keys.challenge ≠ some (tok tk 16 16) ∨ tokByte tk 32 ≠ d.keys.lc ∨
    (d.keys.lc, tokByte tk 33) ∉ [(0, 1), (1, 2), (2, 1), (2, 3), (1, 3), (3, 1), (0, 4), (1, 4), (2, 4), (3, 4)] ∨
    tokenSigned d tk = false → tokenStatus d tk 1 ≠ 0) ∧
  (∀ (s : State) (k : Nat) (q : KeyReq) (inp : List Byte), (keyOfSlot s.dev 0).alg ≠ 0 →
    (keyOfSlot s.dev 0).fault = false →
    (Served s k 0x33 q inp → inp.length = 48 → ∃ t b nonce, exec .attest s = .next t ∧
      b = leBytes Config.serial.toNat 8 ++ leBytes s.dev.keys.lc 1 ++ [0, 0, 0] ++
        leBytes (devVersion s.dev).toNat 4 ++ inp ∧
      Returned s t k (b ++ ecdsaSign 1 (keyOfSlot s.dev 0).key (digest 1 b) nonce)) ∧
    (Served s k 0x34 q inp → inp = [] → ∃ t, exec .identity s = .next t ∧ Returned s t k
      (eccPublic 1 (keyOfSlot s.dev 0).key ++ leBytes s.dev.keys.certificate.length 2 ++
        s.dev.keys.certificate))) ∧
  (∀ (s : State) (k : Nat) (q : KeyReq) (inp : List Byte), (keyOfSlot s.dev 0).alg = 0 →
    (Served s k 0x33 q inp → inp.length = 48 → ∃ t, exec .attest s = .next t ∧ Answered s t k 3 []) ∧
    (Served s k 0x34 q inp → inp = [] → ∃ t, exec .identity s = .next t ∧ Answered s t k 3 [])) ∧
  ClearsExactly .keyClear (fun a => 0x1400040 ≤ a ∧ a < 0x1400080)

/-- Source `c` has asserted `reach` (R396, R398, R400): every domain of the reach is in reset, but that of the load channels
while turn-offs the reach began have not ended (R402); the episode runs from its first assertion with the widest reach and
every source of it, the exit sequence goes back to the first step the reach runs, and the fuse rows are kept. -/
def Asserted (s t : State) (c reach : Nat) : Prop :=
  t.dev.rst.sources = s.dev.rst.sources ||| (1#16 <<< c) ∧
  t.dev.rst.inReset = s.dev.rst.inReset ||| (reachMask reach &&& if t.dev.ldc.resetDue then ~~~2 else 0xFF) ∧
  (s.dev.ldc.resetDue = false → t.dev.ldc.resetDue = true →
    reach = 3 ∧ c ≠ 3 ∧ ∃ n < 40, (loadOf t.dev n).ramping = true ∨ (loadOf t.dev n).clamping = true) ∧
  t.dev.rst.episode = true ∧ t.dev.rst.epReach = (if s.dev.rst.episode then max s.dev.rst.epReach reach else reach) ∧
  t.dev.rst.epSources = (if s.dev.rst.episode then s.dev.rst.epSources else 0) ||| (1#16 <<< c) ∧
  t.dev.rst.nextStep = (if s.dev.rst.episode then min s.dev.rst.nextStep (firstStep reach) else firstStep reach) ∧
  t.dev.rst.rows = s.dev.rst.rows ∧ t.pending = s.pending

/-- The outputs hold: loads, field channels and the Breakwater are untouched, field I/O whole unless its field side is parked
(R303), and no byte of memory changed (R402). -/
def OutputsHold (s t : State) : Prop :=
  t.dev.ldc = s.dev.ldc ∧ t.dev.fio.ch = s.dev.fio.ch ∧ (s.dev.fio.fsParked = false → t.dev.fio = s.dev.fio) ∧
  t.dev.bwk = s.dev.bwk ∧ t.mem = s.mem

/-- RST_RESULT has the outcome `st` with the next SEQ (R40, R410). -/
def RstResult (s t : State) (st : Nat) : Prop :=
  rd t.dev 0x100014 = 0x80000000 ||| at_ st 27 ||| at_ ((fld (rd s.dev 0x100014) 15 0 + 1) % 65536) 0

/-- The command ended with `st` and did nothing else. -/
def RstRefused (s t : State) (st : Nat) : Prop :=
  RstResult s t st ∧ (∀ a, a ≠ 0x100014 → rd t.dev a = rd s.dev a) ∧
  t = { s with dev := { s.dev with regs := t.dev.regs, rst := { s.dev.rst with cmdWait := false } } }

/-- R396, R397, R402, R404, R410, R451, Table 14.5: each source asserts its reach; the outputs hold at Cluster and Fabric
reach, follow the fuse map at Module reach and are off at Cold; the mains-present contact follows the warning and the return
of the mains; a watchdog acts when its time is up and not before; kicks, the release of a source and the clear. Memory
reading 0 after a Cold reach (log entry 1), a domain that enters reset again and the step the exit goes back to (log entry
66), and the voltages of the contact (log entry 100) are the model's choices. -/
def Obligations.ResetSourcesAndWatchdogs : Prop :=
  (∀ (s : State) (key : Byte), s.dev.rst.pstate ≠ .moored →
    (resultValid s.dev 0x100014 = false →
      ∀ c ∈ [Instr.resetCluster, .resetFabric key, .resetModule key], exec c s = .next { s with dev := evRst s.dev 6 }) ∧
    (resultValid s.dev 0x100014 = true →
      (∃ t, exec .resetCluster s = .next t ∧ Asserted s t 8 1 ∧ OutputsHold s t ∧ RstResult s t 0) ∧
      (key = 0xA5 → ∃ t, exec (.resetFabric key) s = .next t ∧ Asserted s t 5 2 ∧ OutputsHold s t ∧ RstResult s t 0 ∧
        (domUp s.dev 6 = true → (∀ n, n ≠ 0 → (slipOf t.dev n).state = .free) ∧ t.dev.cht = {} ∧ t.dev.ports = [] ∧
          t.dev.basin.frames = [])) ∧
      (key = 0xA5 → ∃ t, exec (.resetModule key) s = .next t ∧ Asserted s t 4 3 ∧ RstResult s t 0 ∧ t.mem = s.mem ∧
        ((∃ b < 6, domUp s.dev b = true ∧ (b ≠ 1 ∨ s.dev.ldc.resetDue = false)) → t.dev.rst.fmap = (goodRow s.dev).2 ∧
          ∀ n < 40, (loadOf t.dev n).gate = ((loadOf s.dev n).gate && fuseOn t.dev n))) ∧
      (key ≠ 0xA5 → (∃ t, exec (.resetFabric key) s = .next t ∧ RstRefused s t 2) ∧
        ∃ t, exec (.resetModule key) s = .next t ∧ RstRefused s t 2))) ∧
  (∀ (s : State), ∃ t, exec .coldPowerOn s = .next t ∧ Asserted s t 1 4 ∧ t.dev.ldc.gateHold = true ∧
    (∀ n < 40, (loadOf t.dev n).gate = false) ∧ (∀ n < 32, (fieldOf t.dev n).drive = false) ∧
    t.dev.rst.mainsHere = s.dev.rst.mainsHere ∧ t.dev.ldc.resetDue = false ∧
    (∀ a, 0x100000 ≤ a → a < 0x200000 → rd t.dev a = regReset a ∧ cnt t.dev a = 0) ∧
    (∀ m < 4, ∀ off < 2 ^ 36, memByte t.mem (memKey m off) = 0) ∧
    ∀ off, memByte t.mem (memKey 4 off) = memByte s.mem (memKey 4 off)) ∧
  (∀ (s : State) (us reach : Nat), reach = (if bit (rd s.dev 0x10000C) 31 then 4 else 3) →
    (us < 100 → exec (.resetPin us) s = .next s) ∧
    (300 ≤ us → ∃ t, exec (.resetPin us) s = .next t ∧ Asserted s t 2 reach) ∧
    (100 ≤ us → us < 300 → ∃ t, exec (.resetPin us) s = .next t ∧ (Asserted s t 2 reach ∨
      t = { s with dev := { s.dev with free := s.dev.free + 1 } }))) ∧
  (∀ (s : State), ∃ t, exec .logicPowerFail s = .next t ∧ Asserted s t 3 3 ∧ t.mem = s.mem ∧
    t.dev.ldc.gateUv = true ∧ t.dev.ldc.resetDue = false ∧ Out.pin 1 true ∈ t.dev.out ∧ Out.pin 2 false ∈ t.dev.out ∧
    ∀ n < 40, (loadOf t.dev n).gate = false) ∧
  (∀ (s : State), (∃ t, exec .powerFailWarning s = .next t ∧ t.dev.rst.powerFail = true ∧ t.dev.log.staging = [] ∧
      t.mem = s.mem ∧ t.dev.regs = s.dev.regs ∧
      (domUp s.dev 1 = true → ∃ r, r.good = true ∧ r.at_ = aonCount s.dev ∧
        (s.dev.ldc.recNext = false → t.dev.ldc.recA = some r ∧ t.dev.ldc.recB = s.dev.ldc.recB) ∧
        (s.dev.ldc.recNext = true → t.dev.ldc.recB = some r ∧ t.dev.ldc.recA = s.dev.ldc.recA)) ∧
      t.dev.rst.mainsHere = false ∧ (s.dev.rst.mainsHere = true → Out.pin 3 false ∈ t.dev.out)) ∧
    ∃ t, exec .mainsReturn s = .next t ∧
      t = { s with dev := { s.dev with out := t.dev.out, rst := { s.dev.rst with powerFail := false, mainsHere := true } } } ∧
      t.dev.out = (if s.dev.rst.mainsHere then s.dev.out else .pin 3 true :: s.dev.out)) ∧
  (∀ (s : State) (who : Requester), Waits (.qmKick who) s who 0x100018 ∧
    (NoneBefore s who 0x100018 → who = .qm → exec (.qmKick who) s = .next
      (StrictDone { s with dev := { s.dev with rst := { s.dev.rst with qmKick := some s.dev.wall } } } who)) ∧
    (NoneBefore s who 0x100018 → who ≠ .qm → exec (.qmKick who) s = .next (StrictRefusal s who 0x100018))) ∧
  (∀ (s : State), (bit (rd s.dev 0x10000C) 30 = true → fabricUp s.dev = true →
      (∀ t, s.dev.rst.qmKick = some t → t + 1000000000 ≤ s.dev.wall) →
      (s.dev.rst.qmKick = none → s.dev.clt.epoch + 5000000000 ≤ s.dev.wall) →
      ∃ t, exec .qmWatchdogExpire s = .next t ∧ Asserted s t 6 2 ∧ OutputsHold s t) ∧
    (bit (rd s.dev 0x10000C) 30 = false ∨ fabricUp s.dev = false ∨
      (∃ t, s.dev.rst.qmKick = some t ∧ s.dev.wall - t < 1000000000) ∨
      (s.dev.rst.qmKick = none ∧ s.dev.wall - s.dev.clt.epoch < 5000000000) →
      exec .qmWatchdogExpire s = .next s) ∧
    (clusterRuns s.dev = false ∨ s.dev.wall - s.dev.clt.wdogAt < 1000000 * wdogPeriod s.dev ∨
      (s.dev.clt.wdog ≠ 1 ∧ s.dev.clt.wdog ≠ 2) → exec .cltWdogExpire s = .next s) ∧
    (clusterRuns s.dev = true → 1000000 * wdogPeriod s.dev ≤ s.dev.wall - s.dev.clt.wdogAt →
      (s.dev.clt.wdog = 1 → ∃ t, exec .cltWdogExpire s = .next t ∧ t.dev.clt.wdog = 2 ∧
        t.dev.clt.wdogAt = s.dev.wall ∧ bit (rd t.dev 0x4000300) 4 = true ∧ t.dev.rst = s.dev.rst) ∧
      (s.dev.clt.wdog = 2 → ∃ t, exec .cltWdogExpire s = .next t ∧ Asserted s t 9 1 ∧ OutputsHold s t))) ∧
  (∀ (s : State) (c : Fin 16) (r : Rst), r = { s.dev.rst with sources := s.dev.rst.sources &&& ~~~(1#16 <<< c.val) } →
    (c ≠ 3 ∨ s.dev.rst.sources.getLsbD 3 = false →
      exec (.resetSourceRelease c) s = .next { s with dev := { s.dev with rst := r } }) ∧
    (c = 3 → s.dev.rst.sources.getLsbD 3 = true → exec (.resetSourceRelease c) s = .next { s with dev := { s.dev with
      rst := r, ldc := { s.dev.ldc with gateUv := false }, out := .pin 2 true :: .pin 1 false :: s.dev.out } })) ∧
  ClearsExactly .rstClear (fun a => 0x100300 ≤ a ∧ a < 0x100330)

/-- R388, R398–R401, R405–R408, Tables 14.6–14.8: the steps of the exit sequence, each only when its conditions hold; clocks
that fail and return; the supercapacitor; the programming of a fuse row; block gates. What each step checks and starts (log
entry 58), the row a torn FMAP_PROG uses and who may gate which block (log entry 65), and region 0 of the flash for the Lock
(log entry 115) are the model's choices. -/
def Obligations.ExitSequenceClocksAndFuses : Prop :=
  (∀ (s : State) (k : Fin 6) (bad : BitVec 10) (dm : List (Fin 256)) (found : StartRead),
    (s.dev.rst.episode = false ∨ k.val ≠ s.dev.rst.nextStep ∨ [4, 3, 3, 2, 2, 1].getD k 1 ≤ effReach s.dev ∨
        s.dev.rst.held &&& [0, 0x0F, 0x30, 0x40, 0, 0x80].getD k 0 ≠ 0 →
      exec (.exitStep k bad dm found) s = .next s) ∧
    (s.dev.rst.episode = true → k.val = s.dev.rst.nextStep → effReach s.dev < [4, 3, 3, 2, 2, 1].getD k 1 →
      s.dev.rst.held &&& [0, 0x0F, 0x30, 0x40, 0, 0x80].getD k 0 = 0 →
      (k.val = 0 → exec (.exitStep k bad dm found) s =
        .next { s with dev := { s.dev with rst := { s.dev.rst with nextStep := 1 } } }) ∧
      (k.val = 1 → ∃ t, exec (.exitStep k bad dm found) s = .next t ∧ t.dev.rst.nextStep = 2 ∧ t.mem = s.mem ∧
        t.dev.rst.inReset = s.dev.rst.inReset &&& ~~~0x0F ∧
        t.dev.pair.strap = if 3 ≤ s.dev.rst.epReach then found.strap else s.dev.pair.strap) ∧
      (k.val = 2 → ∃ t, exec (.exitStep k bad dm found) s = .next t ∧ t.dev.rst.nextStep = 3 ∧ t.mem = s.mem ∧
        t.dev.rst.inReset = s.dev.rst.inReset &&& ~~~0x30 ∧ t.dev.wld.regionsSet = true ∧
        t.dev.wld.lockReady = true ∧ t.dev.keys.ready = true ∧ t.dev.keys.torn = [] ∧
        (s.dev.keys.torn ≠ [] → bit (rd t.dev 0x1400004) 3 = true ∧
          cnt t.dev 0x1400070 = cnt s.dev 0x1400070 + BitVec.ofNat 64 s.dev.keys.torn.length) ∧
        t.dev.keys.pending = [] ∧ (regionOf t.dev 4 0).owner = true ∧ (regionOf t.dev 4 0).enable = true ∧
        (regionOf t.dev 4 0).base = Config.keyArea.1.toNat ∧ (regionOf t.dev 4 0).last = Config.keyArea.2.toNat ∧
        (∀ m r, m < 5 → r < 64 → m ≠ 4 ∨ r ≠ 0 → regionOf t.dev m r = regionOf s.dev m r) ∧
        (∀ j : Fin 256, j ∉ dm → keyOfSlot t.dev j =
          if keepsDomain s.dev.keys.lc (loadedKey s.dev j).dom = true then loadedKey s.dev j else {}) ∧
        ∀ j ∈ dm, (keyOfSlot t.dev j).alg ≠ 0 → (keyOfSlot t.dev j).fault = true) ∧
      (k.val = 3 → ∃ t, exec (.exitStep k bad dm found) s = .next t ∧ t.dev.rst.nextStep = 4 ∧ t.mem = s.mem ∧
        t.dev.rst.inReset = s.dev.rst.inReset &&& ~~~0x40 ∧ t.dev.rst.qmRunning = s.dev.wld.regionsSet ∧
        devTime t.dev = s.dev.aonTime + (aonCount s.dev - s.dev.aonAt) * 1000000000 / 32768) ∧
      (k.val = 4 → (s.dev.rst.qmRunning = false → exec (.exitStep k bad dm found) s = .next s) ∧
        (s.dev.rst.qmRunning = true → ∃ t, exec (.exitStep k bad dm found) s = .next t ∧ t.dev.rst.nextStep = 5 ∧
          t.mem = s.mem ∧ (s.dev.svc.store = [] →
            t = { s with dev := { s.dev with rst := { s.dev.rst with nextStep := 5 } } }))) ∧
      (k.val = 5 → s.dev.clt.map.length = 8 → s.dev.clt.cause.length = 8 →
        ∃ t, exec (.exitStep k bad dm found) s = .next t ∧ t.dev.rst.episode = false ∧ t.mem = s.mem ∧
        t.dev.rst.inReset = s.dev.rst.inReset &&& ~~~0x80 ∧ t.dev.rst.causeReach = s.dev.rst.epReach ∧
        t.dev.rst.causeSources = s.dev.rst.epSources ∧ t.dev.rst.causeEsc = s.dev.rst.escalated ∧
        bit (rd t.dev 0x100004) 0 = true ∧ t.dev.clt.retired = s.dev.clt.retired ||| bad ∧
        (2 ≤ s.dev.rst.epReach → t.dev.rst.pstate = .underway) ∧
        (s.dev.rst.epReach < 2 → t.dev.rst.pstate = s.dev.rst.pstate) ∧
        (s.dev.rst.epReach = 3 → cnt t.dev 0x100300 = cnt s.dev 0x100300 + 1) ∧
        (s.dev.rst.epReach = 2 → cnt t.dev 0x100308 = cnt s.dev 0x100308 + 1) ∧
        (s.dev.rst.epReach = 1 → cnt t.dev 0x100310 = cnt s.dev 0x100310 + 1) ∧
        (parked s.dev = false → s.dev.rst.epReach = 1 → ∀ h < 8, t.dev.clt.retired.getLsbD (coreOf s.dev h) = false →
          coreOf s.dev h < 10 → coreOf t.dev h = coreOf s.dev h) ∧
        (1 < s.dev.rst.epReach → ∀ h < 8, ∀ c,
          ((List.range 10).filter fun c => !t.dev.clt.retired.getLsbD c)[h]? = some c →
          t.dev.clt.map.getD h 15 = c ∧ t.dev.clt.cause.getD h 0 = 0) ∧
        (parked s.dev = true → s.dev.rst.epReach = 1 → t.dev.rst.startDue = true ∧
          t.dev.clt.map = s.dev.clt.map)))) ∧
  (∀ (s : State),
    (s.dev.rst.xtalFail = false → ∀ c ∈ [Instr.xtalFail, .clockConfirmFail 0], ∃ t, exec c s = .next t ∧
      t.dev.rst = { s.dev.rst with xtalFail := true, rcAt := s.dev.wall, rcRate := t.dev.rst.rcRate } ∧
      950 ≤ t.dev.rst.rcRate ∧ t.dev.rst.rcRate ≤ 1050 ∧ bit (rd t.dev 0x100004) 4 = true) ∧
    (s.dev.rst.xtalFail = true → ∀ c ∈ [Instr.xtalFail, .clockConfirmFail 0], exec c s = .next s) ∧
    (∃ t, exec .xtalRestored s = .next t ∧ aonCount t.dev = aonCount s.dev ∧
      t = { s with dev := { s.dev with rst := { s.dev.rst with xtalFail := false, aonAdj := t.dev.rst.aonAdj } } }) ∧
    (s.dev.bwk.state ≠ .fault → ∃ t, exec (.clockConfirmFail 1) s = .next t ∧ t.dev.bwk.state = .fault ∧
      t.dev.bwk.cause = 1) ∧
    (s.dev.bwk.state = .fault → exec (.clockConfirmFail 1) s = .next s) ∧
    ∀ (k : Fin 6) (m : BitVec 8) (c : Nat), (k.val, m, c) ∈ [(2, 0x30#8, 0), (3, 0x40, 3), (4, 0x80, 2)] →
      (s.dev.rst.inReset &&& m = 0 → exec (.clockConfirmFail k) s = .next s) ∧
      (s.dev.rst.inReset &&& m ≠ 0 → ∃ t, exec (.clockConfirmFail k) s = .next t ∧
        ((k.val = 2 ∨ (k.val = 3 ∧ s.dev.rst.escFabric = true) ∨ (k.val = 4 ∧ s.dev.rst.escCluster = true)) →
          t.dev.rst = { s.dev.rst with held := s.dev.rst.held ||| m, clkFail := true } ∧
          (s.dev.rst.clkFail = true → t = { s with dev := { s.dev with rst := t.dev.rst } }) ∧
          (s.dev.rst.clkFail = false → bit (rd t.dev 0x100004) 4 = true)) ∧
        ((k.val = 3 ∧ s.dev.rst.escFabric = false) ∨ (k.val = 4 ∧ s.dev.rst.escCluster = false) →
          Asserted s t 10 c ∧ t.dev.rst.escalated = true ∧ bit (rd t.dev 0x100004) 5 = true ∧
          cnt t.dev 0x100318 = cnt s.dev 0x100318 + 1)) ∧
      exec (.clockRetry k false) s = .next s ∧
      exec (.clockRetry k true) s = .next { s with dev := { s.dev with rst := { s.dev.rst with
        held := s.dev.rst.held &&& ~~~m, clkFail := decide (s.dev.rst.held &&& ~~~m ≠ 0) } } }) ∧
  (∀ (s : State), (∃ t, exec (.clockConfirmFail 5) s = .next t ∧ Asserted s t 10 3) ∧
    (s.dev.rst.scOk = true → ∃ t, exec .supercapLow s = .next t ∧ t.dev.rst = { s.dev.rst with scOk := false } ∧
      bit (rd t.dev 0x100004) 3 = true) ∧
    (s.dev.rst.scOk = false → exec .supercapLow s = .next s) ∧
    exec .supercapRecharged s = .next { s with dev := { s.dev with rst := { s.dev.rst with scOk := true } } }) ∧
  (∀ (s : State) (key : Byte) (torn : Bool) (l : List Word), s.dev.rst.pstate ≠ .moored →
    l = (List.range 5).map (fun w => rd s.dev (0x100200 + 4 * w)) → resultValid s.dev 0x100014 = true →
    (key ≠ 0xA5 → ∃ t, exec (.fmapProg key torn) s = .next t ∧ RstRefused s t 2) ∧
    (key = 0xA5 → 4 ≤ s.dev.rst.rows.length → ∃ t, exec (.fmapProg key torn) s = .next t ∧ RstRefused s t 9) ∧
    (key = 0xA5 → s.dev.rst.rows.length < 4 →
      ((∃ n < 40, 2 ≤ fld (l.getD (n / 16) 0) (2 * (n % 16) + 1) (2 * (n % 16))) →
        ∃ t, exec (.fmapProg key torn) s = .next t ∧ RstRefused s t 10) ∧
      ((∀ n < 40, fld (l.getD (n / 16) 0) (2 * (n % 16) + 1) (2 * (n % 16)) < 2) →
        (s.dev.keys.lc = 4 → ∃ t, exec (.fmapProg key torn) s = .next t ∧ RstRefused s t 11) ∧
        (s.dev.keys.lc ≠ 4 → ∃ t, exec (.fmapProg key torn) s = .next t ∧
          t.dev.rst.rows = s.dev.rst.rows ++ [⟨l, !torn⟩] ∧ t.dev.rst.fmap = s.dev.rst.fmap ∧
          (torn = false → RstResult s t 0) ∧ resultValid t.dev 0x100014 = true)))) ∧
  (∀ (s : State) (b : Fin 19) (v : Word) (q : Requester) (a : Nat), a = 0x100080 + 4 * b.val →
    Waits (.blkctlWrite (some q) b v) s q a ∧ (NoneBefore s q a →
    (17 ≤ b.val ∨ sOwned s.dev b = true → ∃ t, exec (.blkctlWrite (some q) b v) s = .next t ∧
      rd t.dev a = rd s.dev a ∧ t.dev.wld.total = s.dev.wld.total + 1 ∧
      (functionOf q = none → t.dev.out.head? = some (.busError q)) ∧
      (∀ fn, functionOf q = some fn → tget {} t.dev.brg.aer fn = ⟨true, a, 4⟩)) ∧
    ∀ (who : Option Requester), (who ≠ none → b.val < 17 ∧ sOwned s.dev b = false) →
      (who = none → 17 ≤ b.val ∨ sOwned s.dev b = true) →
      ((b.val < 17 ∧ ((hoOf s.dev b).state = .toS ∨ (hoOf s.dev b).state = .toN)) ∨
          (b.val < 16 ∧ v &&& 3 ≠ 0 ∧ (canOf s.dev b).state ≠ .config) →
        (who = some q → exec (.blkctlWrite who b v) s = .next (StrictRefusal s q a)) ∧
        (who = none → exec (.blkctlWrite who b v) s = .next s)) ∧
      ((17 ≤ b.val ∨ ((hoOf s.dev b).state ≠ .toS ∧ (hoOf s.dev b).state ≠ .toN)) →
        (16 ≤ b.val ∨ v &&& 3 = 0 ∨ (canOf s.dev b).state = .config) →
        ∃ t, exec (.blkctlWrite who b v) s = .next t ∧ rd t.dev a &&& 3 = v &&& 3 ∧
          (bit (rd s.dev a) 1 = true → bit v 1 = false →
            (b.val < 16 → (canOf t.dev b).state = .config) ∧
            (b.val = 17 → t.dev.keys.job = none ∧ t.dev.keys.slots = s.dev.keys.slots) ∧
            (b.val = 18 → t.dev.keys.mbx = [] ∧ t.dev.keys.challenge = none ∧ t.dev.keys.ready = true)))))

/-- R391–R395, Tables 14.3, 14.4, 14.4a: the power commands, the end of each transition, the checks of MOOR in order, wakes
served, latched or recorded only, and the host link. A power command while an episode of Fabric reach or wider runs is left
out (log entry 62). Where a wake episode begins, what is recorded only, and the order of MOORING are the model's choices (log
entry 59). -/
def Obligations.PowerStatesAndWakes : Prop :=
  (∀ (s : State) (key : Byte), s.dev.rst.pstate ≠ .moored →
    (resultValid s.dev 0x100014 = false → ∀ c ∈ [Instr.berth, .underway, .moor key, .fmapProg key false],
      exec c s = .next { s with dev := evRst s.dev 6 }) ∧
    (resultValid s.dev 0x100014 = true →
      (s.dev.rst.pstate ∈ [PState.berthing, .unberthing, .mooring, .unmooring] →
        ∀ c ∈ [Instr.berth, .underway, .moor 0xA5], ∃ t, exec c s = .next t ∧ RstRefused s t 4) ∧
      (s.dev.rst.pstate = .underway →
        (powerFree s.dev = false → ∃ t, exec .berth s = .next t ∧ RstRefused s t 4) ∧
        (powerFree s.dev = true → ∃ t, exec .berth s = .next t ∧ t.dev.rst.pstate = .berthing ∧ resultValid t.dev 0x100014 = false ∧
          t.dev.rst.parkAt = s.dev.wall ∧ t.dev.clt.cachePoison = [] ∧ t.mem = s.mem ∧ ∀ p < 11, (portOf t.dev p).link = ((portOf s.dev p).link && bit (rd s.dev 0x10000C) p)) ∧
        (∃ t, exec .underway s = .next t ∧ RstRefused s t 0) ∧
        ∃ t, exec (.moor 0xA5) s = .next t ∧ RstRefused s t 3) ∧
      (key ≠ 0xA5 → ∃ t, exec (.moor key) s = .next t ∧ RstRefused s t 2) ∧
      (s.dev.rst.pstate = .berthed → powerFree s.dev = true →
        (∃ t, exec .berth s = .next t ∧ RstRefused s t 0) ∧
        (∃ t, exec .underway s = .next t ∧ t.dev.rst.pstate = .unberthing ∧ resultValid t.dev 0x100014 = false ∧
          (s.dev.rst.wakeSeen = false → t.dev.rst.wakeCause = 7 ∧ t.dev.rst.wakeTs = aonCount s.dev) ∧
          t.dev.ldc = s.dev.ldc) ∧
        ∀ st, st = (if pairRole s.dev ≠ 0 then 5 else if s.dev.bwk.state ≠ .running then 6
            else if (List.range 16).any (fun n => bit (netCfg s.dev n) 31 && bit (rd s.dev (canBase n)) 31 &&
              (netOf s.dev n).state != .asleep) then 7
            else if rd s.dev 0x100040 = 0 then 8 else 0) →
          ∃ t, exec (.moor 0xA5) s = .next t ∧ RstResult s t st ∧ (st ≠ 0 → RstRefused s t st) ∧
            (st = 0 → t.dev.rst.pstate = .mooring ∧ t.dev.fio.parked = true ∧
              (t.dev.ldc.recNext = !s.dev.ldc.recNext) ∧ t.mem = s.mem)))) ∧
  (∀ (s : State), powerFree s.dev = true →
    (s.dev.rst.pstate ≠ .berthing → exec .berthDone s = .next s) ∧
    (s.dev.rst.pstate = .berthing → ∃ t, exec .berthDone s = .next t ∧ bit (rd t.dev 0x100004) 1 = true ∧
      (s.dev.rst.cmdWait = true → RstResult s t 0) ∧ t.dev.ldc = s.dev.ldc ∧
      (s.dev.rst.wakeLatched = false → t.dev.rst.pstate = .berthed) ∧
      (s.dev.rst.wakeLatched = true → t.dev.rst.pstate = .unberthing ∧ t.dev.rst.wakeLatched = false ∧
        cnt t.dev 0x100320 = cnt s.dev 0x100320 + 1 ∧ bit (rd t.dev 0x100004) 2 = true)) ∧
    (s.dev.rst.pstate ≠ .unberthing → exec .unberthDone s = .next s) ∧
    (s.dev.rst.pstate = .unberthing → ∃ t, exec .unberthDone s = .next t ∧ t.dev.rst.pstate = .underway ∧
      bit (rd t.dev 0x100004) 1 = true ∧ (s.dev.rst.cmdWait = true → RstResult s t 0) ∧
      (s.dev.rst.startDue = false → t.dev.clt = { s.dev.clt with
        wdogAt := s.dev.clt.wdogAt + (s.dev.wall - s.dev.rst.parkAt) })) ∧
    (s.dev.rst.pstate ≠ .mooring → exec .moorDone s = .next s) ∧
    (s.dev.rst.pstate = .mooring → ∃ t, exec .moorDone s = .next t ∧ t.dev.ldc = s.dev.ldc ∧ t.dev.bwk = s.dev.bwk ∧
      t.mem = s.mem ∧ t.dev.rst.hostLink = false ∧
      (s.dev.rst.wakeLatched = false → OutputsHold s t ∧ t.dev.fio = s.dev.fio ∧ t.dev.rst.pstate = .moored ∧ t.dev.basin.frames = [] ∧
        cnt t.dev 0x100328 = cnt s.dev 0x100328 + 1 ∧ t.dev.rst.inReset = s.dev.rst.inReset) ∧
      (s.dev.rst.wakeLatched = true → t.dev.rst.pstate = .unmooring ∧ t.dev.fio.fsParked = false ∧
        Asserted s t 7 2 ∧ cnt t.dev 0x100320 = cnt s.dev 0x100320 + 1))) ∧
  (∀ (s : State) (cause : Fin 7) (chan : Fin 32), wakeOn s.dev cause chan = false →
    exec (.wake cause chan) s = .next s) ∧
  (∀ (s : State) (cause : Fin 7) (chan : Fin 32), powerFree s.dev = true → wakeOn s.dev cause chan = true →
    ∃ t, exec (.wake cause chan) s = .next t ∧
      (s.dev.rst.wakeSeen = false → t.dev.rst.wakeSeen = true ∧ t.dev.rst.wakeCause = cause.val ∧
        t.dev.rst.wakeTs = aonCount s.dev ∧
        t.dev.rst.wakeChan = (if 3 ≤ cause.val ∧ cause.val ≤ 5 then chan.val else 0)) ∧
      (s.dev.rst.wakeSeen = true → t.dev.rst.wakeCause = s.dev.rst.wakeCause ∧
        t.dev.rst.wakeTs = s.dev.rst.wakeTs) ∧
      (s.dev.rst.pstate = .berthing ∨ s.dev.rst.pstate = .mooring → t.dev.rst.wakeLatched = true ∧
        t.dev.rst.pstate = s.dev.rst.pstate ∧ cnt t.dev 0x100320 = cnt s.dev 0x100320) ∧
      (s.dev.rst.pstate ∈ [PState.underway, .unberthing, .unmooring] → t.dev.rst.pstate = s.dev.rst.pstate ∧
        t.dev.rst.wakeLatched = s.dev.rst.wakeLatched ∧ cnt t.dev 0x100320 = cnt s.dev 0x100320) ∧
      (s.dev.rst.pstate = .berthed → t.dev.rst.pstate = .unberthing ∧
        cnt t.dev 0x100320 = cnt s.dev 0x100320 + 1 ∧ bit (rd t.dev 0x100004) 2 = true) ∧
      (s.dev.rst.pstate = .moored → t.dev.rst.pstate = .unmooring ∧ Asserted s t 7 2 ∧
        cnt t.dev 0x100320 = cnt s.dev 0x100320 + 1 ∧ bit (rd t.dev 0x100004) 2 = true ∧
        (bit (rd s.dev 0x10000C) 29 = true → t.dev.rst.wakeN = true))) ∧
  (∀ (s : State), (fabricUp s.dev = false → exec .hostLinkUp s = .next s) ∧
    (fabricUp s.dev = true → ∃ t, exec .hostLinkUp s = .next t ∧
      t.dev = { s.dev with rst := { s.dev.rst with hostLink := true, wakeN := false }, out := t.dev.out } ∧
      (s.dev.rst.wakeN = true → t.dev.out = .pin 0 true :: s.dev.out) ∧
      (s.dev.rst.wakeN = false → t.dev.out = s.dev.out)))

/-- Loads, field I/O and the Breakwater are untouched by a change of role (R414, R422, R423). -/
def RoleOnly (s t : State) : Prop := OutputsHold s t ∧ t.pending = s.pending

/-- PAIR_RESULT has the outcome `st` with the next SEQ (R40, R437). -/
def PairResult (s t : State) (st : Nat) : Prop :=
  rd t.dev 0x1500014 = 0x80000000 ||| at_ st 28 ||| at_ ((fld (rd s.dev 0x1500014) 15 0 + 1) % 65536) 0

/-- Where PL carries traffic, a pairs frame of a type and sequence went out on it, under MACsec where it protects PL and has a
packet number left (R81, R416). -/
def PairSent (s t : State) (kind seq : Nat) : Prop :=
  wireUp s.dev 10 = true → (macsecTx s.dev 10 = true → takePn s.dev 10 ≠ none) →
  ∃ hdr l l', t.dev.out = l ++ .pairFrame kind seq hdr (macsecTx s.dev 10) :: (l' ++ s.dev.out)

/-- A resync was asked for by the Standby (R420, R421). -/
def ResyncAsked (s t : State) : Prop :=
  t.dev.pair.mirrorSync = false ∧ t.dev.pair.resyncing = true ∧ t.dev.pair.role = .standby ∧
  cnt t.dev 0x1500060 = cnt s.dev 0x1500060 + 1 ∧ bit (rd t.dev 0x1500008) 5 = true ∧
  PairSent s t 5 s.dev.pair.mirrorSeq.toNat

/-- A valid heartbeat (R419). -/
def HbValid (s : State) (h : PairHdr) : Prop :=
  (s.dev.pair.peerLive = true → h.serial.toNat = s.dev.pair.bound ∧ 1 ≤ (h.hbSeq - s.dev.pair.hbRx).toNat ∧
    (h.hbSeq - s.dev.pair.hbRx).toNat ≤ 32767) ∧
  (s.dev.pair.peerLive = false → h.flags.toNat % 2 ≠ ownSlot s.dev)

/-- R411–R415, R418, R419, Table 15.1: roles move by EN, heartbeats, the dominance lines, the loop, the end of JOIN_WAIT and the
commands as the table gives, whatever the rest of the module's state; no pairs frame passes a port that carries no traffic.
That JOIN_WAIT starts again when it ends without a claim, and that a heartbeat of role 3 shows the peer's line low, so that it
takes Primary from slot 1, are the model's choices (log entry 54). -/
def Obligations.PairRolesMove : Prop :=
  (∀ (s : State) (v : Word), (∃ t, exec (.pairEnable v) s = .next t ∧ RoleOnly s t ∧
      rd t.dev 0x1500000 = ((v &&& 0x80FF0000) ||| 0x80000000) ∧
      (s.dev.pair.role = .single → t.dev.pair.role = .seeking ∧ t.dev.pair.joinAt = s.dev.wall ∧ bit (rd t.dev 0x1500008) 0 = true ∧
        bit (rd t.dev 0x1C) 4 = true) ∧
      (s.dev.pair.role ≠ .single → t.dev.pair = s.dev.pair)) ∧
    ∃ t, exec (.pairDisable v) s = .next t ∧ RoleOnly s t ∧ t.dev.pair.role = .single ∧ t.dev.pair.domOwn = false ∧
      rd t.dev 0x1500000 = v &&& 0x00FF0000 ∧ (s.dev.pair.handoverWait = true → PairResult s t 4)) ∧
  (∀ (s : State), s.dev.pair.role = .single ∨ fabricUp s.dev = false →
    exec .pairHeartbeatTx s = .next s ∧ exec .pairHeartbeatMiss s = .next s ∧
    ∀ h, exec (.pairHeartbeatRx h) s = .next s) ∧
  (∀ (s : State) (h : PairHdr), wireUp s.dev 10 = false → exec (.pairHeartbeatRx h) s = .next s) ∧
  (∀ (s : State), s.dev.pair.role ≠ .single → fabricUp s.dev = true →
    ∃ t, exec .pairHeartbeatTx s = .next t ∧ RoleOnly s t ∧ PairSent s t 1 s.dev.pair.mirrorSeq.toNat ∧
      t.dev.pair.hbTx = s.dev.pair.hbTx + 1 ∧ (wireUp s.dev 10 = false → t.dev.out = s.dev.out) ∧
      cnt t.dev 0x1500040 = cnt s.dev 0x1500040 + (if wireUp s.dev 10 then 1 else 0)) ∧
  (∀ (s : State) (h : PairHdr), s.dev.pair.role ≠ .single → fabricUp s.dev = true → wireUp s.dev 10 = true →
    (¬ HbValid s h → exec (.pairHeartbeatRx h) s = .next { s with dev := inc s.dev 0x1500070 }) ∧
    (HbValid s h → ∃ t, exec (.pairHeartbeatRx h) s = .next t ∧ t.dev.ldc = s.dev.ldc ∧ t.dev.pair.peerLive = true ∧
      t.dev.bwk.peerAt = some s.dev.wall ∧ t.dev.pair.bound = h.serial.toNat ∧ t.dev.pair.hbRx = h.hbSeq ∧ t.dev.pair.missed = 0 ∧
      cnt t.dev 0x1500048 = cnt s.dev 0x1500048 + 1 ∧
      (s.dev.pair.peerLive = false → bit (rd t.dev 0x1500008) 2 = true) ∧
      (s.dev.pair.role = .seeking → h.role = 3 → s.dev.pair.handoverWait = false →
        ResyncAsked s t ∧ ∀ n, n ≠ 0 → (slipOf t.dev n).state = .free) ∧
      (s.dev.pair.role = .seeking → h.role ≠ 3 → t.dev.pair.role =
        if ownSlot s.dev = 0 ∧ mayClaim s.dev = true then .primary else .seeking) ∧
      (s.dev.pair.role = .primary → h.role = 3 → ownSlot s.dev = 1 → ResyncAsked s t ∧ t.dev.pair.domOwn = false) ∧
      (s.dev.pair.role = .primary → h.role ≠ 3 ∨ ownSlot s.dev = 0 → t.dev.pair.role = .primary ∧
        t.dev.pair.domOwn = s.dev.pair.domOwn) ∧
      (s.dev.pair.role = .isolated ∨ s.dev.pair.role = .standby → t.dev.pair.role = s.dev.pair.role))) ∧
  (∀ (s : State), s.dev.pair.role ≠ .single → fabricUp s.dev = true →
    ∃ t, exec .pairHeartbeatMiss s = .next t ∧ RoleOnly s t ∧ t.dev.pair.missed = s.dev.pair.missed + 1 ∧
      cnt t.dev 0x1500050 = cnt s.dev 0x1500050 + 1 ∧
      (s.dev.pair.peerLive = false ∨ s.dev.pair.missed < 3 → t.dev.pair.peerLive = s.dev.pair.peerLive ∧
        t.dev.pair.role = s.dev.pair.role) ∧
      (s.dev.pair.peerLive = true → 3 ≤ s.dev.pair.missed → t.dev.pair.peerLive = false ∧
        bit (rd t.dev 0x1500008) 1 = true ∧
        (s.dev.pair.role = .standby → mayClaim s.dev = true → t.dev.pair.role = .primary ∧ t.dev.pair.domOwn = true ∧
          t.dev.pair.takeover = true ∧ cnt t.dev 0x1500058 = cnt s.dev 0x1500058 + 1) ∧
        (s.dev.pair.role ≠ .standby ∨ mayClaim s.dev = false → t.dev.pair.role = s.dev.pair.role ∧
          t.dev.pair.mirrorSync = false))) ∧
  (∀ (s : State),
    (s.dev.pair.role = .seeking → joinDue s.dev = true → fabricUp s.dev = true →
      (s.dev.pair.peerLive = false → mayClaim s.dev = true →
        ∃ t, exec .joinWaitExpire s = .next t ∧ RoleOnly s t ∧ t.dev.pair.role = .primary ∧
          t.dev.pair.domOwn = true) ∧
      (s.dev.pair.peerLive = true ∨ mayClaim s.dev = false → exec .joinWaitExpire s =
        .next { s with dev := { s.dev with pair := { s.dev.pair with joinAt := s.dev.wall } } })) ∧
    (s.dev.pair.role ≠ .seeking ∨ joinDue s.dev = false ∨ fabricUp s.dev = false →
      exec .joinWaitExpire s = .next s) ∧
    (joinDue s.dev = true ↔
      s.dev.pair.joinAt + 1000000000 * max 1 (fld (rd s.dev 0x1500000) 23 16) ≤ s.dev.wall) ∧
    (∀ (loop : Bool), ∃ t, exec (.dominanceLost loop) s = .next t ∧ RoleOnly s t ∧
      (loop = true → t.dev.pair.loopOk = false) ∧ (loop = false → t.dev.pair.peerLow = true) ∧
      (s.dev.pair.role = .primary → loop = true → t.dev.pair.role = .isolated ∧ t.dev.pair.domOwn = false) ∧
      (s.dev.pair.role = .primary → loop = false → ownSlot s.dev = 1 → t.dev.pair.role = .seeking ∧
        t.dev.pair.domOwn = false) ∧
      (s.dev.pair.role ≠ .primary ∨ (loop = false ∧ ownSlot s.dev = 0) →
        t.dev.pair.role = s.dev.pair.role ∧ t.dev.pair.domOwn = s.dev.pair.domOwn)) ∧
    (∃ t, exec .loopOpen s = .next t ∧ RoleOnly s t ∧ t.dev.pair.loopOk = false ∧
      (s.dev.pair.role = .single → t.dev.pair.role = .single) ∧
      (s.dev.pair.role ≠ .single → t.dev.pair.role = .isolated) ∧
      (s.dev.pair.role = .seeking ∨ s.dev.pair.role = .standby → bit (rd t.dev 0x1500008) 3 = true)) ∧
    (∃ t, exec .loopRestored s = .next t ∧ RoleOnly s t ∧ t.dev.pair.loopOk = true ∧
      (s.dev.pair.role = .isolated → t.dev.pair.role = .seeking) ∧
      (s.dev.pair.role = .single ∨ s.dev.pair.role = .seeking ∨ s.dev.pair.role = .primary →
        t.dev.pair.role = s.dev.pair.role) ∧
      (s.dev.pair.role = .standby → t.dev.pair.role =
        if (s.dev.pair.peerLive = false ∨ s.dev.pair.handoverHeld = true) ∧ fabricUp s.dev = true ∧
          s.dev.pair.peerLow = false ∧ s.dev.pair.dupSlot = false then .primary else .standby)) ∧
    (∃ t, exec .peerLineHigh s = .next t ∧ RoleOnly s t ∧ t.dev.pair.peerLow = false ∧
      (s.dev.pair.role ≠ .standby → t.dev.pair.role = s.dev.pair.role) ∧
      (s.dev.pair.role = .standby → t.dev.pair.role =
        if (s.dev.pair.peerLive = false ∨ s.dev.pair.handoverHeld = true) ∧ fabricUp s.dev = true ∧
          s.dev.pair.loopOk = true ∧ s.dev.pair.dupSlot = false then .primary else .standby)) ∧
    (s.dev.pair.domOwn = true ∨ fabricUp s.dev = false → exec .dupSlotDetected s = .next s) ∧
    (s.dev.pair.domOwn = false → fabricUp s.dev = true → ∃ t, exec .dupSlotDetected s = .next t ∧ RoleOnly s t ∧
      t.dev.pair = { s.dev.pair with dupSlot := true } ∧ bit (rd t.dev 0x1500008) 4 = true)) ∧
  (∀ (s : State) (key : Byte),
    (resultValid s.dev 0x1500014 = false → ∀ c ∈ [Instr.handover, .resync, .forceSingle key],
      exec c s = .next { s with dev := evPair s.dev 6 }) ∧
    (resultValid s.dev 0x1500014 = true →
      (s.dev.pair.role = .primary → s.dev.pair.peerLive = true → s.dev.pair.peerRole = 2 →
        s.dev.pair.peerSync = true → ∃ t, exec .handover s = .next t ∧ RoleOnly s t ∧
        t.dev.pair = { s.dev.pair with
          mirrorSeq := s.dev.pair.mirrorSeq + 1, handoverSeq := s.dev.pair.mirrorSeq + 1, handoverWait := true } ∧
        resultValid t.dev 0x1500014 = false ∧ PairSent s t 4 (s.dev.pair.mirrorSeq + 1).toNat) ∧
      (s.dev.pair.role ≠ .primary ∨ s.dev.pair.peerLive = false ∨ s.dev.pair.peerRole ≠ 2 ∨
        s.dev.pair.peerSync = false → ∃ t, exec .handover s = .next t ∧ RoleOnly s t ∧ t.dev.pair = s.dev.pair ∧
        PairResult s t 3) ∧
      (∃ t, exec (.forceSingle key) s = .next t ∧ RoleOnly s t ∧
        (key ≠ 0xA5 → PairResult s t 2 ∧ t.dev.pair = s.dev.pair) ∧
        (key = 0xA5 → s.dev.pair.role ≠ .isolated → PairResult s t 3 ∧ t.dev.pair = s.dev.pair) ∧
        (key = 0xA5 → s.dev.pair.role = .isolated → t.dev.pair.role = .single ∧ t.dev.pair.domOwn = false ∧
          bit (rd t.dev 0x1500000) 31 = false ∧ (s.dev.pair.handoverWait = false → PairResult s t 0))))) ∧
  (∀ (s : State), (s.dev.pair.handoverWait = false → exec .handoverTimeout s = .next s) ∧
    (s.dev.pair.handoverWait = true → ∃ t, exec .handoverTimeout s = .next t ∧ RoleOnly s t ∧ PairResult s t 4 ∧
      t.dev.pair.handoverWait = false ∧
      t.dev.pair.role = if s.dev.pair.role = .standby ∧ mayClaim s.dev = true then .primary else s.dev.pair.role)) ∧
  ClearsExactly .pairClear (fun a => 0x1500040 ≤ a ∧ a < 0x1500078)

/-- R420–R423, R426, Table 15.3: records applied in sequence and acknowledged, those of a resync only together at its marker,
gaps answered with a resync request, resyncs sent, with the θ the Primary keeps for its peer, the hand-over and the binding of
the shadow slips, work of the Quaymaster; no record passes where the pairs engine or PL is down. After 5 ms without an
acknowledgement the Standby requests a resync, as R420 has it; that the Primary then also starts one itself is the model's
choice (log entry 53), as is one record for each row of a resync (log entry 63). -/
def Obligations.MirroringAndTakeover : Prop :=
  (∀ (s : State) (seq : Word) (m : Mirror), pairsUp s.dev = false →
    ∀ c ∈ [Instr.mirrorRecordRx seq m, .mirrorAckRx seq, .resyncRequestRx, .handoverRx seq], exec c s = .next s) ∧
  (∀ (s : State) (seq : Word) (m : Mirror), pairsUp s.dev = true →
    (s.dev.pair.role ≠ .standby → exec (.mirrorRecordRx seq m) s = .next s) ∧
    (s.dev.pair.role = .standby → s.dev.pair.rebase = false → seq ≠ s.dev.pair.mirrorSeq + 1 →
      ∃ t, exec (.mirrorRecordRx seq m) s = .next t ∧ ResyncAsked s t ∧ OutputsHold s t) ∧
    (s.dev.pair.role = .standby → s.dev.pair.rebase = true ∨ seq = s.dev.pair.mirrorSeq + 1 →
      ∃ t, exec (.mirrorRecordRx seq m) s = .next t ∧ t.mem = s.mem ∧ t.dev.pair.mirrorSeq = seq ∧
      t.dev.pair.acked = seq ∧ t.dev.pair.role = .standby ∧ PairSent s t 3 seq.toNat ∧
      (m = .marker → t.dev.pair.mirrorSync = true ∧ t.dev.pair.resyncing = false) ∧
      (m ≠ .marker → t.dev.pair.mirrorSync = s.dev.pair.mirrorSync) ∧
      (m = .marker → t.dev.pair.staged = [] ∧
        ∀ r l, s.dev.pair.staged = r ++ [.learn l] → t.dev.svc.templates = l) ∧
      (m ≠ .marker → s.dev.pair.resyncing = true → t.dev.pair.staged = s.dev.pair.staged ++ [m] ∧ OutputsHold s t ∧
        t.dev.svc = s.dev.svc ∧ t.dev.cht = s.dev.cht ∧ t.dev.nws = s.dev.nws) ∧
      (s.dev.pair.resyncing = false →
      (∀ g v, m = .signals g v → tget 0 t.dev.bwk.sig g = v ∧ tget none t.dev.bwk.sigAt g = some s.dev.wall) ∧
      (∀ i v, m = .analog i v → tget 0 t.dev.bwk.word i = v ∧ tget none t.dev.bwk.wordAt i = some s.dev.wall) ∧
      (∀ k on, m = .output k on → k < 72 →
        (∀ j < 40, bit (rd s.dev (0x1500100 + 4 * j)) 31 = true → fld (rd s.dev (0x1500100 + 4 * j)) 6 0 = k →
          (loadOf t.dev j).recorded = on) ∧
        (∀ j < 32, bit (rd s.dev (0x15001A0 + 4 * j)) 31 = true → fld (rd s.dev (0x15001A0 + 4 * j)) 6 0 = k →
          (fieldOf t.dev j).recorded = on) ∧
        (∀ j < 40, bit (rd s.dev (0x1500100 + 4 * j)) 31 = false ∨ fld (rd s.dev (0x1500100 + 4 * j)) 6 0 ≠ k →
          (loadOf t.dev j).recorded = (loadOf s.dev j).recorded)) ∧
      (∀ l, m = .learn l → t.dev.svc.templates = l) ∧
      (∀ l, m = .theta l → t.dev.pair.theta = l ∧ t.dev.pair.thetaAt = s.dev.wall) ∧
      (∀ b, m = .config b → (imgType t.dev 4).act = bankOfImage b ∧ t.dev.svc.cfgGen = (bankOfImage b).gen ∧
        t.dev.svc.store = (if (bankOfImage b).delta then s.dev.svc.store ++ [b] else [b])) ∧
      (∀ ch n p, m = .partner ch n p → partOf t.dev ch n = p) ∧
      (∀ n, m = .slip n none → ∀ x, (n, x) ∉ t.dev.pair.slips)))) ∧
  (∀ (s : State) (seq : Word), pairsUp s.dev = true →
    (s.dev.pair.role ≠ .primary → exec (.mirrorAckRx seq) s = .next s) ∧
    (s.dev.pair.role = .primary → ∃ t, exec (.mirrorAckRx seq) s = .next t ∧ RoleOnly s t ∧ t.dev.pair.acked = seq ∧
      (s.dev.pair.resyncing = true → seq = s.dev.pair.mirrorSeq → t.dev.pair.mirrorSync = true ∧
        t.dev.pair.resyncing = false) ∧
      (s.dev.pair.handoverWait = true → seq = s.dev.pair.handoverSeq → t.dev.pair.role = .standby ∧
        t.dev.pair.domOwn = false) ∧
      (s.dev.pair.handoverWait = false ∨ seq ≠ s.dev.pair.handoverSeq → t.dev.pair.role = .primary ∧
        t.dev.pair.domOwn = s.dev.pair.domOwn)) ∧
    (s.dev.pair.role ≠ .standby → exec (.handoverRx seq) s = .next s) ∧
    (s.dev.pair.role = .standby → s.dev.pair.rebase = false → seq ≠ s.dev.pair.mirrorSeq + 1 →
      ∃ t, exec (.handoverRx seq) s = .next t ∧ ResyncAsked s t ∧ RoleOnly s t) ∧
    (s.dev.pair.role = .standby → s.dev.pair.rebase = true ∨ seq = s.dev.pair.mirrorSeq + 1 →
      ∃ t, exec (.handoverRx seq) s = .next t ∧ RoleOnly s t ∧ PairSent s t 3 seq.toNat ∧ t.dev.pair.mirrorSeq = seq ∧
      (mayClaim s.dev = true → t.dev.pair.role = .primary ∧ t.dev.pair.domOwn = true ∧ t.dev.pair.takeover = true) ∧
      (mayClaim s.dev = false → t.dev.pair.role = .standby ∧ t.dev.pair.handoverHeld = true))) ∧
  (∀ (s : State) (c : Instr) (n : Nat),
    (c = .mirrorAckTimeout ∧ s.dev.pair.acked ≠ s.dev.pair.mirrorSeq) ∨ (c = .resyncRequestRx ∧ pairsUp s.dev = true) →
    s.dev.pair.role = .primary → s.dev.pair.peerLive = true → n = (if s.dev.pair.theta = [] then 10 else 11) →
    ∃ t, exec c s = .next t ∧ RoleOnly s t ∧ t.dev.pair.mirrorSync = false ∧ t.dev.pair.resyncing = true ∧
      t.dev.pair.mirrorSeq = s.dev.pair.mirrorSeq + BitVec.ofNat 32 n ∧
      cnt t.dev 0x1500060 = cnt s.dev 0x1500060 + 1 ∧ cnt t.dev 0x1500068 = cnt s.dev 0x1500068 + BitVec.ofNat 64 n ∧
      bit (rd t.dev 0x1500008) 5 = true) ∧
  (∀ (s : State), (s.dev.pair.role ≠ .primary → exec .resyncRequestRx s = .next s) ∧
    (s.dev.pair.role = .standby → pairsUp s.dev = true → ∃ t, exec .mirrorAckTimeout s = .next t ∧ ResyncAsked s t ∧
      RoleOnly s t) ∧
    (s.dev.pair.role ≠ .primary → s.dev.pair.role ≠ .standby ∨ pairsUp s.dev = false →
      exec .mirrorAckTimeout s = .next s) ∧
    (s.dev.pair.role = .primary → s.dev.pair.peerLive = false ∨ s.dev.pair.acked = s.dev.pair.mirrorSeq →
      exec .mirrorAckTimeout s = .next s) ∧
    (resultValid s.dev 0x1500014 = true → ∃ t, exec .resync s = .next t ∧ RoleOnly s t ∧
      (s.dev.pair.role = .standby → PairResult s t 0 ∧ ResyncAsked s t) ∧
      (s.dev.pair.role = .primary → PairResult s t 0 ∧ t.dev.pair.resyncing = true ∧
        t.dev.pair.mirrorSync = false) ∧
      (s.dev.pair.role ≠ .standby → s.dev.pair.role ≠ .primary → PairResult s t 3 ∧ t.dev.pair = s.dev.pair)) ∧
    (s.dev.pair.role ≠ .primary ∨ s.dev.pair.takeover = false ∨ qmAwake s.dev = false →
      exec .takeoverBind s = .next s) ∧
    (s.dev.pair.role = .primary → s.dev.pair.takeover = true → qmAwake s.dev = true → (s.dev.pair.binds.map (·.1)).Nodup →
      ∃ t, exec .takeoverBind s = .next t ∧ OutputsHold s t ∧ t.dev.pair.takeover = false ∧
      (∀ e ∈ s.dev.pair.slips, e.1 ≠ 0 → (slipOf t.dev e.1).state ≠ .free) ∧
      ∀ e ∈ s.dev.pair.binds, e.2.owner ≠ 0 → (slipOf t.dev e.2.owner).state ≠ .free → resOf t.dev e.1 = e.2))

/-- SVC_RESULT has the outcome `st` with the next SEQ (R40, R439). -/
def SvcResult (s t : State) (st : Nat) : Prop :=
  rd t.dev 0x160000C = 0x80000000 ||| at_ st 27 ||| at_ ((fld (rd s.dev 0x160000C) 15 0 + 1) % 65536) 0

/-- The banks and the active bank of every image type, the store and the fuse rows are as they were. -/
def ImagesKept (s t : State) : Prop :=
  t.dev.svc.types = s.dev.svc.types ∧ t.dev.svc.store = s.dev.svc.store ∧ t.dev.svc.cfgGen = s.dev.svc.cfgGen

/-- R427, R430, R433–R436, R439, Tables 15.5, 15.10, 15.11: STAGE checks in order into the inactive bank, ACTIVATE and
REVERT, RAISE_SVN, and the wear of converter phases, flash blocks and the bulk bank. The further conditions of BAD_HEADER,
when STAGED is set, and the order of RAISE_SVN's refusals are the model's choices (log entry 56). -/
def Obligations.ImagesAndReserve : Prop :=
  (∀ (s : State) (t0 : Fin 16) (im : StageRead) (key : Byte), resultValid s.dev 0x160000C = false →
    ∀ c ∈ [Instr.stage t0 im, .activate t0, .revert t0, .raiseSvn t0 key],
      exec c s = .next { s with dev := evSvc s.dev 6 0 }) ∧
  (∀ (s : State) (t0 : Fin 16) (im : StageRead) (n : Nat), resultValid s.dev 0x160000C = true →
    n = fld (rd s.dev 0x1600020) 24 0 → ∃ t, exec (.stage t0 im) s = .next t ∧ t.mem = s.mem ∧
      t.dev.svc.store = s.dev.svc.store ∧ (imgType t.dev t0).act = (imgType s.dev t0).act ∧
      (∀ j, j ≠ t0.val → imgType t.dev j = imgType s.dev j) ∧
      (t0.val < 1 ∨ 4 < t0.val → SvcResult s t 2 ∧ ImagesKept s t) ∧
      (1 ≤ t0.val → t0.val ≤ 4 → (n ≤ 16777216 → im = .cut → (imgType t.dev t0).inact = {} ∧
          resultValid t.dev 0x160000C = false) ∧
        (16777216 < n ∨ im ≠ .cut → bit (rd t.dev 0x1600000) 2 = true) ∧
        (16777216 < n → SvcResult s t 4 ∧ ImagesKept s t) ∧
        (n ≤ 16777216 → im = .failed → SvcResult s t 3 ∧ (imgType t.dev t0).inact = {}) ∧
        (∀ b, n ≤ 16777216 → im = .whole b → SvcResult s t (imageStatus s.dev (b.take n) t0) ∧
          (imgType t.dev t0).inact =
            if imageStatus s.dev (b.take n) t0 = 0 then bankOfImage (b.take n) else {}))) ∧
  (∀ (s : State) (t0 : Fin 16) (c : Instr), resultValid s.dev 0x160000C = true → 1 ≤ t0.val → t0.val ≤ 3 →
    c = .activate t0 ∨ c = .revert t0 → ∃ t, exec c s = .next t ∧ t.mem = s.mem ∧
      ((imgType s.dev t0).inact.valid = false → SvcResult s t 10 ∧ ImagesKept s t) ∧
      ((imgType s.dev t0).inact.valid = true → pairFmtBad s.dev t0 (imgType s.dev t0).inact = true →
        SvcResult s t 11 ∧ ImagesKept s t) ∧
      ((imgType s.dev t0).inact.valid = true → pairFmtBad s.dev t0 (imgType s.dev t0).inact = false →
        SvcResult s t 0 ∧ (imgType t.dev t0).act = (imgType s.dev t0).inact ∧
        (imgType t.dev t0).inact = (imgType s.dev t0).act ∧ bit (rd t.dev 0x1600000) 3 = true)) ∧
  (∀ (s : State) (t0 : Fin 16), resultValid s.dev 0x160000C = true →
    (t0.val < 1 ∨ 4 < t0.val → ∃ t, exec (.activate t0) s = .next t ∧ SvcResult s t 2 ∧ ImagesKept s t) ∧
    (t0.val < 1 ∨ 3 < t0.val → ∃ t, exec (.revert t0) s = .next t ∧ SvcResult s t 2 ∧ ImagesKept s t) ∧
    ∀ b, b = (imgType s.dev 4).inact → ∃ t, exec (.activate 4) s = .next t ∧ t.mem = s.mem ∧
      (b.valid = false → SvcResult s t 10 ∧ ImagesKept s t) ∧
      (b.valid = true → b.delta = true → b.base ≠ s.dev.svc.cfgGen → SvcResult s t 9 ∧ ImagesKept s t) ∧
      (b.valid = true → b.delta = true → b.base = s.dev.svc.cfgGen → 16 ≤ s.dev.svc.store.length →
        SvcResult s t 14 ∧ ImagesKept s t) ∧
      (b.valid = true → (b.delta = true → b.base = s.dev.svc.cfgGen ∧ s.dev.svc.store.length < 16) →
        (∀ w ∈ imageWork b.image, ∃ l, w.2.2 = .learn l) →
        SvcResult s t 0 ∧ (imgType t.dev 4).act = b ∧ t.dev.svc.cfgGen = b.gen ∧ t.dev.svc.cfgState = 1 ∧
        t.dev.svc.store = (if b.delta then s.dev.svc.store ++ [b.image] else [b.image]) ∧
        bit (rd t.dev 0x1600000) 3 = true ∧
        ∀ w l, (imageWork b.image).getLast? = some w → w.2.2 = .learn l → t.dev.svc.templates = l)) ∧
  (∀ (s : State) (t0 : Fin 16) (key : Byte) (x : ImgType), resultValid s.dev 0x160000C = true →
    x = imgType s.dev t0 → ∃ t st, exec (.raiseSvn t0 key) s = .next t ∧ t.mem = s.mem ∧ SvcResult s t st ∧
      st = (if t0.val < 1 ∨ 3 < t0.val then 2 else if key ≠ 0xA5 then 13 else if 16 ≤ x.svnRows then 15 else 0) ∧
      (st ≠ 0 ∨ x.act.svn.toNat ≤ x.svnMin.toNat → ImagesKept s t) ∧
      (st = 0 → x.svnMin.toNat < x.act.svn.toNat → (imgType t.dev t0).svnMin = x.act.svn ∧
        (imgType t.dev t0).svnRows = x.svnRows + 1 ∧ (imgType t.dev t0).act = x.act)) ∧
  (∀ (s : State) (r : Nat) (c : Instr), (r, c) ∈ [(5, Instr.converterPhaseFail false), (6, .converterPhaseFail true),
      (4, .flashBlockFail)] → ∃ t, exec c s = .next t ∧ t.mem = s.mem ∧
      (reserveUsed s.dev r < (if r = 4 then 1024 else 1) → t.dev.ldc = s.dev.ldc ∧
        reserveUsed t.dev r = reserveUsed s.dev r + 1 ∧
        bit (rd t.dev 0x1600000) 0 = true ∧ bit (rd t.dev 0x1C) 3 = true ∧
        tget 0 t.dev.svc.lost r = tget 0 s.dev.svc.lost r) ∧
      ((if r = 4 then 1024 else 1) ≤ reserveUsed s.dev r → reserveUsed t.dev r = reserveUsed s.dev r ∧
        tget 0 t.dev.svc.lost r = tget 0 s.dev.svc.lost r + 1 ∧ (r = 4 → t.dev.ldc = s.dev.ldc) ∧
        (r ≠ 4 → reserved t.dev 0 ≤ budget t.dev 0 ∨ ∀ n < 24, sheddable t.dev n = false))) ∧
  (∀ (s : State) (p : Nat), ∃ t, exec (.bulkCapMeasure p) s = .next t ∧ t.mem = s.mem ∧
    t.dev.svc = { s.dev.svc with bulkCap := min 100 p } ∧
    (min 100 p ≤ fld (rd s.dev 0x1600138) 15 0 → bit (rd t.dev 0x1600000) 1 = true))

/-- The step (the queue is first in, first out): the command at the front of the queue runs on the queue's rest. On an empty
queue the model lets one period of the 100 MHz reference pass (its own choice, log entry 2): time counts 10 ns on, and
with nothing to slew and no configuration being applied nothing else changes. -/
def Obligations.StepRunsFrontCommand : Prop :=
  (∀ (s : State) (c : Instr) (rest : List Instr), s.pending = c :: rest →
    step s = exec c { s with pending := rest }) ∧
  (∀ (s : State), s.pending = [] → s.dev.as_.slew = 0 → s.dev.svc.applying = none →
    step s = .next { s with dev := { s.dev with wall := s.dev.wall + 10 } }) ∧
  (∀ (s : State), s.pending = [] → s.dev.as_.slew ≠ 0 → s.dev.svc.applying = none → ∃ t, step s = .next t ∧
    t.dev.wall = s.dev.wall + 10 ∧
    (s.dev.as_.slewAcc + 10 < 2000 → t.dev.timeOff = s.dev.timeOff ∧ t.dev.as_.slew = s.dev.as_.slew) ∧
    (2000 ≤ s.dev.as_.slewAcc + 10 → t.dev.timeOff - s.dev.timeOff = (if 0 < s.dev.as_.slew then 1 else -1) ∧
      t.dev.as_.slew = s.dev.as_.slew - (if 0 < s.dev.as_.slew then 1 else -1)))

/-- Every command answers a next state (none faults, none is refused), leaves the queue to the step, and, unless it is a
memory access, a request the Lock serves, or a source that may assert the Cold reach, leaves every byte of every
region-controlled memory as it was. That every command answers a next state is the model's choice (log entry 68). -/
def Obligations.EveryCommandAnswers : Prop :=
  ∀ (c : Instr) (s : State), ∃ t, exec c s = .next t ∧ t.pending = s.pending ∧
    (touchesMemory c = false → t.mem = s.mem)

/-- The memories keep their canonical form at every step: keys rise strictly and no entry holds what an unlisted byte
reads as. -/
def Obligations.MemoryFormKept : Prop :=
  ∀ (s t : State), MemOk s → step s = .next t → MemOk t

/-- What reset leaves: the registers at the reset values the spec's tables give, every load gate off under the hold of R403,
no slip but slip 0, a Cold episode of source 1, an empty queue, and empty memories, which is their canonical form. That
reset stands just after a Cold reach, UNDERWAY, is the model's choice (log entry 6), as is what an unlisted byte reads as
(log entry 1); the values of log entries 3 to 5 and 7 to 9 are not stated here. -/
def Obligations.ResetLeaves : Prop :=
  MemOk State.reset ∧ State.reset.mem = [] ∧ State.reset.pending = [] ∧
  (∀ e ∈ [(0x20, 0), (0x10000C, 0x60000700), (0x100014, 0x80000000), (0x100038, 0xFFFFFFFF), (0x10003C, 0xFFFFFFFF),
      (0x100040, 0x4000FFFF), (0x201000, 0), (0x20115C, 74), (0x20141C, 222), (0x400014, 0x80000000),
      (0x80000C, 0x80000000), (0x1500000, 0x00050000), (0x1500014, 0x80000000), (0x160000C, 0x80000000),
      (0x1600100, 614), (0x1600138, 20)],
    rd State.reset.dev e.1 = BitVec.ofNat 32 e.2) ∧
  (∀ k < 32, rd State.reset.dev (0x100100 + 4 * k) = 0) ∧
  (∀ n < 40, (loadOf State.reset.dev n).gate = false) ∧ State.reset.dev.ldc.gateHold = true ∧
  (∀ n, n ≠ 0 → (slipOf State.reset.dev n).state = .free) ∧ (slipOf State.reset.dev 0).state = .active ∧
  State.reset.dev.rst.causeReach = 4 ∧ State.reset.dev.rst.causeSources = 2 ∧
  State.reset.dev.rst.pstate = .underway ∧ State.reset.dev.bwk.state = .empty ∧ pairRole State.reset.dev = 0 ∧
  State.reset.dev.basin.marching = true ∧ State.reset.dev.basin.frames = [] ∧
  (∀ a, cnt State.reset.dev a = 0)
end

