-- ==== Sys2Proof/Laws/Tab.lean ====
section
/-! SUPPORT. The laws of sparse tables and of the memory built on them: a read after a write of the same key gives what
was written, a write leaves every other key alone, and the memory's canonical form is kept. -/

namespace Sys2Proof.Laws

open Sys2Proof.Machine

theorem tget_tput {α : Type} (x : α) (t : List (Nat × α)) (k j : Nat) (v : α) :
    tget x (tput t k v) j = if j = k then v else tget x t j := by
  induction t with
  | nil => simp [tput, tget, eq_comm]
  | cons e t ih =>
    obtain ⟨k', v'⟩ := e
    unfold tput
    split
    · simp [tget, eq_comm]
    · split
      · subst k'
        simp only [tget]
        split <;> simp_all
        intro h; exact absurd h.symm (by assumption)
      · simp only [tget, ih]
        split
        · subst k'
          rw [if_neg (by rename_i h; exact fun hjk => h hjk.symm)]
        · rfl

theorem tget_terase {α : Type} (x : α) (t : List (Nat × α)) (k j : Nat) :
    tget x (terase t k) j = if j = k then x else tget x t j := by
  induction t with
  | nil => simp [terase, tget]
  | cons e t ih =>
    obtain ⟨k', v'⟩ := e
    by_cases h : k' = k
    · have : terase ((k', v') :: t) k = terase t k := by simp [terase, h]
      rw [this, ih]
      simp only [tget, h]
      split <;> simp_all
      intro h'; exact absurd h'.symm (by assumption)
    · have : terase ((k', v') :: t) k = (k', v') :: terase t k := by simp [terase, h]
      rw [this]
      simp only [tget, ih]
      split
      · subst k'; rw [if_neg h]
      · rfl

@[simp] theorem tget_tset {α : Type} [DecidableEq α] (x : α) (t : List (Nat × α)) (k j : Nat) (v : α) :
    tget x (tset x t k v) j = if j = k then v else tget x t j := by
  unfold tset
  split
  · rename_i h; rw [tget_terase, h]
  · exact tget_tput x t k j v

theorem tget_tset_self {α : Type} [DecidableEq α] (x : α) (t : List (Nat × α)) (k : Nat) (v : α) :
    tget x (tset x t k v) k = v := by simp

theorem tget_tset_other {α : Type} [DecidableEq α] (x : α) (t : List (Nat × α)) {k j : Nat} (v : α) (h : j ≠ k) :
    tget x (tset x t k v) j = tget x t j := by simp [h]

theorem tget_tclear {α : Type} (x : α) (t : List (Nat × α)) (lo hi j : Nat) :
    tget x (tclear t lo hi) j = if lo ≤ j ∧ j < hi then x else tget x t j := by
  induction t with
  | nil => simp [tclear, tget]
  | cons e t ih =>
    obtain ⟨k', v'⟩ := e
    by_cases h : lo ≤ k' ∧ k' < hi
    · have : tclear ((k', v') :: t) lo hi = tclear t lo hi := by simp [tclear, h]
      rw [this, ih]
      simp only [tget]
      split
      · rfl
      · rename_i hj
        rw [if_neg]; rintro rfl; exact hj h
    · have : tclear ((k', v') :: t) lo hi = (k', v') :: tclear t lo hi := by
        simp only [tclear, List.filter_cons]
        rw [if_pos (by simp only [Bool.not_eq_true', Bool.and_eq_false_iff, decide_eq_false_iff_not]; omega)]
      rw [this]
      simp only [tget, ih]
      split
      · subst k'; rw [if_neg h]
      · rfl

/-! ## The memory -/

theorem memByte_memSet (l : List Host.Cell) (k j : Nat) (v : Byte) :
    memByte (memSet l k v) j = if j = k then v else memByte l j := by simp [memByte, memSet]

/-- A write of bytes is read back inside its range and changes no other byte. -/
theorem memByte_memWrite (bs : List Byte) (l : List Host.Cell) (k j : Nat) :
    memByte (memWrite l k bs) j = if k ≤ j ∧ j < k + bs.length then bs.getD (j - k) 0 else memByte l j := by
  induction bs generalizing l k with
  | nil => simp [memWrite]
  | cons b t ih =>
    simp only [memWrite, ih, memByte_memSet, List.length_cons]
    by_cases hj : j = k
    · subst hj; simp
    · by_cases h1 : k + 1 ≤ j ∧ j < k + 1 + t.length
      · have : j - k = (j - (k + 1)) + 1 := by omega
        rw [if_pos h1, if_pos (by omega), this]; simp
      · rw [if_neg h1, if_neg hj, if_neg (by omega)]

/-! ### The canonical form -/

theorem wf_cons (e : Host.Cell) (l : List Host.Cell) :
    Memory.wf (e :: l) = true ↔ e.2 ≠ memDefault ∧ (∀ f ∈ l, e.1 < f.1) ∧ Memory.wf l = true := by
  induction l generalizing e with
  | nil => simp [Memory.wf]
  | cons f t ih =>
    have hf := ih f
    constructor
    · intro h
      simp only [Memory.wf, Bool.and_eq_true, decide_eq_true_eq] at h
      obtain ⟨⟨h1, h2⟩, h3⟩ := h
      refine ⟨h1, ?_, h3⟩
      intro g hg
      rcases List.mem_cons.1 hg with rfl | hg
      · exact h2
      · exact Nat.lt_trans h2 ((hf.1 h3).2.1 g hg)
    · rintro ⟨h1, h2, h3⟩
      simp only [Memory.wf, Bool.and_eq_true, decide_eq_true_eq]
      exact ⟨⟨h1, h2 f (by simp)⟩, h3⟩

theorem wf_filter (p : Host.Cell → Bool) (l : List Host.Cell) (h : Memory.wf l = true) :
    Memory.wf (l.filter p) = true := by
  induction l with
  | nil => simpa using h
  | cons e t ih =>
    obtain ⟨h1, h2, h3⟩ := (wf_cons e t).1 h
    rw [List.filter_cons]
    split
    · exact (wf_cons _ _).2 ⟨h1, fun f hf => h2 f (List.mem_filter.1 hf).1, ih h3⟩
    · exact ih h3

theorem mem_tput {t : List Host.Cell} {k : Nat} {v : Byte} {f : Host.Cell} (h : f ∈ tput t k v) :
    f = (k, v) ∨ f ∈ t := by
  induction t with
  | nil => simpa [tput] using h
  | cons e t ih =>
    obtain ⟨k', v'⟩ := e
    unfold tput at h
    split at h
    · simpa using h
    · split at h
      · rcases List.mem_cons.1 h with h | h
        · exact .inl h
        · exact .inr (List.mem_cons_of_mem _ h)
      · rcases List.mem_cons.1 h with h | h
        · exact .inr (by simp [h])
        · rcases ih h with h | h
          · exact .inl h
          · exact .inr (List.mem_cons_of_mem _ h)

theorem wf_tput (t : List Host.Cell) (k : Nat) (v : Byte) (hv : v ≠ memDefault) (h : Memory.wf t = true) :
    Memory.wf (tput t k v) = true := by
  induction t with
  | nil => simp [tput, Memory.wf, hv]
  | cons e t ih =>
    obtain ⟨h1, h2, h3⟩ := (wf_cons e t).1 h
    obtain ⟨k', v'⟩ := e
    unfold tput
    split
    · rename_i hk
      refine (wf_cons _ _).2 ⟨hv, ?_, h⟩
      intro f hf
      rcases List.mem_cons.1 hf with rfl | hf
      · exact hk
      · exact Nat.lt_trans hk (h2 f hf)
    · split
      · rename_i hk; subst hk
        exact (wf_cons _ _).2 ⟨hv, h2, h3⟩
      · refine (wf_cons _ _).2 ⟨h1, ?_, ih h3⟩
        intro f hf
        rcases mem_tput hf with rfl | hf
        · simp only; omega
        · exact h2 f hf

theorem memSet_wf (l : List Host.Cell) (k : Nat) (v : Byte) (h : Memory.wf l = true) :
    Memory.wf (memSet l k v) = true := by
  unfold memSet tset
  split
  · exact wf_filter _ l h
  · exact wf_tput l k v (by assumption) h

theorem memWrite_wf (bs : List Byte) (l : List Host.Cell) (k : Nat) (h : Memory.wf l = true) :
    Memory.wf (memWrite l k bs) = true := by
  induction bs generalizing l k with
  | nil => exact h
  | cons b t ih => exact ih _ _ (memSet_wf l k b h)

theorem memZero_wf (l : List Host.Cell) (m : Nat) (h : Memory.wf l = true) : Memory.wf (memZero l m) = true :=
  wf_filter _ l h

end Sys2Proof.Laws
end

