-- ==== Sys2Proof/Laws/State.lean ====
section
/-! SUPPORT. What each named update of the device leaves alone: one lemma per field and update, true by rfl, so that no
proof unfolds a record update; and what a bank reads after it was written. Also: onDev keeps memory and queue. -/

namespace Sys2Proof.Laws

open Sys2Proof.Machine

variable (d : Dev)

@[simp] theorem wr_wall (a : Nat) (v : Word) : (wr d a v).wall = d.wall := rfl
@[simp] theorem wr_timeOff (a : Nat) (v : Word) : (wr d a v).timeOff = d.timeOff := rfl
@[simp] theorem wr_aonTime (a : Nat) (v : Word) : (wr d a v).aonTime = d.aonTime := rfl
@[simp] theorem wr_aonAt (a : Nat) (v : Word) : (wr d a v).aonAt = d.aonAt := rfl
@[simp] theorem wr_cnts (a : Nat) (v : Word) : (wr d a v).cnts = d.cnts := rfl
@[simp] theorem wr_free (a : Nat) (v : Word) : (wr d a v).free = d.free := rfl
@[simp] theorem wr_out (a : Nat) (v : Word) : (wr d a v).out = d.out := rfl
@[simp] theorem wr_qm (a : Nat) (v : Word) : (wr d a v).qm = d.qm := rfl
@[simp] theorem wr_log (a : Nat) (v : Word) : (wr d a v).log = d.log := rfl
@[simp] theorem wr_as_ (a : Nat) (v : Word) : (wr d a v).as_ = d.as_ := rfl
@[simp] theorem wr_basin (a : Nat) (v : Word) : (wr d a v).basin = d.basin := rfl
@[simp] theorem wr_ports (a : Nat) (v : Word) : (wr d a v).ports = d.ports := rfl
@[simp] theorem wr_ms (a : Nat) (v : Word) : (wr d a v).ms = d.ms := rfl
@[simp] theorem wr_lb (a : Nat) (v : Word) : (wr d a v).lb = d.lb := rfl
@[simp] theorem wr_cht (a : Nat) (v : Word) : (wr d a v).cht = d.cht := rfl
@[simp] theorem wr_slips (a : Nat) (v : Word) : (wr d a v).slips = d.slips := rfl
@[simp] theorem wr_brg (a : Nat) (v : Word) : (wr d a v).brg = d.brg := rfl
@[simp] theorem wr_can (a : Nat) (v : Word) : (wr d a v).can = d.can := rfl
@[simp] theorem wr_nws (a : Nat) (v : Word) : (wr d a v).nws = d.nws := rfl
@[simp] theorem wr_ldc (a : Nat) (v : Word) : (wr d a v).ldc = d.ldc := rfl
@[simp] theorem wr_bwk (a : Nat) (v : Word) : (wr d a v).bwk = d.bwk := rfl
@[simp] theorem wr_rst (a : Nat) (v : Word) : (wr d a v).rst = d.rst := rfl
@[simp] theorem wr_pair (a : Nat) (v : Word) : (wr d a v).pair = d.pair := rfl
@[simp] theorem wr_svc (a : Nat) (v : Word) : (wr d a v).svc = d.svc := rfl
@[simp] theorem wr_fio (a : Nat) (v : Word) : (wr d a v).fio = d.fio := rfl
@[simp] theorem wr_clt (a : Nat) (v : Word) : (wr d a v).clt = d.clt := rfl
@[simp] theorem wr_wld (a : Nat) (v : Word) : (wr d a v).wld = d.wld := rfl
@[simp] theorem wr_keys (a : Nat) (v : Word) : (wr d a v).keys = d.keys := rfl

@[simp] theorem cntAdd_wall (a n : Nat) : (cntAdd d a n).wall = d.wall := rfl
@[simp] theorem cntAdd_timeOff (a n : Nat) : (cntAdd d a n).timeOff = d.timeOff := rfl
@[simp] theorem cntAdd_aonTime (a n : Nat) : (cntAdd d a n).aonTime = d.aonTime := rfl
@[simp] theorem cntAdd_aonAt (a n : Nat) : (cntAdd d a n).aonAt = d.aonAt := rfl
@[simp] theorem cntAdd_regs (a n : Nat) : (cntAdd d a n).regs = d.regs := rfl
@[simp] theorem cntAdd_free (a n : Nat) : (cntAdd d a n).free = d.free := rfl
@[simp] theorem cntAdd_out (a n : Nat) : (cntAdd d a n).out = d.out := rfl
@[simp] theorem cntAdd_qm (a n : Nat) : (cntAdd d a n).qm = d.qm := rfl
@[simp] theorem cntAdd_log (a n : Nat) : (cntAdd d a n).log = d.log := rfl
@[simp] theorem cntAdd_as_ (a n : Nat) : (cntAdd d a n).as_ = d.as_ := rfl
@[simp] theorem cntAdd_basin (a n : Nat) : (cntAdd d a n).basin = d.basin := rfl
@[simp] theorem cntAdd_ports (a n : Nat) : (cntAdd d a n).ports = d.ports := rfl
@[simp] theorem cntAdd_ms (a n : Nat) : (cntAdd d a n).ms = d.ms := rfl
@[simp] theorem cntAdd_lb (a n : Nat) : (cntAdd d a n).lb = d.lb := rfl
@[simp] theorem cntAdd_cht (a n : Nat) : (cntAdd d a n).cht = d.cht := rfl
@[simp] theorem cntAdd_slips (a n : Nat) : (cntAdd d a n).slips = d.slips := rfl
@[simp] theorem cntAdd_brg (a n : Nat) : (cntAdd d a n).brg = d.brg := rfl
@[simp] theorem cntAdd_can (a n : Nat) : (cntAdd d a n).can = d.can := rfl
@[simp] theorem cntAdd_nws (a n : Nat) : (cntAdd d a n).nws = d.nws := rfl
@[simp] theorem cntAdd_ldc (a n : Nat) : (cntAdd d a n).ldc = d.ldc := rfl
@[simp] theorem cntAdd_bwk (a n : Nat) : (cntAdd d a n).bwk = d.bwk := rfl
@[simp] theorem cntAdd_rst (a n : Nat) : (cntAdd d a n).rst = d.rst := rfl
@[simp] theorem cntAdd_pair (a n : Nat) : (cntAdd d a n).pair = d.pair := rfl
@[simp] theorem cntAdd_svc (a n : Nat) : (cntAdd d a n).svc = d.svc := rfl
@[simp] theorem cntAdd_fio (a n : Nat) : (cntAdd d a n).fio = d.fio := rfl
@[simp] theorem cntAdd_clt (a n : Nat) : (cntAdd d a n).clt = d.clt := rfl
@[simp] theorem cntAdd_wld (a n : Nat) : (cntAdd d a n).wld = d.wld := rfl
@[simp] theorem cntAdd_keys (a n : Nat) : (cntAdd d a n).keys = d.keys := rfl

@[simp] theorem inc_wall (a : Nat) : (inc d a).wall = d.wall := rfl
@[simp] theorem inc_timeOff (a : Nat) : (inc d a).timeOff = d.timeOff := rfl
@[simp] theorem inc_aonTime (a : Nat) : (inc d a).aonTime = d.aonTime := rfl
@[simp] theorem inc_aonAt (a : Nat) : (inc d a).aonAt = d.aonAt := rfl
@[simp] theorem inc_regs (a : Nat) : (inc d a).regs = d.regs := rfl
@[simp] theorem inc_free (a : Nat) : (inc d a).free = d.free := rfl
@[simp] theorem inc_out (a : Nat) : (inc d a).out = d.out := rfl
@[simp] theorem inc_qm (a : Nat) : (inc d a).qm = d.qm := rfl
@[simp] theorem inc_log (a : Nat) : (inc d a).log = d.log := rfl
@[simp] theorem inc_as_ (a : Nat) : (inc d a).as_ = d.as_ := rfl
@[simp] theorem inc_basin (a : Nat) : (inc d a).basin = d.basin := rfl
@[simp] theorem inc_ports (a : Nat) : (inc d a).ports = d.ports := rfl
@[simp] theorem inc_ms (a : Nat) : (inc d a).ms = d.ms := rfl
@[simp] theorem inc_lb (a : Nat) : (inc d a).lb = d.lb := rfl
@[simp] theorem inc_cht (a : Nat) : (inc d a).cht = d.cht := rfl
@[simp] theorem inc_slips (a : Nat) : (inc d a).slips = d.slips := rfl
@[simp] theorem inc_brg (a : Nat) : (inc d a).brg = d.brg := rfl
@[simp] theorem inc_can (a : Nat) : (inc d a).can = d.can := rfl
@[simp] theorem inc_nws (a : Nat) : (inc d a).nws = d.nws := rfl
@[simp] theorem inc_ldc (a : Nat) : (inc d a).ldc = d.ldc := rfl
@[simp] theorem inc_bwk (a : Nat) : (inc d a).bwk = d.bwk := rfl
@[simp] theorem inc_rst (a : Nat) : (inc d a).rst = d.rst := rfl
@[simp] theorem inc_pair (a : Nat) : (inc d a).pair = d.pair := rfl
@[simp] theorem inc_svc (a : Nat) : (inc d a).svc = d.svc := rfl
@[simp] theorem inc_fio (a : Nat) : (inc d a).fio = d.fio := rfl
@[simp] theorem inc_clt (a : Nat) : (inc d a).clt = d.clt := rfl
@[simp] theorem inc_wld (a : Nat) : (inc d a).wld = d.wld := rfl
@[simp] theorem inc_keys (a : Nat) : (inc d a).keys = d.keys := rfl

@[simp] theorem cntSet_wall (a : Nat) (v : DWord) : (cntSet d a v).wall = d.wall := rfl
@[simp] theorem cntSet_timeOff (a : Nat) (v : DWord) : (cntSet d a v).timeOff = d.timeOff := rfl
@[simp] theorem cntSet_aonTime (a : Nat) (v : DWord) : (cntSet d a v).aonTime = d.aonTime := rfl
@[simp] theorem cntSet_aonAt (a : Nat) (v : DWord) : (cntSet d a v).aonAt = d.aonAt := rfl
@[simp] theorem cntSet_regs (a : Nat) (v : DWord) : (cntSet d a v).regs = d.regs := rfl
@[simp] theorem cntSet_free (a : Nat) (v : DWord) : (cntSet d a v).free = d.free := rfl
@[simp] theorem cntSet_out (a : Nat) (v : DWord) : (cntSet d a v).out = d.out := rfl
@[simp] theorem cntSet_qm (a : Nat) (v : DWord) : (cntSet d a v).qm = d.qm := rfl
@[simp] theorem cntSet_log (a : Nat) (v : DWord) : (cntSet d a v).log = d.log := rfl
@[simp] theorem cntSet_as_ (a : Nat) (v : DWord) : (cntSet d a v).as_ = d.as_ := rfl
@[simp] theorem cntSet_basin (a : Nat) (v : DWord) : (cntSet d a v).basin = d.basin := rfl
@[simp] theorem cntSet_ports (a : Nat) (v : DWord) : (cntSet d a v).ports = d.ports := rfl
@[simp] theorem cntSet_ms (a : Nat) (v : DWord) : (cntSet d a v).ms = d.ms := rfl
@[simp] theorem cntSet_lb (a : Nat) (v : DWord) : (cntSet d a v).lb = d.lb := rfl
@[simp] theorem cntSet_cht (a : Nat) (v : DWord) : (cntSet d a v).cht = d.cht := rfl
@[simp] theorem cntSet_slips (a : Nat) (v : DWord) : (cntSet d a v).slips = d.slips := rfl
@[simp] theorem cntSet_brg (a : Nat) (v : DWord) : (cntSet d a v).brg = d.brg := rfl
@[simp] theorem cntSet_can (a : Nat) (v : DWord) : (cntSet d a v).can = d.can := rfl
@[simp] theorem cntSet_nws (a : Nat) (v : DWord) : (cntSet d a v).nws = d.nws := rfl
@[simp] theorem cntSet_ldc (a : Nat) (v : DWord) : (cntSet d a v).ldc = d.ldc := rfl
@[simp] theorem cntSet_bwk (a : Nat) (v : DWord) : (cntSet d a v).bwk = d.bwk := rfl
@[simp] theorem cntSet_rst (a : Nat) (v : DWord) : (cntSet d a v).rst = d.rst := rfl
@[simp] theorem cntSet_pair (a : Nat) (v : DWord) : (cntSet d a v).pair = d.pair := rfl
@[simp] theorem cntSet_svc (a : Nat) (v : DWord) : (cntSet d a v).svc = d.svc := rfl
@[simp] theorem cntSet_fio (a : Nat) (v : DWord) : (cntSet d a v).fio = d.fio := rfl
@[simp] theorem cntSet_clt (a : Nat) (v : DWord) : (cntSet d a v).clt = d.clt := rfl
@[simp] theorem cntSet_wld (a : Nat) (v : DWord) : (cntSet d a v).wld = d.wld := rfl
@[simp] theorem cntSet_keys (a : Nat) (v : DWord) : (cntSet d a v).keys = d.keys := rfl

@[simp] theorem clearCnts_wall (lo hi : Nat) : (clearCnts d lo hi).wall = d.wall := rfl
@[simp] theorem clearCnts_timeOff (lo hi : Nat) : (clearCnts d lo hi).timeOff = d.timeOff := rfl
@[simp] theorem clearCnts_aonTime (lo hi : Nat) : (clearCnts d lo hi).aonTime = d.aonTime := rfl
@[simp] theorem clearCnts_aonAt (lo hi : Nat) : (clearCnts d lo hi).aonAt = d.aonAt := rfl
@[simp] theorem clearCnts_regs (lo hi : Nat) : (clearCnts d lo hi).regs = d.regs := rfl
@[simp] theorem clearCnts_free (lo hi : Nat) : (clearCnts d lo hi).free = d.free := rfl
@[simp] theorem clearCnts_out (lo hi : Nat) : (clearCnts d lo hi).out = d.out := rfl
@[simp] theorem clearCnts_qm (lo hi : Nat) : (clearCnts d lo hi).qm = d.qm := rfl
@[simp] theorem clearCnts_log (lo hi : Nat) : (clearCnts d lo hi).log = d.log := rfl
@[simp] theorem clearCnts_as_ (lo hi : Nat) : (clearCnts d lo hi).as_ = d.as_ := rfl
@[simp] theorem clearCnts_basin (lo hi : Nat) : (clearCnts d lo hi).basin = d.basin := rfl
@[simp] theorem clearCnts_ports (lo hi : Nat) : (clearCnts d lo hi).ports = d.ports := rfl
@[simp] theorem clearCnts_ms (lo hi : Nat) : (clearCnts d lo hi).ms = d.ms := rfl
@[simp] theorem clearCnts_lb (lo hi : Nat) : (clearCnts d lo hi).lb = d.lb := rfl
@[simp] theorem clearCnts_cht (lo hi : Nat) : (clearCnts d lo hi).cht = d.cht := rfl
@[simp] theorem clearCnts_slips (lo hi : Nat) : (clearCnts d lo hi).slips = d.slips := rfl
@[simp] theorem clearCnts_brg (lo hi : Nat) : (clearCnts d lo hi).brg = d.brg := rfl
@[simp] theorem clearCnts_can (lo hi : Nat) : (clearCnts d lo hi).can = d.can := rfl
@[simp] theorem clearCnts_nws (lo hi : Nat) : (clearCnts d lo hi).nws = d.nws := rfl
@[simp] theorem clearCnts_ldc (lo hi : Nat) : (clearCnts d lo hi).ldc = d.ldc := rfl
@[simp] theorem clearCnts_bwk (lo hi : Nat) : (clearCnts d lo hi).bwk = d.bwk := rfl
@[simp] theorem clearCnts_rst (lo hi : Nat) : (clearCnts d lo hi).rst = d.rst := rfl
@[simp] theorem clearCnts_pair (lo hi : Nat) : (clearCnts d lo hi).pair = d.pair := rfl
@[simp] theorem clearCnts_svc (lo hi : Nat) : (clearCnts d lo hi).svc = d.svc := rfl
@[simp] theorem clearCnts_fio (lo hi : Nat) : (clearCnts d lo hi).fio = d.fio := rfl
@[simp] theorem clearCnts_clt (lo hi : Nat) : (clearCnts d lo hi).clt = d.clt := rfl
@[simp] theorem clearCnts_wld (lo hi : Nat) : (clearCnts d lo hi).wld = d.wld := rfl
@[simp] theorem clearCnts_keys (lo hi : Nat) : (clearCnts d lo hi).keys = d.keys := rfl

@[simp] theorem resetRegs_wall (lo hi : Nat) : (resetRegs d lo hi).wall = d.wall := rfl
@[simp] theorem resetRegs_timeOff (lo hi : Nat) : (resetRegs d lo hi).timeOff = d.timeOff := rfl
@[simp] theorem resetRegs_aonTime (lo hi : Nat) : (resetRegs d lo hi).aonTime = d.aonTime := rfl
@[simp] theorem resetRegs_aonAt (lo hi : Nat) : (resetRegs d lo hi).aonAt = d.aonAt := rfl
@[simp] theorem resetRegs_cnts (lo hi : Nat) : (resetRegs d lo hi).cnts = d.cnts := rfl
@[simp] theorem resetRegs_free (lo hi : Nat) : (resetRegs d lo hi).free = d.free := rfl
@[simp] theorem resetRegs_out (lo hi : Nat) : (resetRegs d lo hi).out = d.out := rfl
@[simp] theorem resetRegs_qm (lo hi : Nat) : (resetRegs d lo hi).qm = d.qm := rfl
@[simp] theorem resetRegs_log (lo hi : Nat) : (resetRegs d lo hi).log = d.log := rfl
@[simp] theorem resetRegs_as_ (lo hi : Nat) : (resetRegs d lo hi).as_ = d.as_ := rfl
@[simp] theorem resetRegs_basin (lo hi : Nat) : (resetRegs d lo hi).basin = d.basin := rfl
@[simp] theorem resetRegs_ports (lo hi : Nat) : (resetRegs d lo hi).ports = d.ports := rfl
@[simp] theorem resetRegs_ms (lo hi : Nat) : (resetRegs d lo hi).ms = d.ms := rfl
@[simp] theorem resetRegs_lb (lo hi : Nat) : (resetRegs d lo hi).lb = d.lb := rfl
@[simp] theorem resetRegs_cht (lo hi : Nat) : (resetRegs d lo hi).cht = d.cht := rfl
@[simp] theorem resetRegs_slips (lo hi : Nat) : (resetRegs d lo hi).slips = d.slips := rfl
@[simp] theorem resetRegs_brg (lo hi : Nat) : (resetRegs d lo hi).brg = d.brg := rfl
@[simp] theorem resetRegs_can (lo hi : Nat) : (resetRegs d lo hi).can = d.can := rfl
@[simp] theorem resetRegs_nws (lo hi : Nat) : (resetRegs d lo hi).nws = d.nws := rfl
@[simp] theorem resetRegs_ldc (lo hi : Nat) : (resetRegs d lo hi).ldc = d.ldc := rfl
@[simp] theorem resetRegs_bwk (lo hi : Nat) : (resetRegs d lo hi).bwk = d.bwk := rfl
@[simp] theorem resetRegs_rst (lo hi : Nat) : (resetRegs d lo hi).rst = d.rst := rfl
@[simp] theorem resetRegs_pair (lo hi : Nat) : (resetRegs d lo hi).pair = d.pair := rfl
@[simp] theorem resetRegs_svc (lo hi : Nat) : (resetRegs d lo hi).svc = d.svc := rfl
@[simp] theorem resetRegs_fio (lo hi : Nat) : (resetRegs d lo hi).fio = d.fio := rfl
@[simp] theorem resetRegs_clt (lo hi : Nat) : (resetRegs d lo hi).clt = d.clt := rfl
@[simp] theorem resetRegs_wld (lo hi : Nat) : (resetRegs d lo hi).wld = d.wld := rfl
@[simp] theorem resetRegs_keys (lo hi : Nat) : (resetRegs d lo hi).keys = d.keys := rfl

@[simp] theorem resultBegin_wall (a : Nat) : (resultBegin d a).wall = d.wall := rfl
@[simp] theorem resultBegin_timeOff (a : Nat) : (resultBegin d a).timeOff = d.timeOff := rfl
@[simp] theorem resultBegin_aonTime (a : Nat) : (resultBegin d a).aonTime = d.aonTime := rfl
@[simp] theorem resultBegin_aonAt (a : Nat) : (resultBegin d a).aonAt = d.aonAt := rfl
@[simp] theorem resultBegin_cnts (a : Nat) : (resultBegin d a).cnts = d.cnts := rfl
@[simp] theorem resultBegin_free (a : Nat) : (resultBegin d a).free = d.free := rfl
@[simp] theorem resultBegin_out (a : Nat) : (resultBegin d a).out = d.out := rfl
@[simp] theorem resultBegin_qm (a : Nat) : (resultBegin d a).qm = d.qm := rfl
@[simp] theorem resultBegin_log (a : Nat) : (resultBegin d a).log = d.log := rfl
@[simp] theorem resultBegin_as_ (a : Nat) : (resultBegin d a).as_ = d.as_ := rfl
@[simp] theorem resultBegin_basin (a : Nat) : (resultBegin d a).basin = d.basin := rfl
@[simp] theorem resultBegin_ports (a : Nat) : (resultBegin d a).ports = d.ports := rfl
@[simp] theorem resultBegin_ms (a : Nat) : (resultBegin d a).ms = d.ms := rfl
@[simp] theorem resultBegin_lb (a : Nat) : (resultBegin d a).lb = d.lb := rfl
@[simp] theorem resultBegin_cht (a : Nat) : (resultBegin d a).cht = d.cht := rfl
@[simp] theorem resultBegin_slips (a : Nat) : (resultBegin d a).slips = d.slips := rfl
@[simp] theorem resultBegin_brg (a : Nat) : (resultBegin d a).brg = d.brg := rfl
@[simp] theorem resultBegin_can (a : Nat) : (resultBegin d a).can = d.can := rfl
@[simp] theorem resultBegin_nws (a : Nat) : (resultBegin d a).nws = d.nws := rfl
@[simp] theorem resultBegin_ldc (a : Nat) : (resultBegin d a).ldc = d.ldc := rfl
@[simp] theorem resultBegin_bwk (a : Nat) : (resultBegin d a).bwk = d.bwk := rfl
@[simp] theorem resultBegin_rst (a : Nat) : (resultBegin d a).rst = d.rst := rfl
@[simp] theorem resultBegin_pair (a : Nat) : (resultBegin d a).pair = d.pair := rfl
@[simp] theorem resultBegin_svc (a : Nat) : (resultBegin d a).svc = d.svc := rfl
@[simp] theorem resultBegin_fio (a : Nat) : (resultBegin d a).fio = d.fio := rfl
@[simp] theorem resultBegin_clt (a : Nat) : (resultBegin d a).clt = d.clt := rfl
@[simp] theorem resultBegin_wld (a : Nat) : (resultBegin d a).wld = d.wld := rfl
@[simp] theorem resultBegin_keys (a : Nat) : (resultBegin d a).keys = d.keys := rfl

@[simp] theorem resultEnd_wall (a : Nat) (v : Word) : (resultEnd d a v).wall = d.wall := rfl
@[simp] theorem resultEnd_timeOff (a : Nat) (v : Word) : (resultEnd d a v).timeOff = d.timeOff := rfl
@[simp] theorem resultEnd_aonTime (a : Nat) (v : Word) : (resultEnd d a v).aonTime = d.aonTime := rfl
@[simp] theorem resultEnd_aonAt (a : Nat) (v : Word) : (resultEnd d a v).aonAt = d.aonAt := rfl
@[simp] theorem resultEnd_cnts (a : Nat) (v : Word) : (resultEnd d a v).cnts = d.cnts := rfl
@[simp] theorem resultEnd_free (a : Nat) (v : Word) : (resultEnd d a v).free = d.free := rfl
@[simp] theorem resultEnd_out (a : Nat) (v : Word) : (resultEnd d a v).out = d.out := rfl
@[simp] theorem resultEnd_qm (a : Nat) (v : Word) : (resultEnd d a v).qm = d.qm := rfl
@[simp] theorem resultEnd_log (a : Nat) (v : Word) : (resultEnd d a v).log = d.log := rfl
@[simp] theorem resultEnd_as_ (a : Nat) (v : Word) : (resultEnd d a v).as_ = d.as_ := rfl
@[simp] theorem resultEnd_basin (a : Nat) (v : Word) : (resultEnd d a v).basin = d.basin := rfl
@[simp] theorem resultEnd_ports (a : Nat) (v : Word) : (resultEnd d a v).ports = d.ports := rfl
@[simp] theorem resultEnd_ms (a : Nat) (v : Word) : (resultEnd d a v).ms = d.ms := rfl
@[simp] theorem resultEnd_lb (a : Nat) (v : Word) : (resultEnd d a v).lb = d.lb := rfl
@[simp] theorem resultEnd_cht (a : Nat) (v : Word) : (resultEnd d a v).cht = d.cht := rfl
@[simp] theorem resultEnd_slips (a : Nat) (v : Word) : (resultEnd d a v).slips = d.slips := rfl
@[simp] theorem resultEnd_brg (a : Nat) (v : Word) : (resultEnd d a v).brg = d.brg := rfl
@[simp] theorem resultEnd_can (a : Nat) (v : Word) : (resultEnd d a v).can = d.can := rfl
@[simp] theorem resultEnd_nws (a : Nat) (v : Word) : (resultEnd d a v).nws = d.nws := rfl
@[simp] theorem resultEnd_ldc (a : Nat) (v : Word) : (resultEnd d a v).ldc = d.ldc := rfl
@[simp] theorem resultEnd_bwk (a : Nat) (v : Word) : (resultEnd d a v).bwk = d.bwk := rfl
@[simp] theorem resultEnd_rst (a : Nat) (v : Word) : (resultEnd d a v).rst = d.rst := rfl
@[simp] theorem resultEnd_pair (a : Nat) (v : Word) : (resultEnd d a v).pair = d.pair := rfl
@[simp] theorem resultEnd_svc (a : Nat) (v : Word) : (resultEnd d a v).svc = d.svc := rfl
@[simp] theorem resultEnd_fio (a : Nat) (v : Word) : (resultEnd d a v).fio = d.fio := rfl
@[simp] theorem resultEnd_clt (a : Nat) (v : Word) : (resultEnd d a v).clt = d.clt := rfl
@[simp] theorem resultEnd_wld (a : Nat) (v : Word) : (resultEnd d a v).wld = d.wld := rfl
@[simp] theorem resultEnd_keys (a : Nat) (v : Word) : (resultEnd d a v).keys = d.keys := rfl

@[simp] theorem emit_wall (o : Out) : (emit d o).wall = d.wall := rfl
@[simp] theorem emit_timeOff (o : Out) : (emit d o).timeOff = d.timeOff := rfl
@[simp] theorem emit_aonTime (o : Out) : (emit d o).aonTime = d.aonTime := rfl
@[simp] theorem emit_aonAt (o : Out) : (emit d o).aonAt = d.aonAt := rfl
@[simp] theorem emit_regs (o : Out) : (emit d o).regs = d.regs := rfl
@[simp] theorem emit_cnts (o : Out) : (emit d o).cnts = d.cnts := rfl
@[simp] theorem emit_free (o : Out) : (emit d o).free = d.free := rfl
@[simp] theorem emit_qm (o : Out) : (emit d o).qm = d.qm := rfl
@[simp] theorem emit_log (o : Out) : (emit d o).log = d.log := rfl
@[simp] theorem emit_as_ (o : Out) : (emit d o).as_ = d.as_ := rfl
@[simp] theorem emit_basin (o : Out) : (emit d o).basin = d.basin := rfl
@[simp] theorem emit_ports (o : Out) : (emit d o).ports = d.ports := rfl
@[simp] theorem emit_ms (o : Out) : (emit d o).ms = d.ms := rfl
@[simp] theorem emit_lb (o : Out) : (emit d o).lb = d.lb := rfl
@[simp] theorem emit_cht (o : Out) : (emit d o).cht = d.cht := rfl
@[simp] theorem emit_slips (o : Out) : (emit d o).slips = d.slips := rfl
@[simp] theorem emit_brg (o : Out) : (emit d o).brg = d.brg := rfl
@[simp] theorem emit_can (o : Out) : (emit d o).can = d.can := rfl
@[simp] theorem emit_nws (o : Out) : (emit d o).nws = d.nws := rfl
@[simp] theorem emit_ldc (o : Out) : (emit d o).ldc = d.ldc := rfl
@[simp] theorem emit_bwk (o : Out) : (emit d o).bwk = d.bwk := rfl
@[simp] theorem emit_rst (o : Out) : (emit d o).rst = d.rst := rfl
@[simp] theorem emit_pair (o : Out) : (emit d o).pair = d.pair := rfl
@[simp] theorem emit_svc (o : Out) : (emit d o).svc = d.svc := rfl
@[simp] theorem emit_fio (o : Out) : (emit d o).fio = d.fio := rfl
@[simp] theorem emit_clt (o : Out) : (emit d o).clt = d.clt := rfl
@[simp] theorem emit_wld (o : Out) : (emit d o).wld = d.wld := rfl
@[simp] theorem emit_keys (o : Out) : (emit d o).keys = d.keys := rfl

@[simp] theorem setSlip_wall (n : Nat) (x : Slip) : (setSlip d n x).wall = d.wall := rfl
@[simp] theorem setSlip_timeOff (n : Nat) (x : Slip) : (setSlip d n x).timeOff = d.timeOff := rfl
@[simp] theorem setSlip_aonTime (n : Nat) (x : Slip) : (setSlip d n x).aonTime = d.aonTime := rfl
@[simp] theorem setSlip_aonAt (n : Nat) (x : Slip) : (setSlip d n x).aonAt = d.aonAt := rfl
@[simp] theorem setSlip_regs (n : Nat) (x : Slip) : (setSlip d n x).regs = d.regs := rfl
@[simp] theorem setSlip_cnts (n : Nat) (x : Slip) : (setSlip d n x).cnts = d.cnts := rfl
@[simp] theorem setSlip_free (n : Nat) (x : Slip) : (setSlip d n x).free = d.free := rfl
@[simp] theorem setSlip_out (n : Nat) (x : Slip) : (setSlip d n x).out = d.out := rfl
@[simp] theorem setSlip_qm (n : Nat) (x : Slip) : (setSlip d n x).qm = d.qm := rfl
@[simp] theorem setSlip_log (n : Nat) (x : Slip) : (setSlip d n x).log = d.log := rfl
@[simp] theorem setSlip_as_ (n : Nat) (x : Slip) : (setSlip d n x).as_ = d.as_ := rfl
@[simp] theorem setSlip_basin (n : Nat) (x : Slip) : (setSlip d n x).basin = d.basin := rfl
@[simp] theorem setSlip_ports (n : Nat) (x : Slip) : (setSlip d n x).ports = d.ports := rfl
@[simp] theorem setSlip_ms (n : Nat) (x : Slip) : (setSlip d n x).ms = d.ms := rfl
@[simp] theorem setSlip_lb (n : Nat) (x : Slip) : (setSlip d n x).lb = d.lb := rfl
@[simp] theorem setSlip_cht (n : Nat) (x : Slip) : (setSlip d n x).cht = d.cht := rfl
@[simp] theorem setSlip_brg (n : Nat) (x : Slip) : (setSlip d n x).brg = d.brg := rfl
@[simp] theorem setSlip_can (n : Nat) (x : Slip) : (setSlip d n x).can = d.can := rfl
@[simp] theorem setSlip_nws (n : Nat) (x : Slip) : (setSlip d n x).nws = d.nws := rfl
@[simp] theorem setSlip_ldc (n : Nat) (x : Slip) : (setSlip d n x).ldc = d.ldc := rfl
@[simp] theorem setSlip_bwk (n : Nat) (x : Slip) : (setSlip d n x).bwk = d.bwk := rfl
@[simp] theorem setSlip_rst (n : Nat) (x : Slip) : (setSlip d n x).rst = d.rst := rfl
@[simp] theorem setSlip_pair (n : Nat) (x : Slip) : (setSlip d n x).pair = d.pair := rfl
@[simp] theorem setSlip_svc (n : Nat) (x : Slip) : (setSlip d n x).svc = d.svc := rfl
@[simp] theorem setSlip_fio (n : Nat) (x : Slip) : (setSlip d n x).fio = d.fio := rfl
@[simp] theorem setSlip_clt (n : Nat) (x : Slip) : (setSlip d n x).clt = d.clt := rfl
@[simp] theorem setSlip_wld (n : Nat) (x : Slip) : (setSlip d n x).wld = d.wld := rfl
@[simp] theorem setSlip_keys (n : Nat) (x : Slip) : (setSlip d n x).keys = d.keys := rfl

@[simp] theorem setRing_wall (n r : Nat) (x : Ring) : (setRing d n r x).wall = d.wall := rfl
@[simp] theorem setRing_timeOff (n r : Nat) (x : Ring) : (setRing d n r x).timeOff = d.timeOff := rfl
@[simp] theorem setRing_aonTime (n r : Nat) (x : Ring) : (setRing d n r x).aonTime = d.aonTime := rfl
@[simp] theorem setRing_aonAt (n r : Nat) (x : Ring) : (setRing d n r x).aonAt = d.aonAt := rfl
@[simp] theorem setRing_regs (n r : Nat) (x : Ring) : (setRing d n r x).regs = d.regs := rfl
@[simp] theorem setRing_cnts (n r : Nat) (x : Ring) : (setRing d n r x).cnts = d.cnts := rfl
@[simp] theorem setRing_free (n r : Nat) (x : Ring) : (setRing d n r x).free = d.free := rfl
@[simp] theorem setRing_out (n r : Nat) (x : Ring) : (setRing d n r x).out = d.out := rfl
@[simp] theorem setRing_qm (n r : Nat) (x : Ring) : (setRing d n r x).qm = d.qm := rfl
@[simp] theorem setRing_log (n r : Nat) (x : Ring) : (setRing d n r x).log = d.log := rfl
@[simp] theorem setRing_as_ (n r : Nat) (x : Ring) : (setRing d n r x).as_ = d.as_ := rfl
@[simp] theorem setRing_basin (n r : Nat) (x : Ring) : (setRing d n r x).basin = d.basin := rfl
@[simp] theorem setRing_ports (n r : Nat) (x : Ring) : (setRing d n r x).ports = d.ports := rfl
@[simp] theorem setRing_ms (n r : Nat) (x : Ring) : (setRing d n r x).ms = d.ms := rfl
@[simp] theorem setRing_lb (n r : Nat) (x : Ring) : (setRing d n r x).lb = d.lb := rfl
@[simp] theorem setRing_cht (n r : Nat) (x : Ring) : (setRing d n r x).cht = d.cht := rfl
@[simp] theorem setRing_brg (n r : Nat) (x : Ring) : (setRing d n r x).brg = d.brg := rfl
@[simp] theorem setRing_can (n r : Nat) (x : Ring) : (setRing d n r x).can = d.can := rfl
@[simp] theorem setRing_nws (n r : Nat) (x : Ring) : (setRing d n r x).nws = d.nws := rfl
@[simp] theorem setRing_ldc (n r : Nat) (x : Ring) : (setRing d n r x).ldc = d.ldc := rfl
@[simp] theorem setRing_bwk (n r : Nat) (x : Ring) : (setRing d n r x).bwk = d.bwk := rfl
@[simp] theorem setRing_rst (n r : Nat) (x : Ring) : (setRing d n r x).rst = d.rst := rfl
@[simp] theorem setRing_pair (n r : Nat) (x : Ring) : (setRing d n r x).pair = d.pair := rfl
@[simp] theorem setRing_svc (n r : Nat) (x : Ring) : (setRing d n r x).svc = d.svc := rfl
@[simp] theorem setRing_fio (n r : Nat) (x : Ring) : (setRing d n r x).fio = d.fio := rfl
@[simp] theorem setRing_clt (n r : Nat) (x : Ring) : (setRing d n r x).clt = d.clt := rfl
@[simp] theorem setRing_wld (n r : Nat) (x : Ring) : (setRing d n r x).wld = d.wld := rfl
@[simp] theorem setRing_keys (n r : Nat) (x : Ring) : (setRing d n r x).keys = d.keys := rfl

@[simp] theorem setRes_wall (k : Nat) (x : Res) : (setRes d k x).wall = d.wall := rfl
@[simp] theorem setRes_timeOff (k : Nat) (x : Res) : (setRes d k x).timeOff = d.timeOff := rfl
@[simp] theorem setRes_aonTime (k : Nat) (x : Res) : (setRes d k x).aonTime = d.aonTime := rfl
@[simp] theorem setRes_aonAt (k : Nat) (x : Res) : (setRes d k x).aonAt = d.aonAt := rfl
@[simp] theorem setRes_regs (k : Nat) (x : Res) : (setRes d k x).regs = d.regs := rfl
@[simp] theorem setRes_cnts (k : Nat) (x : Res) : (setRes d k x).cnts = d.cnts := rfl
@[simp] theorem setRes_free (k : Nat) (x : Res) : (setRes d k x).free = d.free := rfl
@[simp] theorem setRes_out (k : Nat) (x : Res) : (setRes d k x).out = d.out := rfl
@[simp] theorem setRes_qm (k : Nat) (x : Res) : (setRes d k x).qm = d.qm := rfl
@[simp] theorem setRes_log (k : Nat) (x : Res) : (setRes d k x).log = d.log := rfl
@[simp] theorem setRes_as_ (k : Nat) (x : Res) : (setRes d k x).as_ = d.as_ := rfl
@[simp] theorem setRes_basin (k : Nat) (x : Res) : (setRes d k x).basin = d.basin := rfl
@[simp] theorem setRes_ports (k : Nat) (x : Res) : (setRes d k x).ports = d.ports := rfl
@[simp] theorem setRes_ms (k : Nat) (x : Res) : (setRes d k x).ms = d.ms := rfl
@[simp] theorem setRes_lb (k : Nat) (x : Res) : (setRes d k x).lb = d.lb := rfl
@[simp] theorem setRes_cht (k : Nat) (x : Res) : (setRes d k x).cht = d.cht := rfl
@[simp] theorem setRes_brg (k : Nat) (x : Res) : (setRes d k x).brg = d.brg := rfl
@[simp] theorem setRes_can (k : Nat) (x : Res) : (setRes d k x).can = d.can := rfl
@[simp] theorem setRes_nws (k : Nat) (x : Res) : (setRes d k x).nws = d.nws := rfl
@[simp] theorem setRes_ldc (k : Nat) (x : Res) : (setRes d k x).ldc = d.ldc := rfl
@[simp] theorem setRes_bwk (k : Nat) (x : Res) : (setRes d k x).bwk = d.bwk := rfl
@[simp] theorem setRes_rst (k : Nat) (x : Res) : (setRes d k x).rst = d.rst := rfl
@[simp] theorem setRes_pair (k : Nat) (x : Res) : (setRes d k x).pair = d.pair := rfl
@[simp] theorem setRes_svc (k : Nat) (x : Res) : (setRes d k x).svc = d.svc := rfl
@[simp] theorem setRes_fio (k : Nat) (x : Res) : (setRes d k x).fio = d.fio := rfl
@[simp] theorem setRes_clt (k : Nat) (x : Res) : (setRes d k x).clt = d.clt := rfl
@[simp] theorem setRes_wld (k : Nat) (x : Res) : (setRes d k x).wld = d.wld := rfl
@[simp] theorem setRes_keys (k : Nat) (x : Res) : (setRes d k x).keys = d.keys := rfl

@[simp] theorem setPort_wall (p : Nat) (x : WirePort) : (setPort d p x).wall = d.wall := rfl
@[simp] theorem setPort_timeOff (p : Nat) (x : WirePort) : (setPort d p x).timeOff = d.timeOff := rfl
@[simp] theorem setPort_aonTime (p : Nat) (x : WirePort) : (setPort d p x).aonTime = d.aonTime := rfl
@[simp] theorem setPort_aonAt (p : Nat) (x : WirePort) : (setPort d p x).aonAt = d.aonAt := rfl
@[simp] theorem setPort_regs (p : Nat) (x : WirePort) : (setPort d p x).regs = d.regs := rfl
@[simp] theorem setPort_cnts (p : Nat) (x : WirePort) : (setPort d p x).cnts = d.cnts := rfl
@[simp] theorem setPort_free (p : Nat) (x : WirePort) : (setPort d p x).free = d.free := rfl
@[simp] theorem setPort_out (p : Nat) (x : WirePort) : (setPort d p x).out = d.out := rfl
@[simp] theorem setPort_qm (p : Nat) (x : WirePort) : (setPort d p x).qm = d.qm := rfl
@[simp] theorem setPort_log (p : Nat) (x : WirePort) : (setPort d p x).log = d.log := rfl
@[simp] theorem setPort_as_ (p : Nat) (x : WirePort) : (setPort d p x).as_ = d.as_ := rfl
@[simp] theorem setPort_basin (p : Nat) (x : WirePort) : (setPort d p x).basin = d.basin := rfl
@[simp] theorem setPort_ms (p : Nat) (x : WirePort) : (setPort d p x).ms = d.ms := rfl
@[simp] theorem setPort_lb (p : Nat) (x : WirePort) : (setPort d p x).lb = d.lb := rfl
@[simp] theorem setPort_cht (p : Nat) (x : WirePort) : (setPort d p x).cht = d.cht := rfl
@[simp] theorem setPort_slips (p : Nat) (x : WirePort) : (setPort d p x).slips = d.slips := rfl
@[simp] theorem setPort_brg (p : Nat) (x : WirePort) : (setPort d p x).brg = d.brg := rfl
@[simp] theorem setPort_can (p : Nat) (x : WirePort) : (setPort d p x).can = d.can := rfl
@[simp] theorem setPort_nws (p : Nat) (x : WirePort) : (setPort d p x).nws = d.nws := rfl
@[simp] theorem setPort_ldc (p : Nat) (x : WirePort) : (setPort d p x).ldc = d.ldc := rfl
@[simp] theorem setPort_bwk (p : Nat) (x : WirePort) : (setPort d p x).bwk = d.bwk := rfl
@[simp] theorem setPort_rst (p : Nat) (x : WirePort) : (setPort d p x).rst = d.rst := rfl
@[simp] theorem setPort_pair (p : Nat) (x : WirePort) : (setPort d p x).pair = d.pair := rfl
@[simp] theorem setPort_svc (p : Nat) (x : WirePort) : (setPort d p x).svc = d.svc := rfl
@[simp] theorem setPort_fio (p : Nat) (x : WirePort) : (setPort d p x).fio = d.fio := rfl
@[simp] theorem setPort_clt (p : Nat) (x : WirePort) : (setPort d p x).clt = d.clt := rfl
@[simp] theorem setPort_wld (p : Nat) (x : WirePort) : (setPort d p x).wld = d.wld := rfl
@[simp] theorem setPort_keys (p : Nat) (x : WirePort) : (setPort d p x).keys = d.keys := rfl

@[simp] theorem setMs_wall (k : Nat) (x : MsPort) : (setMs d k x).wall = d.wall := rfl
@[simp] theorem setMs_timeOff (k : Nat) (x : MsPort) : (setMs d k x).timeOff = d.timeOff := rfl
@[simp] theorem setMs_aonTime (k : Nat) (x : MsPort) : (setMs d k x).aonTime = d.aonTime := rfl
@[simp] theorem setMs_aonAt (k : Nat) (x : MsPort) : (setMs d k x).aonAt = d.aonAt := rfl
@[simp] theorem setMs_regs (k : Nat) (x : MsPort) : (setMs d k x).regs = d.regs := rfl
@[simp] theorem setMs_cnts (k : Nat) (x : MsPort) : (setMs d k x).cnts = d.cnts := rfl
@[simp] theorem setMs_free (k : Nat) (x : MsPort) : (setMs d k x).free = d.free := rfl
@[simp] theorem setMs_out (k : Nat) (x : MsPort) : (setMs d k x).out = d.out := rfl
@[simp] theorem setMs_qm (k : Nat) (x : MsPort) : (setMs d k x).qm = d.qm := rfl
@[simp] theorem setMs_log (k : Nat) (x : MsPort) : (setMs d k x).log = d.log := rfl
@[simp] theorem setMs_as_ (k : Nat) (x : MsPort) : (setMs d k x).as_ = d.as_ := rfl
@[simp] theorem setMs_basin (k : Nat) (x : MsPort) : (setMs d k x).basin = d.basin := rfl
@[simp] theorem setMs_ports (k : Nat) (x : MsPort) : (setMs d k x).ports = d.ports := rfl
@[simp] theorem setMs_lb (k : Nat) (x : MsPort) : (setMs d k x).lb = d.lb := rfl
@[simp] theorem setMs_cht (k : Nat) (x : MsPort) : (setMs d k x).cht = d.cht := rfl
@[simp] theorem setMs_slips (k : Nat) (x : MsPort) : (setMs d k x).slips = d.slips := rfl
@[simp] theorem setMs_brg (k : Nat) (x : MsPort) : (setMs d k x).brg = d.brg := rfl
@[simp] theorem setMs_can (k : Nat) (x : MsPort) : (setMs d k x).can = d.can := rfl
@[simp] theorem setMs_nws (k : Nat) (x : MsPort) : (setMs d k x).nws = d.nws := rfl
@[simp] theorem setMs_ldc (k : Nat) (x : MsPort) : (setMs d k x).ldc = d.ldc := rfl
@[simp] theorem setMs_bwk (k : Nat) (x : MsPort) : (setMs d k x).bwk = d.bwk := rfl
@[simp] theorem setMs_rst (k : Nat) (x : MsPort) : (setMs d k x).rst = d.rst := rfl
@[simp] theorem setMs_pair (k : Nat) (x : MsPort) : (setMs d k x).pair = d.pair := rfl
@[simp] theorem setMs_svc (k : Nat) (x : MsPort) : (setMs d k x).svc = d.svc := rfl
@[simp] theorem setMs_fio (k : Nat) (x : MsPort) : (setMs d k x).fio = d.fio := rfl
@[simp] theorem setMs_clt (k : Nat) (x : MsPort) : (setMs d k x).clt = d.clt := rfl
@[simp] theorem setMs_wld (k : Nat) (x : MsPort) : (setMs d k x).wld = d.wld := rfl
@[simp] theorem setMs_keys (k : Nat) (x : MsPort) : (setMs d k x).keys = d.keys := rfl

@[simp] theorem setCan_wall (n : Nat) (x : Can) : (setCan d n x).wall = d.wall := rfl
@[simp] theorem setCan_timeOff (n : Nat) (x : Can) : (setCan d n x).timeOff = d.timeOff := rfl
@[simp] theorem setCan_aonTime (n : Nat) (x : Can) : (setCan d n x).aonTime = d.aonTime := rfl
@[simp] theorem setCan_aonAt (n : Nat) (x : Can) : (setCan d n x).aonAt = d.aonAt := rfl
@[simp] theorem setCan_regs (n : Nat) (x : Can) : (setCan d n x).regs = d.regs := rfl
@[simp] theorem setCan_cnts (n : Nat) (x : Can) : (setCan d n x).cnts = d.cnts := rfl
@[simp] theorem setCan_free (n : Nat) (x : Can) : (setCan d n x).free = d.free := rfl
@[simp] theorem setCan_out (n : Nat) (x : Can) : (setCan d n x).out = d.out := rfl
@[simp] theorem setCan_qm (n : Nat) (x : Can) : (setCan d n x).qm = d.qm := rfl
@[simp] theorem setCan_log (n : Nat) (x : Can) : (setCan d n x).log = d.log := rfl
@[simp] theorem setCan_as_ (n : Nat) (x : Can) : (setCan d n x).as_ = d.as_ := rfl
@[simp] theorem setCan_basin (n : Nat) (x : Can) : (setCan d n x).basin = d.basin := rfl
@[simp] theorem setCan_ports (n : Nat) (x : Can) : (setCan d n x).ports = d.ports := rfl
@[simp] theorem setCan_ms (n : Nat) (x : Can) : (setCan d n x).ms = d.ms := rfl
@[simp] theorem setCan_lb (n : Nat) (x : Can) : (setCan d n x).lb = d.lb := rfl
@[simp] theorem setCan_cht (n : Nat) (x : Can) : (setCan d n x).cht = d.cht := rfl
@[simp] theorem setCan_slips (n : Nat) (x : Can) : (setCan d n x).slips = d.slips := rfl
@[simp] theorem setCan_brg (n : Nat) (x : Can) : (setCan d n x).brg = d.brg := rfl
@[simp] theorem setCan_nws (n : Nat) (x : Can) : (setCan d n x).nws = d.nws := rfl
@[simp] theorem setCan_ldc (n : Nat) (x : Can) : (setCan d n x).ldc = d.ldc := rfl
@[simp] theorem setCan_bwk (n : Nat) (x : Can) : (setCan d n x).bwk = d.bwk := rfl
@[simp] theorem setCan_rst (n : Nat) (x : Can) : (setCan d n x).rst = d.rst := rfl
@[simp] theorem setCan_pair (n : Nat) (x : Can) : (setCan d n x).pair = d.pair := rfl
@[simp] theorem setCan_svc (n : Nat) (x : Can) : (setCan d n x).svc = d.svc := rfl
@[simp] theorem setCan_fio (n : Nat) (x : Can) : (setCan d n x).fio = d.fio := rfl
@[simp] theorem setCan_clt (n : Nat) (x : Can) : (setCan d n x).clt = d.clt := rfl
@[simp] theorem setCan_wld (n : Nat) (x : Can) : (setCan d n x).wld = d.wld := rfl
@[simp] theorem setCan_keys (n : Nat) (x : Can) : (setCan d n x).keys = d.keys := rfl

@[simp] theorem setNet_wall (n : Nat) (x : Net) : (setNet d n x).wall = d.wall := rfl
@[simp] theorem setNet_timeOff (n : Nat) (x : Net) : (setNet d n x).timeOff = d.timeOff := rfl
@[simp] theorem setNet_aonTime (n : Nat) (x : Net) : (setNet d n x).aonTime = d.aonTime := rfl
@[simp] theorem setNet_aonAt (n : Nat) (x : Net) : (setNet d n x).aonAt = d.aonAt := rfl
@[simp] theorem setNet_regs (n : Nat) (x : Net) : (setNet d n x).regs = d.regs := rfl
@[simp] theorem setNet_cnts (n : Nat) (x : Net) : (setNet d n x).cnts = d.cnts := rfl
@[simp] theorem setNet_free (n : Nat) (x : Net) : (setNet d n x).free = d.free := rfl
@[simp] theorem setNet_out (n : Nat) (x : Net) : (setNet d n x).out = d.out := rfl
@[simp] theorem setNet_qm (n : Nat) (x : Net) : (setNet d n x).qm = d.qm := rfl
@[simp] theorem setNet_log (n : Nat) (x : Net) : (setNet d n x).log = d.log := rfl
@[simp] theorem setNet_as_ (n : Nat) (x : Net) : (setNet d n x).as_ = d.as_ := rfl
@[simp] theorem setNet_basin (n : Nat) (x : Net) : (setNet d n x).basin = d.basin := rfl
@[simp] theorem setNet_ports (n : Nat) (x : Net) : (setNet d n x).ports = d.ports := rfl
@[simp] theorem setNet_ms (n : Nat) (x : Net) : (setNet d n x).ms = d.ms := rfl
@[simp] theorem setNet_lb (n : Nat) (x : Net) : (setNet d n x).lb = d.lb := rfl
@[simp] theorem setNet_cht (n : Nat) (x : Net) : (setNet d n x).cht = d.cht := rfl
@[simp] theorem setNet_slips (n : Nat) (x : Net) : (setNet d n x).slips = d.slips := rfl
@[simp] theorem setNet_brg (n : Nat) (x : Net) : (setNet d n x).brg = d.brg := rfl
@[simp] theorem setNet_can (n : Nat) (x : Net) : (setNet d n x).can = d.can := rfl
@[simp] theorem setNet_ldc (n : Nat) (x : Net) : (setNet d n x).ldc = d.ldc := rfl
@[simp] theorem setNet_bwk (n : Nat) (x : Net) : (setNet d n x).bwk = d.bwk := rfl
@[simp] theorem setNet_rst (n : Nat) (x : Net) : (setNet d n x).rst = d.rst := rfl
@[simp] theorem setNet_pair (n : Nat) (x : Net) : (setNet d n x).pair = d.pair := rfl
@[simp] theorem setNet_svc (n : Nat) (x : Net) : (setNet d n x).svc = d.svc := rfl
@[simp] theorem setNet_fio (n : Nat) (x : Net) : (setNet d n x).fio = d.fio := rfl
@[simp] theorem setNet_clt (n : Nat) (x : Net) : (setNet d n x).clt = d.clt := rfl
@[simp] theorem setNet_wld (n : Nat) (x : Net) : (setNet d n x).wld = d.wld := rfl
@[simp] theorem setNet_keys (n : Nat) (x : Net) : (setNet d n x).keys = d.keys := rfl

@[simp] theorem setPart_wall (n m : Nat) (x : Partner) : (setPart d n m x).wall = d.wall := rfl
@[simp] theorem setPart_timeOff (n m : Nat) (x : Partner) : (setPart d n m x).timeOff = d.timeOff := rfl
@[simp] theorem setPart_aonTime (n m : Nat) (x : Partner) : (setPart d n m x).aonTime = d.aonTime := rfl
@[simp] theorem setPart_aonAt (n m : Nat) (x : Partner) : (setPart d n m x).aonAt = d.aonAt := rfl
@[simp] theorem setPart_regs (n m : Nat) (x : Partner) : (setPart d n m x).regs = d.regs := rfl
@[simp] theorem setPart_cnts (n m : Nat) (x : Partner) : (setPart d n m x).cnts = d.cnts := rfl
@[simp] theorem setPart_free (n m : Nat) (x : Partner) : (setPart d n m x).free = d.free := rfl
@[simp] theorem setPart_out (n m : Nat) (x : Partner) : (setPart d n m x).out = d.out := rfl
@[simp] theorem setPart_qm (n m : Nat) (x : Partner) : (setPart d n m x).qm = d.qm := rfl
@[simp] theorem setPart_log (n m : Nat) (x : Partner) : (setPart d n m x).log = d.log := rfl
@[simp] theorem setPart_as_ (n m : Nat) (x : Partner) : (setPart d n m x).as_ = d.as_ := rfl
@[simp] theorem setPart_basin (n m : Nat) (x : Partner) : (setPart d n m x).basin = d.basin := rfl
@[simp] theorem setPart_ports (n m : Nat) (x : Partner) : (setPart d n m x).ports = d.ports := rfl
@[simp] theorem setPart_ms (n m : Nat) (x : Partner) : (setPart d n m x).ms = d.ms := rfl
@[simp] theorem setPart_lb (n m : Nat) (x : Partner) : (setPart d n m x).lb = d.lb := rfl
@[simp] theorem setPart_cht (n m : Nat) (x : Partner) : (setPart d n m x).cht = d.cht := rfl
@[simp] theorem setPart_slips (n m : Nat) (x : Partner) : (setPart d n m x).slips = d.slips := rfl
@[simp] theorem setPart_brg (n m : Nat) (x : Partner) : (setPart d n m x).brg = d.brg := rfl
@[simp] theorem setPart_can (n m : Nat) (x : Partner) : (setPart d n m x).can = d.can := rfl
@[simp] theorem setPart_ldc (n m : Nat) (x : Partner) : (setPart d n m x).ldc = d.ldc := rfl
@[simp] theorem setPart_bwk (n m : Nat) (x : Partner) : (setPart d n m x).bwk = d.bwk := rfl
@[simp] theorem setPart_rst (n m : Nat) (x : Partner) : (setPart d n m x).rst = d.rst := rfl
@[simp] theorem setPart_pair (n m : Nat) (x : Partner) : (setPart d n m x).pair = d.pair := rfl
@[simp] theorem setPart_svc (n m : Nat) (x : Partner) : (setPart d n m x).svc = d.svc := rfl
@[simp] theorem setPart_fio (n m : Nat) (x : Partner) : (setPart d n m x).fio = d.fio := rfl
@[simp] theorem setPart_clt (n m : Nat) (x : Partner) : (setPart d n m x).clt = d.clt := rfl
@[simp] theorem setPart_wld (n m : Nat) (x : Partner) : (setPart d n m x).wld = d.wld := rfl
@[simp] theorem setPart_keys (n m : Nat) (x : Partner) : (setPart d n m x).keys = d.keys := rfl

@[simp] theorem setNbr_wall (p k : Nat) (x : Option Neighbour) : (setNbr d p k x).wall = d.wall := rfl
@[simp] theorem setNbr_timeOff (p k : Nat) (x : Option Neighbour) : (setNbr d p k x).timeOff = d.timeOff := rfl
@[simp] theorem setNbr_aonTime (p k : Nat) (x : Option Neighbour) : (setNbr d p k x).aonTime = d.aonTime := rfl
@[simp] theorem setNbr_aonAt (p k : Nat) (x : Option Neighbour) : (setNbr d p k x).aonAt = d.aonAt := rfl
@[simp] theorem setNbr_regs (p k : Nat) (x : Option Neighbour) : (setNbr d p k x).regs = d.regs := rfl
@[simp] theorem setNbr_cnts (p k : Nat) (x : Option Neighbour) : (setNbr d p k x).cnts = d.cnts := rfl
@[simp] theorem setNbr_free (p k : Nat) (x : Option Neighbour) : (setNbr d p k x).free = d.free := rfl
@[simp] theorem setNbr_out (p k : Nat) (x : Option Neighbour) : (setNbr d p k x).out = d.out := rfl
@[simp] theorem setNbr_qm (p k : Nat) (x : Option Neighbour) : (setNbr d p k x).qm = d.qm := rfl
@[simp] theorem setNbr_log (p k : Nat) (x : Option Neighbour) : (setNbr d p k x).log = d.log := rfl
@[simp] theorem setNbr_as_ (p k : Nat) (x : Option Neighbour) : (setNbr d p k x).as_ = d.as_ := rfl
@[simp] theorem setNbr_basin (p k : Nat) (x : Option Neighbour) : (setNbr d p k x).basin = d.basin := rfl
@[simp] theorem setNbr_ports (p k : Nat) (x : Option Neighbour) : (setNbr d p k x).ports = d.ports := rfl
@[simp] theorem setNbr_ms (p k : Nat) (x : Option Neighbour) : (setNbr d p k x).ms = d.ms := rfl
@[simp] theorem setNbr_lb (p k : Nat) (x : Option Neighbour) : (setNbr d p k x).lb = d.lb := rfl
@[simp] theorem setNbr_cht (p k : Nat) (x : Option Neighbour) : (setNbr d p k x).cht = d.cht := rfl
@[simp] theorem setNbr_slips (p k : Nat) (x : Option Neighbour) : (setNbr d p k x).slips = d.slips := rfl
@[simp] theorem setNbr_brg (p k : Nat) (x : Option Neighbour) : (setNbr d p k x).brg = d.brg := rfl
@[simp] theorem setNbr_can (p k : Nat) (x : Option Neighbour) : (setNbr d p k x).can = d.can := rfl
@[simp] theorem setNbr_ldc (p k : Nat) (x : Option Neighbour) : (setNbr d p k x).ldc = d.ldc := rfl
@[simp] theorem setNbr_bwk (p k : Nat) (x : Option Neighbour) : (setNbr d p k x).bwk = d.bwk := rfl
@[simp] theorem setNbr_rst (p k : Nat) (x : Option Neighbour) : (setNbr d p k x).rst = d.rst := rfl
@[simp] theorem setNbr_pair (p k : Nat) (x : Option Neighbour) : (setNbr d p k x).pair = d.pair := rfl
@[simp] theorem setNbr_svc (p k : Nat) (x : Option Neighbour) : (setNbr d p k x).svc = d.svc := rfl
@[simp] theorem setNbr_fio (p k : Nat) (x : Option Neighbour) : (setNbr d p k x).fio = d.fio := rfl
@[simp] theorem setNbr_clt (p k : Nat) (x : Option Neighbour) : (setNbr d p k x).clt = d.clt := rfl
@[simp] theorem setNbr_wld (p k : Nat) (x : Option Neighbour) : (setNbr d p k x).wld = d.wld := rfl
@[simp] theorem setNbr_keys (p k : Nat) (x : Option Neighbour) : (setNbr d p k x).keys = d.keys := rfl

@[simp] theorem setLoad_wall (n : Nat) (x : Load) : (setLoad d n x).wall = d.wall := rfl
@[simp] theorem setLoad_timeOff (n : Nat) (x : Load) : (setLoad d n x).timeOff = d.timeOff := rfl
@[simp] theorem setLoad_aonTime (n : Nat) (x : Load) : (setLoad d n x).aonTime = d.aonTime := rfl
@[simp] theorem setLoad_aonAt (n : Nat) (x : Load) : (setLoad d n x).aonAt = d.aonAt := rfl
@[simp] theorem setLoad_regs (n : Nat) (x : Load) : (setLoad d n x).regs = d.regs := rfl
@[simp] theorem setLoad_cnts (n : Nat) (x : Load) : (setLoad d n x).cnts = d.cnts := rfl
@[simp] theorem setLoad_free (n : Nat) (x : Load) : (setLoad d n x).free = d.free := rfl
@[simp] theorem setLoad_out (n : Nat) (x : Load) : (setLoad d n x).out = d.out := rfl
@[simp] theorem setLoad_qm (n : Nat) (x : Load) : (setLoad d n x).qm = d.qm := rfl
@[simp] theorem setLoad_log (n : Nat) (x : Load) : (setLoad d n x).log = d.log := rfl
@[simp] theorem setLoad_as_ (n : Nat) (x : Load) : (setLoad d n x).as_ = d.as_ := rfl
@[simp] theorem setLoad_basin (n : Nat) (x : Load) : (setLoad d n x).basin = d.basin := rfl
@[simp] theorem setLoad_ports (n : Nat) (x : Load) : (setLoad d n x).ports = d.ports := rfl
@[simp] theorem setLoad_ms (n : Nat) (x : Load) : (setLoad d n x).ms = d.ms := rfl
@[simp] theorem setLoad_lb (n : Nat) (x : Load) : (setLoad d n x).lb = d.lb := rfl
@[simp] theorem setLoad_cht (n : Nat) (x : Load) : (setLoad d n x).cht = d.cht := rfl
@[simp] theorem setLoad_slips (n : Nat) (x : Load) : (setLoad d n x).slips = d.slips := rfl
@[simp] theorem setLoad_brg (n : Nat) (x : Load) : (setLoad d n x).brg = d.brg := rfl
@[simp] theorem setLoad_can (n : Nat) (x : Load) : (setLoad d n x).can = d.can := rfl
@[simp] theorem setLoad_nws (n : Nat) (x : Load) : (setLoad d n x).nws = d.nws := rfl
@[simp] theorem setLoad_bwk (n : Nat) (x : Load) : (setLoad d n x).bwk = d.bwk := rfl
@[simp] theorem setLoad_rst (n : Nat) (x : Load) : (setLoad d n x).rst = d.rst := rfl
@[simp] theorem setLoad_pair (n : Nat) (x : Load) : (setLoad d n x).pair = d.pair := rfl
@[simp] theorem setLoad_svc (n : Nat) (x : Load) : (setLoad d n x).svc = d.svc := rfl
@[simp] theorem setLoad_fio (n : Nat) (x : Load) : (setLoad d n x).fio = d.fio := rfl
@[simp] theorem setLoad_clt (n : Nat) (x : Load) : (setLoad d n x).clt = d.clt := rfl
@[simp] theorem setLoad_wld (n : Nat) (x : Load) : (setLoad d n x).wld = d.wld := rfl
@[simp] theorem setLoad_keys (n : Nat) (x : Load) : (setLoad d n x).keys = d.keys := rfl

@[simp] theorem setBank_wall (b : Nat) (x : Bank) : (setBank d b x).wall = d.wall := rfl
@[simp] theorem setBank_timeOff (b : Nat) (x : Bank) : (setBank d b x).timeOff = d.timeOff := rfl
@[simp] theorem setBank_aonTime (b : Nat) (x : Bank) : (setBank d b x).aonTime = d.aonTime := rfl
@[simp] theorem setBank_aonAt (b : Nat) (x : Bank) : (setBank d b x).aonAt = d.aonAt := rfl
@[simp] theorem setBank_regs (b : Nat) (x : Bank) : (setBank d b x).regs = d.regs := rfl
@[simp] theorem setBank_cnts (b : Nat) (x : Bank) : (setBank d b x).cnts = d.cnts := rfl
@[simp] theorem setBank_free (b : Nat) (x : Bank) : (setBank d b x).free = d.free := rfl
@[simp] theorem setBank_out (b : Nat) (x : Bank) : (setBank d b x).out = d.out := rfl
@[simp] theorem setBank_qm (b : Nat) (x : Bank) : (setBank d b x).qm = d.qm := rfl
@[simp] theorem setBank_log (b : Nat) (x : Bank) : (setBank d b x).log = d.log := rfl
@[simp] theorem setBank_as_ (b : Nat) (x : Bank) : (setBank d b x).as_ = d.as_ := rfl
@[simp] theorem setBank_basin (b : Nat) (x : Bank) : (setBank d b x).basin = d.basin := rfl
@[simp] theorem setBank_ports (b : Nat) (x : Bank) : (setBank d b x).ports = d.ports := rfl
@[simp] theorem setBank_ms (b : Nat) (x : Bank) : (setBank d b x).ms = d.ms := rfl
@[simp] theorem setBank_lb (b : Nat) (x : Bank) : (setBank d b x).lb = d.lb := rfl
@[simp] theorem setBank_cht (b : Nat) (x : Bank) : (setBank d b x).cht = d.cht := rfl
@[simp] theorem setBank_slips (b : Nat) (x : Bank) : (setBank d b x).slips = d.slips := rfl
@[simp] theorem setBank_brg (b : Nat) (x : Bank) : (setBank d b x).brg = d.brg := rfl
@[simp] theorem setBank_can (b : Nat) (x : Bank) : (setBank d b x).can = d.can := rfl
@[simp] theorem setBank_nws (b : Nat) (x : Bank) : (setBank d b x).nws = d.nws := rfl
@[simp] theorem setBank_bwk (b : Nat) (x : Bank) : (setBank d b x).bwk = d.bwk := rfl
@[simp] theorem setBank_rst (b : Nat) (x : Bank) : (setBank d b x).rst = d.rst := rfl
@[simp] theorem setBank_pair (b : Nat) (x : Bank) : (setBank d b x).pair = d.pair := rfl
@[simp] theorem setBank_svc (b : Nat) (x : Bank) : (setBank d b x).svc = d.svc := rfl
@[simp] theorem setBank_fio (b : Nat) (x : Bank) : (setBank d b x).fio = d.fio := rfl
@[simp] theorem setBank_clt (b : Nat) (x : Bank) : (setBank d b x).clt = d.clt := rfl
@[simp] theorem setBank_wld (b : Nat) (x : Bank) : (setBank d b x).wld = d.wld := rfl
@[simp] theorem setBank_keys (b : Nat) (x : Bank) : (setBank d b x).keys = d.keys := rfl

@[simp] theorem setField_wall (n : Nat) (x : FieldCh) : (setField d n x).wall = d.wall := rfl
@[simp] theorem setField_timeOff (n : Nat) (x : FieldCh) : (setField d n x).timeOff = d.timeOff := rfl
@[simp] theorem setField_aonTime (n : Nat) (x : FieldCh) : (setField d n x).aonTime = d.aonTime := rfl
@[simp] theorem setField_aonAt (n : Nat) (x : FieldCh) : (setField d n x).aonAt = d.aonAt := rfl
@[simp] theorem setField_regs (n : Nat) (x : FieldCh) : (setField d n x).regs = d.regs := rfl
@[simp] theorem setField_cnts (n : Nat) (x : FieldCh) : (setField d n x).cnts = d.cnts := rfl
@[simp] theorem setField_free (n : Nat) (x : FieldCh) : (setField d n x).free = d.free := rfl
@[simp] theorem setField_out (n : Nat) (x : FieldCh) : (setField d n x).out = d.out := rfl
@[simp] theorem setField_qm (n : Nat) (x : FieldCh) : (setField d n x).qm = d.qm := rfl
@[simp] theorem setField_log (n : Nat) (x : FieldCh) : (setField d n x).log = d.log := rfl
@[simp] theorem setField_as_ (n : Nat) (x : FieldCh) : (setField d n x).as_ = d.as_ := rfl
@[simp] theorem setField_basin (n : Nat) (x : FieldCh) : (setField d n x).basin = d.basin := rfl
@[simp] theorem setField_ports (n : Nat) (x : FieldCh) : (setField d n x).ports = d.ports := rfl
@[simp] theorem setField_ms (n : Nat) (x : FieldCh) : (setField d n x).ms = d.ms := rfl
@[simp] theorem setField_lb (n : Nat) (x : FieldCh) : (setField d n x).lb = d.lb := rfl
@[simp] theorem setField_cht (n : Nat) (x : FieldCh) : (setField d n x).cht = d.cht := rfl
@[simp] theorem setField_slips (n : Nat) (x : FieldCh) : (setField d n x).slips = d.slips := rfl
@[simp] theorem setField_brg (n : Nat) (x : FieldCh) : (setField d n x).brg = d.brg := rfl
@[simp] theorem setField_can (n : Nat) (x : FieldCh) : (setField d n x).can = d.can := rfl
@[simp] theorem setField_nws (n : Nat) (x : FieldCh) : (setField d n x).nws = d.nws := rfl
@[simp] theorem setField_ldc (n : Nat) (x : FieldCh) : (setField d n x).ldc = d.ldc := rfl
@[simp] theorem setField_bwk (n : Nat) (x : FieldCh) : (setField d n x).bwk = d.bwk := rfl
@[simp] theorem setField_rst (n : Nat) (x : FieldCh) : (setField d n x).rst = d.rst := rfl
@[simp] theorem setField_pair (n : Nat) (x : FieldCh) : (setField d n x).pair = d.pair := rfl
@[simp] theorem setField_svc (n : Nat) (x : FieldCh) : (setField d n x).svc = d.svc := rfl
@[simp] theorem setField_clt (n : Nat) (x : FieldCh) : (setField d n x).clt = d.clt := rfl
@[simp] theorem setField_wld (n : Nat) (x : FieldCh) : (setField d n x).wld = d.wld := rfl
@[simp] theorem setField_keys (n : Nat) (x : FieldCh) : (setField d n x).keys = d.keys := rfl

@[simp] theorem setStream_wall (k : Nat) (x : Stream) : (setStream d k x).wall = d.wall := rfl
@[simp] theorem setStream_timeOff (k : Nat) (x : Stream) : (setStream d k x).timeOff = d.timeOff := rfl
@[simp] theorem setStream_aonTime (k : Nat) (x : Stream) : (setStream d k x).aonTime = d.aonTime := rfl
@[simp] theorem setStream_aonAt (k : Nat) (x : Stream) : (setStream d k x).aonAt = d.aonAt := rfl
@[simp] theorem setStream_regs (k : Nat) (x : Stream) : (setStream d k x).regs = d.regs := rfl
@[simp] theorem setStream_cnts (k : Nat) (x : Stream) : (setStream d k x).cnts = d.cnts := rfl
@[simp] theorem setStream_free (k : Nat) (x : Stream) : (setStream d k x).free = d.free := rfl
@[simp] theorem setStream_out (k : Nat) (x : Stream) : (setStream d k x).out = d.out := rfl
@[simp] theorem setStream_qm (k : Nat) (x : Stream) : (setStream d k x).qm = d.qm := rfl
@[simp] theorem setStream_log (k : Nat) (x : Stream) : (setStream d k x).log = d.log := rfl
@[simp] theorem setStream_as_ (k : Nat) (x : Stream) : (setStream d k x).as_ = d.as_ := rfl
@[simp] theorem setStream_basin (k : Nat) (x : Stream) : (setStream d k x).basin = d.basin := rfl
@[simp] theorem setStream_ports (k : Nat) (x : Stream) : (setStream d k x).ports = d.ports := rfl
@[simp] theorem setStream_ms (k : Nat) (x : Stream) : (setStream d k x).ms = d.ms := rfl
@[simp] theorem setStream_lb (k : Nat) (x : Stream) : (setStream d k x).lb = d.lb := rfl
@[simp] theorem setStream_cht (k : Nat) (x : Stream) : (setStream d k x).cht = d.cht := rfl
@[simp] theorem setStream_slips (k : Nat) (x : Stream) : (setStream d k x).slips = d.slips := rfl
@[simp] theorem setStream_can (k : Nat) (x : Stream) : (setStream d k x).can = d.can := rfl
@[simp] theorem setStream_nws (k : Nat) (x : Stream) : (setStream d k x).nws = d.nws := rfl
@[simp] theorem setStream_ldc (k : Nat) (x : Stream) : (setStream d k x).ldc = d.ldc := rfl
@[simp] theorem setStream_bwk (k : Nat) (x : Stream) : (setStream d k x).bwk = d.bwk := rfl
@[simp] theorem setStream_rst (k : Nat) (x : Stream) : (setStream d k x).rst = d.rst := rfl
@[simp] theorem setStream_pair (k : Nat) (x : Stream) : (setStream d k x).pair = d.pair := rfl
@[simp] theorem setStream_svc (k : Nat) (x : Stream) : (setStream d k x).svc = d.svc := rfl
@[simp] theorem setStream_fio (k : Nat) (x : Stream) : (setStream d k x).fio = d.fio := rfl
@[simp] theorem setStream_clt (k : Nat) (x : Stream) : (setStream d k x).clt = d.clt := rfl
@[simp] theorem setStream_wld (k : Nat) (x : Stream) : (setStream d k x).wld = d.wld := rfl
@[simp] theorem setStream_keys (k : Nat) (x : Stream) : (setStream d k x).keys = d.keys := rfl

@[simp] theorem setSem_wall (k : Nat) (x : Sem) : (setSem d k x).wall = d.wall := rfl
@[simp] theorem setSem_timeOff (k : Nat) (x : Sem) : (setSem d k x).timeOff = d.timeOff := rfl
@[simp] theorem setSem_aonTime (k : Nat) (x : Sem) : (setSem d k x).aonTime = d.aonTime := rfl
@[simp] theorem setSem_aonAt (k : Nat) (x : Sem) : (setSem d k x).aonAt = d.aonAt := rfl
@[simp] theorem setSem_regs (k : Nat) (x : Sem) : (setSem d k x).regs = d.regs := rfl
@[simp] theorem setSem_cnts (k : Nat) (x : Sem) : (setSem d k x).cnts = d.cnts := rfl
@[simp] theorem setSem_free (k : Nat) (x : Sem) : (setSem d k x).free = d.free := rfl
@[simp] theorem setSem_out (k : Nat) (x : Sem) : (setSem d k x).out = d.out := rfl
@[simp] theorem setSem_qm (k : Nat) (x : Sem) : (setSem d k x).qm = d.qm := rfl
@[simp] theorem setSem_log (k : Nat) (x : Sem) : (setSem d k x).log = d.log := rfl
@[simp] theorem setSem_as_ (k : Nat) (x : Sem) : (setSem d k x).as_ = d.as_ := rfl
@[simp] theorem setSem_basin (k : Nat) (x : Sem) : (setSem d k x).basin = d.basin := rfl
@[simp] theorem setSem_ports (k : Nat) (x : Sem) : (setSem d k x).ports = d.ports := rfl
@[simp] theorem setSem_ms (k : Nat) (x : Sem) : (setSem d k x).ms = d.ms := rfl
@[simp] theorem setSem_lb (k : Nat) (x : Sem) : (setSem d k x).lb = d.lb := rfl
@[simp] theorem setSem_cht (k : Nat) (x : Sem) : (setSem d k x).cht = d.cht := rfl
@[simp] theorem setSem_slips (k : Nat) (x : Sem) : (setSem d k x).slips = d.slips := rfl
@[simp] theorem setSem_can (k : Nat) (x : Sem) : (setSem d k x).can = d.can := rfl
@[simp] theorem setSem_nws (k : Nat) (x : Sem) : (setSem d k x).nws = d.nws := rfl
@[simp] theorem setSem_ldc (k : Nat) (x : Sem) : (setSem d k x).ldc = d.ldc := rfl
@[simp] theorem setSem_bwk (k : Nat) (x : Sem) : (setSem d k x).bwk = d.bwk := rfl
@[simp] theorem setSem_rst (k : Nat) (x : Sem) : (setSem d k x).rst = d.rst := rfl
@[simp] theorem setSem_pair (k : Nat) (x : Sem) : (setSem d k x).pair = d.pair := rfl
@[simp] theorem setSem_svc (k : Nat) (x : Sem) : (setSem d k x).svc = d.svc := rfl
@[simp] theorem setSem_fio (k : Nat) (x : Sem) : (setSem d k x).fio = d.fio := rfl
@[simp] theorem setSem_clt (k : Nat) (x : Sem) : (setSem d k x).clt = d.clt := rfl
@[simp] theorem setSem_wld (k : Nat) (x : Sem) : (setSem d k x).wld = d.wld := rfl
@[simp] theorem setSem_keys (k : Nat) (x : Sem) : (setSem d k x).keys = d.keys := rfl

@[simp] theorem setHo_wall (b : Nat) (x : HoBlock) : (setHo d b x).wall = d.wall := rfl
@[simp] theorem setHo_timeOff (b : Nat) (x : HoBlock) : (setHo d b x).timeOff = d.timeOff := rfl
@[simp] theorem setHo_aonTime (b : Nat) (x : HoBlock) : (setHo d b x).aonTime = d.aonTime := rfl
@[simp] theorem setHo_aonAt (b : Nat) (x : HoBlock) : (setHo d b x).aonAt = d.aonAt := rfl
@[simp] theorem setHo_regs (b : Nat) (x : HoBlock) : (setHo d b x).regs = d.regs := rfl
@[simp] theorem setHo_cnts (b : Nat) (x : HoBlock) : (setHo d b x).cnts = d.cnts := rfl
@[simp] theorem setHo_free (b : Nat) (x : HoBlock) : (setHo d b x).free = d.free := rfl
@[simp] theorem setHo_out (b : Nat) (x : HoBlock) : (setHo d b x).out = d.out := rfl
@[simp] theorem setHo_qm (b : Nat) (x : HoBlock) : (setHo d b x).qm = d.qm := rfl
@[simp] theorem setHo_log (b : Nat) (x : HoBlock) : (setHo d b x).log = d.log := rfl
@[simp] theorem setHo_as_ (b : Nat) (x : HoBlock) : (setHo d b x).as_ = d.as_ := rfl
@[simp] theorem setHo_basin (b : Nat) (x : HoBlock) : (setHo d b x).basin = d.basin := rfl
@[simp] theorem setHo_ports (b : Nat) (x : HoBlock) : (setHo d b x).ports = d.ports := rfl
@[simp] theorem setHo_ms (b : Nat) (x : HoBlock) : (setHo d b x).ms = d.ms := rfl
@[simp] theorem setHo_lb (b : Nat) (x : HoBlock) : (setHo d b x).lb = d.lb := rfl
@[simp] theorem setHo_cht (b : Nat) (x : HoBlock) : (setHo d b x).cht = d.cht := rfl
@[simp] theorem setHo_slips (b : Nat) (x : HoBlock) : (setHo d b x).slips = d.slips := rfl
@[simp] theorem setHo_brg (b : Nat) (x : HoBlock) : (setHo d b x).brg = d.brg := rfl
@[simp] theorem setHo_can (b : Nat) (x : HoBlock) : (setHo d b x).can = d.can := rfl
@[simp] theorem setHo_nws (b : Nat) (x : HoBlock) : (setHo d b x).nws = d.nws := rfl
@[simp] theorem setHo_ldc (b : Nat) (x : HoBlock) : (setHo d b x).ldc = d.ldc := rfl
@[simp] theorem setHo_bwk (b : Nat) (x : HoBlock) : (setHo d b x).bwk = d.bwk := rfl
@[simp] theorem setHo_rst (b : Nat) (x : HoBlock) : (setHo d b x).rst = d.rst := rfl
@[simp] theorem setHo_pair (b : Nat) (x : HoBlock) : (setHo d b x).pair = d.pair := rfl
@[simp] theorem setHo_svc (b : Nat) (x : HoBlock) : (setHo d b x).svc = d.svc := rfl
@[simp] theorem setHo_fio (b : Nat) (x : HoBlock) : (setHo d b x).fio = d.fio := rfl
@[simp] theorem setHo_clt (b : Nat) (x : HoBlock) : (setHo d b x).clt = d.clt := rfl
@[simp] theorem setHo_keys (b : Nat) (x : HoBlock) : (setHo d b x).keys = d.keys := rfl

@[simp] theorem setBasin_wall (b : Basin) : (setBasin d b).wall = d.wall := rfl
@[simp] theorem setBasin_timeOff (b : Basin) : (setBasin d b).timeOff = d.timeOff := rfl
@[simp] theorem setBasin_aonTime (b : Basin) : (setBasin d b).aonTime = d.aonTime := rfl
@[simp] theorem setBasin_aonAt (b : Basin) : (setBasin d b).aonAt = d.aonAt := rfl
@[simp] theorem setBasin_regs (b : Basin) : (setBasin d b).regs = d.regs := rfl
@[simp] theorem setBasin_cnts (b : Basin) : (setBasin d b).cnts = d.cnts := rfl
@[simp] theorem setBasin_free (b : Basin) : (setBasin d b).free = d.free := rfl
@[simp] theorem setBasin_out (b : Basin) : (setBasin d b).out = d.out := rfl
@[simp] theorem setBasin_qm (b : Basin) : (setBasin d b).qm = d.qm := rfl
@[simp] theorem setBasin_log (b : Basin) : (setBasin d b).log = d.log := rfl
@[simp] theorem setBasin_as_ (b : Basin) : (setBasin d b).as_ = d.as_ := rfl
@[simp] theorem setBasin_ports (b : Basin) : (setBasin d b).ports = d.ports := rfl
@[simp] theorem setBasin_ms (b : Basin) : (setBasin d b).ms = d.ms := rfl
@[simp] theorem setBasin_lb (b : Basin) : (setBasin d b).lb = d.lb := rfl
@[simp] theorem setBasin_cht (b : Basin) : (setBasin d b).cht = d.cht := rfl
@[simp] theorem setBasin_slips (b : Basin) : (setBasin d b).slips = d.slips := rfl
@[simp] theorem setBasin_brg (b : Basin) : (setBasin d b).brg = d.brg := rfl
@[simp] theorem setBasin_can (b : Basin) : (setBasin d b).can = d.can := rfl
@[simp] theorem setBasin_nws (b : Basin) : (setBasin d b).nws = d.nws := rfl
@[simp] theorem setBasin_ldc (b : Basin) : (setBasin d b).ldc = d.ldc := rfl
@[simp] theorem setBasin_bwk (b : Basin) : (setBasin d b).bwk = d.bwk := rfl
@[simp] theorem setBasin_rst (b : Basin) : (setBasin d b).rst = d.rst := rfl
@[simp] theorem setBasin_pair (b : Basin) : (setBasin d b).pair = d.pair := rfl
@[simp] theorem setBasin_svc (b : Basin) : (setBasin d b).svc = d.svc := rfl
@[simp] theorem setBasin_fio (b : Basin) : (setBasin d b).fio = d.fio := rfl
@[simp] theorem setBasin_clt (b : Basin) : (setBasin d b).clt = d.clt := rfl
@[simp] theorem setBasin_wld (b : Basin) : (setBasin d b).wld = d.wld := rfl
@[simp] theorem setBasin_keys (b : Basin) : (setBasin d b).keys = d.keys := rfl

@[simp] theorem setRst_wall (r : Rst) : (setRst d r).wall = d.wall := rfl
@[simp] theorem setRst_timeOff (r : Rst) : (setRst d r).timeOff = d.timeOff := rfl
@[simp] theorem setRst_aonTime (r : Rst) : (setRst d r).aonTime = d.aonTime := rfl
@[simp] theorem setRst_aonAt (r : Rst) : (setRst d r).aonAt = d.aonAt := rfl
@[simp] theorem setRst_regs (r : Rst) : (setRst d r).regs = d.regs := rfl
@[simp] theorem setRst_cnts (r : Rst) : (setRst d r).cnts = d.cnts := rfl
@[simp] theorem setRst_free (r : Rst) : (setRst d r).free = d.free := rfl
@[simp] theorem setRst_out (r : Rst) : (setRst d r).out = d.out := rfl
@[simp] theorem setRst_qm (r : Rst) : (setRst d r).qm = d.qm := rfl
@[simp] theorem setRst_log (r : Rst) : (setRst d r).log = d.log := rfl
@[simp] theorem setRst_as_ (r : Rst) : (setRst d r).as_ = d.as_ := rfl
@[simp] theorem setRst_basin (r : Rst) : (setRst d r).basin = d.basin := rfl
@[simp] theorem setRst_ports (r : Rst) : (setRst d r).ports = d.ports := rfl
@[simp] theorem setRst_ms (r : Rst) : (setRst d r).ms = d.ms := rfl
@[simp] theorem setRst_lb (r : Rst) : (setRst d r).lb = d.lb := rfl
@[simp] theorem setRst_cht (r : Rst) : (setRst d r).cht = d.cht := rfl
@[simp] theorem setRst_slips (r : Rst) : (setRst d r).slips = d.slips := rfl
@[simp] theorem setRst_brg (r : Rst) : (setRst d r).brg = d.brg := rfl
@[simp] theorem setRst_can (r : Rst) : (setRst d r).can = d.can := rfl
@[simp] theorem setRst_nws (r : Rst) : (setRst d r).nws = d.nws := rfl
@[simp] theorem setRst_ldc (r : Rst) : (setRst d r).ldc = d.ldc := rfl
@[simp] theorem setRst_bwk (r : Rst) : (setRst d r).bwk = d.bwk := rfl
@[simp] theorem setRst_pair (r : Rst) : (setRst d r).pair = d.pair := rfl
@[simp] theorem setRst_svc (r : Rst) : (setRst d r).svc = d.svc := rfl
@[simp] theorem setRst_fio (r : Rst) : (setRst d r).fio = d.fio := rfl
@[simp] theorem setRst_clt (r : Rst) : (setRst d r).clt = d.clt := rfl
@[simp] theorem setRst_wld (r : Rst) : (setRst d r).wld = d.wld := rfl
@[simp] theorem setRst_keys (r : Rst) : (setRst d r).keys = d.keys := rfl

@[simp] theorem setMbx_wall (k : Nat) (x : Mbx) : (setMbx d k x).wall = d.wall := rfl
@[simp] theorem setMbx_timeOff (k : Nat) (x : Mbx) : (setMbx d k x).timeOff = d.timeOff := rfl
@[simp] theorem setMbx_aonTime (k : Nat) (x : Mbx) : (setMbx d k x).aonTime = d.aonTime := rfl
@[simp] theorem setMbx_aonAt (k : Nat) (x : Mbx) : (setMbx d k x).aonAt = d.aonAt := rfl
@[simp] theorem setMbx_regs (k : Nat) (x : Mbx) : (setMbx d k x).regs = d.regs := rfl
@[simp] theorem setMbx_cnts (k : Nat) (x : Mbx) : (setMbx d k x).cnts = d.cnts := rfl
@[simp] theorem setMbx_free (k : Nat) (x : Mbx) : (setMbx d k x).free = d.free := rfl
@[simp] theorem setMbx_out (k : Nat) (x : Mbx) : (setMbx d k x).out = d.out := rfl
@[simp] theorem setMbx_qm (k : Nat) (x : Mbx) : (setMbx d k x).qm = d.qm := rfl
@[simp] theorem setMbx_log (k : Nat) (x : Mbx) : (setMbx d k x).log = d.log := rfl
@[simp] theorem setMbx_as_ (k : Nat) (x : Mbx) : (setMbx d k x).as_ = d.as_ := rfl
@[simp] theorem setMbx_basin (k : Nat) (x : Mbx) : (setMbx d k x).basin = d.basin := rfl
@[simp] theorem setMbx_ports (k : Nat) (x : Mbx) : (setMbx d k x).ports = d.ports := rfl
@[simp] theorem setMbx_ms (k : Nat) (x : Mbx) : (setMbx d k x).ms = d.ms := rfl
@[simp] theorem setMbx_lb (k : Nat) (x : Mbx) : (setMbx d k x).lb = d.lb := rfl
@[simp] theorem setMbx_cht (k : Nat) (x : Mbx) : (setMbx d k x).cht = d.cht := rfl
@[simp] theorem setMbx_slips (k : Nat) (x : Mbx) : (setMbx d k x).slips = d.slips := rfl
@[simp] theorem setMbx_brg (k : Nat) (x : Mbx) : (setMbx d k x).brg = d.brg := rfl
@[simp] theorem setMbx_can (k : Nat) (x : Mbx) : (setMbx d k x).can = d.can := rfl
@[simp] theorem setMbx_nws (k : Nat) (x : Mbx) : (setMbx d k x).nws = d.nws := rfl
@[simp] theorem setMbx_ldc (k : Nat) (x : Mbx) : (setMbx d k x).ldc = d.ldc := rfl
@[simp] theorem setMbx_bwk (k : Nat) (x : Mbx) : (setMbx d k x).bwk = d.bwk := rfl
@[simp] theorem setMbx_rst (k : Nat) (x : Mbx) : (setMbx d k x).rst = d.rst := rfl
@[simp] theorem setMbx_pair (k : Nat) (x : Mbx) : (setMbx d k x).pair = d.pair := rfl
@[simp] theorem setMbx_svc (k : Nat) (x : Mbx) : (setMbx d k x).svc = d.svc := rfl
@[simp] theorem setMbx_fio (k : Nat) (x : Mbx) : (setMbx d k x).fio = d.fio := rfl
@[simp] theorem setMbx_clt (k : Nat) (x : Mbx) : (setMbx d k x).clt = d.clt := rfl
@[simp] theorem setMbx_wld (k : Nat) (x : Mbx) : (setMbx d k x).wld = d.wld := rfl

@[simp] theorem setKey_wall (k : Nat) (x : KeySlot) : (setKey d k x).wall = d.wall := rfl
@[simp] theorem setKey_timeOff (k : Nat) (x : KeySlot) : (setKey d k x).timeOff = d.timeOff := rfl
@[simp] theorem setKey_aonTime (k : Nat) (x : KeySlot) : (setKey d k x).aonTime = d.aonTime := rfl
@[simp] theorem setKey_aonAt (k : Nat) (x : KeySlot) : (setKey d k x).aonAt = d.aonAt := rfl
@[simp] theorem setKey_regs (k : Nat) (x : KeySlot) : (setKey d k x).regs = d.regs := rfl
@[simp] theorem setKey_cnts (k : Nat) (x : KeySlot) : (setKey d k x).cnts = d.cnts := rfl
@[simp] theorem setKey_free (k : Nat) (x : KeySlot) : (setKey d k x).free = d.free := rfl
@[simp] theorem setKey_out (k : Nat) (x : KeySlot) : (setKey d k x).out = d.out := rfl
@[simp] theorem setKey_qm (k : Nat) (x : KeySlot) : (setKey d k x).qm = d.qm := rfl
@[simp] theorem setKey_log (k : Nat) (x : KeySlot) : (setKey d k x).log = d.log := rfl
@[simp] theorem setKey_as_ (k : Nat) (x : KeySlot) : (setKey d k x).as_ = d.as_ := rfl
@[simp] theorem setKey_basin (k : Nat) (x : KeySlot) : (setKey d k x).basin = d.basin := rfl
@[simp] theorem setKey_ports (k : Nat) (x : KeySlot) : (setKey d k x).ports = d.ports := rfl
@[simp] theorem setKey_ms (k : Nat) (x : KeySlot) : (setKey d k x).ms = d.ms := rfl
@[simp] theorem setKey_lb (k : Nat) (x : KeySlot) : (setKey d k x).lb = d.lb := rfl
@[simp] theorem setKey_cht (k : Nat) (x : KeySlot) : (setKey d k x).cht = d.cht := rfl
@[simp] theorem setKey_slips (k : Nat) (x : KeySlot) : (setKey d k x).slips = d.slips := rfl
@[simp] theorem setKey_brg (k : Nat) (x : KeySlot) : (setKey d k x).brg = d.brg := rfl
@[simp] theorem setKey_can (k : Nat) (x : KeySlot) : (setKey d k x).can = d.can := rfl
@[simp] theorem setKey_nws (k : Nat) (x : KeySlot) : (setKey d k x).nws = d.nws := rfl
@[simp] theorem setKey_ldc (k : Nat) (x : KeySlot) : (setKey d k x).ldc = d.ldc := rfl
@[simp] theorem setKey_bwk (k : Nat) (x : KeySlot) : (setKey d k x).bwk = d.bwk := rfl
@[simp] theorem setKey_rst (k : Nat) (x : KeySlot) : (setKey d k x).rst = d.rst := rfl
@[simp] theorem setKey_pair (k : Nat) (x : KeySlot) : (setKey d k x).pair = d.pair := rfl
@[simp] theorem setKey_svc (k : Nat) (x : KeySlot) : (setKey d k x).svc = d.svc := rfl
@[simp] theorem setKey_fio (k : Nat) (x : KeySlot) : (setKey d k x).fio = d.fio := rfl
@[simp] theorem setKey_clt (k : Nat) (x : KeySlot) : (setKey d k x).clt = d.clt := rfl
@[simp] theorem setKey_wld (k : Nat) (x : KeySlot) : (setKey d k x).wld = d.wld := rfl

@[simp] theorem setRegion_wall (m r : Nat) (x : Region) : (setRegion d m r x).wall = d.wall := rfl
@[simp] theorem setRegion_timeOff (m r : Nat) (x : Region) : (setRegion d m r x).timeOff = d.timeOff := rfl
@[simp] theorem setRegion_aonTime (m r : Nat) (x : Region) : (setRegion d m r x).aonTime = d.aonTime := rfl
@[simp] theorem setRegion_aonAt (m r : Nat) (x : Region) : (setRegion d m r x).aonAt = d.aonAt := rfl
@[simp] theorem setRegion_regs (m r : Nat) (x : Region) : (setRegion d m r x).regs = d.regs := rfl
@[simp] theorem setRegion_cnts (m r : Nat) (x : Region) : (setRegion d m r x).cnts = d.cnts := rfl
@[simp] theorem setRegion_free (m r : Nat) (x : Region) : (setRegion d m r x).free = d.free := rfl
@[simp] theorem setRegion_out (m r : Nat) (x : Region) : (setRegion d m r x).out = d.out := rfl
@[simp] theorem setRegion_qm (m r : Nat) (x : Region) : (setRegion d m r x).qm = d.qm := rfl
@[simp] theorem setRegion_log (m r : Nat) (x : Region) : (setRegion d m r x).log = d.log := rfl
@[simp] theorem setRegion_as_ (m r : Nat) (x : Region) : (setRegion d m r x).as_ = d.as_ := rfl
@[simp] theorem setRegion_basin (m r : Nat) (x : Region) : (setRegion d m r x).basin = d.basin := rfl
@[simp] theorem setRegion_ports (m r : Nat) (x : Region) : (setRegion d m r x).ports = d.ports := rfl
@[simp] theorem setRegion_ms (m r : Nat) (x : Region) : (setRegion d m r x).ms = d.ms := rfl
@[simp] theorem setRegion_lb (m r : Nat) (x : Region) : (setRegion d m r x).lb = d.lb := rfl
@[simp] theorem setRegion_cht (m r : Nat) (x : Region) : (setRegion d m r x).cht = d.cht := rfl
@[simp] theorem setRegion_slips (m r : Nat) (x : Region) : (setRegion d m r x).slips = d.slips := rfl
@[simp] theorem setRegion_brg (m r : Nat) (x : Region) : (setRegion d m r x).brg = d.brg := rfl
@[simp] theorem setRegion_can (m r : Nat) (x : Region) : (setRegion d m r x).can = d.can := rfl
@[simp] theorem setRegion_nws (m r : Nat) (x : Region) : (setRegion d m r x).nws = d.nws := rfl
@[simp] theorem setRegion_ldc (m r : Nat) (x : Region) : (setRegion d m r x).ldc = d.ldc := rfl
@[simp] theorem setRegion_bwk (m r : Nat) (x : Region) : (setRegion d m r x).bwk = d.bwk := rfl
@[simp] theorem setRegion_rst (m r : Nat) (x : Region) : (setRegion d m r x).rst = d.rst := rfl
@[simp] theorem setRegion_pair (m r : Nat) (x : Region) : (setRegion d m r x).pair = d.pair := rfl
@[simp] theorem setRegion_svc (m r : Nat) (x : Region) : (setRegion d m r x).svc = d.svc := rfl
@[simp] theorem setRegion_fio (m r : Nat) (x : Region) : (setRegion d m r x).fio = d.fio := rfl
@[simp] theorem setRegion_clt (m r : Nat) (x : Region) : (setRegion d m r x).clt = d.clt := rfl
@[simp] theorem setRegion_keys (m r : Nat) (x : Region) : (setRegion d m r x).keys = d.keys := rfl

/-! ## Reading back -/

@[simp] theorem cnt_cntSet (a : Nat) (v : DWord) (b : Nat) : cnt (cntSet d a v) b = if b = a then v else cnt d b := by
  simp [cnt, cntSet]
@[simp] theorem slipOf_setSlip (n : Nat) (x : Slip) (m : Nat) : slipOf (setSlip d n x) m = if m = n then x else slipOf d m := by
  simp [slipOf, setSlip]
@[simp] theorem resOf_setRes (n : Nat) (x : Res) (m : Nat) : resOf (setRes d n x) m = if m = n then x else resOf d m := by
  simp [resOf, setRes]
@[simp] theorem portOf_setPort (n : Nat) (x : WirePort) (m : Nat) : portOf (setPort d n x) m = if m = n then x else portOf d m := by
  simp [portOf, setPort]
@[simp] theorem msOf_setMs (n : Nat) (x : MsPort) (m : Nat) : msOf (setMs d n x) m = if m = n then x else msOf d m := by
  simp [msOf, setMs]
@[simp] theorem canOf_setCan (n : Nat) (x : Can) (m : Nat) : canOf (setCan d n x) m = if m = n then x else canOf d m := by
  simp [canOf, setCan]
@[simp] theorem netOf_setNet (n : Nat) (x : Net) (m : Nat) : netOf (setNet d n x) m = if m = n then x else netOf d m := by
  simp [netOf, setNet]
@[simp] theorem loadOf_setLoad (n : Nat) (x : Load) (m : Nat) : loadOf (setLoad d n x) m = if m = n then x else loadOf d m := by
  simp [loadOf, setLoad]
@[simp] theorem bankOf_setBank (n : Nat) (x : Bank) (m : Nat) : bankOf (setBank d n x) m = if m = n then x else bankOf d m := by
  simp [bankOf, setBank]
@[simp] theorem fieldOf_setField (n : Nat) (x : FieldCh) (m : Nat) : fieldOf (setField d n x) m = if m = n then x else fieldOf d m := by
  simp [fieldOf, setField]
@[simp] theorem streamOf_setStream (n : Nat) (x : Stream) (m : Nat) : streamOf (setStream d n x) m = if m = n then x else streamOf d m := by
  simp [streamOf, setStream]
@[simp] theorem semOf_setSem (n : Nat) (x : Sem) (m : Nat) : semOf (setSem d n x) m = if m = n then x else semOf d m := by
  simp [semOf, setSem]
@[simp] theorem hoOf_setHo (n : Nat) (x : HoBlock) (m : Nat) : hoOf (setHo d n x) m = if m = n then x else hoOf d m := by
  simp [hoOf, setHo]
@[simp] theorem rd_wr (a : Nat) (v : Word) (b : Nat) : rd (wr d a v) b = if b = a then v else rd d b := by
  by_cases h : b = a
  · subst h; simp [rd, wr]
  · unfold rd wr tset
    simp only [h, if_false]
    split
    · rw [tget_terase, if_neg h]
    · rw [tget_tput, if_neg h]
@[simp] theorem ringOf_setRing (n r : Nat) (x : Ring) (m q : Nat) :
    ringOf (setRing d n r x) m q = if 8 * m + q = 8 * n + r then x else ringOf d m q := by simp [ringOf, setRing]
@[simp] theorem cnt_cntAdd (a n b : Nat) :
    cnt (cntAdd d a n) b = if b = a then cnt d a + BitVec.ofNat 64 n else cnt d b := by simp [cnt, cntAdd]
@[simp] theorem cnt_inc (a b : Nat) : cnt (inc d a) b = if b = a then cnt d a + 1 else cnt d b := by simp [inc]
theorem cnt_clearCnts (lo hi a : Nat) :
    cnt (clearCnts d lo hi) a = if lo ≤ a ∧ a < hi then 0 else cnt d a := by simp [cnt, clearCnts, tget_tclear]
theorem rd_resultEnd_valid (a : Nat) (v : Word) : resultValid (resultEnd d a v) a = true := by
  simp [resultValid, resultEnd, bit]
theorem rd_resultBegin_valid (a : Nat) : resultValid (resultBegin d a) a = false := by
  simp [resultValid, resultBegin, bit]

@[simp] theorem rd_cntAdd (a n : Nat) (i : Nat) : rd (cntAdd d a n) i = rd d i := rfl
@[simp] theorem rd_inc (a : Nat) (i : Nat) : rd (inc d a) i = rd d i := rfl
@[simp] theorem rd_cntSet (a : Nat) (v : DWord) (i : Nat) : rd (cntSet d a v) i = rd d i := rfl
@[simp] theorem rd_clearCnts (lo hi : Nat) (i : Nat) : rd (clearCnts d lo hi) i = rd d i := rfl
@[simp] theorem rd_emit (o : Out) (i : Nat) : rd (emit d o) i = rd d i := rfl
@[simp] theorem rd_setSlip (n : Nat) (x : Slip) (i : Nat) : rd (setSlip d n x) i = rd d i := rfl
@[simp] theorem rd_setRing (n r : Nat) (x : Ring) (i : Nat) : rd (setRing d n r x) i = rd d i := rfl
@[simp] theorem rd_setRes (k : Nat) (x : Res) (i : Nat) : rd (setRes d k x) i = rd d i := rfl
@[simp] theorem rd_setPort (p : Nat) (x : WirePort) (i : Nat) : rd (setPort d p x) i = rd d i := rfl
@[simp] theorem rd_setMs (k : Nat) (x : MsPort) (i : Nat) : rd (setMs d k x) i = rd d i := rfl
@[simp] theorem rd_setCan (n : Nat) (x : Can) (i : Nat) : rd (setCan d n x) i = rd d i := rfl
@[simp] theorem rd_setNet (n : Nat) (x : Net) (i : Nat) : rd (setNet d n x) i = rd d i := rfl
@[simp] theorem rd_setPart (n m : Nat) (x : Partner) (i : Nat) : rd (setPart d n m x) i = rd d i := rfl
@[simp] theorem rd_setNbr (p k : Nat) (x : Option Neighbour) (i : Nat) : rd (setNbr d p k x) i = rd d i := rfl
@[simp] theorem rd_setLoad (n : Nat) (x : Load) (i : Nat) : rd (setLoad d n x) i = rd d i := rfl
@[simp] theorem rd_setBank (b : Nat) (x : Bank) (i : Nat) : rd (setBank d b x) i = rd d i := rfl
@[simp] theorem rd_setField (n : Nat) (x : FieldCh) (i : Nat) : rd (setField d n x) i = rd d i := rfl
@[simp] theorem rd_setStream (k : Nat) (x : Stream) (i : Nat) : rd (setStream d k x) i = rd d i := rfl
@[simp] theorem rd_setSem (k : Nat) (x : Sem) (i : Nat) : rd (setSem d k x) i = rd d i := rfl
@[simp] theorem rd_setHo (b : Nat) (x : HoBlock) (i : Nat) : rd (setHo d b x) i = rd d i := rfl
@[simp] theorem rd_setBasin (b : Basin) (i : Nat) : rd (setBasin d b) i = rd d i := rfl
@[simp] theorem rd_setRst (r : Rst) (i : Nat) : rd (setRst d r) i = rd d i := rfl
@[simp] theorem rd_setMbx (k : Nat) (x : Mbx) (i : Nat) : rd (setMbx d k x) i = rd d i := rfl
@[simp] theorem rd_setKey (k : Nat) (x : KeySlot) (i : Nat) : rd (setKey d k x) i = rd d i := rfl
@[simp] theorem rd_setRegion (m r : Nat) (x : Region) (i : Nat) : rd (setRegion d m r x) i = rd d i := rfl
@[simp] theorem cnt_wr (a : Nat) (v : Word) (i : Nat) : cnt (wr d a v) i = cnt d i := rfl
@[simp] theorem cnt_resetRegs (lo hi : Nat) (i : Nat) : cnt (resetRegs d lo hi) i = cnt d i := rfl
@[simp] theorem cnt_resultBegin (a : Nat) (i : Nat) : cnt (resultBegin d a) i = cnt d i := rfl
@[simp] theorem cnt_resultEnd (a : Nat) (v : Word) (i : Nat) : cnt (resultEnd d a v) i = cnt d i := rfl
@[simp] theorem cnt_emit (o : Out) (i : Nat) : cnt (emit d o) i = cnt d i := rfl
@[simp] theorem cnt_setSlip (n : Nat) (x : Slip) (i : Nat) : cnt (setSlip d n x) i = cnt d i := rfl
@[simp] theorem cnt_setRing (n r : Nat) (x : Ring) (i : Nat) : cnt (setRing d n r x) i = cnt d i := rfl
@[simp] theorem cnt_setRes (k : Nat) (x : Res) (i : Nat) : cnt (setRes d k x) i = cnt d i := rfl
@[simp] theorem cnt_setPort (p : Nat) (x : WirePort) (i : Nat) : cnt (setPort d p x) i = cnt d i := rfl
@[simp] theorem cnt_setMs (k : Nat) (x : MsPort) (i : Nat) : cnt (setMs d k x) i = cnt d i := rfl
@[simp] theorem cnt_setCan (n : Nat) (x : Can) (i : Nat) : cnt (setCan d n x) i = cnt d i := rfl
@[simp] theorem cnt_setNet (n : Nat) (x : Net) (i : Nat) : cnt (setNet d n x) i = cnt d i := rfl
@[simp] theorem cnt_setPart (n m : Nat) (x : Partner) (i : Nat) : cnt (setPart d n m x) i = cnt d i := rfl
@[simp] theorem cnt_setNbr (p k : Nat) (x : Option Neighbour) (i : Nat) : cnt (setNbr d p k x) i = cnt d i := rfl
@[simp] theorem cnt_setLoad (n : Nat) (x : Load) (i : Nat) : cnt (setLoad d n x) i = cnt d i := rfl
@[simp] theorem cnt_setBank (b : Nat) (x : Bank) (i : Nat) : cnt (setBank d b x) i = cnt d i := rfl
@[simp] theorem cnt_setField (n : Nat) (x : FieldCh) (i : Nat) : cnt (setField d n x) i = cnt d i := rfl
@[simp] theorem cnt_setStream (k : Nat) (x : Stream) (i : Nat) : cnt (setStream d k x) i = cnt d i := rfl
@[simp] theorem cnt_setSem (k : Nat) (x : Sem) (i : Nat) : cnt (setSem d k x) i = cnt d i := rfl
@[simp] theorem cnt_setHo (b : Nat) (x : HoBlock) (i : Nat) : cnt (setHo d b x) i = cnt d i := rfl
@[simp] theorem cnt_setBasin (b : Basin) (i : Nat) : cnt (setBasin d b) i = cnt d i := rfl
@[simp] theorem cnt_setRst (r : Rst) (i : Nat) : cnt (setRst d r) i = cnt d i := rfl
@[simp] theorem cnt_setMbx (k : Nat) (x : Mbx) (i : Nat) : cnt (setMbx d k x) i = cnt d i := rfl
@[simp] theorem cnt_setKey (k : Nat) (x : KeySlot) (i : Nat) : cnt (setKey d k x) i = cnt d i := rfl
@[simp] theorem cnt_setRegion (m r : Nat) (x : Region) (i : Nat) : cnt (setRegion d m r x) i = cnt d i := rfl

/-! ## The lift -/

@[simp] theorem onDev_eq (f : Dev → Dev) (s : State) : onDev f s = .next { s with dev := f s.dev } := rfl

end Sys2Proof.Laws
end

