-- ==== Sys2Proof/Laws/Ops.lean ====
section
/-! SUPPORT. What the shared operations do to the device, said once: an interrupt touches only what is sent and the
pending bits; an event touches its own register, the log and the interrupt; a mirrored change touches the pair, its
counter and what is sent; work for the Quaymaster is served or queued. -/

namespace Sys2Proof.Laws

open Sys2Proof.Machine

variable (d : Dev)

@[simp] theorem logRecord_wall (src code : Nat) (event : Word) (inst : Nat) (detail : Word) : (logRecord d src code event inst detail).wall = d.wall := by
  unfold logRecord; split <;> rfl
@[simp] theorem logRecord_timeOff (src code : Nat) (event : Word) (inst : Nat) (detail : Word) : (logRecord d src code event inst detail).timeOff = d.timeOff := by
  unfold logRecord; split <;> rfl
@[simp] theorem logRecord_aonTime (src code : Nat) (event : Word) (inst : Nat) (detail : Word) : (logRecord d src code event inst detail).aonTime = d.aonTime := by
  unfold logRecord; split <;> rfl
@[simp] theorem logRecord_aonAt (src code : Nat) (event : Word) (inst : Nat) (detail : Word) : (logRecord d src code event inst detail).aonAt = d.aonAt := by
  unfold logRecord; split <;> rfl
@[simp] theorem logRecord_regs (src code : Nat) (event : Word) (inst : Nat) (detail : Word) : (logRecord d src code event inst detail).regs = d.regs := by
  unfold logRecord; split <;> rfl
@[simp] theorem logRecord_cnts (src code : Nat) (event : Word) (inst : Nat) (detail : Word) : (logRecord d src code event inst detail).cnts = d.cnts := by
  unfold logRecord; split <;> rfl
@[simp] theorem logRecord_free (src code : Nat) (event : Word) (inst : Nat) (detail : Word) : (logRecord d src code event inst detail).free = d.free := by
  unfold logRecord; split <;> rfl
@[simp] theorem logRecord_out (src code : Nat) (event : Word) (inst : Nat) (detail : Word) : (logRecord d src code event inst detail).out = d.out := by
  unfold logRecord; split <;> rfl
@[simp] theorem logRecord_qm (src code : Nat) (event : Word) (inst : Nat) (detail : Word) : (logRecord d src code event inst detail).qm = d.qm := by
  unfold logRecord; split <;> rfl
@[simp] theorem logRecord_as_ (src code : Nat) (event : Word) (inst : Nat) (detail : Word) : (logRecord d src code event inst detail).as_ = d.as_ := by
  unfold logRecord; split <;> rfl
@[simp] theorem logRecord_basin (src code : Nat) (event : Word) (inst : Nat) (detail : Word) : (logRecord d src code event inst detail).basin = d.basin := by
  unfold logRecord; split <;> rfl
@[simp] theorem logRecord_ports (src code : Nat) (event : Word) (inst : Nat) (detail : Word) : (logRecord d src code event inst detail).ports = d.ports := by
  unfold logRecord; split <;> rfl
@[simp] theorem logRecord_ms (src code : Nat) (event : Word) (inst : Nat) (detail : Word) : (logRecord d src code event inst detail).ms = d.ms := by
  unfold logRecord; split <;> rfl
@[simp] theorem logRecord_lb (src code : Nat) (event : Word) (inst : Nat) (detail : Word) : (logRecord d src code event inst detail).lb = d.lb := by
  unfold logRecord; split <;> rfl
@[simp] theorem logRecord_cht (src code : Nat) (event : Word) (inst : Nat) (detail : Word) : (logRecord d src code event inst detail).cht = d.cht := by
  unfold logRecord; split <;> rfl
@[simp] theorem logRecord_slips (src code : Nat) (event : Word) (inst : Nat) (detail : Word) : (logRecord d src code event inst detail).slips = d.slips := by
  unfold logRecord; split <;> rfl
@[simp] theorem logRecord_brg (src code : Nat) (event : Word) (inst : Nat) (detail : Word) : (logRecord d src code event inst detail).brg = d.brg := by
  unfold logRecord; split <;> rfl
@[simp] theorem logRecord_can (src code : Nat) (event : Word) (inst : Nat) (detail : Word) : (logRecord d src code event inst detail).can = d.can := by
  unfold logRecord; split <;> rfl
@[simp] theorem logRecord_nws (src code : Nat) (event : Word) (inst : Nat) (detail : Word) : (logRecord d src code event inst detail).nws = d.nws := by
  unfold logRecord; split <;> rfl
@[simp] theorem logRecord_ldc (src code : Nat) (event : Word) (inst : Nat) (detail : Word) : (logRecord d src code event inst detail).ldc = d.ldc := by
  unfold logRecord; split <;> rfl
@[simp] theorem logRecord_bwk (src code : Nat) (event : Word) (inst : Nat) (detail : Word) : (logRecord d src code event inst detail).bwk = d.bwk := by
  unfold logRecord; split <;> rfl
@[simp] theorem logRecord_rst (src code : Nat) (event : Word) (inst : Nat) (detail : Word) : (logRecord d src code event inst detail).rst = d.rst := by
  unfold logRecord; split <;> rfl
@[simp] theorem logRecord_pair (src code : Nat) (event : Word) (inst : Nat) (detail : Word) : (logRecord d src code event inst detail).pair = d.pair := by
  unfold logRecord; split <;> rfl
@[simp] theorem logRecord_svc (src code : Nat) (event : Word) (inst : Nat) (detail : Word) : (logRecord d src code event inst detail).svc = d.svc := by
  unfold logRecord; split <;> rfl
@[simp] theorem logRecord_fio (src code : Nat) (event : Word) (inst : Nat) (detail : Word) : (logRecord d src code event inst detail).fio = d.fio := by
  unfold logRecord; split <;> rfl
@[simp] theorem logRecord_clt (src code : Nat) (event : Word) (inst : Nat) (detail : Word) : (logRecord d src code event inst detail).clt = d.clt := by
  unfold logRecord; split <;> rfl
@[simp] theorem logRecord_wld (src code : Nat) (event : Word) (inst : Nat) (detail : Word) : (logRecord d src code event inst detail).wld = d.wld := by
  unfold logRecord; split <;> rfl
@[simp] theorem logRecord_keys (src code : Nat) (event : Word) (inst : Nat) (detail : Word) : (logRecord d src code event inst detail).keys = d.keys := by
  unfold logRecord; split <;> rfl
@[simp] theorem rd_logRecord (src code : Nat) (event : Word) (inst : Nat) (detail : Word) (i : Nat) : rd (logRecord d src code event inst detail) i = rd d i := by
  simp [rd]
@[simp] theorem cnt_logRecord (src code : Nat) (event : Word) (inst : Nat) (detail : Word) (i : Nat) : cnt (logRecord d src code event inst detail) i = cnt d i := by
  simp [cnt]

@[simp] theorem sendVec_wall (n v : Nat) : (sendVec d n v).wall = d.wall := by
  simp only [sendVec]; split <;> rfl
@[simp] theorem sendVec_timeOff (n v : Nat) : (sendVec d n v).timeOff = d.timeOff := by
  simp only [sendVec]; split <;> rfl
@[simp] theorem sendVec_aonTime (n v : Nat) : (sendVec d n v).aonTime = d.aonTime := by
  simp only [sendVec]; split <;> rfl
@[simp] theorem sendVec_aonAt (n v : Nat) : (sendVec d n v).aonAt = d.aonAt := by
  simp only [sendVec]; split <;> rfl
@[simp] theorem sendVec_regs (n v : Nat) : (sendVec d n v).regs = d.regs := by
  simp only [sendVec]; split <;> rfl
@[simp] theorem sendVec_cnts (n v : Nat) : (sendVec d n v).cnts = d.cnts := by
  simp only [sendVec]; split <;> rfl
@[simp] theorem sendVec_free (n v : Nat) : (sendVec d n v).free = d.free := by
  simp only [sendVec]; split <;> rfl
@[simp] theorem sendVec_qm (n v : Nat) : (sendVec d n v).qm = d.qm := by
  simp only [sendVec]; split <;> rfl
@[simp] theorem sendVec_log (n v : Nat) : (sendVec d n v).log = d.log := by
  simp only [sendVec]; split <;> rfl
@[simp] theorem sendVec_as_ (n v : Nat) : (sendVec d n v).as_ = d.as_ := by
  simp only [sendVec]; split <;> rfl
@[simp] theorem sendVec_basin (n v : Nat) : (sendVec d n v).basin = d.basin := by
  simp only [sendVec]; split <;> rfl
@[simp] theorem sendVec_ports (n v : Nat) : (sendVec d n v).ports = d.ports := by
  simp only [sendVec]; split <;> rfl
@[simp] theorem sendVec_ms (n v : Nat) : (sendVec d n v).ms = d.ms := by
  simp only [sendVec]; split <;> rfl
@[simp] theorem sendVec_lb (n v : Nat) : (sendVec d n v).lb = d.lb := by
  simp only [sendVec]; split <;> rfl
@[simp] theorem sendVec_cht (n v : Nat) : (sendVec d n v).cht = d.cht := by
  simp only [sendVec]; split <;> rfl
@[simp] theorem sendVec_brg (n v : Nat) : (sendVec d n v).brg = d.brg := by
  simp only [sendVec]; split <;> rfl
@[simp] theorem sendVec_can (n v : Nat) : (sendVec d n v).can = d.can := by
  simp only [sendVec]; split <;> rfl
@[simp] theorem sendVec_nws (n v : Nat) : (sendVec d n v).nws = d.nws := by
  simp only [sendVec]; split <;> rfl
@[simp] theorem sendVec_ldc (n v : Nat) : (sendVec d n v).ldc = d.ldc := by
  simp only [sendVec]; split <;> rfl
@[simp] theorem sendVec_bwk (n v : Nat) : (sendVec d n v).bwk = d.bwk := by
  simp only [sendVec]; split <;> rfl
@[simp] theorem sendVec_rst (n v : Nat) : (sendVec d n v).rst = d.rst := by
  simp only [sendVec]; split <;> rfl
@[simp] theorem sendVec_pair (n v : Nat) : (sendVec d n v).pair = d.pair := by
  simp only [sendVec]; split <;> rfl
@[simp] theorem sendVec_svc (n v : Nat) : (sendVec d n v).svc = d.svc := by
  simp only [sendVec]; split <;> rfl
@[simp] theorem sendVec_fio (n v : Nat) : (sendVec d n v).fio = d.fio := by
  simp only [sendVec]; split <;> rfl
@[simp] theorem sendVec_clt (n v : Nat) : (sendVec d n v).clt = d.clt := by
  simp only [sendVec]; split <;> rfl
@[simp] theorem sendVec_wld (n v : Nat) : (sendVec d n v).wld = d.wld := by
  simp only [sendVec]; split <;> rfl
@[simp] theorem sendVec_keys (n v : Nat) : (sendVec d n v).keys = d.keys := by
  simp only [sendVec]; split <;> rfl
@[simp] theorem rd_sendVec (n v : Nat) (i : Nat) : rd (sendVec d n v) i = rd d i := by
  simp [rd]
@[simp] theorem cnt_sendVec (n v : Nat) (i : Nat) : cnt (sendVec d n v) i = cnt d i := by
  simp [cnt]

@[simp] theorem mgrVec_wall  : (mgrVec d ).wall = d.wall := by
  simp [mgrVec]
@[simp] theorem mgrVec_timeOff  : (mgrVec d ).timeOff = d.timeOff := by
  simp [mgrVec]
@[simp] theorem mgrVec_aonTime  : (mgrVec d ).aonTime = d.aonTime := by
  simp [mgrVec]
@[simp] theorem mgrVec_aonAt  : (mgrVec d ).aonAt = d.aonAt := by
  simp [mgrVec]
@[simp] theorem mgrVec_regs  : (mgrVec d ).regs = d.regs := by
  simp [mgrVec]
@[simp] theorem mgrVec_cnts  : (mgrVec d ).cnts = d.cnts := by
  simp [mgrVec]
@[simp] theorem mgrVec_free  : (mgrVec d ).free = d.free := by
  simp [mgrVec]
@[simp] theorem mgrVec_qm  : (mgrVec d ).qm = d.qm := by
  simp [mgrVec]
@[simp] theorem mgrVec_log  : (mgrVec d ).log = d.log := by
  simp [mgrVec]
@[simp] theorem mgrVec_as_  : (mgrVec d ).as_ = d.as_ := by
  simp [mgrVec]
@[simp] theorem mgrVec_basin  : (mgrVec d ).basin = d.basin := by
  simp [mgrVec]
@[simp] theorem mgrVec_ports  : (mgrVec d ).ports = d.ports := by
  simp [mgrVec]
@[simp] theorem mgrVec_ms  : (mgrVec d ).ms = d.ms := by
  simp [mgrVec]
@[simp] theorem mgrVec_lb  : (mgrVec d ).lb = d.lb := by
  simp [mgrVec]
@[simp] theorem mgrVec_cht  : (mgrVec d ).cht = d.cht := by
  simp [mgrVec]
@[simp] theorem mgrVec_brg  : (mgrVec d ).brg = d.brg := by
  simp [mgrVec]
@[simp] theorem mgrVec_can  : (mgrVec d ).can = d.can := by
  simp [mgrVec]
@[simp] theorem mgrVec_nws  : (mgrVec d ).nws = d.nws := by
  simp [mgrVec]
@[simp] theorem mgrVec_ldc  : (mgrVec d ).ldc = d.ldc := by
  simp [mgrVec]
@[simp] theorem mgrVec_bwk  : (mgrVec d ).bwk = d.bwk := by
  simp [mgrVec]
@[simp] theorem mgrVec_rst  : (mgrVec d ).rst = d.rst := by
  simp [mgrVec]
@[simp] theorem mgrVec_pair  : (mgrVec d ).pair = d.pair := by
  simp [mgrVec]
@[simp] theorem mgrVec_svc  : (mgrVec d ).svc = d.svc := by
  simp [mgrVec]
@[simp] theorem mgrVec_fio  : (mgrVec d ).fio = d.fio := by
  simp [mgrVec]
@[simp] theorem mgrVec_clt  : (mgrVec d ).clt = d.clt := by
  simp [mgrVec]
@[simp] theorem mgrVec_wld  : (mgrVec d ).wld = d.wld := by
  simp [mgrVec]
@[simp] theorem mgrVec_keys  : (mgrVec d ).keys = d.keys := by
  simp [mgrVec]
@[simp] theorem rd_mgrVec  (i : Nat) : rd (mgrVec d ) i = rd d i := by
  simp [rd]
@[simp] theorem cnt_mgrVec  (i : Nat) : cnt (mgrVec d ) i = cnt d i := by
  simp [cnt]

@[simp] theorem setEv_wall (src ev en b inst : Nat) (detail : Word) : (setEv d src ev en b inst detail).wall = d.wall := by
  simp only [setEv]; split <;> [rfl; (split <;> simp)]
@[simp] theorem setEv_timeOff (src ev en b inst : Nat) (detail : Word) : (setEv d src ev en b inst detail).timeOff = d.timeOff := by
  simp only [setEv]; split <;> [rfl; (split <;> simp)]
@[simp] theorem setEv_aonTime (src ev en b inst : Nat) (detail : Word) : (setEv d src ev en b inst detail).aonTime = d.aonTime := by
  simp only [setEv]; split <;> [rfl; (split <;> simp)]
@[simp] theorem setEv_aonAt (src ev en b inst : Nat) (detail : Word) : (setEv d src ev en b inst detail).aonAt = d.aonAt := by
  simp only [setEv]; split <;> [rfl; (split <;> simp)]
@[simp] theorem setEv_cnts (src ev en b inst : Nat) (detail : Word) : (setEv d src ev en b inst detail).cnts = d.cnts := by
  simp only [setEv]; split <;> [rfl; (split <;> simp)]
@[simp] theorem setEv_free (src ev en b inst : Nat) (detail : Word) : (setEv d src ev en b inst detail).free = d.free := by
  simp only [setEv]; split <;> [rfl; (split <;> simp)]
@[simp] theorem setEv_qm (src ev en b inst : Nat) (detail : Word) : (setEv d src ev en b inst detail).qm = d.qm := by
  simp only [setEv]; split <;> [rfl; (split <;> simp)]
@[simp] theorem setEv_as_ (src ev en b inst : Nat) (detail : Word) : (setEv d src ev en b inst detail).as_ = d.as_ := by
  simp only [setEv]; split <;> [rfl; (split <;> simp)]
@[simp] theorem setEv_basin (src ev en b inst : Nat) (detail : Word) : (setEv d src ev en b inst detail).basin = d.basin := by
  simp only [setEv]; split <;> [rfl; (split <;> simp)]
@[simp] theorem setEv_ports (src ev en b inst : Nat) (detail : Word) : (setEv d src ev en b inst detail).ports = d.ports := by
  simp only [setEv]; split <;> [rfl; (split <;> simp)]
@[simp] theorem setEv_ms (src ev en b inst : Nat) (detail : Word) : (setEv d src ev en b inst detail).ms = d.ms := by
  simp only [setEv]; split <;> [rfl; (split <;> simp)]
@[simp] theorem setEv_lb (src ev en b inst : Nat) (detail : Word) : (setEv d src ev en b inst detail).lb = d.lb := by
  simp only [setEv]; split <;> [rfl; (split <;> simp)]
@[simp] theorem setEv_cht (src ev en b inst : Nat) (detail : Word) : (setEv d src ev en b inst detail).cht = d.cht := by
  simp only [setEv]; split <;> [rfl; (split <;> simp)]
@[simp] theorem setEv_brg (src ev en b inst : Nat) (detail : Word) : (setEv d src ev en b inst detail).brg = d.brg := by
  simp only [setEv]; split <;> [rfl; (split <;> simp)]
@[simp] theorem setEv_can (src ev en b inst : Nat) (detail : Word) : (setEv d src ev en b inst detail).can = d.can := by
  simp only [setEv]; split <;> [rfl; (split <;> simp)]
@[simp] theorem setEv_nws (src ev en b inst : Nat) (detail : Word) : (setEv d src ev en b inst detail).nws = d.nws := by
  simp only [setEv]; split <;> [rfl; (split <;> simp)]
@[simp] theorem setEv_ldc (src ev en b inst : Nat) (detail : Word) : (setEv d src ev en b inst detail).ldc = d.ldc := by
  simp only [setEv]; split <;> [rfl; (split <;> simp)]
@[simp] theorem setEv_bwk (src ev en b inst : Nat) (detail : Word) : (setEv d src ev en b inst detail).bwk = d.bwk := by
  simp only [setEv]; split <;> [rfl; (split <;> simp)]
@[simp] theorem setEv_rst (src ev en b inst : Nat) (detail : Word) : (setEv d src ev en b inst detail).rst = d.rst := by
  simp only [setEv]; split <;> [rfl; (split <;> simp)]
@[simp] theorem setEv_pair (src ev en b inst : Nat) (detail : Word) : (setEv d src ev en b inst detail).pair = d.pair := by
  simp only [setEv]; split <;> [rfl; (split <;> simp)]
@[simp] theorem setEv_svc (src ev en b inst : Nat) (detail : Word) : (setEv d src ev en b inst detail).svc = d.svc := by
  simp only [setEv]; split <;> [rfl; (split <;> simp)]
@[simp] theorem setEv_fio (src ev en b inst : Nat) (detail : Word) : (setEv d src ev en b inst detail).fio = d.fio := by
  simp only [setEv]; split <;> [rfl; (split <;> simp)]
@[simp] theorem setEv_clt (src ev en b inst : Nat) (detail : Word) : (setEv d src ev en b inst detail).clt = d.clt := by
  simp only [setEv]; split <;> [rfl; (split <;> simp)]
@[simp] theorem setEv_wld (src ev en b inst : Nat) (detail : Word) : (setEv d src ev en b inst detail).wld = d.wld := by
  simp only [setEv]; split <;> [rfl; (split <;> simp)]
@[simp] theorem setEv_keys (src ev en b inst : Nat) (detail : Word) : (setEv d src ev en b inst detail).keys = d.keys := by
  simp only [setEv]; split <;> [rfl; (split <;> simp)]
@[simp] theorem cnt_setEv (src ev en b inst : Nat) (detail : Word) (i : Nat) : cnt (setEv d src ev en b inst detail) i = cnt d i := by
  simp [cnt]

@[simp] theorem setSlipEv_wall (n b : Nat) : (setSlipEv d n b).wall = d.wall := by
  simp only [setSlipEv]; split <;> [rfl; (split <;> simp)]
@[simp] theorem setSlipEv_timeOff (n b : Nat) : (setSlipEv d n b).timeOff = d.timeOff := by
  simp only [setSlipEv]; split <;> [rfl; (split <;> simp)]
@[simp] theorem setSlipEv_aonTime (n b : Nat) : (setSlipEv d n b).aonTime = d.aonTime := by
  simp only [setSlipEv]; split <;> [rfl; (split <;> simp)]
@[simp] theorem setSlipEv_aonAt (n b : Nat) : (setSlipEv d n b).aonAt = d.aonAt := by
  simp only [setSlipEv]; split <;> [rfl; (split <;> simp)]
@[simp] theorem setSlipEv_cnts (n b : Nat) : (setSlipEv d n b).cnts = d.cnts := by
  simp only [setSlipEv]; split <;> [rfl; (split <;> simp)]
@[simp] theorem setSlipEv_free (n b : Nat) : (setSlipEv d n b).free = d.free := by
  simp only [setSlipEv]; split <;> [rfl; (split <;> simp)]
@[simp] theorem setSlipEv_qm (n b : Nat) : (setSlipEv d n b).qm = d.qm := by
  simp only [setSlipEv]; split <;> [rfl; (split <;> simp)]
@[simp] theorem setSlipEv_log (n b : Nat) : (setSlipEv d n b).log = d.log := by
  simp only [setSlipEv]; split <;> [rfl; (split <;> simp)]
@[simp] theorem setSlipEv_as_ (n b : Nat) : (setSlipEv d n b).as_ = d.as_ := by
  simp only [setSlipEv]; split <;> [rfl; (split <;> simp)]
@[simp] theorem setSlipEv_basin (n b : Nat) : (setSlipEv d n b).basin = d.basin := by
  simp only [setSlipEv]; split <;> [rfl; (split <;> simp)]
@[simp] theorem setSlipEv_ports (n b : Nat) : (setSlipEv d n b).ports = d.ports := by
  simp only [setSlipEv]; split <;> [rfl; (split <;> simp)]
@[simp] theorem setSlipEv_ms (n b : Nat) : (setSlipEv d n b).ms = d.ms := by
  simp only [setSlipEv]; split <;> [rfl; (split <;> simp)]
@[simp] theorem setSlipEv_lb (n b : Nat) : (setSlipEv d n b).lb = d.lb := by
  simp only [setSlipEv]; split <;> [rfl; (split <;> simp)]
@[simp] theorem setSlipEv_cht (n b : Nat) : (setSlipEv d n b).cht = d.cht := by
  simp only [setSlipEv]; split <;> [rfl; (split <;> simp)]
@[simp] theorem setSlipEv_brg (n b : Nat) : (setSlipEv d n b).brg = d.brg := by
  simp only [setSlipEv]; split <;> [rfl; (split <;> simp)]
@[simp] theorem setSlipEv_can (n b : Nat) : (setSlipEv d n b).can = d.can := by
  simp only [setSlipEv]; split <;> [rfl; (split <;> simp)]
@[simp] theorem setSlipEv_nws (n b : Nat) : (setSlipEv d n b).nws = d.nws := by
  simp only [setSlipEv]; split <;> [rfl; (split <;> simp)]
@[simp] theorem setSlipEv_ldc (n b : Nat) : (setSlipEv d n b).ldc = d.ldc := by
  simp only [setSlipEv]; split <;> [rfl; (split <;> simp)]
@[simp] theorem setSlipEv_bwk (n b : Nat) : (setSlipEv d n b).bwk = d.bwk := by
  simp only [setSlipEv]; split <;> [rfl; (split <;> simp)]
@[simp] theorem setSlipEv_rst (n b : Nat) : (setSlipEv d n b).rst = d.rst := by
  simp only [setSlipEv]; split <;> [rfl; (split <;> simp)]
@[simp] theorem setSlipEv_pair (n b : Nat) : (setSlipEv d n b).pair = d.pair := by
  simp only [setSlipEv]; split <;> [rfl; (split <;> simp)]
@[simp] theorem setSlipEv_svc (n b : Nat) : (setSlipEv d n b).svc = d.svc := by
  simp only [setSlipEv]; split <;> [rfl; (split <;> simp)]
@[simp] theorem setSlipEv_fio (n b : Nat) : (setSlipEv d n b).fio = d.fio := by
  simp only [setSlipEv]; split <;> [rfl; (split <;> simp)]
@[simp] theorem setSlipEv_clt (n b : Nat) : (setSlipEv d n b).clt = d.clt := by
  simp only [setSlipEv]; split <;> [rfl; (split <;> simp)]
@[simp] theorem setSlipEv_wld (n b : Nat) : (setSlipEv d n b).wld = d.wld := by
  simp only [setSlipEv]; split <;> [rfl; (split <;> simp)]
@[simp] theorem setSlipEv_keys (n b : Nat) : (setSlipEv d n b).keys = d.keys := by
  simp only [setSlipEv]; split <;> [rfl; (split <;> simp)]
@[simp] theorem cnt_setSlipEv (n b : Nat) (i : Nat) : cnt (setSlipEv d n b) i = cnt d i := by
  simp [cnt]

/-- A protected frame takes a PN of its port's SA, and nothing else changes (R82). -/
theorem takePn_eq {p : Nat} {d' : Dev} (h : takePn d p = some d') : d' = { d with ms := d'.ms } := by
  simp only [takePn] at h
  split at h
  · cases h
  · split at h <;> cases h
    rfl

@[simp] theorem sendAside_wall (p : Nat) (out : Bool → Out) : (sendAside d p out).wall = d.wall := by
  simp only [sendAside]
  split
  · rfl
  · split
    · split
      · rename_i h; rw [takePn_eq d h]; rfl
      · simp
    · simp
@[simp] theorem sendAside_timeOff (p : Nat) (out : Bool → Out) : (sendAside d p out).timeOff = d.timeOff := by
  simp only [sendAside]
  split
  · rfl
  · split
    · split
      · rename_i h; rw [takePn_eq d h]; rfl
      · simp
    · simp
@[simp] theorem sendAside_aonTime (p : Nat) (out : Bool → Out) : (sendAside d p out).aonTime = d.aonTime := by
  simp only [sendAside]
  split
  · rfl
  · split
    · split
      · rename_i h; rw [takePn_eq d h]; rfl
      · simp
    · simp
@[simp] theorem sendAside_aonAt (p : Nat) (out : Bool → Out) : (sendAside d p out).aonAt = d.aonAt := by
  simp only [sendAside]
  split
  · rfl
  · split
    · split
      · rename_i h; rw [takePn_eq d h]; rfl
      · simp
    · simp
@[simp] theorem sendAside_regs (p : Nat) (out : Bool → Out) : (sendAside d p out).regs = d.regs := by
  simp only [sendAside]
  split
  · rfl
  · split
    · split
      · rename_i h; rw [takePn_eq d h]; rfl
      · simp
    · simp
@[simp] theorem sendAside_free (p : Nat) (out : Bool → Out) : (sendAside d p out).free = d.free := by
  simp only [sendAside]
  split
  · rfl
  · split
    · split
      · rename_i h; rw [takePn_eq d h]; rfl
      · simp
    · simp
@[simp] theorem sendAside_qm (p : Nat) (out : Bool → Out) : (sendAside d p out).qm = d.qm := by
  simp only [sendAside]
  split
  · rfl
  · split
    · split
      · rename_i h; rw [takePn_eq d h]; rfl
      · simp
    · simp
@[simp] theorem sendAside_log (p : Nat) (out : Bool → Out) : (sendAside d p out).log = d.log := by
  simp only [sendAside]
  split
  · rfl
  · split
    · split
      · rename_i h; rw [takePn_eq d h]; rfl
      · simp
    · simp
@[simp] theorem sendAside_as_ (p : Nat) (out : Bool → Out) : (sendAside d p out).as_ = d.as_ := by
  simp only [sendAside]
  split
  · rfl
  · split
    · split
      · rename_i h; rw [takePn_eq d h]; rfl
      · simp
    · simp
@[simp] theorem sendAside_basin (p : Nat) (out : Bool → Out) : (sendAside d p out).basin = d.basin := by
  simp only [sendAside]
  split
  · rfl
  · split
    · split
      · rename_i h; rw [takePn_eq d h]; rfl
      · simp
    · simp
@[simp] theorem sendAside_ports (p : Nat) (out : Bool → Out) : (sendAside d p out).ports = d.ports := by
  simp only [sendAside]
  split
  · rfl
  · split
    · split
      · rename_i h; rw [takePn_eq d h]; rfl
      · simp
    · simp
@[simp] theorem sendAside_lb (p : Nat) (out : Bool → Out) : (sendAside d p out).lb = d.lb := by
  simp only [sendAside]
  split
  · rfl
  · split
    · split
      · rename_i h; rw [takePn_eq d h]; rfl
      · simp
    · simp
@[simp] theorem sendAside_cht (p : Nat) (out : Bool → Out) : (sendAside d p out).cht = d.cht := by
  simp only [sendAside]
  split
  · rfl
  · split
    · split
      · rename_i h; rw [takePn_eq d h]; rfl
      · simp
    · simp
@[simp] theorem sendAside_slips (p : Nat) (out : Bool → Out) : (sendAside d p out).slips = d.slips := by
  simp only [sendAside]
  split
  · rfl
  · split
    · split
      · rename_i h; rw [takePn_eq d h]; rfl
      · simp
    · simp
@[simp] theorem sendAside_brg (p : Nat) (out : Bool → Out) : (sendAside d p out).brg = d.brg := by
  simp only [sendAside]
  split
  · rfl
  · split
    · split
      · rename_i h; rw [takePn_eq d h]; rfl
      · simp
    · simp
@[simp] theorem sendAside_can (p : Nat) (out : Bool → Out) : (sendAside d p out).can = d.can := by
  simp only [sendAside]
  split
  · rfl
  · split
    · split
      · rename_i h; rw [takePn_eq d h]; rfl
      · simp
    · simp
@[simp] theorem sendAside_nws (p : Nat) (out : Bool → Out) : (sendAside d p out).nws = d.nws := by
  simp only [sendAside]
  split
  · rfl
  · split
    · split
      · rename_i h; rw [takePn_eq d h]; rfl
      · simp
    · simp
@[simp] theorem sendAside_ldc (p : Nat) (out : Bool → Out) : (sendAside d p out).ldc = d.ldc := by
  simp only [sendAside]
  split
  · rfl
  · split
    · split
      · rename_i h; rw [takePn_eq d h]; rfl
      · simp
    · simp
@[simp] theorem sendAside_bwk (p : Nat) (out : Bool → Out) : (sendAside d p out).bwk = d.bwk := by
  simp only [sendAside]
  split
  · rfl
  · split
    · split
      · rename_i h; rw [takePn_eq d h]; rfl
      · simp
    · simp
@[simp] theorem sendAside_rst (p : Nat) (out : Bool → Out) : (sendAside d p out).rst = d.rst := by
  simp only [sendAside]
  split
  · rfl
  · split
    · split
      · rename_i h; rw [takePn_eq d h]; rfl
      · simp
    · simp
@[simp] theorem sendAside_svc (p : Nat) (out : Bool → Out) : (sendAside d p out).svc = d.svc := by
  simp only [sendAside]
  split
  · rfl
  · split
    · split
      · rename_i h; rw [takePn_eq d h]; rfl
      · simp
    · simp
@[simp] theorem sendAside_fio (p : Nat) (out : Bool → Out) : (sendAside d p out).fio = d.fio := by
  simp only [sendAside]
  split
  · rfl
  · split
    · split
      · rename_i h; rw [takePn_eq d h]; rfl
      · simp
    · simp
@[simp] theorem sendAside_clt (p : Nat) (out : Bool → Out) : (sendAside d p out).clt = d.clt := by
  simp only [sendAside]
  split
  · rfl
  · split
    · split
      · rename_i h; rw [takePn_eq d h]; rfl
      · simp
    · simp
@[simp] theorem sendAside_wld (p : Nat) (out : Bool → Out) : (sendAside d p out).wld = d.wld := by
  simp only [sendAside]
  split
  · rfl
  · split
    · split
      · rename_i h; rw [takePn_eq d h]; rfl
      · simp
    · simp
@[simp] theorem sendAside_keys (p : Nat) (out : Bool → Out) : (sendAside d p out).keys = d.keys := by
  simp only [sendAside]
  split
  · rfl
  · split
    · split
      · rename_i h; rw [takePn_eq d h]; rfl
      · simp
    · simp
@[simp] theorem sendAside_pair (p : Nat) (out : Bool → Out) : (sendAside d p out).pair = d.pair := by
  simp only [sendAside]
  split
  · rfl
  · split
    · split
      · rename_i h; rw [takePn_eq d h]; rfl
      · simp
    · simp

@[simp] theorem mirrorSend_wall (what arg : Nat) (c : List Mirror) : (mirrorSend d what arg c).wall = d.wall := by
  simp only [mirrorSend]; split <;> simp
@[simp] theorem mirrorNote_wall (what arg : Nat) : (mirrorNote d what arg).wall = d.wall := mirrorSend_wall d what arg _
@[simp] theorem mirrorSend_timeOff (what arg : Nat) (c : List Mirror) : (mirrorSend d what arg c).timeOff = d.timeOff := by
  simp only [mirrorSend]; split <;> simp
@[simp] theorem mirrorNote_timeOff (what arg : Nat) : (mirrorNote d what arg).timeOff = d.timeOff := mirrorSend_timeOff d what arg _
@[simp] theorem mirrorSend_aonTime (what arg : Nat) (c : List Mirror) : (mirrorSend d what arg c).aonTime = d.aonTime := by
  simp only [mirrorSend]; split <;> simp
@[simp] theorem mirrorNote_aonTime (what arg : Nat) : (mirrorNote d what arg).aonTime = d.aonTime := mirrorSend_aonTime d what arg _
@[simp] theorem mirrorSend_aonAt (what arg : Nat) (c : List Mirror) : (mirrorSend d what arg c).aonAt = d.aonAt := by
  simp only [mirrorSend]; split <;> simp
@[simp] theorem mirrorNote_aonAt (what arg : Nat) : (mirrorNote d what arg).aonAt = d.aonAt := mirrorSend_aonAt d what arg _
@[simp] theorem mirrorSend_regs (what arg : Nat) (c : List Mirror) : (mirrorSend d what arg c).regs = d.regs := by
  simp only [mirrorSend]; split <;> simp
@[simp] theorem mirrorNote_regs (what arg : Nat) : (mirrorNote d what arg).regs = d.regs := mirrorSend_regs d what arg _
@[simp] theorem mirrorSend_free (what arg : Nat) (c : List Mirror) : (mirrorSend d what arg c).free = d.free := by
  simp only [mirrorSend]; split <;> simp
@[simp] theorem mirrorNote_free (what arg : Nat) : (mirrorNote d what arg).free = d.free := mirrorSend_free d what arg _
@[simp] theorem mirrorSend_qm (what arg : Nat) (c : List Mirror) : (mirrorSend d what arg c).qm = d.qm := by
  simp only [mirrorSend]; split <;> simp
@[simp] theorem mirrorNote_qm (what arg : Nat) : (mirrorNote d what arg).qm = d.qm := mirrorSend_qm d what arg _
@[simp] theorem mirrorSend_log (what arg : Nat) (c : List Mirror) : (mirrorSend d what arg c).log = d.log := by
  simp only [mirrorSend]; split <;> simp
@[simp] theorem mirrorNote_log (what arg : Nat) : (mirrorNote d what arg).log = d.log := mirrorSend_log d what arg _
@[simp] theorem mirrorSend_as_ (what arg : Nat) (c : List Mirror) : (mirrorSend d what arg c).as_ = d.as_ := by
  simp only [mirrorSend]; split <;> simp
@[simp] theorem mirrorNote_as_ (what arg : Nat) : (mirrorNote d what arg).as_ = d.as_ := mirrorSend_as_ d what arg _
@[simp] theorem mirrorSend_basin (what arg : Nat) (c : List Mirror) : (mirrorSend d what arg c).basin = d.basin := by
  simp only [mirrorSend]; split <;> simp
@[simp] theorem mirrorNote_basin (what arg : Nat) : (mirrorNote d what arg).basin = d.basin := mirrorSend_basin d what arg _
@[simp] theorem mirrorSend_ports (what arg : Nat) (c : List Mirror) : (mirrorSend d what arg c).ports = d.ports := by
  simp only [mirrorSend]; split <;> simp
@[simp] theorem mirrorNote_ports (what arg : Nat) : (mirrorNote d what arg).ports = d.ports := mirrorSend_ports d what arg _
@[simp] theorem mirrorSend_lb (what arg : Nat) (c : List Mirror) : (mirrorSend d what arg c).lb = d.lb := by
  simp only [mirrorSend]; split <;> simp
@[simp] theorem mirrorNote_lb (what arg : Nat) : (mirrorNote d what arg).lb = d.lb := mirrorSend_lb d what arg _
@[simp] theorem mirrorSend_cht (what arg : Nat) (c : List Mirror) : (mirrorSend d what arg c).cht = d.cht := by
  simp only [mirrorSend]; split <;> simp
@[simp] theorem mirrorNote_cht (what arg : Nat) : (mirrorNote d what arg).cht = d.cht := mirrorSend_cht d what arg _
@[simp] theorem mirrorSend_slips (what arg : Nat) (c : List Mirror) : (mirrorSend d what arg c).slips = d.slips := by
  simp only [mirrorSend]; split <;> simp
@[simp] theorem mirrorNote_slips (what arg : Nat) : (mirrorNote d what arg).slips = d.slips := mirrorSend_slips d what arg _
@[simp] theorem mirrorSend_brg (what arg : Nat) (c : List Mirror) : (mirrorSend d what arg c).brg = d.brg := by
  simp only [mirrorSend]; split <;> simp
@[simp] theorem mirrorNote_brg (what arg : Nat) : (mirrorNote d what arg).brg = d.brg := mirrorSend_brg d what arg _
@[simp] theorem mirrorSend_can (what arg : Nat) (c : List Mirror) : (mirrorSend d what arg c).can = d.can := by
  simp only [mirrorSend]; split <;> simp
@[simp] theorem mirrorNote_can (what arg : Nat) : (mirrorNote d what arg).can = d.can := mirrorSend_can d what arg _
@[simp] theorem mirrorSend_nws (what arg : Nat) (c : List Mirror) : (mirrorSend d what arg c).nws = d.nws := by
  simp only [mirrorSend]; split <;> simp
@[simp] theorem mirrorNote_nws (what arg : Nat) : (mirrorNote d what arg).nws = d.nws := mirrorSend_nws d what arg _
@[simp] theorem mirrorSend_ldc (what arg : Nat) (c : List Mirror) : (mirrorSend d what arg c).ldc = d.ldc := by
  simp only [mirrorSend]; split <;> simp
@[simp] theorem mirrorNote_ldc (what arg : Nat) : (mirrorNote d what arg).ldc = d.ldc := mirrorSend_ldc d what arg _
@[simp] theorem mirrorSend_bwk (what arg : Nat) (c : List Mirror) : (mirrorSend d what arg c).bwk = d.bwk := by
  simp only [mirrorSend]; split <;> simp
@[simp] theorem mirrorNote_bwk (what arg : Nat) : (mirrorNote d what arg).bwk = d.bwk := mirrorSend_bwk d what arg _
@[simp] theorem mirrorSend_rst (what arg : Nat) (c : List Mirror) : (mirrorSend d what arg c).rst = d.rst := by
  simp only [mirrorSend]; split <;> simp
@[simp] theorem mirrorNote_rst (what arg : Nat) : (mirrorNote d what arg).rst = d.rst := mirrorSend_rst d what arg _
@[simp] theorem mirrorSend_svc (what arg : Nat) (c : List Mirror) : (mirrorSend d what arg c).svc = d.svc := by
  simp only [mirrorSend]; split <;> simp
@[simp] theorem mirrorNote_svc (what arg : Nat) : (mirrorNote d what arg).svc = d.svc := mirrorSend_svc d what arg _
@[simp] theorem mirrorSend_fio (what arg : Nat) (c : List Mirror) : (mirrorSend d what arg c).fio = d.fio := by
  simp only [mirrorSend]; split <;> simp
@[simp] theorem mirrorNote_fio (what arg : Nat) : (mirrorNote d what arg).fio = d.fio := mirrorSend_fio d what arg _
@[simp] theorem mirrorSend_clt (what arg : Nat) (c : List Mirror) : (mirrorSend d what arg c).clt = d.clt := by
  simp only [mirrorSend]; split <;> simp
@[simp] theorem mirrorNote_clt (what arg : Nat) : (mirrorNote d what arg).clt = d.clt := mirrorSend_clt d what arg _
@[simp] theorem mirrorSend_wld (what arg : Nat) (c : List Mirror) : (mirrorSend d what arg c).wld = d.wld := by
  simp only [mirrorSend]; split <;> simp
@[simp] theorem mirrorNote_wld (what arg : Nat) : (mirrorNote d what arg).wld = d.wld := mirrorSend_wld d what arg _
@[simp] theorem mirrorSend_keys (what arg : Nat) (c : List Mirror) : (mirrorSend d what arg c).keys = d.keys := by
  simp only [mirrorSend]; split <;> simp
@[simp] theorem mirrorNote_keys (what arg : Nat) : (mirrorNote d what arg).keys = d.keys := mirrorSend_keys d what arg _
@[simp] theorem rd_mirrorNote (what arg : Nat) (i : Nat) : rd (mirrorNote d what arg) i = rd d i := by
  simp [rd]

/-- An event sets its bit and leaves every other register alone. -/
theorem rd_setEv (src ev en b inst : Nat) (detail : Word) (a : Nat) :
    rd (setEv d src ev en b inst detail) a = if a = ev ∧ bit (rd d ev) b = false then rd d ev ||| flag true b else rd d a := by
  simp only [setEv]
  split
  · rename_i h; simp [h]
  · rename_i h
    have h' : bit (rd d ev) b = false := by simpa using h
    split <;> simp [h']

theorem bit_flag_self {b : Nat} (h : b < 32) : bit (flag true b) b = true := by
  simp only [bit, flag, w32, if_true, BitVec.getLsbD_ofNat, Nat.testBit_shiftLeft]
  simp [h]

theorem bit_or (x y : Word) (b : Nat) : bit (x ||| y) b = (bit x b || bit y b) := by simp [bit]

/-- After an event its bit is 1. -/
theorem setEv_bit (src ev en b inst : Nat) (detail : Word) (h : b < 32) :
    bit (rd (setEv d src ev en b inst detail) ev) b = true := by
  rw [rd_setEv]
  by_cases hb : bit (rd d ev) b = true
  · rw [if_neg (by simp [hb])]; exact hb
  · rw [if_pos ⟨rfl, by simpa using hb⟩, bit_or, bit_flag_self h, Bool.or_true]

/-- No event clears a bit of any register. -/
theorem setEv_keeps (src ev en b inst : Nat) (detail : Word) (a i : Nat) (h : bit (rd d a) i = true) :
    bit (rd (setEv d src ev en b inst detail) a) i = true := by
  rw [rd_setEv]
  split
  · rename_i hc; rw [bit_or, ← hc.1, h, Bool.true_or]
  · exact h

@[simp] theorem evDev_wall (b : Nat) : (evDev d b).wall = d.wall := by
  simp [evDev]
@[simp] theorem evDev_timeOff (b : Nat) : (evDev d b).timeOff = d.timeOff := by
  simp [evDev]
@[simp] theorem evDev_aonTime (b : Nat) : (evDev d b).aonTime = d.aonTime := by
  simp [evDev]
@[simp] theorem evDev_aonAt (b : Nat) : (evDev d b).aonAt = d.aonAt := by
  simp [evDev]
@[simp] theorem evDev_cnts (b : Nat) : (evDev d b).cnts = d.cnts := by
  simp [evDev]
@[simp] theorem evDev_free (b : Nat) : (evDev d b).free = d.free := by
  simp [evDev]
@[simp] theorem evDev_qm (b : Nat) : (evDev d b).qm = d.qm := by
  simp [evDev]
@[simp] theorem evDev_as_ (b : Nat) : (evDev d b).as_ = d.as_ := by
  simp [evDev]
@[simp] theorem evDev_basin (b : Nat) : (evDev d b).basin = d.basin := by
  simp [evDev]
@[simp] theorem evDev_ports (b : Nat) : (evDev d b).ports = d.ports := by
  simp [evDev]
@[simp] theorem evDev_ms (b : Nat) : (evDev d b).ms = d.ms := by
  simp [evDev]
@[simp] theorem evDev_lb (b : Nat) : (evDev d b).lb = d.lb := by
  simp [evDev]
@[simp] theorem evDev_cht (b : Nat) : (evDev d b).cht = d.cht := by
  simp [evDev]
@[simp] theorem evDev_brg (b : Nat) : (evDev d b).brg = d.brg := by
  simp [evDev]
@[simp] theorem evDev_can (b : Nat) : (evDev d b).can = d.can := by
  simp [evDev]
@[simp] theorem evDev_nws (b : Nat) : (evDev d b).nws = d.nws := by
  simp [evDev]
@[simp] theorem evDev_ldc (b : Nat) : (evDev d b).ldc = d.ldc := by
  simp [evDev]
@[simp] theorem evDev_bwk (b : Nat) : (evDev d b).bwk = d.bwk := by
  simp [evDev]
@[simp] theorem evDev_rst (b : Nat) : (evDev d b).rst = d.rst := by
  simp [evDev]
@[simp] theorem evDev_pair (b : Nat) : (evDev d b).pair = d.pair := by
  simp [evDev]
@[simp] theorem evDev_svc (b : Nat) : (evDev d b).svc = d.svc := by
  simp [evDev]
@[simp] theorem evDev_fio (b : Nat) : (evDev d b).fio = d.fio := by
  simp [evDev]
@[simp] theorem evDev_clt (b : Nat) : (evDev d b).clt = d.clt := by
  simp [evDev]
@[simp] theorem evDev_wld (b : Nat) : (evDev d b).wld = d.wld := by
  simp [evDev]
@[simp] theorem evDev_keys (b : Nat) : (evDev d b).keys = d.keys := by
  simp [evDev]
@[simp] theorem cnt_evDev (b : Nat) (i : Nat) : cnt (evDev d b) i = cnt d i := by
  simp [cnt]

@[simp] theorem evRst_wall (b : Nat) : (evRst d b).wall = d.wall := by
  simp [evRst]
@[simp] theorem evRst_timeOff (b : Nat) : (evRst d b).timeOff = d.timeOff := by
  simp [evRst]
@[simp] theorem evRst_aonTime (b : Nat) : (evRst d b).aonTime = d.aonTime := by
  simp [evRst]
@[simp] theorem evRst_aonAt (b : Nat) : (evRst d b).aonAt = d.aonAt := by
  simp [evRst]
@[simp] theorem evRst_cnts (b : Nat) : (evRst d b).cnts = d.cnts := by
  simp [evRst]
@[simp] theorem evRst_free (b : Nat) : (evRst d b).free = d.free := by
  simp [evRst]
@[simp] theorem evRst_qm (b : Nat) : (evRst d b).qm = d.qm := by
  simp [evRst]
@[simp] theorem evRst_as_ (b : Nat) : (evRst d b).as_ = d.as_ := by
  simp [evRst]
@[simp] theorem evRst_basin (b : Nat) : (evRst d b).basin = d.basin := by
  simp [evRst]
@[simp] theorem evRst_ports (b : Nat) : (evRst d b).ports = d.ports := by
  simp [evRst]
@[simp] theorem evRst_ms (b : Nat) : (evRst d b).ms = d.ms := by
  simp [evRst]
@[simp] theorem evRst_lb (b : Nat) : (evRst d b).lb = d.lb := by
  simp [evRst]
@[simp] theorem evRst_cht (b : Nat) : (evRst d b).cht = d.cht := by
  simp [evRst]
@[simp] theorem evRst_brg (b : Nat) : (evRst d b).brg = d.brg := by
  simp [evRst]
@[simp] theorem evRst_can (b : Nat) : (evRst d b).can = d.can := by
  simp [evRst]
@[simp] theorem evRst_nws (b : Nat) : (evRst d b).nws = d.nws := by
  simp [evRst]
@[simp] theorem evRst_ldc (b : Nat) : (evRst d b).ldc = d.ldc := by
  simp [evRst]
@[simp] theorem evRst_bwk (b : Nat) : (evRst d b).bwk = d.bwk := by
  simp [evRst]
@[simp] theorem evRst_rst (b : Nat) : (evRst d b).rst = d.rst := by
  simp [evRst]
@[simp] theorem evRst_pair (b : Nat) : (evRst d b).pair = d.pair := by
  simp [evRst]
@[simp] theorem evRst_svc (b : Nat) : (evRst d b).svc = d.svc := by
  simp [evRst]
@[simp] theorem evRst_fio (b : Nat) : (evRst d b).fio = d.fio := by
  simp [evRst]
@[simp] theorem evRst_clt (b : Nat) : (evRst d b).clt = d.clt := by
  simp [evRst]
@[simp] theorem evRst_wld (b : Nat) : (evRst d b).wld = d.wld := by
  simp [evRst]
@[simp] theorem evRst_keys (b : Nat) : (evRst d b).keys = d.keys := by
  simp [evRst]
@[simp] theorem cnt_evRst (b : Nat) (i : Nat) : cnt (evRst d b) i = cnt d i := by
  simp [cnt]

@[simp] theorem evSw_wall (b inst : Nat) : (evSw d b inst).wall = d.wall := by
  simp [evSw]
@[simp] theorem evSw_timeOff (b inst : Nat) : (evSw d b inst).timeOff = d.timeOff := by
  simp [evSw]
@[simp] theorem evSw_aonTime (b inst : Nat) : (evSw d b inst).aonTime = d.aonTime := by
  simp [evSw]
@[simp] theorem evSw_aonAt (b inst : Nat) : (evSw d b inst).aonAt = d.aonAt := by
  simp [evSw]
@[simp] theorem evSw_cnts (b inst : Nat) : (evSw d b inst).cnts = d.cnts := by
  simp [evSw]
@[simp] theorem evSw_free (b inst : Nat) : (evSw d b inst).free = d.free := by
  simp [evSw]
@[simp] theorem evSw_qm (b inst : Nat) : (evSw d b inst).qm = d.qm := by
  simp [evSw]
@[simp] theorem evSw_as_ (b inst : Nat) : (evSw d b inst).as_ = d.as_ := by
  simp [evSw]
@[simp] theorem evSw_basin (b inst : Nat) : (evSw d b inst).basin = d.basin := by
  simp [evSw]
@[simp] theorem evSw_ports (b inst : Nat) : (evSw d b inst).ports = d.ports := by
  simp [evSw]
@[simp] theorem evSw_ms (b inst : Nat) : (evSw d b inst).ms = d.ms := by
  simp [evSw]
@[simp] theorem evSw_lb (b inst : Nat) : (evSw d b inst).lb = d.lb := by
  simp [evSw]
@[simp] theorem evSw_cht (b inst : Nat) : (evSw d b inst).cht = d.cht := by
  simp [evSw]
@[simp] theorem evSw_brg (b inst : Nat) : (evSw d b inst).brg = d.brg := by
  simp [evSw]
@[simp] theorem evSw_can (b inst : Nat) : (evSw d b inst).can = d.can := by
  simp [evSw]
@[simp] theorem evSw_nws (b inst : Nat) : (evSw d b inst).nws = d.nws := by
  simp [evSw]
@[simp] theorem evSw_ldc (b inst : Nat) : (evSw d b inst).ldc = d.ldc := by
  simp [evSw]
@[simp] theorem evSw_bwk (b inst : Nat) : (evSw d b inst).bwk = d.bwk := by
  simp [evSw]
@[simp] theorem evSw_rst (b inst : Nat) : (evSw d b inst).rst = d.rst := by
  simp [evSw]
@[simp] theorem evSw_pair (b inst : Nat) : (evSw d b inst).pair = d.pair := by
  simp [evSw]
@[simp] theorem evSw_svc (b inst : Nat) : (evSw d b inst).svc = d.svc := by
  simp [evSw]
@[simp] theorem evSw_fio (b inst : Nat) : (evSw d b inst).fio = d.fio := by
  simp [evSw]
@[simp] theorem evSw_clt (b inst : Nat) : (evSw d b inst).clt = d.clt := by
  simp [evSw]
@[simp] theorem evSw_wld (b inst : Nat) : (evSw d b inst).wld = d.wld := by
  simp [evSw]
@[simp] theorem evSw_keys (b inst : Nat) : (evSw d b inst).keys = d.keys := by
  simp [evSw]
@[simp] theorem cnt_evSw (b inst : Nat) (i : Nat) : cnt (evSw d b inst) i = cnt d i := by
  simp [cnt]

@[simp] theorem evCht_wall (b inst : Nat) : (evCht d b inst).wall = d.wall := by
  simp [evCht]
@[simp] theorem evCht_timeOff (b inst : Nat) : (evCht d b inst).timeOff = d.timeOff := by
  simp [evCht]
@[simp] theorem evCht_aonTime (b inst : Nat) : (evCht d b inst).aonTime = d.aonTime := by
  simp [evCht]
@[simp] theorem evCht_aonAt (b inst : Nat) : (evCht d b inst).aonAt = d.aonAt := by
  simp [evCht]
@[simp] theorem evCht_cnts (b inst : Nat) : (evCht d b inst).cnts = d.cnts := by
  simp [evCht]
@[simp] theorem evCht_free (b inst : Nat) : (evCht d b inst).free = d.free := by
  simp [evCht]
@[simp] theorem evCht_qm (b inst : Nat) : (evCht d b inst).qm = d.qm := by
  simp [evCht]
@[simp] theorem evCht_as_ (b inst : Nat) : (evCht d b inst).as_ = d.as_ := by
  simp [evCht]
@[simp] theorem evCht_basin (b inst : Nat) : (evCht d b inst).basin = d.basin := by
  simp [evCht]
@[simp] theorem evCht_ports (b inst : Nat) : (evCht d b inst).ports = d.ports := by
  simp [evCht]
@[simp] theorem evCht_ms (b inst : Nat) : (evCht d b inst).ms = d.ms := by
  simp [evCht]
@[simp] theorem evCht_lb (b inst : Nat) : (evCht d b inst).lb = d.lb := by
  simp [evCht]
@[simp] theorem evCht_cht (b inst : Nat) : (evCht d b inst).cht = d.cht := by
  simp [evCht]
@[simp] theorem evCht_brg (b inst : Nat) : (evCht d b inst).brg = d.brg := by
  simp [evCht]
@[simp] theorem evCht_can (b inst : Nat) : (evCht d b inst).can = d.can := by
  simp [evCht]
@[simp] theorem evCht_nws (b inst : Nat) : (evCht d b inst).nws = d.nws := by
  simp [evCht]
@[simp] theorem evCht_ldc (b inst : Nat) : (evCht d b inst).ldc = d.ldc := by
  simp [evCht]
@[simp] theorem evCht_bwk (b inst : Nat) : (evCht d b inst).bwk = d.bwk := by
  simp [evCht]
@[simp] theorem evCht_rst (b inst : Nat) : (evCht d b inst).rst = d.rst := by
  simp [evCht]
@[simp] theorem evCht_pair (b inst : Nat) : (evCht d b inst).pair = d.pair := by
  simp [evCht]
@[simp] theorem evCht_svc (b inst : Nat) : (evCht d b inst).svc = d.svc := by
  simp [evCht]
@[simp] theorem evCht_fio (b inst : Nat) : (evCht d b inst).fio = d.fio := by
  simp [evCht]
@[simp] theorem evCht_clt (b inst : Nat) : (evCht d b inst).clt = d.clt := by
  simp [evCht]
@[simp] theorem evCht_wld (b inst : Nat) : (evCht d b inst).wld = d.wld := by
  simp [evCht]
@[simp] theorem evCht_keys (b inst : Nat) : (evCht d b inst).keys = d.keys := by
  simp [evCht]
@[simp] theorem cnt_evCht (b inst : Nat) (i : Nat) : cnt (evCht d b inst) i = cnt d i := by
  simp [cnt]

@[simp] theorem evSlp_wall (b inst : Nat) : (evSlp d b inst).wall = d.wall := by
  simp [evSlp]
@[simp] theorem evSlp_timeOff (b inst : Nat) : (evSlp d b inst).timeOff = d.timeOff := by
  simp [evSlp]
@[simp] theorem evSlp_aonTime (b inst : Nat) : (evSlp d b inst).aonTime = d.aonTime := by
  simp [evSlp]
@[simp] theorem evSlp_aonAt (b inst : Nat) : (evSlp d b inst).aonAt = d.aonAt := by
  simp [evSlp]
@[simp] theorem evSlp_cnts (b inst : Nat) : (evSlp d b inst).cnts = d.cnts := by
  simp [evSlp]
@[simp] theorem evSlp_free (b inst : Nat) : (evSlp d b inst).free = d.free := by
  simp [evSlp]
@[simp] theorem evSlp_qm (b inst : Nat) : (evSlp d b inst).qm = d.qm := by
  simp [evSlp]
@[simp] theorem evSlp_as_ (b inst : Nat) : (evSlp d b inst).as_ = d.as_ := by
  simp [evSlp]
@[simp] theorem evSlp_basin (b inst : Nat) : (evSlp d b inst).basin = d.basin := by
  simp [evSlp]
@[simp] theorem evSlp_ports (b inst : Nat) : (evSlp d b inst).ports = d.ports := by
  simp [evSlp]
@[simp] theorem evSlp_ms (b inst : Nat) : (evSlp d b inst).ms = d.ms := by
  simp [evSlp]
@[simp] theorem evSlp_lb (b inst : Nat) : (evSlp d b inst).lb = d.lb := by
  simp [evSlp]
@[simp] theorem evSlp_cht (b inst : Nat) : (evSlp d b inst).cht = d.cht := by
  simp [evSlp]
@[simp] theorem evSlp_brg (b inst : Nat) : (evSlp d b inst).brg = d.brg := by
  simp [evSlp]
@[simp] theorem evSlp_can (b inst : Nat) : (evSlp d b inst).can = d.can := by
  simp [evSlp]
@[simp] theorem evSlp_nws (b inst : Nat) : (evSlp d b inst).nws = d.nws := by
  simp [evSlp]
@[simp] theorem evSlp_ldc (b inst : Nat) : (evSlp d b inst).ldc = d.ldc := by
  simp [evSlp]
@[simp] theorem evSlp_bwk (b inst : Nat) : (evSlp d b inst).bwk = d.bwk := by
  simp [evSlp]
@[simp] theorem evSlp_rst (b inst : Nat) : (evSlp d b inst).rst = d.rst := by
  simp [evSlp]
@[simp] theorem evSlp_pair (b inst : Nat) : (evSlp d b inst).pair = d.pair := by
  simp [evSlp]
@[simp] theorem evSlp_svc (b inst : Nat) : (evSlp d b inst).svc = d.svc := by
  simp [evSlp]
@[simp] theorem evSlp_fio (b inst : Nat) : (evSlp d b inst).fio = d.fio := by
  simp [evSlp]
@[simp] theorem evSlp_clt (b inst : Nat) : (evSlp d b inst).clt = d.clt := by
  simp [evSlp]
@[simp] theorem evSlp_wld (b inst : Nat) : (evSlp d b inst).wld = d.wld := by
  simp [evSlp]
@[simp] theorem evSlp_keys (b inst : Nat) : (evSlp d b inst).keys = d.keys := by
  simp [evSlp]
@[simp] theorem cnt_evSlp (b inst : Nat) (i : Nat) : cnt (evSlp d b inst) i = cnt d i := by
  simp [cnt]

@[simp] theorem evBrg_wall (b inst : Nat) : (evBrg d b inst).wall = d.wall := by
  simp [evBrg]
@[simp] theorem evBrg_timeOff (b inst : Nat) : (evBrg d b inst).timeOff = d.timeOff := by
  simp [evBrg]
@[simp] theorem evBrg_aonTime (b inst : Nat) : (evBrg d b inst).aonTime = d.aonTime := by
  simp [evBrg]
@[simp] theorem evBrg_aonAt (b inst : Nat) : (evBrg d b inst).aonAt = d.aonAt := by
  simp [evBrg]
@[simp] theorem evBrg_cnts (b inst : Nat) : (evBrg d b inst).cnts = d.cnts := by
  simp [evBrg]
@[simp] theorem evBrg_free (b inst : Nat) : (evBrg d b inst).free = d.free := by
  simp [evBrg]
@[simp] theorem evBrg_qm (b inst : Nat) : (evBrg d b inst).qm = d.qm := by
  simp [evBrg]
@[simp] theorem evBrg_as_ (b inst : Nat) : (evBrg d b inst).as_ = d.as_ := by
  simp [evBrg]
@[simp] theorem evBrg_basin (b inst : Nat) : (evBrg d b inst).basin = d.basin := by
  simp [evBrg]
@[simp] theorem evBrg_ports (b inst : Nat) : (evBrg d b inst).ports = d.ports := by
  simp [evBrg]
@[simp] theorem evBrg_ms (b inst : Nat) : (evBrg d b inst).ms = d.ms := by
  simp [evBrg]
@[simp] theorem evBrg_lb (b inst : Nat) : (evBrg d b inst).lb = d.lb := by
  simp [evBrg]
@[simp] theorem evBrg_cht (b inst : Nat) : (evBrg d b inst).cht = d.cht := by
  simp [evBrg]
@[simp] theorem evBrg_brg (b inst : Nat) : (evBrg d b inst).brg = d.brg := by
  simp [evBrg]
@[simp] theorem evBrg_can (b inst : Nat) : (evBrg d b inst).can = d.can := by
  simp [evBrg]
@[simp] theorem evBrg_nws (b inst : Nat) : (evBrg d b inst).nws = d.nws := by
  simp [evBrg]
@[simp] theorem evBrg_ldc (b inst : Nat) : (evBrg d b inst).ldc = d.ldc := by
  simp [evBrg]
@[simp] theorem evBrg_bwk (b inst : Nat) : (evBrg d b inst).bwk = d.bwk := by
  simp [evBrg]
@[simp] theorem evBrg_rst (b inst : Nat) : (evBrg d b inst).rst = d.rst := by
  simp [evBrg]
@[simp] theorem evBrg_pair (b inst : Nat) : (evBrg d b inst).pair = d.pair := by
  simp [evBrg]
@[simp] theorem evBrg_svc (b inst : Nat) : (evBrg d b inst).svc = d.svc := by
  simp [evBrg]
@[simp] theorem evBrg_fio (b inst : Nat) : (evBrg d b inst).fio = d.fio := by
  simp [evBrg]
@[simp] theorem evBrg_clt (b inst : Nat) : (evBrg d b inst).clt = d.clt := by
  simp [evBrg]
@[simp] theorem evBrg_wld (b inst : Nat) : (evBrg d b inst).wld = d.wld := by
  simp [evBrg]
@[simp] theorem evBrg_keys (b inst : Nat) : (evBrg d b inst).keys = d.keys := by
  simp [evBrg]
@[simp] theorem cnt_evBrg (b inst : Nat) (i : Nat) : cnt (evBrg d b inst) i = cnt d i := by
  simp [cnt]

@[simp] theorem evCan_wall (n b : Nat) : (evCan d n b).wall = d.wall := by
  simp [evCan]
@[simp] theorem evCan_timeOff (n b : Nat) : (evCan d n b).timeOff = d.timeOff := by
  simp [evCan]
@[simp] theorem evCan_aonTime (n b : Nat) : (evCan d n b).aonTime = d.aonTime := by
  simp [evCan]
@[simp] theorem evCan_aonAt (n b : Nat) : (evCan d n b).aonAt = d.aonAt := by
  simp [evCan]
@[simp] theorem evCan_cnts (n b : Nat) : (evCan d n b).cnts = d.cnts := by
  simp [evCan]
@[simp] theorem evCan_free (n b : Nat) : (evCan d n b).free = d.free := by
  simp [evCan]
@[simp] theorem evCan_qm (n b : Nat) : (evCan d n b).qm = d.qm := by
  simp [evCan]
@[simp] theorem evCan_as_ (n b : Nat) : (evCan d n b).as_ = d.as_ := by
  simp [evCan]
@[simp] theorem evCan_basin (n b : Nat) : (evCan d n b).basin = d.basin := by
  simp [evCan]
@[simp] theorem evCan_ports (n b : Nat) : (evCan d n b).ports = d.ports := by
  simp [evCan]
@[simp] theorem evCan_ms (n b : Nat) : (evCan d n b).ms = d.ms := by
  simp [evCan]
@[simp] theorem evCan_lb (n b : Nat) : (evCan d n b).lb = d.lb := by
  simp [evCan]
@[simp] theorem evCan_cht (n b : Nat) : (evCan d n b).cht = d.cht := by
  simp [evCan]
@[simp] theorem evCan_brg (n b : Nat) : (evCan d n b).brg = d.brg := by
  simp [evCan]
@[simp] theorem evCan_can (n b : Nat) : (evCan d n b).can = d.can := by
  simp [evCan]
@[simp] theorem evCan_nws (n b : Nat) : (evCan d n b).nws = d.nws := by
  simp [evCan]
@[simp] theorem evCan_ldc (n b : Nat) : (evCan d n b).ldc = d.ldc := by
  simp [evCan]
@[simp] theorem evCan_bwk (n b : Nat) : (evCan d n b).bwk = d.bwk := by
  simp [evCan]
@[simp] theorem evCan_rst (n b : Nat) : (evCan d n b).rst = d.rst := by
  simp [evCan]
@[simp] theorem evCan_pair (n b : Nat) : (evCan d n b).pair = d.pair := by
  simp [evCan]
@[simp] theorem evCan_svc (n b : Nat) : (evCan d n b).svc = d.svc := by
  simp [evCan]
@[simp] theorem evCan_fio (n b : Nat) : (evCan d n b).fio = d.fio := by
  simp [evCan]
@[simp] theorem evCan_clt (n b : Nat) : (evCan d n b).clt = d.clt := by
  simp [evCan]
@[simp] theorem evCan_wld (n b : Nat) : (evCan d n b).wld = d.wld := by
  simp [evCan]
@[simp] theorem evCan_keys (n b : Nat) : (evCan d n b).keys = d.keys := by
  simp [evCan]
@[simp] theorem cnt_evCan (n b : Nat) (i : Nat) : cnt (evCan d n b) i = cnt d i := by
  simp [cnt]

@[simp] theorem evNws_wall (n b : Nat) : (evNws d n b).wall = d.wall := by
  simp [evNws]
@[simp] theorem evNws_timeOff (n b : Nat) : (evNws d n b).timeOff = d.timeOff := by
  simp [evNws]
@[simp] theorem evNws_aonTime (n b : Nat) : (evNws d n b).aonTime = d.aonTime := by
  simp [evNws]
@[simp] theorem evNws_aonAt (n b : Nat) : (evNws d n b).aonAt = d.aonAt := by
  simp [evNws]
@[simp] theorem evNws_cnts (n b : Nat) : (evNws d n b).cnts = d.cnts := by
  simp [evNws]
@[simp] theorem evNws_free (n b : Nat) : (evNws d n b).free = d.free := by
  simp [evNws]
@[simp] theorem evNws_qm (n b : Nat) : (evNws d n b).qm = d.qm := by
  simp [evNws]
@[simp] theorem evNws_as_ (n b : Nat) : (evNws d n b).as_ = d.as_ := by
  simp [evNws]
@[simp] theorem evNws_basin (n b : Nat) : (evNws d n b).basin = d.basin := by
  simp [evNws]
@[simp] theorem evNws_ports (n b : Nat) : (evNws d n b).ports = d.ports := by
  simp [evNws]
@[simp] theorem evNws_ms (n b : Nat) : (evNws d n b).ms = d.ms := by
  simp [evNws]
@[simp] theorem evNws_lb (n b : Nat) : (evNws d n b).lb = d.lb := by
  simp [evNws]
@[simp] theorem evNws_cht (n b : Nat) : (evNws d n b).cht = d.cht := by
  simp [evNws]
@[simp] theorem evNws_brg (n b : Nat) : (evNws d n b).brg = d.brg := by
  simp [evNws]
@[simp] theorem evNws_can (n b : Nat) : (evNws d n b).can = d.can := by
  simp [evNws]
@[simp] theorem evNws_nws (n b : Nat) : (evNws d n b).nws = d.nws := by
  simp [evNws]
@[simp] theorem evNws_ldc (n b : Nat) : (evNws d n b).ldc = d.ldc := by
  simp [evNws]
@[simp] theorem evNws_bwk (n b : Nat) : (evNws d n b).bwk = d.bwk := by
  simp [evNws]
@[simp] theorem evNws_rst (n b : Nat) : (evNws d n b).rst = d.rst := by
  simp [evNws]
@[simp] theorem evNws_pair (n b : Nat) : (evNws d n b).pair = d.pair := by
  simp [evNws]
@[simp] theorem evNws_svc (n b : Nat) : (evNws d n b).svc = d.svc := by
  simp [evNws]
@[simp] theorem evNws_fio (n b : Nat) : (evNws d n b).fio = d.fio := by
  simp [evNws]
@[simp] theorem evNws_clt (n b : Nat) : (evNws d n b).clt = d.clt := by
  simp [evNws]
@[simp] theorem evNws_wld (n b : Nat) : (evNws d n b).wld = d.wld := by
  simp [evNws]
@[simp] theorem evNws_keys (n b : Nat) : (evNws d n b).keys = d.keys := by
  simp [evNws]
@[simp] theorem cnt_evNws (n b : Nat) (i : Nat) : cnt (evNws d n b) i = cnt d i := by
  simp [cnt]

@[simp] theorem evLldp_wall (b p : Nat) : (evLldp d b p).wall = d.wall := by
  simp [evLldp]
@[simp] theorem evLldp_timeOff (b p : Nat) : (evLldp d b p).timeOff = d.timeOff := by
  simp [evLldp]
@[simp] theorem evLldp_aonTime (b p : Nat) : (evLldp d b p).aonTime = d.aonTime := by
  simp [evLldp]
@[simp] theorem evLldp_aonAt (b p : Nat) : (evLldp d b p).aonAt = d.aonAt := by
  simp [evLldp]
@[simp] theorem evLldp_cnts (b p : Nat) : (evLldp d b p).cnts = d.cnts := by
  simp [evLldp]
@[simp] theorem evLldp_free (b p : Nat) : (evLldp d b p).free = d.free := by
  simp [evLldp]
@[simp] theorem evLldp_qm (b p : Nat) : (evLldp d b p).qm = d.qm := by
  simp [evLldp]
@[simp] theorem evLldp_as_ (b p : Nat) : (evLldp d b p).as_ = d.as_ := by
  simp [evLldp]
@[simp] theorem evLldp_basin (b p : Nat) : (evLldp d b p).basin = d.basin := by
  simp [evLldp]
@[simp] theorem evLldp_ports (b p : Nat) : (evLldp d b p).ports = d.ports := by
  simp [evLldp]
@[simp] theorem evLldp_ms (b p : Nat) : (evLldp d b p).ms = d.ms := by
  simp [evLldp]
@[simp] theorem evLldp_lb (b p : Nat) : (evLldp d b p).lb = d.lb := by
  simp [evLldp]
@[simp] theorem evLldp_cht (b p : Nat) : (evLldp d b p).cht = d.cht := by
  simp [evLldp]
@[simp] theorem evLldp_brg (b p : Nat) : (evLldp d b p).brg = d.brg := by
  simp [evLldp]
@[simp] theorem evLldp_can (b p : Nat) : (evLldp d b p).can = d.can := by
  simp [evLldp]
@[simp] theorem evLldp_nws (b p : Nat) : (evLldp d b p).nws = d.nws := by
  simp [evLldp]
@[simp] theorem evLldp_ldc (b p : Nat) : (evLldp d b p).ldc = d.ldc := by
  simp [evLldp]
@[simp] theorem evLldp_bwk (b p : Nat) : (evLldp d b p).bwk = d.bwk := by
  simp [evLldp]
@[simp] theorem evLldp_rst (b p : Nat) : (evLldp d b p).rst = d.rst := by
  simp [evLldp]
@[simp] theorem evLldp_pair (b p : Nat) : (evLldp d b p).pair = d.pair := by
  simp [evLldp]
@[simp] theorem evLldp_svc (b p : Nat) : (evLldp d b p).svc = d.svc := by
  simp [evLldp]
@[simp] theorem evLldp_fio (b p : Nat) : (evLldp d b p).fio = d.fio := by
  simp [evLldp]
@[simp] theorem evLldp_clt (b p : Nat) : (evLldp d b p).clt = d.clt := by
  simp [evLldp]
@[simp] theorem evLldp_wld (b p : Nat) : (evLldp d b p).wld = d.wld := by
  simp [evLldp]
@[simp] theorem evLldp_keys (b p : Nat) : (evLldp d b p).keys = d.keys := by
  simp [evLldp]
@[simp] theorem cnt_evLldp (b p : Nat) (i : Nat) : cnt (evLldp d b p) i = cnt d i := by
  simp [cnt]

@[simp] theorem evLdc_wall (b inst : Nat) : (evLdc d b inst).wall = d.wall := by
  simp [evLdc]
@[simp] theorem evLdc_timeOff (b inst : Nat) : (evLdc d b inst).timeOff = d.timeOff := by
  simp [evLdc]
@[simp] theorem evLdc_aonTime (b inst : Nat) : (evLdc d b inst).aonTime = d.aonTime := by
  simp [evLdc]
@[simp] theorem evLdc_aonAt (b inst : Nat) : (evLdc d b inst).aonAt = d.aonAt := by
  simp [evLdc]
@[simp] theorem evLdc_cnts (b inst : Nat) : (evLdc d b inst).cnts = d.cnts := by
  simp [evLdc]
@[simp] theorem evLdc_free (b inst : Nat) : (evLdc d b inst).free = d.free := by
  simp [evLdc]
@[simp] theorem evLdc_qm (b inst : Nat) : (evLdc d b inst).qm = d.qm := by
  simp [evLdc]
@[simp] theorem evLdc_as_ (b inst : Nat) : (evLdc d b inst).as_ = d.as_ := by
  simp [evLdc]
@[simp] theorem evLdc_basin (b inst : Nat) : (evLdc d b inst).basin = d.basin := by
  simp [evLdc]
@[simp] theorem evLdc_ports (b inst : Nat) : (evLdc d b inst).ports = d.ports := by
  simp [evLdc]
@[simp] theorem evLdc_ms (b inst : Nat) : (evLdc d b inst).ms = d.ms := by
  simp [evLdc]
@[simp] theorem evLdc_lb (b inst : Nat) : (evLdc d b inst).lb = d.lb := by
  simp [evLdc]
@[simp] theorem evLdc_cht (b inst : Nat) : (evLdc d b inst).cht = d.cht := by
  simp [evLdc]
@[simp] theorem evLdc_brg (b inst : Nat) : (evLdc d b inst).brg = d.brg := by
  simp [evLdc]
@[simp] theorem evLdc_can (b inst : Nat) : (evLdc d b inst).can = d.can := by
  simp [evLdc]
@[simp] theorem evLdc_nws (b inst : Nat) : (evLdc d b inst).nws = d.nws := by
  simp [evLdc]
@[simp] theorem evLdc_ldc (b inst : Nat) : (evLdc d b inst).ldc = d.ldc := by
  simp [evLdc]
@[simp] theorem evLdc_bwk (b inst : Nat) : (evLdc d b inst).bwk = d.bwk := by
  simp [evLdc]
@[simp] theorem evLdc_rst (b inst : Nat) : (evLdc d b inst).rst = d.rst := by
  simp [evLdc]
@[simp] theorem evLdc_pair (b inst : Nat) : (evLdc d b inst).pair = d.pair := by
  simp [evLdc]
@[simp] theorem evLdc_svc (b inst : Nat) : (evLdc d b inst).svc = d.svc := by
  simp [evLdc]
@[simp] theorem evLdc_fio (b inst : Nat) : (evLdc d b inst).fio = d.fio := by
  simp [evLdc]
@[simp] theorem evLdc_clt (b inst : Nat) : (evLdc d b inst).clt = d.clt := by
  simp [evLdc]
@[simp] theorem evLdc_wld (b inst : Nat) : (evLdc d b inst).wld = d.wld := by
  simp [evLdc]
@[simp] theorem evLdc_keys (b inst : Nat) : (evLdc d b inst).keys = d.keys := by
  simp [evLdc]
@[simp] theorem cnt_evLdc (b inst : Nat) (i : Nat) : cnt (evLdc d b inst) i = cnt d i := by
  simp [cnt]

@[simp] theorem evWgs_wall (b inst : Nat) : (evWgs d b inst).wall = d.wall := by
  simp [evWgs]
@[simp] theorem evWgs_timeOff (b inst : Nat) : (evWgs d b inst).timeOff = d.timeOff := by
  simp [evWgs]
@[simp] theorem evWgs_aonTime (b inst : Nat) : (evWgs d b inst).aonTime = d.aonTime := by
  simp [evWgs]
@[simp] theorem evWgs_aonAt (b inst : Nat) : (evWgs d b inst).aonAt = d.aonAt := by
  simp [evWgs]
@[simp] theorem evWgs_cnts (b inst : Nat) : (evWgs d b inst).cnts = d.cnts := by
  simp [evWgs]
@[simp] theorem evWgs_free (b inst : Nat) : (evWgs d b inst).free = d.free := by
  simp [evWgs]
@[simp] theorem evWgs_qm (b inst : Nat) : (evWgs d b inst).qm = d.qm := by
  simp [evWgs]
@[simp] theorem evWgs_as_ (b inst : Nat) : (evWgs d b inst).as_ = d.as_ := by
  simp [evWgs]
@[simp] theorem evWgs_basin (b inst : Nat) : (evWgs d b inst).basin = d.basin := by
  simp [evWgs]
@[simp] theorem evWgs_ports (b inst : Nat) : (evWgs d b inst).ports = d.ports := by
  simp [evWgs]
@[simp] theorem evWgs_ms (b inst : Nat) : (evWgs d b inst).ms = d.ms := by
  simp [evWgs]
@[simp] theorem evWgs_lb (b inst : Nat) : (evWgs d b inst).lb = d.lb := by
  simp [evWgs]
@[simp] theorem evWgs_cht (b inst : Nat) : (evWgs d b inst).cht = d.cht := by
  simp [evWgs]
@[simp] theorem evWgs_brg (b inst : Nat) : (evWgs d b inst).brg = d.brg := by
  simp [evWgs]
@[simp] theorem evWgs_can (b inst : Nat) : (evWgs d b inst).can = d.can := by
  simp [evWgs]
@[simp] theorem evWgs_nws (b inst : Nat) : (evWgs d b inst).nws = d.nws := by
  simp [evWgs]
@[simp] theorem evWgs_ldc (b inst : Nat) : (evWgs d b inst).ldc = d.ldc := by
  simp [evWgs]
@[simp] theorem evWgs_bwk (b inst : Nat) : (evWgs d b inst).bwk = d.bwk := by
  simp [evWgs]
@[simp] theorem evWgs_rst (b inst : Nat) : (evWgs d b inst).rst = d.rst := by
  simp [evWgs]
@[simp] theorem evWgs_pair (b inst : Nat) : (evWgs d b inst).pair = d.pair := by
  simp [evWgs]
@[simp] theorem evWgs_svc (b inst : Nat) : (evWgs d b inst).svc = d.svc := by
  simp [evWgs]
@[simp] theorem evWgs_fio (b inst : Nat) : (evWgs d b inst).fio = d.fio := by
  simp [evWgs]
@[simp] theorem evWgs_clt (b inst : Nat) : (evWgs d b inst).clt = d.clt := by
  simp [evWgs]
@[simp] theorem evWgs_wld (b inst : Nat) : (evWgs d b inst).wld = d.wld := by
  simp [evWgs]
@[simp] theorem evWgs_keys (b inst : Nat) : (evWgs d b inst).keys = d.keys := by
  simp [evWgs]
@[simp] theorem cnt_evWgs (b inst : Nat) (i : Nat) : cnt (evWgs d b inst) i = cnt d i := by
  simp [cnt]

@[simp] theorem evBwk_wall (b inst : Nat) : (evBwk d b inst).wall = d.wall := by
  simp [evBwk]
@[simp] theorem evBwk_timeOff (b inst : Nat) : (evBwk d b inst).timeOff = d.timeOff := by
  simp [evBwk]
@[simp] theorem evBwk_aonTime (b inst : Nat) : (evBwk d b inst).aonTime = d.aonTime := by
  simp [evBwk]
@[simp] theorem evBwk_aonAt (b inst : Nat) : (evBwk d b inst).aonAt = d.aonAt := by
  simp [evBwk]
@[simp] theorem evBwk_cnts (b inst : Nat) : (evBwk d b inst).cnts = d.cnts := by
  simp [evBwk]
@[simp] theorem evBwk_free (b inst : Nat) : (evBwk d b inst).free = d.free := by
  simp [evBwk]
@[simp] theorem evBwk_qm (b inst : Nat) : (evBwk d b inst).qm = d.qm := by
  simp [evBwk]
@[simp] theorem evBwk_as_ (b inst : Nat) : (evBwk d b inst).as_ = d.as_ := by
  simp [evBwk]
@[simp] theorem evBwk_basin (b inst : Nat) : (evBwk d b inst).basin = d.basin := by
  simp [evBwk]
@[simp] theorem evBwk_ports (b inst : Nat) : (evBwk d b inst).ports = d.ports := by
  simp [evBwk]
@[simp] theorem evBwk_ms (b inst : Nat) : (evBwk d b inst).ms = d.ms := by
  simp [evBwk]
@[simp] theorem evBwk_lb (b inst : Nat) : (evBwk d b inst).lb = d.lb := by
  simp [evBwk]
@[simp] theorem evBwk_cht (b inst : Nat) : (evBwk d b inst).cht = d.cht := by
  simp [evBwk]
@[simp] theorem evBwk_brg (b inst : Nat) : (evBwk d b inst).brg = d.brg := by
  simp [evBwk]
@[simp] theorem evBwk_can (b inst : Nat) : (evBwk d b inst).can = d.can := by
  simp [evBwk]
@[simp] theorem evBwk_nws (b inst : Nat) : (evBwk d b inst).nws = d.nws := by
  simp [evBwk]
@[simp] theorem evBwk_ldc (b inst : Nat) : (evBwk d b inst).ldc = d.ldc := by
  simp [evBwk]
@[simp] theorem evBwk_bwk (b inst : Nat) : (evBwk d b inst).bwk = d.bwk := by
  simp [evBwk]
@[simp] theorem evBwk_rst (b inst : Nat) : (evBwk d b inst).rst = d.rst := by
  simp [evBwk]
@[simp] theorem evBwk_pair (b inst : Nat) : (evBwk d b inst).pair = d.pair := by
  simp [evBwk]
@[simp] theorem evBwk_svc (b inst : Nat) : (evBwk d b inst).svc = d.svc := by
  simp [evBwk]
@[simp] theorem evBwk_fio (b inst : Nat) : (evBwk d b inst).fio = d.fio := by
  simp [evBwk]
@[simp] theorem evBwk_clt (b inst : Nat) : (evBwk d b inst).clt = d.clt := by
  simp [evBwk]
@[simp] theorem evBwk_wld (b inst : Nat) : (evBwk d b inst).wld = d.wld := by
  simp [evBwk]
@[simp] theorem evBwk_keys (b inst : Nat) : (evBwk d b inst).keys = d.keys := by
  simp [evBwk]
@[simp] theorem cnt_evBwk (b inst : Nat) (i : Nat) : cnt (evBwk d b inst) i = cnt d i := by
  simp [cnt]

@[simp] theorem evLoad_wall (n b : Nat) : (evLoad d n b).wall = d.wall := by
  simp [evLoad]
@[simp] theorem evLoad_timeOff (n b : Nat) : (evLoad d n b).timeOff = d.timeOff := by
  simp [evLoad]
@[simp] theorem evLoad_aonTime (n b : Nat) : (evLoad d n b).aonTime = d.aonTime := by
  simp [evLoad]
@[simp] theorem evLoad_aonAt (n b : Nat) : (evLoad d n b).aonAt = d.aonAt := by
  simp [evLoad]
@[simp] theorem evLoad_cnts (n b : Nat) : (evLoad d n b).cnts = d.cnts := by
  simp [evLoad]
@[simp] theorem evLoad_free (n b : Nat) : (evLoad d n b).free = d.free := by
  simp [evLoad]
@[simp] theorem evLoad_qm (n b : Nat) : (evLoad d n b).qm = d.qm := by
  simp [evLoad]
@[simp] theorem evLoad_as_ (n b : Nat) : (evLoad d n b).as_ = d.as_ := by
  simp [evLoad]
@[simp] theorem evLoad_basin (n b : Nat) : (evLoad d n b).basin = d.basin := by
  simp [evLoad]
@[simp] theorem evLoad_ports (n b : Nat) : (evLoad d n b).ports = d.ports := by
  simp [evLoad]
@[simp] theorem evLoad_ms (n b : Nat) : (evLoad d n b).ms = d.ms := by
  simp [evLoad]
@[simp] theorem evLoad_lb (n b : Nat) : (evLoad d n b).lb = d.lb := by
  simp [evLoad]
@[simp] theorem evLoad_cht (n b : Nat) : (evLoad d n b).cht = d.cht := by
  simp [evLoad]
@[simp] theorem evLoad_brg (n b : Nat) : (evLoad d n b).brg = d.brg := by
  simp [evLoad]
@[simp] theorem evLoad_can (n b : Nat) : (evLoad d n b).can = d.can := by
  simp [evLoad]
@[simp] theorem evLoad_nws (n b : Nat) : (evLoad d n b).nws = d.nws := by
  simp [evLoad]
@[simp] theorem evLoad_ldc (n b : Nat) : (evLoad d n b).ldc = d.ldc := by
  simp [evLoad]
@[simp] theorem evLoad_bwk (n b : Nat) : (evLoad d n b).bwk = d.bwk := by
  simp [evLoad]
@[simp] theorem evLoad_rst (n b : Nat) : (evLoad d n b).rst = d.rst := by
  simp [evLoad]
@[simp] theorem evLoad_pair (n b : Nat) : (evLoad d n b).pair = d.pair := by
  simp [evLoad]
@[simp] theorem evLoad_svc (n b : Nat) : (evLoad d n b).svc = d.svc := by
  simp [evLoad]
@[simp] theorem evLoad_fio (n b : Nat) : (evLoad d n b).fio = d.fio := by
  simp [evLoad]
@[simp] theorem evLoad_clt (n b : Nat) : (evLoad d n b).clt = d.clt := by
  simp [evLoad]
@[simp] theorem evLoad_wld (n b : Nat) : (evLoad d n b).wld = d.wld := by
  simp [evLoad]
@[simp] theorem evLoad_keys (n b : Nat) : (evLoad d n b).keys = d.keys := by
  simp [evLoad]
@[simp] theorem cnt_evLoad (n b : Nat) (i : Nat) : cnt (evLoad d n b) i = cnt d i := by
  simp [cnt]

@[simp] theorem evFio_wall (b : Nat) : (evFio d b).wall = d.wall := by
  simp [evFio]
@[simp] theorem evFio_timeOff (b : Nat) : (evFio d b).timeOff = d.timeOff := by
  simp [evFio]
@[simp] theorem evFio_aonTime (b : Nat) : (evFio d b).aonTime = d.aonTime := by
  simp [evFio]
@[simp] theorem evFio_aonAt (b : Nat) : (evFio d b).aonAt = d.aonAt := by
  simp [evFio]
@[simp] theorem evFio_cnts (b : Nat) : (evFio d b).cnts = d.cnts := by
  simp [evFio]
@[simp] theorem evFio_free (b : Nat) : (evFio d b).free = d.free := by
  simp [evFio]
@[simp] theorem evFio_qm (b : Nat) : (evFio d b).qm = d.qm := by
  simp [evFio]
@[simp] theorem evFio_as_ (b : Nat) : (evFio d b).as_ = d.as_ := by
  simp [evFio]
@[simp] theorem evFio_basin (b : Nat) : (evFio d b).basin = d.basin := by
  simp [evFio]
@[simp] theorem evFio_ports (b : Nat) : (evFio d b).ports = d.ports := by
  simp [evFio]
@[simp] theorem evFio_ms (b : Nat) : (evFio d b).ms = d.ms := by
  simp [evFio]
@[simp] theorem evFio_lb (b : Nat) : (evFio d b).lb = d.lb := by
  simp [evFio]
@[simp] theorem evFio_cht (b : Nat) : (evFio d b).cht = d.cht := by
  simp [evFio]
@[simp] theorem evFio_brg (b : Nat) : (evFio d b).brg = d.brg := by
  simp [evFio]
@[simp] theorem evFio_can (b : Nat) : (evFio d b).can = d.can := by
  simp [evFio]
@[simp] theorem evFio_nws (b : Nat) : (evFio d b).nws = d.nws := by
  simp [evFio]
@[simp] theorem evFio_ldc (b : Nat) : (evFio d b).ldc = d.ldc := by
  simp [evFio]
@[simp] theorem evFio_bwk (b : Nat) : (evFio d b).bwk = d.bwk := by
  simp [evFio]
@[simp] theorem evFio_rst (b : Nat) : (evFio d b).rst = d.rst := by
  simp [evFio]
@[simp] theorem evFio_pair (b : Nat) : (evFio d b).pair = d.pair := by
  simp [evFio]
@[simp] theorem evFio_svc (b : Nat) : (evFio d b).svc = d.svc := by
  simp [evFio]
@[simp] theorem evFio_fio (b : Nat) : (evFio d b).fio = d.fio := by
  simp [evFio]
@[simp] theorem evFio_clt (b : Nat) : (evFio d b).clt = d.clt := by
  simp [evFio]
@[simp] theorem evFio_wld (b : Nat) : (evFio d b).wld = d.wld := by
  simp [evFio]
@[simp] theorem evFio_keys (b : Nat) : (evFio d b).keys = d.keys := by
  simp [evFio]
@[simp] theorem cnt_evFio (b : Nat) (i : Nat) : cnt (evFio d b) i = cnt d i := by
  simp [cnt]

@[simp] theorem evField_wall (n b : Nat) : (evField d n b).wall = d.wall := by
  simp [evField]
@[simp] theorem evField_timeOff (n b : Nat) : (evField d n b).timeOff = d.timeOff := by
  simp [evField]
@[simp] theorem evField_aonTime (n b : Nat) : (evField d n b).aonTime = d.aonTime := by
  simp [evField]
@[simp] theorem evField_aonAt (n b : Nat) : (evField d n b).aonAt = d.aonAt := by
  simp [evField]
@[simp] theorem evField_cnts (n b : Nat) : (evField d n b).cnts = d.cnts := by
  simp [evField]
@[simp] theorem evField_free (n b : Nat) : (evField d n b).free = d.free := by
  simp [evField]
@[simp] theorem evField_qm (n b : Nat) : (evField d n b).qm = d.qm := by
  simp [evField]
@[simp] theorem evField_as_ (n b : Nat) : (evField d n b).as_ = d.as_ := by
  simp [evField]
@[simp] theorem evField_basin (n b : Nat) : (evField d n b).basin = d.basin := by
  simp [evField]
@[simp] theorem evField_ports (n b : Nat) : (evField d n b).ports = d.ports := by
  simp [evField]
@[simp] theorem evField_ms (n b : Nat) : (evField d n b).ms = d.ms := by
  simp [evField]
@[simp] theorem evField_lb (n b : Nat) : (evField d n b).lb = d.lb := by
  simp [evField]
@[simp] theorem evField_cht (n b : Nat) : (evField d n b).cht = d.cht := by
  simp [evField]
@[simp] theorem evField_brg (n b : Nat) : (evField d n b).brg = d.brg := by
  simp [evField]
@[simp] theorem evField_can (n b : Nat) : (evField d n b).can = d.can := by
  simp [evField]
@[simp] theorem evField_nws (n b : Nat) : (evField d n b).nws = d.nws := by
  simp [evField]
@[simp] theorem evField_ldc (n b : Nat) : (evField d n b).ldc = d.ldc := by
  simp [evField]
@[simp] theorem evField_bwk (n b : Nat) : (evField d n b).bwk = d.bwk := by
  simp [evField]
@[simp] theorem evField_rst (n b : Nat) : (evField d n b).rst = d.rst := by
  simp [evField]
@[simp] theorem evField_pair (n b : Nat) : (evField d n b).pair = d.pair := by
  simp [evField]
@[simp] theorem evField_svc (n b : Nat) : (evField d n b).svc = d.svc := by
  simp [evField]
@[simp] theorem evField_fio (n b : Nat) : (evField d n b).fio = d.fio := by
  simp [evField]
@[simp] theorem evField_clt (n b : Nat) : (evField d n b).clt = d.clt := by
  simp [evField]
@[simp] theorem evField_wld (n b : Nat) : (evField d n b).wld = d.wld := by
  simp [evField]
@[simp] theorem evField_keys (n b : Nat) : (evField d n b).keys = d.keys := by
  simp [evField]
@[simp] theorem cnt_evField (n b : Nat) (i : Nat) : cnt (evField d n b) i = cnt d i := by
  simp [cnt]

@[simp] theorem evWld_wall (b inst : Nat) : (evWld d b inst).wall = d.wall := by
  simp [evWld]
@[simp] theorem evWld_timeOff (b inst : Nat) : (evWld d b inst).timeOff = d.timeOff := by
  simp [evWld]
@[simp] theorem evWld_aonTime (b inst : Nat) : (evWld d b inst).aonTime = d.aonTime := by
  simp [evWld]
@[simp] theorem evWld_aonAt (b inst : Nat) : (evWld d b inst).aonAt = d.aonAt := by
  simp [evWld]
@[simp] theorem evWld_cnts (b inst : Nat) : (evWld d b inst).cnts = d.cnts := by
  simp [evWld]
@[simp] theorem evWld_free (b inst : Nat) : (evWld d b inst).free = d.free := by
  simp [evWld]
@[simp] theorem evWld_qm (b inst : Nat) : (evWld d b inst).qm = d.qm := by
  simp [evWld]
@[simp] theorem evWld_as_ (b inst : Nat) : (evWld d b inst).as_ = d.as_ := by
  simp [evWld]
@[simp] theorem evWld_basin (b inst : Nat) : (evWld d b inst).basin = d.basin := by
  simp [evWld]
@[simp] theorem evWld_ports (b inst : Nat) : (evWld d b inst).ports = d.ports := by
  simp [evWld]
@[simp] theorem evWld_ms (b inst : Nat) : (evWld d b inst).ms = d.ms := by
  simp [evWld]
@[simp] theorem evWld_lb (b inst : Nat) : (evWld d b inst).lb = d.lb := by
  simp [evWld]
@[simp] theorem evWld_cht (b inst : Nat) : (evWld d b inst).cht = d.cht := by
  simp [evWld]
@[simp] theorem evWld_brg (b inst : Nat) : (evWld d b inst).brg = d.brg := by
  simp [evWld]
@[simp] theorem evWld_can (b inst : Nat) : (evWld d b inst).can = d.can := by
  simp [evWld]
@[simp] theorem evWld_nws (b inst : Nat) : (evWld d b inst).nws = d.nws := by
  simp [evWld]
@[simp] theorem evWld_ldc (b inst : Nat) : (evWld d b inst).ldc = d.ldc := by
  simp [evWld]
@[simp] theorem evWld_bwk (b inst : Nat) : (evWld d b inst).bwk = d.bwk := by
  simp [evWld]
@[simp] theorem evWld_rst (b inst : Nat) : (evWld d b inst).rst = d.rst := by
  simp [evWld]
@[simp] theorem evWld_pair (b inst : Nat) : (evWld d b inst).pair = d.pair := by
  simp [evWld]
@[simp] theorem evWld_svc (b inst : Nat) : (evWld d b inst).svc = d.svc := by
  simp [evWld]
@[simp] theorem evWld_fio (b inst : Nat) : (evWld d b inst).fio = d.fio := by
  simp [evWld]
@[simp] theorem evWld_clt (b inst : Nat) : (evWld d b inst).clt = d.clt := by
  simp [evWld]
@[simp] theorem evWld_wld (b inst : Nat) : (evWld d b inst).wld = d.wld := by
  simp [evWld]
@[simp] theorem evWld_keys (b inst : Nat) : (evWld d b inst).keys = d.keys := by
  simp [evWld]
@[simp] theorem cnt_evWld (b inst : Nat) (i : Nat) : cnt (evWld d b inst) i = cnt d i := by
  simp [cnt]

@[simp] theorem evKey_wall (b inst : Nat) : (evKey d b inst).wall = d.wall := by
  simp [evKey]
@[simp] theorem evKey_timeOff (b inst : Nat) : (evKey d b inst).timeOff = d.timeOff := by
  simp [evKey]
@[simp] theorem evKey_aonTime (b inst : Nat) : (evKey d b inst).aonTime = d.aonTime := by
  simp [evKey]
@[simp] theorem evKey_aonAt (b inst : Nat) : (evKey d b inst).aonAt = d.aonAt := by
  simp [evKey]
@[simp] theorem evKey_cnts (b inst : Nat) : (evKey d b inst).cnts = d.cnts := by
  simp [evKey]
@[simp] theorem evKey_free (b inst : Nat) : (evKey d b inst).free = d.free := by
  simp [evKey]
@[simp] theorem evKey_qm (b inst : Nat) : (evKey d b inst).qm = d.qm := by
  simp [evKey]
@[simp] theorem evKey_as_ (b inst : Nat) : (evKey d b inst).as_ = d.as_ := by
  simp [evKey]
@[simp] theorem evKey_basin (b inst : Nat) : (evKey d b inst).basin = d.basin := by
  simp [evKey]
@[simp] theorem evKey_ports (b inst : Nat) : (evKey d b inst).ports = d.ports := by
  simp [evKey]
@[simp] theorem evKey_ms (b inst : Nat) : (evKey d b inst).ms = d.ms := by
  simp [evKey]
@[simp] theorem evKey_lb (b inst : Nat) : (evKey d b inst).lb = d.lb := by
  simp [evKey]
@[simp] theorem evKey_cht (b inst : Nat) : (evKey d b inst).cht = d.cht := by
  simp [evKey]
@[simp] theorem evKey_brg (b inst : Nat) : (evKey d b inst).brg = d.brg := by
  simp [evKey]
@[simp] theorem evKey_can (b inst : Nat) : (evKey d b inst).can = d.can := by
  simp [evKey]
@[simp] theorem evKey_nws (b inst : Nat) : (evKey d b inst).nws = d.nws := by
  simp [evKey]
@[simp] theorem evKey_ldc (b inst : Nat) : (evKey d b inst).ldc = d.ldc := by
  simp [evKey]
@[simp] theorem evKey_bwk (b inst : Nat) : (evKey d b inst).bwk = d.bwk := by
  simp [evKey]
@[simp] theorem evKey_rst (b inst : Nat) : (evKey d b inst).rst = d.rst := by
  simp [evKey]
@[simp] theorem evKey_pair (b inst : Nat) : (evKey d b inst).pair = d.pair := by
  simp [evKey]
@[simp] theorem evKey_svc (b inst : Nat) : (evKey d b inst).svc = d.svc := by
  simp [evKey]
@[simp] theorem evKey_fio (b inst : Nat) : (evKey d b inst).fio = d.fio := by
  simp [evKey]
@[simp] theorem evKey_clt (b inst : Nat) : (evKey d b inst).clt = d.clt := by
  simp [evKey]
@[simp] theorem evKey_wld (b inst : Nat) : (evKey d b inst).wld = d.wld := by
  simp [evKey]
@[simp] theorem evKey_keys (b inst : Nat) : (evKey d b inst).keys = d.keys := by
  simp [evKey]
@[simp] theorem cnt_evKey (b inst : Nat) (i : Nat) : cnt (evKey d b inst) i = cnt d i := by
  simp [cnt]

@[simp] theorem evPair_wall (b : Nat) : (evPair d b).wall = d.wall := by
  simp [evPair]
@[simp] theorem evPair_timeOff (b : Nat) : (evPair d b).timeOff = d.timeOff := by
  simp [evPair]
@[simp] theorem evPair_aonTime (b : Nat) : (evPair d b).aonTime = d.aonTime := by
  simp [evPair]
@[simp] theorem evPair_aonAt (b : Nat) : (evPair d b).aonAt = d.aonAt := by
  simp [evPair]
@[simp] theorem evPair_cnts (b : Nat) : (evPair d b).cnts = d.cnts := by
  simp [evPair]
@[simp] theorem evPair_free (b : Nat) : (evPair d b).free = d.free := by
  simp [evPair]
@[simp] theorem evPair_qm (b : Nat) : (evPair d b).qm = d.qm := by
  simp [evPair]
@[simp] theorem evPair_as_ (b : Nat) : (evPair d b).as_ = d.as_ := by
  simp [evPair]
@[simp] theorem evPair_basin (b : Nat) : (evPair d b).basin = d.basin := by
  simp [evPair]
@[simp] theorem evPair_ports (b : Nat) : (evPair d b).ports = d.ports := by
  simp [evPair]
@[simp] theorem evPair_ms (b : Nat) : (evPair d b).ms = d.ms := by
  simp [evPair]
@[simp] theorem evPair_lb (b : Nat) : (evPair d b).lb = d.lb := by
  simp [evPair]
@[simp] theorem evPair_cht (b : Nat) : (evPair d b).cht = d.cht := by
  simp [evPair]
@[simp] theorem evPair_brg (b : Nat) : (evPair d b).brg = d.brg := by
  simp [evPair]
@[simp] theorem evPair_can (b : Nat) : (evPair d b).can = d.can := by
  simp [evPair]
@[simp] theorem evPair_nws (b : Nat) : (evPair d b).nws = d.nws := by
  simp [evPair]
@[simp] theorem evPair_ldc (b : Nat) : (evPair d b).ldc = d.ldc := by
  simp [evPair]
@[simp] theorem evPair_bwk (b : Nat) : (evPair d b).bwk = d.bwk := by
  simp [evPair]
@[simp] theorem evPair_rst (b : Nat) : (evPair d b).rst = d.rst := by
  simp [evPair]
@[simp] theorem evPair_pair (b : Nat) : (evPair d b).pair = d.pair := by
  simp [evPair]
@[simp] theorem evPair_svc (b : Nat) : (evPair d b).svc = d.svc := by
  simp [evPair]
@[simp] theorem evPair_fio (b : Nat) : (evPair d b).fio = d.fio := by
  simp [evPair]
@[simp] theorem evPair_clt (b : Nat) : (evPair d b).clt = d.clt := by
  simp [evPair]
@[simp] theorem evPair_wld (b : Nat) : (evPair d b).wld = d.wld := by
  simp [evPair]
@[simp] theorem evPair_keys (b : Nat) : (evPair d b).keys = d.keys := by
  simp [evPair]
@[simp] theorem cnt_evPair (b : Nat) (i : Nat) : cnt (evPair d b) i = cnt d i := by
  simp [cnt]

@[simp] theorem evSvc_wall (b inst : Nat) : (evSvc d b inst).wall = d.wall := by
  simp [evSvc]
@[simp] theorem evSvc_timeOff (b inst : Nat) : (evSvc d b inst).timeOff = d.timeOff := by
  simp [evSvc]
@[simp] theorem evSvc_aonTime (b inst : Nat) : (evSvc d b inst).aonTime = d.aonTime := by
  simp [evSvc]
@[simp] theorem evSvc_aonAt (b inst : Nat) : (evSvc d b inst).aonAt = d.aonAt := by
  simp [evSvc]
@[simp] theorem evSvc_cnts (b inst : Nat) : (evSvc d b inst).cnts = d.cnts := by
  simp [evSvc]
@[simp] theorem evSvc_free (b inst : Nat) : (evSvc d b inst).free = d.free := by
  simp [evSvc]
@[simp] theorem evSvc_qm (b inst : Nat) : (evSvc d b inst).qm = d.qm := by
  simp [evSvc]
@[simp] theorem evSvc_as_ (b inst : Nat) : (evSvc d b inst).as_ = d.as_ := by
  simp [evSvc]
@[simp] theorem evSvc_basin (b inst : Nat) : (evSvc d b inst).basin = d.basin := by
  simp [evSvc]
@[simp] theorem evSvc_ports (b inst : Nat) : (evSvc d b inst).ports = d.ports := by
  simp [evSvc]
@[simp] theorem evSvc_ms (b inst : Nat) : (evSvc d b inst).ms = d.ms := by
  simp [evSvc]
@[simp] theorem evSvc_lb (b inst : Nat) : (evSvc d b inst).lb = d.lb := by
  simp [evSvc]
@[simp] theorem evSvc_cht (b inst : Nat) : (evSvc d b inst).cht = d.cht := by
  simp [evSvc]
@[simp] theorem evSvc_brg (b inst : Nat) : (evSvc d b inst).brg = d.brg := by
  simp [evSvc]
@[simp] theorem evSvc_can (b inst : Nat) : (evSvc d b inst).can = d.can := by
  simp [evSvc]
@[simp] theorem evSvc_nws (b inst : Nat) : (evSvc d b inst).nws = d.nws := by
  simp [evSvc]
@[simp] theorem evSvc_ldc (b inst : Nat) : (evSvc d b inst).ldc = d.ldc := by
  simp [evSvc]
@[simp] theorem evSvc_bwk (b inst : Nat) : (evSvc d b inst).bwk = d.bwk := by
  simp [evSvc]
@[simp] theorem evSvc_rst (b inst : Nat) : (evSvc d b inst).rst = d.rst := by
  simp [evSvc]
@[simp] theorem evSvc_pair (b inst : Nat) : (evSvc d b inst).pair = d.pair := by
  simp [evSvc]
@[simp] theorem evSvc_svc (b inst : Nat) : (evSvc d b inst).svc = d.svc := by
  simp [evSvc]
@[simp] theorem evSvc_fio (b inst : Nat) : (evSvc d b inst).fio = d.fio := by
  simp [evSvc]
@[simp] theorem evSvc_clt (b inst : Nat) : (evSvc d b inst).clt = d.clt := by
  simp [evSvc]
@[simp] theorem evSvc_wld (b inst : Nat) : (evSvc d b inst).wld = d.wld := by
  simp [evSvc]
@[simp] theorem evSvc_keys (b inst : Nat) : (evSvc d b inst).keys = d.keys := by
  simp [evSvc]
@[simp] theorem cnt_evSvc (b inst : Nat) (i : Nat) : cnt (evSvc d b inst) i = cnt d i := by
  simp [cnt]

/-- The mains-present contact shows what it was given (R451). -/
@[simp] theorem mainsContact_mainsHere (b : Bool) : (mainsContact d b).rst.mainsHere = b := by
  unfold mainsContact; split
  · assumption
  · rfl

/-- The contact's change touches its state and what is sent. -/
theorem mainsContact_only (b : Bool) :
    mainsContact d b = { d with rst := { d.rst with mainsHere := b }, out := (mainsContact d b).out } := by
  unfold mainsContact; split
  · rename_i h; subst h; rfl
  · rfl

/-- A record for worn-out flash is not written, every other is (Table 15.5). -/
theorem flashKeep_cases (x : Dev) :
    (flashWorn d = true ∧ flashKeep d x = d) ∨ (flashWorn d = false ∧ flashKeep d x = x) := by
  cases h : flashWorn d <;> simp [flashKeep, h]

/-- Work for the Quaymaster is served at once or stands in its queue (R29). -/
theorem qmPost_cases (cls : Nat) (w : QmWork) (k : Dev → Dev) :
    (qmAwake (qmEnqueue d cls w) = true ∧ qmNext (qmEnqueue d cls w) = some (cls, w) ∧
      qmPost d cls w k = k (qmTake (qmEnqueue d cls w) (cls, w))) ∨
    qmPost d cls w k = qmEnqueue d cls w := by
  unfold qmPost
  by_cases h : qmAwake (qmEnqueue d cls w) = true ∧ qmNext (qmEnqueue d cls w) = some (cls, w)
  · left; simp [h.1, h.2]
  · right; simp only [Bool.and_eq_true, decide_eq_true_eq]; rw [if_neg h]

end Sys2Proof.Laws
end

