-- ==== Sys2Proof/Laws/Rows.lean ====
section
/-! SUPPORT. What a row that is a register write does: it has its effect, waits in the bridge, or finds no path
(`rowWrite`, `bellRow`, `strictAhead`). -/

namespace Sys2Proof.Laws

open Sys2Proof.Machine

/-- With no path to it and its block no World S block, the write is lost. -/
theorem rowWrite_no_path {d : Dev} {a : Nat} (v : Word) (k : Dev → Dev) (hc : farCause d a ≠ 3) (hf : fabricUp d = false) :
    rowWrite d a v k = d := by
  simp [rowWrite, hc, hf]

/-- Nothing ahead of it, nothing that holds its block and nothing that fails it: the write breaks the reservations of its
block, drops the prefetched copy, and has its effect. -/
theorem rowWrite_ready {d : Dev} {a : Nat} (v : Word) (k : Dev → Dev) (ha : a < 2 ^ 26) (hf : fabricUp d = true)
    (hq : d.brg.queue = []) (ho : atomicOf d .pf = false) (hb : blockBusy d .pf a = false) (hc : farCause d a = 0) :
    rowWrite d a v k = k (breakReservations (dropCopies d [a / 4]) .pf a) := by
  have h : (BitVec.ofNat 26 a).toNat = a := by rw [BitVec.toNat_ofNat]; exact Nat.mod_eq_of_lt ha
  simp [rowWrite, busWaits, accessOf, targetAddr, isPosted, hf, hq, ho, hc, h, hb]

/-- A doorbell row behind no posted write of its owner, or at an internal slip, has its effect. -/
theorem bellRow_ready {d : Dev} {n : Fin 4096} (o : Nat) (v : Word) (k : Dev → Dev)
    (h : internalSlip d n = true ∨ ∀ q ∈ d.brg.queue, isPosted q = true → q.who ≠ if n.val = 0 then .pf else .vf n) :
    bellRow d n o v k = k d := by
  rcases h with h | h
  · simp [bellRow, h]
  · simp only [bellRow]
    rw [if_neg]
    simp only [Bool.and_eq_true, List.any_eq_true, decide_eq_true_eq, not_and, not_exists]
    exact fun _ q hq hp => h q hq hp

/-- A write of a strict window goes on exactly when no access of its requester is unresolved or being performed, none has
claimed the register, and no other requester's operation holds its block. -/
theorem strictAhead_none {d : Dev} {who : Requester} {a : Nat} (v : Word) (ha : a < 2 ^ 26)
    (hs : strictTarget d (.bar0 (BitVec.ofNat 26 a)) = true) :
    strictAhead d who a v = none ↔ (∀ q ∈ d.brg.queue, q.who ≠ who ∧ a / 4 ∉ claimedWords q) ∧
      atomicOf d who = false ∧ (peripheral a = true → blockBusy d who a = false) := by
  have h : (BitVec.ofNat 26 a).toNat = a := by rw [BitVec.toNat_ofNat]; exact Nat.mod_eq_of_lt ha
  simp only [strictAhead, ite_eq_right_iff, reduceCtorEq, imp_false, Bool.not_eq_true]
  simp [busWaits, accessOf, writeWords, targetAdd, targetAddr, isPosted, hs, h, -List.contains_eq_mem]
  rw [show a % 67108864 = a from Nat.mod_eq_of_lt ha]
  exact ⟨fun x => ⟨fun q hq => ⟨x.1.1.2.1 q hq, x.1.2 q hq⟩, x.1.1.2.2, x.2⟩,
    fun x => ⟨⟨⟨fun q hq e => absurd e (x.1 q hq).1, fun q hq => (x.1 q hq).1, x.2.1⟩, fun q hq => (x.1 q hq).2⟩, x.2.2⟩⟩

/-- One that waits is added to the bridge's queue, and only the bridge changes. -/
theorem strictAhead_some {d d1 : Dev} {who : Requester} {a : Nat} {v : Word} (h : strictAhead d who a v = some d1) :
    d1 = { d with brg := d1.brg } ∧ ∃ e, d1.brg.queue = busInsert e d.brg.queue := by
  simp only [strictAhead] at h
  split at h
  · cases h; exact ⟨rfl, _, rfl⟩
  · cases h

end Sys2Proof.Laws
end

