-- ==== Sys2Proof/WellFormed.lean ====
section
/-! DEFINITION. Which commands are well formed: those whose list and record operands have the shape the spec gives
them. An operand of a bounded type needs no check. A meaning is total: it also answers an ill-formed command, by
reading a missing list element as its type's zero. -/

namespace Sys2Proof.WellFormed

/-- An access carries 1, 2, 4 or 8 bytes (R11). -/
def widthOk (n : Nat) : Bool := n == 1 || n == 2 || n == 4 || n == 8

/-- A strictly rising list of numbers below `hi`. -/
def rising (hi : Nat) : List Nat → Bool
  | [] => true
  | [a] => decide (a < hi)
  | a :: b :: t => decide (a < b) && rising hi (b :: t)

/-- A cell outcome names one of the 98,304 + 6,144 cells (R42). -/
def cellOk : CellRead → Bool
  | .clean => true
  | .corrected c => decide (c < 104448)
  | .uncorrectable c => decide (c < 104448)

/-- An association number is one of 0–3 (Table 2.31). -/
def checkOk : MsCheck → Bool
  | .valid _ an _ => decide (an < 4)
  | _ => true

/-- A fetched descriptor is 16 words (R131). -/
def descOk : Option (List Word) → Bool
  | none => true
  | some l => decide (l.length = 16)

/-- A CAN message fits its format: 11-bit identifiers of the base formats and XL, 8 data bytes in CC, 64 in FD,
1 to 2,048 in XL, and a remote frame only in CC, with a DLC of at most 15 and no data (R20, Table 1.2). -/
def msgOk (m : CanMsg) : Bool :=
  (m.fmt.val == 1 || m.fmt.val == 3 || decide (m.id.toNat < 2048))
    && (match m.fmt.val with
        | 0 | 1 => decide (m.data.length ≤ 8)
        | 2 | 3 => decide (m.data.length ≤ 64)
        | _ => decide (1 ≤ m.data.length) && decide (m.data.length ≤ 2048))
    && (!m.rtr || (decide (m.fmt.val < 2) && m.data.isEmpty && decide (m.dlc < 16)))

/-- The segments of load channel `n`, its spare included (Table 8.1). -/
def segsOf (n : Nat) : Nat :=
  if n < 8 ∨ 27 < n then 5 else if n < 24 then 3 else 7

/-- The indices of a mirror record lie in their tables (Table 15.3). -/
def mirrorOk : Mirror → Bool
  | .chart _ op index => decide (op < 16) && decide (index < 262144)
  | .learn _ => true
  | .slip n _ => decide (n < 4096)
  | .bind k owner _ _ => decide (k < 88) && decide (owner < 4096)
  | .bank _ => true
  | .signals g _ => decide (g < 16)
  | .analog i _ => decide (i < 256)
  | .output k _ => decide (k < 72)
  | .theta chans => decide (chans.length = 40)
  | .thetaBack chans _ => decide (chans.length = 40)
  | .partner ch m _ => decide (ch < 16) && decide (m < 64)
  | .config _ => true
  | .marker => true

end Sys2Proof.WellFormed

namespace Sys2Proof

/-- The check of a command's operands. -/
def Instr.wellFormed : Instr → Bool
  | .registerWrite _ _ width _ _ _ => WellFormed.widthOk width
  | .peripheralBusTimeout _ read => match read with | some x => WellFormed.widthOk x.2.1 | none => true
  | .atomicOp _ _ _ _ _ _ _ _ => true
  | .clusterAmo _ _ _ _ _ _ _ => true
  | .clusterLr _ _ _ _ => true
  | .clusterSc _ _ _ _ _ => true
  | .reservationExpire _ => true
  | .semaphoreFreed _ => true
  | .qmWorkEnqueue _ _ => true
  | .qmWorkServe => true
  | .occPeakInterval => true
  | .timeAonCopy => true
  | .frameReceived _ _ _ _ m => WellFormed.checkOk m
  | .pfcXoffRepeat _ _ => true
  | .txFrameStart _ _ => true
  | .txFrameEnd _ c => WellFormed.cellOk c
  | .basinMarchEnd failed => WellFormed.rising 104448 failed
  | .basinPatrol c => WellFormed.cellOk c
  | .retireMapSave => true
  | .limitCommit => true
  | .limitApplied => true
  | .portDisable _ => true
  | .portLinkLoss _ => true
  | .portLinkUp _ => true
  | .asSync _ _ _ _ => true
  | .gateChange _ => true
  | .qbvCommit _ => true
  | .qbvChangeTime _ => true
  | .pfcFrameRx _ _ _ times => decide (times.length = 8)
  | .pfcPauseExpire _ _ => true
  | .pfcWatchdog _ _ => true
  | .pfcWatchdogEnd _ _ => true
  | .logbookEnable _ => true
  | .logbookRecordWrite c => WellFormed.cellOk c
  | .logbookInterrupt => true
  | .lbCons _ _ => true
  | .swClearPeaks => true
  | .swClearPcnt => true
  | .swClearGdrop => true
  | .swClearEdrop => true
  | .swClearDrop => true
  | .insert => true
  | .update => true
  | .delete => true
  | .twrite _ => true
  | .tdelete _ => true
  | .mwrite => true
  | .policerWrite _ _ => true
  | .puntHandle => true
  | .chtClearAll => true
  | .chtClearDrops => true
  | .chtClearIndex _ => true
  | .create _ => true
  | .destroy _ => true
  | .bind _ => true
  | .unbind _ => true
  | .release _ => true
  | .setshare _ => true
  | .reset _ => true
  | .setvfmax => true
  | .slpClear => true
  | .vfEnable _ ctl => decide (ctl.mrrs ∈ [128, 256, 512, 1024, 2048, 4096])
  | .vfDisable => true
  | .vfFlr _ => true
  | .pfReset => true
  | .hostLinkLoss => true
  | .slipCtrlReset _ => true
  | .slipResetDone _ => true
  | .ringEnable _ _ _ => true
  | .ringDisable _ _ => true
  | .ringDisableDone _ _ => true
  | .sqTail _ _ _ => true
  | .cqHead _ _ _ => true
  | .descriptorFetch _ _ words => WellFormed.descOk words
  | .descFetchFail _ _ _ _ => true
  | .dmaReadComplete _ _ _ => true
  | .nop _ _ => true
  | .rxBuf _ _ cr => WellFormed.cellOk cr
  | .txEth _ _ _ => true
  | .txCan _ _ _ => true
  | .txCanConfirmDone _ _ => true
  | .loadSet _ _ => true
  | .loadSetDone _ _ => true
  | .loadQuery _ _ => true
  | .fieldSet _ _ => true
  | .fieldSetDone _ _ => true
  | .fieldQuery _ _ => true
  | .bwkReq _ _ => true
  | .keyReq _ _ _ => true
  | .keyReqDone _ => true
  | .keyReqTimeout _ => true
  | .logRead _ _ => true
  | .logReadTimeout _ _ => true
  | .logFlush => true
  | .msixHoldoffExpire _ _ => true
  | .msixUnmask _ _ _ => true
  | .tunnelWrap c => WellFormed.cellOk c
  | .tunnelUnwrap c => WellFormed.cellOk c
  | .tunCfgWrite _ _ => true
  | .switch _ => true
  | .brgClearLog => true
  | .brgClearTun => true
  | .brgClearOverwrite => true
  | .canFrameRx _ m _ => WellFormed.msgOk m
  | .hpDeliver _ => true
  | .canEnable _ _ => true
  | .canDisable _ => true
  | .canBusIntegrated _ => true
  | .canTxLoad _ c => WellFormed.cellOk c
  | .canTxAttempt _ _ _ _ => true
  | .canTxOk _ => true
  | .canBusError _ _ _ _ _ => true
  | .canTxTimeout _ _ => true
  | .canBoDelayExpire _ => true
  | .canRecovered _ => true
  | .recover _ => true
  | .abortTx _ => true
  | .canTrcvFault _ _ => true
  | .canTrcvFaultClear _ _ => true
  | .canPex _ => true
  | .canClear _ => true
  | .nwsEnable _ _ => true
  | .nwsDisable _ _ => true
  | .keepAliveRx _ m => WellFormed.msgOk m
  | .keepAliveDue _ => true
  | .localNeed _ _ => true
  | .idleTimerExpire _ => true
  | .drainTimerExpire _ _ => true
  | .tMaxExpire _ => true
  | .transceiverSleepDone _ => true
  | .busWake _ _ m => WellFormed.msgOk m
  | .controllerOnline _ => true
  | .hailPeriodExpire _ => true
  | .hailCallAll _ => true
  | .hailCallNew _ => true
  | .forget _ _ => true
  | .announce _ _ _ _ _ _ _ => true
  | .leave _ _ => true
  | .foreignCall _ _ => true
  | .hailWindowClose _ => true
  | .hailAssignTimeout _ _ => true
  | .lldpRx _ _ _ => true
  | .lldpTx _ => true
  | .lldpTtlExpire _ _ => true
  | .nwsClear _ => true
  | .slalomAdmit _ => true
  | .turnOffEnd _ => true
  | .shortCircuitTrip _ _ => true
  | .thermalTrip _ _ => true
  | .thermalRestart _ _ => true
  | .restartCountReset _ => true
  | .reverseCurrent _ _ => true
  | .twinReverseBlock _ _ => true
  | .twinForward _ _ => true
  | .supplyFault _ _ => true
  | .supplyRestored _ _ => true
  | .segmentMeasure n ms => decide (ms.length = WellFormed.segsOf n.val)
  | .spareCheck _ _ _ => true
  | .segmentTest _ _ => true
  | .segmentMapSave => true
  | .openLoad _ _ => true
  | .underCurrent _ _ => true
  | .offStateTest _ _ => true
  | .sampleIntervalEnd _ _ _ _ _ => true
  | .ldcApply _ => true
  | .clearTrip _ => true
  | .segTest _ _ => true
  | .retire _ _ => true
  | .wearRecordSave => true
  | .ldcClearAll => true
  | .ldcClearChannel _ => true
  | .wgModelUpdate _ _ ms => decide (ms.length = 40) && ms.all fun m => decide (m.sat ≤ 100)
  | .wgStateSave _ => true
  | .wgsApply _ => true
  | .mainsLow _ => true
  | .mainsLowClear _ => true
  | .bankOvercurrent _ => true
  | .shedHoldExpire _ => true
  | .inrushWindowEnd _ => true
  | .dipBegin _ _ => true
  | .dipEnd _ _ => true
  | .dipBlankingEnd _ => true
  | .wgsClearAll => true
  | .wgsClearChannel _ => true
  | .fieldInputEdge _ _ _ => true
  | .isolationFrameTx => true
  | .fieldFrameRx _ => true
  | .fieldSideFrameRx _ => true
  | .fieldLinkDown => true
  | .fieldSilence _ => true
  | .wireBreak _ => true
  | .wireBreakClear _ => true
  | .outputOverload _ => true
  | .outputThermalShutdown _ => true
  | .outputMismatch _ => true
  | .outputMismatchClear _ => true
  | .quadSupplyFault _ _ => true
  | .quadSupplyRestored _ _ => true
  | .counterSnapshot _ => true
  | .fioApply _ => true
  | .clearFault _ => true
  | .snapshot _ => true
  | .fioClearAll => true
  | .fioClearChannel _ => true
  | .fioClearLink => true
  | .bwkSample _ => true
  | .bwkHbQm _ => true
  | .bwkHbCl _ => true
  | .bwkFault _ => true
  | .bwkPatrol _ _ _ => true
  | .check => true
  | .commit => true
  | .bwkClear => true
  | .coreFailure _ _ _ _ => true
  | .cacheUe _ _ _ => true
  | .poisonConsume _ _ => true
  | .dramRowRepair _ _ => true
  | .msiWrite _ _ _ => true
  | .mtimerInterrupt _ => true
  | .capture => true
  | .cltWdogKick _ => true
  | .cltWdogExpire => true
  | .memoryAccess cls _ _ op => match op with | .dmaRead _ _ _ => decide (cls.val = 1) | _ => true
  | .regionWrite _ _ _ _ => true
  | .mailboxPost _ _ _ => true
  | .mailboxResponse => true
  | .mailboxTimeout _ => true
  | .ack _ _ => true
  | .cancel _ _ => true
  | .hoClaim _ => true
  | .hoRelease _ => true
  | .hoTimeout _ => true
  | .hoWithdraw _ => true
  | .hoReturn _ => true
  | .hoGrant _ => true
  | .debugEnableLower _ => true
  | .debugLifetimeExpire => true
  | .tapInstruction _ => true
  | .wldClearLog => true
  | .wldClearCounters => true
  | .generate _ => true
  | .keyImport _ => true
  | .keyExport => true
  | .keyDestroy _ => true
  | .keyPublic => true
  | .seal => true
  | .keyOpen => true
  | .keyMac => true
  | .macCheck => true
  | .sign => true
  | .verify => true
  | .keyHash => true
  | .derive _ => true
  | .agree _ => true
  | .random => true
  | .tunnelKey => true
  | .mkaIcv => true
  | .mkaSak => true
  | .mkaSakIn => true
  | .challenge => true
  | .challengeExpire => true
  | .transition _ => true
  | .keyDebug => true
  | .attest => true
  | .identity => true
  | .keyClear => true
  | .coldPowerOn => true
  | .resetPin _ => true
  | .logicPowerFail => true
  | .powerFailWarning => true
  | .mainsReturn => true
  | .resetModule _ => true
  | .resetFabric _ => true
  | .resetCluster => true
  | .qmKick _ => true
  | .qmWatchdogExpire => true
  | .resetSourceRelease _ => true
  | .exitStep _ _ _ _ => true
  | .clockConfirmFail _ => true
  | .xtalFail => true
  | .xtalRestored => true
  | .berth => true
  | .berthDone => true
  | .moor _ => true
  | .moorDone => true
  | .underway => true
  | .unberthDone => true
  | .wake _ _ => true
  | .fmapProg _ _ => true
  | .blkctlWrite _ _ _ => true
  | .supercapLow => true
  | .rstClear => true
  | .pairEnable _ => true
  | .pairDisable _ => true
  | .pairHeartbeatTx => true
  | .pairHeartbeatRx _ => true
  | .pairHeartbeatMiss => true
  | .takeoverBind => true
  | .joinWaitExpire => true
  | .dominanceLost _ => true
  | .loopOpen => true
  | .loopRestored => true
  | .mirrorRecordRx _ m => WellFormed.mirrorOk m
  | .mirrorAckRx _ => true
  | .mirrorAckTimeout => true
  | .resyncRequestRx => true
  | .handoverRx _ => true
  | .handover => true
  | .handoverTimeout => true
  | .resync => true
  | .forceSingle _ => true
  | .pairClear => true
  | .stage _ _ => true
  | .activate _ => true
  | .revert _ => true
  | .raiseSvn _ _ => true
  | .converterPhaseFail _ => true
  | .flashBlockFail => true
  | .bulkCapMeasure _ => true
  | .openLoadClear _ _ => true
  | .underCurrentClear _ _ => true
  | .peerLineHigh => true
  | .dupSlotDetected => true
  | .cancelledSlotTimeout _ => true
  | .clockRetry _ _ => true
  | .hostLinkUp => true
  | .supercapRecharged => true
  | .debugHalt _ _ => true

end Sys2Proof
end

