-- ==== Sys2Proof/Tests/Slice0.lean ====
section
/-! SUPPORT. Tests: ill-formed commands are refused by the checks of WellFormed; a witness for the hypotheses of every
statement, at the values where clauses meet; and small tests of single commands with the results the spec gives. -/

namespace Sys2Proof.Tests

set_option Elab.async false

open Sys2Proof Sys2Proof.Machine Sys2Proof.Safety

/-! ## Small states -/

/-- The device after its exit sequence: every domain up, the Quaymaster and the host link running, the march over, the
gates released, the Breakwater running. -/
def up : State :=
  { mem := [], pending := []
    dev := { Dev.reset with
      rst := { inReset := 0, episode := false, nextStep := 6, qmRunning := true, hostLink := true }
      basin := { marching := false }
      ldc := { gateHold := false }
      bwk := { state := .running }
      wld := { lockReady := true, regionsSet := true }
      keys := { ready := true }
      clt := { map := [0, 1, 2, 3, 4, 5, 6, 7] } } }

/-- A state with its device changed. -/
def dv (s : State) (f : Dev → Dev) : State := { s with dev := f s.dev }
/-- A register set. -/
def rg (s : State) (a : Nat) (v : Word) : State := dv s (wr · a v)
/-- A slip set. -/
def sl (s : State) (n : Nat) (x : Slip) : State := dv s (setSlip · n x)
/-- A ring set. -/
def ri (s : State) (n r : Nat) (x : Ring) : State := dv s (setRing · n r x)

/-! ## Witnesses -/

/-- A frame of 60 bytes held by the Basin. -/
def frame1 : Frame := { uid := 1, body := .eth (List.replicate 60 0), inPort := 0, cls := 3, ts := 0 }
/-- Port 0 up with that frame queued at it. -/
def port0 : State :=
  dv (rg up (aPort 0 0) 0x80000000) fun d => { setPort d 0 { link := true } with
    basin := { d.basin with frames := [frame1], nextUid := 2
                            queues := [{ uid := 1, port := 0, cls := 3, cells := 1, dest := .wire }] } }
def snap (g : Word) : LimitSnap :=
  { il := (List.range 112).map fun i => (i, (5 : Word)), el := (List.range 112).map fun i => (i, (5 : Word))
    gr := (List.range 8).map fun i => (i, if i = 0 then g else 0) }

theorem wit_LimitCommitAppliesWhole :
    resultValid up.dev 0x200020 = true ∧ resultValid (rg up 0x200020 0).dev 0x200020 = false ∧
    up.dev.basin.poolCells - 1036 < (97269 : Word).toNat ∧ (97268 : Word).toNat ≤ up.dev.basin.poolCells - 1036 ∧
    (dv up fun d => { d with basin := { d.basin with limitPending := some (snap 97268) } }).dev.basin.limitPending =
      some { il := (List.range 112).map fun i => (i, (fun _ => (5 : Word)) i)
             el := (List.range 112).map fun i => (i, (fun _ => (5 : Word)) i)
             gr := (List.range 8).map fun i => (i, (fun i => if i = 0 then (97268 : Word) else 0) i) } := by decide

theorem wit_SwitchClearsAndLinkChanges :
    (portOf port0.dev 0).link = true ∧ (portOf up.dev 0).link = false ∧ portPowered up.dev 0 = true := by decide

theorem wit_TransmitHighestClassFirst :
    (∀ x ∈ port0.dev.basin.queues, x.port = 0 → x.dest = Dest.wire → x.sending = false) ∧ wireUp port0.dev 0 = true ∧
    bit (rd port0.dev (aPort 0 0)) 28 = false ∧
    wireHead port0.dev 0 3 = some { uid := 1, port := 0, cls := 3, cells := 1, dest := .wire } ∧
    frameOf port0.dev 1 = some frame1 ∧ (portOf port0.dev 0).paused.getLsbD 3 = false ∧
    (∀ b < 8, 3 < b → wireHead port0.dev 0 b = none) ∧ msProtects port0.dev 0 frame1 = false ∧
    (let e : QEntry := { uid := 1, port := 0, cls := 3, cells := 1, dest := .wire, sending := true }
     let s := dv port0 fun d => { d with basin := { d.basin with queues := [e] } }
     (s.dev.basin.queues.find? fun e => e.port == 0 && e.dest == Dest.wire && e.sending) = some e ∧
     frameOf s.dev e.uid = some frame1 ∧ readGood s.dev frame1 .clean = true) := by decide

/-- Two heads at port 0, the higher of them paused; port 8 protected by MACsec with a transmit SA before and at the end of
its PN space; port 0 with gates: closed for class 3, open too briefly, never open long enough. -/
def heads (p : Nat) (x : WirePort) (q : List QEntry) : State :=
  dv (rg up (aPort p 0) 0x80000000) fun d => { setPort d p { x with link := true } with
    basin := { d.basin with frames := [frame1], nextUid := 2, queues := q } }
def at3 (p : Nat) : QEntry := { uid := 1, port := p, cls := 3, cells := 1, dest := .wire }
def sa3 (pn : Nat) : State :=
  dv (rg (rg (heads 8 {} [at3 8]) (aPort 8 0) 0xA0000000) 0x205000 0x10) fun d =>
    { d with ms := [(0, { txSa := some { an := 1, pn := pn, key := [] }, xpn := false })] }
def gated (g : GateList) (k next : Nat) : State :=
  rg (heads 0 { oper := some g, gateIdx := k, gateNext := next } [at3 0]) (aPort 0 0) 0x90000000
def half (i : Nat) : GateList := { entries := [(i, 0x08), (i, 0xF7)], cycle := 2 * i }
theorem wit_TransmitHighestClassFirst_heads :
    (let s := heads 0 { paused := 0x80 } [{ at3 0 with cls := 7 }, at3 0]
     (∀ x ∈ s.dev.basin.queues, x.port = 0 → x.dest = Dest.wire → x.sending = false) ∧ wireUp s.dev 0 = true ∧
     wireHead s.dev 0 3 = some (at3 0) ∧ (wireHead s.dev 0 7).isSome = true ∧ (portOf s.dev 0).paused.getLsbD 7 = true ∧
     (∀ b < 7, 3 < b → wireHead s.dev 0 b = none)) ∧
    (∀ pn ∈ [4294967294, 4294967295], wireUp (sa3 pn).dev 8 = true ∧ wireHead (sa3 pn).dev 8 3 = some (at3 8) ∧
      bit (rd (sa3 pn).dev (aPort 8 0)) 28 = false ∧ msProtects (sa3 pn).dev 8 frame1 = true) ∧
    4294967294 + 1 < pnSpace (msOf (sa3 4294967294).dev 0) ∧ pnSpace (msOf (sa3 4294967295).dev 0) ≤ 4294967295 + 1 ∧
    (let s := gated (half 1000000) 1 0
     (gatesNow s.dev 0).getLsbD 3 = false ∧
     wireTime 0 (wireBytes frame1 false).length false ≤ longestOpen 3 (fitList 2000000 (half 1000000).entries) ∧
     (∀ b < 8, b ≠ 3 → wireHead s.dev 0 b = none) ∧ bit (rd s.dev (aPort 0 0)) 28 = true) ∧
    (let s := gated (half 1000000) 0 1000000
     (gatesNow s.dev 0).getLsbD 3 = true ∧ openFor s.dev 0 3 = some 1000000 ∧ msProtects s.dev 0 frame1 = false ∧
     wireTime 0 (wireBytes frame1 false).length false ≤ 1000000) ∧
    (let s := gated (half 1000000) 0 100
     (gatesNow s.dev 0).getLsbD 3 = true ∧ openFor s.dev 0 3 = some 100 ∧
     100 < wireTime 0 (wireBytes frame1 false).length false) ∧
    (let s := gated (half 64) 0 64
     alwaysOpen 3 (fitList 128 (half 64).entries) = false ∧ (portOf s.dev 0).oper = some (half 64) ∧
     longestOpen 3 (fitList 128 (half 64).entries) < wireTime 0 (wireBytes frame1 false).length false) := by decide

/-- Port 8 with PFC on for every class. -/
def pfc8 : State := rg (rg (rg (dv up (setPort · 8 { link := true })) (aPort 8 0) 0xC0000000) (aPort 8 0x10) 0xFFFF00FF) 0x200018 0
theorem wit_PriorityFlowControl :
    portPowered pfc8.dev 8 = true ∧ wireUp pfc8.dev 8 = true ∧ wireUp up.dev 8 = false ∧
    tget 0 (portOf pfc8.dev 8).pauseEnd 7 ≤ pfc8.dev.wall ∧ 
    (let s := dv pfc8 fun d => { setPort d 8 { link := true, paused := 0x80, pauseStart := [(7, 1000)], ignoreAt := [(7, 1000)] } with
        wall := 1000 + 1000000 * 65535 }
     fld (rd s.dev (aPort 8 0x10)) 31 16 ≠ 0 ∧ (portOf s.dev 8).paused.getLsbD (7 : Fin 8) = true ∧
     tget 0 (portOf s.dev 8).pauseStart 7 + 1000000 * fld (rd s.dev (aPort 8 0x10)) 31 16 ≤ s.dev.wall ∧
     tget 0 (portOf s.dev 8).ignoreAt 7 + 1000000000 ≤ s.dev.wall) ∧
    (∀ c < 8, pfcOn pfc8.dev 8 c = true) ∧ (portOf pfc8.dev 8).ignorePause = 0 ∧
    (∀ c < 8, (List.replicate 8 (1 : BitVec 16)).getD c 0 ≠ 0) ∧
    (portOf (dv pfc8 (setPort · 8 { paused := 0x80, xoff := 0x80 })).dev 8).paused.getLsbD (7 : Fin 8) = true ∧
    (portOf (dv pfc8 (setPort · 8 { paused := 0x80, xoff := 0x80 })).dev 8).xoff.getLsbD (7 : Fin 8) = true ∧
    fld (rd pfc8.dev (aPort 8 0x10)) 31 16 ≠ 0 ∧
    (let s := dv (rg (rg pfc8 (aPort 8 0x10) 0xFFFF00FF) (aPort 8 0x14) 0xFFFF) fun d => { setPort d 8 { link := true, xoff := 0x80 } with
        basin := { d.basin with frames := [{ frame1 with inPort := 8, cls := 7 }] } }
     wireUp s.dev 8 = true ∧ pfcOn s.dev 8 7 = true ∧ (portOf s.dev 8).xoff.getLsbD 7 = true ∧
     limIL s.dev 8 7 - fld (rd s.dev (aPort 8 0x14)) 15 0 ≤ iocc s.dev 8 7 ∧ 0 < iocc s.dev 8 7) := by decide

def gates (n i cyc : Word) : State :=
  rg (rg (rg up (aPort 0 0x18) n) (aGcl 0 0) i) (aPort 0 0x1C) cyc
def gl : GateList := { entries := [(1000000, 0xFF)] }
theorem wit_GateListsAndDeviceTime :
    fld (rd (gates 1 64 1000).dev (aPort 0 0x18)) 6 0 = 1 ∧
    (∀ i < 1, 64 ≤ (rd (gates 1 64 1000).dev (aGcl 0 i)).toNat) ∧
    (rd (gates 1 64 1000).dev (aPort 0 0x1C)).toNat = 1000 ∧
    (rd (gates 1 64 1000000000).dev (aPort 0 0x1C)).toNat = 1000000000 ∧
    fld (rd (gates 0 64 1000).dev (aPort 0 0x18)) 6 0 = 0 ∧ fld (rd (gates 65 64 1000).dev (aPort 0 0x18)) 6 0 = 65 ∧
    (portOf (dv up (setPort · 0 { pendList := some gl })).dev 0).pendList = some gl ∧
    (portOf (dv up (setPort · 0 { pendList := some gl })).dev 0).changeTime ≤ devTime up.dev ∧
    (portOf (dv up (setPort · 0 { oper := some gl })).dev 0).oper = some gl ∧
    (portOf (dv up (setPort · 0 { oper := some gl })).dev 0).gateNext ≤ devTime up.dev ∧
    (1000000 : Int).natAbs ≤ 1000000 ∧ 1000000 < (-1000001 : Int).natAbs := by decide
theorem wit_GateListsAndDeviceTime_refused :
    (rd (gates 1 63 1000).dev (aGcl 0 0)).toNat < 64 ∧ (rd (gates 1 64 999).dev (aPort 0 0x1C)).toNat < 1000 ∧
    1000000000 < (rd (gates 1 64 1000000001).dev (aPort 0 0x1C)).toNat ∧
    (let s := rg (rg (dv up (setPort · 10 { link := true })) (aPort 10 0) 0x80000000) 0x204008 0x80000C00
     bit (rd s.dev 0x204008) 10 = true ∧ portPowered s.dev 10 = true ∧ wireUp s.dev 10 = true ∧ macsecOn s.dev 10 = false) := by
  decide

/-- A slave port at which the module follows a master: it cannot be grandmaster, or its PRIORITY1 is the worse. -/
theorem wit_GateListsAndDeviceTime_follows :
    AsFollows (rg (rg (dv up (setPort · 10 { link := true })) (aPort 10 0) 0x80000000) 0x204008 0x80000400).dev 10 1 0 ∧
    AsFollows (rg (rg (dv up (setPort · 10 { link := true })) (aPort 10 0) 0x80000000) 0x204008 0xC0F80400).dev 10 2 248 ∧
    bit (rd (rg up 0x204008 0x80000001).dev 0x204008) 30 = false ∧
    bit (rd (rg up 0x204008 0x80000001).dev 0x204008) (10 : Fin 16) = false := by
  unfold AsFollows
  decide

theorem wit_BasinTestsAndRetirement :
    State.reset.dev.basin.marching = true ∧
    cellFree (rg up 0x200010 15).dev [] 7 = true ∧ flashWorn up.dev = false ∧
    tget 0 (rg up 0x200010 15).dev.basin.ceCount 7 + 1 < fld (rd (rg up 0x200010 15).dev 0x200010) 3 0 := by decide

/-- The Logbook of slip 0 with one copy to write. -/
def lbk (w : Nat) : State :=
  dv (rg port0 0x206000 0x80040000) fun d => { d with
    basin := { d.basin with copies := [⟨1, 0, 3, 1, 0, 0, 0, 0⟩] }, lb := { d.lb with ctrl := 0x80040000, written := w } }
theorem wit_LogbookRecords :
    bit (rd up.dev 0x206000) 31 = false ∧ bit (0x80040000 : Word) 31 = true ∧ bit (0x80040000 : Word) 0 = false ∧
    lbSlip up.dev = 0 ∧ lbSlip (rg up 0x206004 5).dev ≠ 0 ∧ (slipOf (rg up 0x206004 5).dev 5).state ≠ .active ∧
    (lbk 15).dev.lb.written - (lbk 15).dev.lb.consumed < lbSize (lbk 15).dev ∧
    lbSize (lbk 16).dev ≤ (lbk 16).dev.lb.written - (lbk 16).dev.lb.consumed ∧ frameOf (lbk 0).dev 1 = some frame1 ∧
    readGood (lbk 0).dev frame1 .clean = true ∧
    bit (rd (lbk 1).dev 0x206000) 31 = true ∧ (1 : BitVec 16).toNat < lbSize (lbk 1).dev ∧
    (1 + lbSize (lbk 1).dev - (lbk 1).dev.lb.cons % lbSize (lbk 1).dev) % lbSize (lbk 1).dev ≤
      (lbk 1).dev.lb.written - (lbk 1).dev.lb.consumed ∧ (1 : BitVec 16).toNat ≠ (lbk 1).dev.lb.cons ∧
    (lbk 1).dev.lb.cons < lbSize (lbk 1).dev ∧ (lbk 1).dev.lb.consumed < (lbk 1).dev.lb.written := by decide

/-- A posted write of the physical function that has not been answered yet. -/
def posted : BusAcc :=
  { seq := 1, who := .pf, target := .bar0 0xF0100C, op := .write [⟨0, 4, 5, .silent⟩] false, ts := 0, wall := 0, slip := 0, inc := 0,
    strict := false, silent := true }
/-- The bridge with one access unresolved. -/
def queuedAcc (s : State) (q : BusAcc) : State := dv s fun d => { d with brg := { d.brg with queue := [q] } }
theorem wit_BellFree : BellFree (lbk 1).dev 0 ∧ BellFree (queuedAcc up posted).dev 7 ∧
    ¬ BellFree (queuedAcc up posted).dev 0 ∧ BellFree (queuedAcc (rg up 0x800010 4) posted).dev 5 := by
  unfold BellFree; decide
/-- Semaphore 0 in a state. -/
def sem0 (s : State) (x : Sem) : State := dv s (setSem · 0 x)
def claimed : BusAcc := { posted with target := .bar0 0x1401000, silent := false }
/-- An operation of hart 7 under way in the block of mailbox 0. -/
def held7 : State :=
  sem0 up { held := true, kind := .amo, block := 0x1401000, req := some ⟨.hart 7, 0x1401000, false, .amo .add, 0, 0, .responds⟩ }
/-- A strict write meets nothing; its requester's posted write; another's claimed write of the register; its requester's
operation under way; another's that holds the block. -/
theorem wit_NoneBefore : NoneBefore up .pf 0x100018 ∧ NoneBefore (queuedAcc up posted) .qm 0x1200018 ∧
    ¬ NoneBefore (queuedAcc up posted) .pf 0x100018 := by
  unfold NoneBefore; decide +kernel
theorem wit_NoneBefore_holds : ¬ NoneBefore (queuedAcc up claimed) (.hart 7) (aMbxReq 0 0) ∧
    ¬ NoneBefore held7 (.hart 7) (aRegion 4 63 3) ∧ ¬ NoneBefore held7 .qm (aMbxReq 0 0) ∧
    NoneBefore held7 .qm (aRegion 4 63 3) ∧ NoneBefore held7 .pf 0x100018 := by
  unfold NoneBefore; decide +kernel

def qm1 (l : List (Nat × QmWork)) (shed : Nat) : State := dv up fun d => { d with qm := { queue := l, shed := shed } }
theorem wit_QuaymasterWorkQueue :
    fabricUp up.dev = true ∧ up.dev.qm.queue.length < 2048 ∧ up.dev.qm.shed = 0 ∧ shedLevel 0 (0 + 1) = 0 ∧
    0 < (qm1 [] 1).dev.qm.shed ∧ qmAwake (qm1 [] 0).dev = true ∧
    (qm1 [(2, .other 5), (1, .other 6), (1, .other 7)] 0).dev.qm.queue =
      [(2, .other 5)] ++ (1, .other 6) :: [(1, .other 7)] ∧
    (∀ e ∈ ([(2, .other 5)] : List (Nat × QmWork)), 1 < e.1) ∧
    (∀ e ∈ ([(1, .other 7)] : List (Nat × QmWork)), 1 ≤ e.1) ∧ shedLevel 0 (1 + 1) = 0 ∧
    (qm1 [(5, .punt 1 true)] 0).dev.qm.queue = (5, .punt 1 true) :: [] ∧ shedLevel 0 0 = 0 ∧
    shedLevel (qm1 [] 0).dev.qm.shed (qm1 [] 0).dev.qm.queue.length = 0 := by decide

theorem wit_QuaymasterWorkQueue_levels :
    fabricUp up.dev = true ∧
    (∀ n ∈ [1639, 1945], 0 < shedLevel 0 n) ∧ shedLevel 0 1638 = 0 ∧
    (let q := [(5, QmWork.other 4), (1, .other 6)]
     (qm1 q 1).dev.qm.queue = q ∧ (∀ e ∈ [(1, QmWork.other 6)], 1 ≤ e.1) ∧
     shedLevel (qm1 [] 2).dev.qm.shed 0 < (qm1 [] 2).dev.qm.shed ∧ shedLevel (qm1 [] 1).dev.qm.shed 1433 < 1 ∧
     shedLevel (qm1 [] 2).dev.qm.shed 1740 < 2) ∧
    (qm1 [(5, .punt 1 false)] 0).dev.qm.queue = (5, .punt 1 false) :: [] ∧
    (qm1 [(5, .punt 1 false)] 0).dev.svc.templates = [] ∧
    shedLevel (qm1 [] 0).dev.qm.shed (qm1 [] 0).dev.qm.queue.length = 0 := by decide
/-- A queue of 1,638 items, two of them of class 5: one item more brings level 1. -/
theorem wit_QuaymasterWorkQueue_sheds :
    (let s := qm1 (List.replicate 1636 (1, .other 1) ++ [(5, .other 2), (5, .other 3)]) 0
     fabricUp s.dev = true ∧ s.dev.qm.shed = 0 ∧ 0 < shedLevel 0 (s.dev.qm.queue ++ [(4, QmWork.other 9)]).length) := by
  refine ⟨by decide, rfl, ?_⟩
  simp only [qm1, dv, List.length_append, List.length_replicate, List.length_cons, List.length_nil]
  decide

/-- A frame of the least length, untagged, with VID 0 through PVID 0. -/
def wire60 (n : Nat) : List Byte := List.replicate n 0
theorem wit_WireReceptionChecks :
    portPowered port0.dev 0 = true ∧ wireUp port0.dev 0 = true ∧ eth16 (wire60 59) 12 ≠ 0x8808 ∧
    (wire60 59).length + 4 < 64 ∧ 64 ≤ (wire60 60).length + 4 ∧ (wire60 60).length + 4 ≤ maxLen port0.dev 0 ∧
    maxLen port0.dev 0 < (wire60 (maxLen port0.dev 0 - 3)).length + 4 ∧ macsecOn port0.dev 0 = false ∧
    etherType (wire60 60) ≠ 0x88B6 ∧ etherType (wire60 60) ≠ 0x88CC ∧
    vlanDrops port0.dev 0 (rxVlan port0.dev 0 (wire60 60)).1 = false := by decide

/-- Port 8 with MACsec on, one receive channel with one SA, and a validation mode and replay window. -/
def msRx (v : Word) (w : Word) : State :=
  dv (rg (rg (rg (dv up (setPort · 8 { link := true })) (aPort 8 0) 0xA0000000) 0x205000 v) 0x205004 w) fun d =>
    { d with ms := [(0, { rx := [{ sci := 9, sas := [{ an := 2, last := 100, key := [] }] }] })] }
theorem wit_WireReceptionChecks_macsec :
    (∀ v ∈ [0x000, 0x200, 0x1200], let s := msRx (BitVec.ofNat 32 v) 10
     wireUp s.dev 8 = true ∧ portPowered s.dev 8 = true ∧ macsecOn s.dev 8 = true ∧
     vlanDrops s.dev 8 (rxVlan s.dev 8 (wire60 60)).1 = false ∧ (wire60 60).length + 4 ≤ maxLen s.dev 8) ∧
    msValidate (msRx 0x100 0).dev 0 < 2 ∧ msValidate (msRx 0x200 0).dev 0 = 2 ∧
    (msOf (msRx 0x1200 10).dev 0).rx.find? (·.sci == 9) = some { sci := 9, sas := [{ an := 2, last := 100, key := [] }] } ∧
    ([{ an := 2, last := 100, key := [] }] : List MsRxSa).find? (·.an == 2) = some { an := 2, last := 100, key := [] } ∧
    msTooLate (msRx 0x1200 10).dev 0 100 90 = true ∧ msTooLate (msRx 0x1200 10).dev 0 100 91 = false ∧
    msTooLate (msRx 0x1200 10).dev 0 100 101 = false := by decide +kernel

theorem wit_AdmissionTests :
    up.dev.basin.marching = false ∧ limIL up.dev 0 0 < iocc up.dev 0 0 + cellsOf { frame1 with cls := 0 } ∧
    iocc up.dev 10 7 + cellsOf { frame1 with inPort := 10, cls := 7 } ≤ limIL up.dev 10 7 ∧
    gocc up.dev 7 + cellsOf { frame1 with inPort := 10, cls := 7 } ≤ limGR up.dev 7 ∧
    up.dev.basin.overcommit = false := by decide

/-- A Chart key of kind 0 and an entry with it, in way 0 of its bucket. -/
def cht (f : Chart → Chart) : State := dv up fun d => { d with cht := f d.cht }
def key0 : ChtKey := shadowKey up.dev
def insAt : Nat := bucketOf key0 0
def withKey : State := cht fun c => { c with exact := [(insAt, { c0 := { valid := true } })] }
theorem wit_ChartCommandsWriteEntries :
    resultValid up.dev 0x400014 = true ∧ hasAuthority up.dev = true ∧ keyBad (shadowKey up.dev) = false ∧
    actBad (shadowCopy up.dev false) = false ∧ findExact up.dev (shadowKey up.dev) = none ∧
    (((List.range 4).map (bucketOf (shadowKey up.dev))).find? (bucketFree up.dev)).isSome = true ∧
    (findExact withKey.dev (shadowKey withKey.dev)).isSome = true ∧
    fld (rd (rg up 0x40011C 0xF0000000).dev 0x40011C) 31 28 = 15 ∧
    actBad (shadowCopy (rg up 0x40011C 0xF0000000).dev true) = false ∧
    keyBad (shadowKey (rg up 0x40011C 0xF0000000).dev) = false ∧ rd (rg up 0x40010C 0x30000000).dev 0x40010C = at_ 3 28 ∧
    actBad (shadowCopy (rg up 0x40010C 0x30000000).dev false) = false := by decide +kernel

theorem wit_ChartCommandsIgnoredOrRefused :
    resultValid (rg up 0x400014 0).dev 0x400014 = false ∧
    hasAuthority (dv up fun d => { d with pair := { d.pair with role := .standby } }).dev = false := by decide

theorem wit_ExactThenTernaryThenMiss :
    (inCopy (exactAt withKey.dev (bucketOf key0 0))).valid = true ∧
    keyOf (inCopy (exactAt withKey.dev (bucketOf key0 0))) = key0 ∧
    (∀ w < 4, (inCopy (exactAt up.dev (bucketOf key0 w))).valid = false) := by decide +kernel

/-- Two ternary entries that match every key, at 3 and 5, and an entry at 2 that does not match. -/
def terns : State :=
  let e (k : Word) : ChtEntry := { c0 := { valid := true, k0 := k, m0 := k } }
  cht fun c => { c with tern := [(2, e 1), (3, e 0), (5, e 0)] }
theorem wit_ExactThenTernaryThenMiss_ternary : TernHit terns.dev key0 3 ∧ TernHit terns.dev key0 5 ∧
    (∀ j < 3, ¬ TernHit terns.dev key0 j) ∧
    (∀ w < 4, (inCopy (exactAt terns.dev (bucketOf key0 w))).valid = false) ∧
    (inCopy (ternAt up.dev 0)).valid = false := by
  unfold TernHit; decide +kernel

/-- Item: little-endian, 12 bits from bit 2 of byte 1, to word 5; and as a signal bit 5. -/
def item1 : Word := 0x4AC00805
theorem wit_ExtractionItemValue :
    ([0, 0xFC] : List Byte).length < fld item1 21 11 + ceilDiv (fld item1 28 26 + (fld item1 25 22 + 1)) 8 ∧
    fld item1 21 11 + ceilDiv (fld item1 28 26 + (fld item1 25 22 + 1)) 8 ≤ ([0, 0xFC, 0xFF] : List Byte).length ∧
    itemValue item1 [0, 0xFC, 0xFF] = some 4095 ∧ bit item1 31 = false ∧ bit item1 29 = false ∧
    itemValue (item1 ||| 0xA0000000) [0, 0xFC, 0xFF] = some 3903 ∧ bit (item1 ||| 0xA0000000) 31 = true ∧
    (let s := rg up 0x410000 (item1 ||| 0x80000000)
     itemValue (rd s.dev 0x410000) [0, 0xFC, 0xFF] = some 4095 ∧ bit (rd s.dev 0x410000) 31 = true) := by decide

/-- A control slip 5 and an entry of the slip table for it. -/
def act : Slip := { state := .active, cls := 1, min := 4, max := 8, rxq := 100 }
def ctl : State := sl up 5 act
def det : Slip := { act with state := .detached }
def rst5 (z : SlipReset) : Slip := { act with state := .resetting, reset := some z }
/-- Resource `k` of slip 5 in a state. -/
def own (s : State) (k : Nat) (st : ResState) (rel : RelState) : State :=
  dv s (setRes · k { state := st, release := rel, owner := 5 })
def a0 (v : Word) (s : State) : State := rg s 0x800004 v
def mm (v : Word) (s : State) : State := rg s 0x800008 v

/-- The Quaymaster runs with nothing queued. -/
theorem free_up {s : State} {cls : Nat} (h : qmAwake s.dev = true ∧ s.dev.qm.queue = [] ∧ s.dev.qm.shed = 0) :
    QmFree s.dev cls := ⟨h.1, by simp [h.2.1], h.2.2, by simp [h.2.1]⟩
/-- The Quaymaster runs and its queue is empty: by `free_up` work of any class is taken at once. -/
abbrev QmIdle (s : State) : Prop := qmAwake s.dev = true ∧ s.dev.qm.queue = [] ∧ s.dev.qm.shed = 0
theorem wit_QmFree : QmFree up.dev 2 ∧ QmFree ctl.dev 2 ∧ QmFree (sl up 5 det).dev 2 ∧
    (∀ e ∈ ([(3, .other 1)] : List (Nat × QmWork)), 2 < e.1) ∧
    QmFree (qm1 (List.replicate 1599 (3, .other 1)) 0).dev 2 :=
  ⟨free_up (by decide), free_up (by decide), free_up (by decide), by decide,
    ⟨by decide, by intro e he; rw [(List.mem_replicate.mp he).2]; decide, by decide, by
      show (List.replicate 1599 ((3, .other 1) : Nat × QmWork)).length < 1600
      rw [List.length_replicate]; decide⟩⟩

theorem wit_SlipCommandsAndTheirOutcomes :
    (let s := mm 0x0E000E00 (a0 0x80017BF4 up)
     resultValid s.dev 0x80000C = true ∧ qmAwake s.dev = true ∧ s.dev.qm.queue = [] ∧ hasAuthority s.dev = true ∧
     fld (rd s.dev 0x800004) 31 30 = 2 ∧ fld (rd s.dev 0x800004) 16 0 = 97268 ∧
     argMin (rd s.dev 0x800008) = argMax (rd s.dev 0x800008) ∧ argMax (rd s.dev 0x800008) ≤ 4096 ∧
     (slipOf s.dev 5).state = .free ∧ minSum s.dev + argMin (rd s.dev 0x800008) ≤ 4096) ∧
    (let s := mm 0x10000FFC (sl up 5 det)
     argMax (rd s.dev 0x800008) = 4096 ∧ argMin (rd s.dev 0x800008) ≤ argMax (rd s.dev 0x800008) ∧
     (slipOf s.dev 5).state = .detached ∧ (∀ k < 88, (resOf s.dev k).owner ≠ 5) ∧
     4096 < minSum s.dev + argMin (rd s.dev 0x800008)) ∧
    (let s := mm 0x1000004 (sl up 5 det)
     minSum s.dev - (slipOf s.dev 5).min + argMin (rd s.dev 0x800008) ≤ 4096) ∧
    (let s := a0 0x00000FFF up
     fld (rd s.dev 0x800004) 16 0 = 4095 ∧ s.dev.slips.vfEnable = false ∧
     ∀ n ∈ created s.dev, n = 0 ∨ (n ≤ fld (rd s.dev 0x800004) 16 0 ↔ n ≤ hostMax s.dev)) ∧
    fld (rd (a0 0xC0000000 up).dev 0x800004) 31 30 = 3 ∧
    argMax (rd (mm 0x00000001 up).dev 0x800008) < argMin (rd (mm 0x00000001 up).dev 0x800008) ∧
    (slipOf (sl up 5 (rst5 {})).dev 5).state = .resetting ∧ (slipOf ctl.dev 5).state = .active ∧
    (resOf (own ctl 87 .held .off).dev 87).owner = 5 ∧ resultValid (rg up 0x80000C 0).dev 0x80000C = false ∧
    qmAwake (dv up fun d => { d with clt := { d.clt with qmHalted := true } }).dev = false ∧
    (qm1 [(2, .slp 1 5 0 0)] 0).dev.qm.queue = (2, .slp 1 5 0 0) :: [] := by decide

/-- A Standby, which has no authority. -/
def noAuth (s : State) : State := dv s fun d => { d with pair := { d.pair with role := .standby } }
theorem wit_SlipCommandsAndTheirOutcomes_noAuthority :
    (∀ s ∈ [up, ctl, sl up 5 det, own ctl 87 .commanded .on], hasAuthority (noAuth s).dev = false ∧
      resultValid (noAuth s).dev 0x80000C = true ∧ qmAwake (noAuth s).dev = true ∧ (noAuth s).dev.qm.queue = []) ∧
    (let s := noAuth (a0 0x80017BF4 up)
     fld (rd s.dev 0x800004) 31 30 < 3 ∧ fld (rd s.dev 0x800004) 16 0 ≤ 97268 ∧ argMin (rd s.dev 0x800008) ≤ 4096 ∧
     argMax (rd s.dev 0x800008) ≤ 4096 ∧ (slipOf s.dev 5).state = .free) ∧
    (slipOf (noAuth ctl).dev 5).state ≠ .free ∧
    argRes (rd (noAuth (a0 0x27 ctl)).dev 0x800004) = some 39 ∧ fld (rd (noAuth (a0 0x27 ctl)).dev 0x800004) 29 28 < 3 ∧
    argRes (rd (noAuth (a0 0x8000000F ctl)).dev 0x800004) = some 87 ∧
    fld (rd (noAuth (a0 0x8000000F ctl)).dev 0x800004) 29 28 < 3 ∧
    (let s := noAuth (own (a0 0x8000000F ctl) 87 .commanded .on)
     (resOf s.dev 87).owner = 5 ∧ (resOf s.dev 87).state ≠ .unbound) ∧
    (resOf (noAuth (a0 0x8000000F ctl)).dev 87).owner = 0 := by decide +kernel

theorem wit_ResourcesBindReleaseUnbind :
    (let s := rg (a0 0x6000001F ctl) (fioBase 31) 0x80000000
     argRes (rd s.dev 0x800004) = some 71 ∧ fld (rd s.dev 0x800004) 29 28 = 2 ∧ (slipOf s.dev 5).cls = 1 ∧ (resOf s.dev 71).owner = 0) ∧
    fieldMode (rg ctl (fioBase 31 + 8) 0x80000000).dev 31 = 2 ∧ fieldMode ctl.dev 31 ≠ 2 ∧
    argRes (rd (a0 0x27 ctl).dev 0x800004) = some 39 ∧ argRes (rd (a0 0x28 ctl).dev 0x800004) = none ∧ argRes (rd (a0 0x8000000F ctl).dev 0x800004) = some 87 ∧
    (resOf (own ctl 39 .released .off).dev 39).state = .released ∧
    (resOf (own ctl 39 .commanded .hold).dev 39).release = .hold ∧ (resOf (own ctl 87 .held .on).dev 87).owner = 5 ∧
    (slipOf (sl up 5 { act with cls := 2 }).dev 5).cls ≠ 1 ∧ (slipOf (sl up 5 (rst5 {})).dev 5).state = .resetting ∧
    (resOf (dv ctl (setRes · 0 { state := .commanded, owner := 6 })).dev 0).owner ≠ 0 ∧
    (resOf (dv ctl (setRes · 0 { state := .commanded, owner := 6 })).dev 0).owner ≠ 5 := by decide

theorem wit_ResourcesBindReleaseUnbind_unreleased :
    (let s := own (a0 0x8000000F ctl) 87 .commanded .on
     argRes (rd s.dev 0x800004) = some 87 ∧ (resOf s.dev 87).state ≠ .released ∧ (slipOf s.dev 5).state = .active ∧
     (resOf s.dev 87).owner ≠ 0) ∧
    (resOf (a0 0x8000000F ctl).dev 87).owner = 0 ∧ (resOf (a0 0x8000000F ctl).dev 87).state ≠ .released ∧
    (let s := dv (a0 0x8000000F ctl) (setRes · 87 { state := .released })
     (resOf s.dev 87).owner = (0 : Fin 4096).val ∧ (resOf s.dev 87).state = .released) := by decide

/-- The same slip as a host slip with its virtual function. -/
def host5 : State := dv (rg ctl 0x800010 5) fun d => { d with slips := { d.slips with vfEnable := true, numVfs := 5 } }
theorem wit_SlipResetAndRemoval :
    internalSlip (rg ctl 0x800010 4).dev 5 = true ∧ (slipOf ctl.dev 5).state = .active ∧
    internalSlip host5.dev 5 = false ∧
    vfExists host5.dev 5 = true ∧ (slipOf host5.dev 5).state = .active ∧ resultValid ctl.dev 0x80000C = true ∧
    up.dev.rst.hostLink = true ∧
    (let s := sl up 5 (rst5 { drained := 65535, squashed := 65535 })
     (slipOf s.dev 5).state = .resetting ∧ inFlightDesc s.dev 5 = []) ∧
    5 ≤ hostMax (rg (sl up 5 det) 0x800010 5).dev ∧ (slipOf (rg (sl up 5 det) 0x800010 5).dev 5).state = .detached := by
  decide

/-- Ring 0 of slip 5: 16 entries each way, from memory 0x1000 and 0x2000. -/
def ring5 (x : Ring) : State :=
  ri (rg (rg (rg ctl (ringBase 5 0 + 0x10) 0x84400000) (ringBase 5 0) 0x1000) (ringBase 5 0 + 8) 0x2000) 5 0 x
/-- Every tag of PCIe and of the fabric in use. -/
def noTags (s : State) : State :=
  dv s fun d => { d with slips := { d.slips with outst := (List.range 512).flatMap fun t =>
    [{ tag := t, fabric := true, slip := 9, ring := 0, idx := 0, off := 0 },
     { tag := t, fabric := false, slip := 9, ring := 0, idx := 0, off := 0 }] } }
def run5 (l : List Desc) : Ring := { active := true, fetchOn := true, inflight := l }
theorem wit_RingsDoorbellsAndFetches :
    (ringOf ctl.dev 5 0).active = false ∧ 4 ≤ fld (0x84400000 : Word) 27 24 ∧ 4 ≤ fld (0x84400000 : Word) 23 20 ∧
    bit (0x84400000 : Word) 31 = true ∧ fld (0x83400000 : Word) 27 24 < 4 ∧ fld (0x84300000 : Word) 23 20 < 4 ∧
    (ringOf (ring5 (run5 [])).dev 5 0).active = true ∧ (ringOf (ring5 (run5 [])).dev 5 0).fetchOn = true ∧
    (ringOf (ring5 { run5 [] with fetchOn := false }).dev 5 0).err < 2 ∧
    (15 : BitVec 16).toNat < sqSize (ring5 (run5 [])).dev 5 0 ∧ (15 : BitVec 16).toNat < cqSize (ring5 (run5 [])).dev 5 0 ∧
    (let s := ring5 { run5 [] with cqTail := 15 }
     (15 + cqSize s.dev 5 0 - (ringOf s.dev 5 0).cqHead) % cqSize s.dev 5 0 ≤
       ((ringOf s.dev 5 0).cqTail + cqSize s.dev 5 0 - (ringOf s.dev 5 0).cqHead) % cqSize s.dev 5 0) ∧
    bit (ringCfg (ring5 (run5 [])).dev 5 0) 31 = true ∧
    (let s := rg (ring5 { run5 [] with sqTail := 1 }) 0x800010 5
     (ringOf s.dev 5 0).sqHead ≠ (ringOf s.dev 5 0).sqTail ∧ manifestFree s.dev 5 = true ∧
     cqUsed s.dev 5 0 + 1 < cqSize s.dev 5 0 ∧ rxMode s.dev 5 0 = false ∧ internalSlip s.dev 5 = false ∧
     s.dev.slips.waits = [] ∧ freeTag s.dev 5 = some 0) ∧
    (let s := noTags (rg (ring5 { run5 [] with sqTail := 1 }) 0x800010 5)
     fetchable s.dev 5 0 = true ∧ s.dev.slips.waits = [] ∧ freeTag s.dev 5 = none) ∧
    (let s := ring5 { run5 [] with cqTail := 15 }
     cqSize s.dev 5 0 ≤ cqUsed s.dev 5 0 + 1) ∧
    (ringOf (ring5 (run5 [{ idx := 7 }, { idx := 8 }])).dev 5 0).inflight =
      [{ idx := 7 }] ++ { idx := 8 } :: [] ∧
    internalSlip (rg (ring5 (run5 [])) 0x800010 4).dev 5 = true ∧ (ringOf (ring5 (run5 [])).dev 5 0).err ≠ 3 ∧
    (let o : ReadOut := { tag := 767, fabric := false, slip := 5, ring := 0, idx := 7, off := 0 }
     let s := dv (ring5 (run5 [{ idx := 7 }])) fun d => { d with slips := { d.slips with outst := [o] } }
     s.dev.slips.waits = [] ∧ (s.dev.slips.outst.find? fun o => o.fabric == false && o.tag == 767) = some o ∧
     o.live = true ∧ (ringOf s.dev 5 0).inflight = { idx := 7 } :: [] ∧ ({ idx := 7 } : Desc).stage = .fetching) ∧
    descCheck (ring5 (run5 [{ idx := 7 }])).dev 5 0
      { idx := 7, words := (List.range 16).map (leWord (List.replicate 64 0)) } = none := by decide +kernel

/-- A FREE slip with a virtual function; doorbells behind a posted write of slip 5's owner; the reasons not to fetch. -/
theorem wit_RingsDoorbellsAndFetches_bells :
    (let s := dv (rg up 0x800010 5) fun d => { d with slips := { d.slips with vfEnable := true, numVfs := 5 } }
     (slipOf s.dev 5).state = .free ∧ vfExists s.dev 5 = true) ∧
    BellFree host5.dev 5 ∧ BellFree (ring5 (run5 [])).dev 5 ∧ ¬ BellFree (queuedAcc host5 { posted with who := .vf 5 }).dev 5 ∧
    fabricUp State.reset.dev = false ∧ parked (dv up fun d => { d with rst := { d.rst with pstate := .berthed } }).dev = true ∧
    (let s := rg (ring5 { run5 [] with sqTail := 1 }) 0x800010 4
     fabricUp s.dev = true ∧ internalSlip s.dev 5 = true) := by unfold BellFree; decide

/-- A descriptor of one operation, with its words 4 to 7. -/
def dsc (op : Nat) (w4 w5 w6 w7 : Word) : Desc :=
  { idx := 0, stage := .ready, words := [at_ op 24, 0, 0, 0, w4, w5, w6, w7, 0, 0, 0, 0, 0, 0, 0, 0] }
theorem front1 {s : State} {n r : Nat} {x : Desc} (h : (ringOf s.dev n r).inflight = [x] ∧
    (slipOf s.dev n).state = .active ∧ (slipOf s.dev n).reset = none) : AtFront s n r x [] :=
  ⟨h.1, (by simp), h.2⟩
theorem ready1 {s : State} {n r : Nat} {x : Desc} (h : ((ringOf s.dev n r).inflight = [x] ∧
    (slipOf s.dev n).state = .active ∧ (slipOf s.dev n).reset = none) ∧ x.stage = .ready ∧
    descCheck s.dev n r x = none) : ReadyAtFront s n r x [] :=
  ⟨front1 h.1, h.2.1, (by simp), h.2.2⟩

/-- Slip 5 of a class, with that descriptor alone in its ring. -/
def hand (cls : Nat) (x : Desc) : State := sl (ring5 (run5 [x])) 5 { act with cls := cls }
/-- The same in receive mode. -/
def handRx (x : Desc) : State := rg (hand 0 x) (ringBase 5 0 + 0x10) 0xC4400000
def rec0 (n : Word) : LogRec := ⟨n, 0, 0, 0, 0, 0, 0, 0⟩
def logged (s : State) (l : List LogRec) : State := dv s fun d => { d with log := { d.log with flash := l } }

theorem wit_OperationsComplete :
    ReadyAtFront (hand 0 (dsc 0x00 0 0 0 0)) 5 0 (dsc 0x00 0 0 0 0) [] ∧
    ReadyAtFront (hand 1 (dsc 0x21 0 39 0 0)) 5 0 (dsc 0x21 0 39 0 0) [] ∧
    ReadyAtFront (hand 1 (dsc 0x23 0 31 0 0)) 5 0 (dsc 0x23 0 31 0 0) [] ∧
    ReadyAtFront (hand 3 (dsc 0x31 64 7 0 0)) 5 0 (dsc 0x31 64 7 0 0) [] ∧
    ReadyAtFront (own (hand 1 (dsc 0x24 0 15 1 3)) 87 .held .off) 5 0 (dsc 0x24 0 15 1 3) [] ∧
    ReadyAtFront (hand 1 (dsc 0x20 0 0x127 0 0)) 5 0 (dsc 0x20 0 0x127 0 0) [] ∧
    ReadyAtFront (hand 1 (dsc 0x22 0 0x11F 0 0)) 5 0 (dsc 0x22 0 0x11F 0 0) [] ∧
    (∀ e ∈ [rec0 6], serialBefore e.seq (dw (dsc 0x31 64 7 0 0) 5) = true) ∧
    serialBefore (rec0 7).seq (dw (dsc 0x31 64 7 0 0) 5) = false ∧
    QmFree (logged (hand 3 (dsc 0x31 64 7 0 0)) [rec0 6]).dev 4 ∧
    qmAwake (dv (hand 3 (dsc 0x31 64 7 0 0)) fun d => { d with clt := { d.clt with qmHalted := true } }).dev = false ∧
    resKey (dsc 0x20 0 0x127 0 0) = some 39 ∧ (resOf (hand 1 (dsc 0x20 0 0x127 0 0)).dev 39).owner ≠ 5 :=
  ⟨ready1 (by decide), ready1 (by decide), ready1 (by decide), ready1 (by decide), ready1 (by decide),
    ready1 (by decide), ready1 (by decide), by decide, by decide, free_up (by decide), by decide, by decide, by decide⟩

def txE : Desc := dsc 0x10 60 0 0 0
def txC : Desc := dsc 0x11 0 0 0 0
def rxB : Desc := dsc 0x01 2048 0 0 0
def waiting : State :=
  dv (handRx rxB) fun d => { d with basin := { d.basin with frames := [frame1], nextUid := 2
                                                            queues := [{ uid := 1, port := 11, cls := 3, cells := 1
                                                                         dest := .slip 5 0 }] } }
theorem wit_TransmitAndReceiveDescriptors :
    ReadyAtFront (hand 0 txE) 5 0 txE [] ∧ bit (dw txE 5) 31 = false ∧ (hand 0 txE).dev.slips.waits = [] ∧
    0 < txLen txE ∧ freeTag (hand 0 txE).dev 5 = some 0 ∧
    txLen txE ≤ partLen (hand 0 txE).dev (dataWait 5 0 txE) ∧
    ReadyAtFront (noTags (hand 0 txE)) 5 0 txE [] ∧ freeTag (noTags (hand 0 txE)).dev 5 = none ∧
    (wire60 60).length = txLen txE ∧
    ReadyAtFront (dv (hand 0 txE) fun d => { d with basin := { d.basin with marching := true } }) 5 0 txE [] ∧
    ReadyAtFront (hand 0 (dsc 0x11 8 0 0 0)) 5 0 (dsc 0x11 8 0 0 0) [] ∧ 0 < txLen (dsc 0x11 8 0 0 0) ∧
    ReadyAtFront (hand 0 txC) 5 0 txC [] ∧ txLen txC = 0 ∧
    ReadyAtFront waiting 5 0 rxB [] ∧
    rxHead waiting.dev 5 0 = some { uid := 1, port := 11, cls := 3, cells := 1, dest := .slip 5 0 } ∧
    frameOf waiting.dev 1 = some frame1 ∧ readGood waiting.dev frame1 .clean = true ∧
    AtFront (hand 0 { txC with stage := .started, named := 3, sent := 1, failed := 2 }) 5 0
      { txC with stage := .started, named := 3, sent := 1, failed := 2 } [] :=
  ⟨ready1 (by decide), by decide, by decide, by decide, by decide, by decide, ready1 (by decide),
    by decide +kernel, by decide, ready1 (by decide), ready1 (by decide), by decide, ready1 (by decide), by decide,
    ready1 (by decide), by decide, by decide, by decide, front1 (by decide)⟩
/-- The frame of the 60 bytes that the TX_ETH reads is admitted, and its entry is one of the Basin's. -/
theorem wit_TransmitAndReceiveDescriptors_sent :
    (let s := rg (rg (hand 0 txE) (0x201800 + 4 * 88) 1) 0x201C00 1
     SentFrame s 5 0 txE (wire60 60) (ethFrame s.dev 5 0 txE (wire60 60)) ∧
     (enterBasin s.dev (ethFrame s.dev 5 0 txE (wire60 60))).1 = some s.dev.basin.nextUid) :=
  ⟨⟨rfl, rfl, rfl, fun _ => ⟨rfl, rfl⟩, fun h => absurd h (by decide)⟩, by decide +kernel⟩

/-- With a limit of 0 cells of its port and class the same frame is refused. -/
theorem wit_TransmitAndReceiveDescriptors_refused :
    (let f := ethFrame (hand 0 txE).dev 5 0 txE (wire60 60)
     SentFrame (hand 0 txE) 5 0 txE (wire60 60) f ∧ (hand 0 txE).dev.basin.marching = false ∧
     (let s := rg (hand 0 txE) (0x201800 + 4 * 88) 0
      limIL s.dev f.inPort f.cls < iocc s.dev f.inPort f.cls + cellsOf f)) :=
  ⟨⟨rfl, rfl, rfl, fun _ => ⟨rfl, rfl⟩, fun h => absurd h (by decide)⟩, by decide, by decide +kernel⟩

def setOn (k : Nat) : Desc := dsc 0x20 0 (0x100 + BitVec.ofNat 32 k) 0 0
def fset (v : Word) : Desc := dsc 0x22 0 v 0 0
def owned (x : Desc) (k : Nat) : State := own (hand 1 x) k .commanded .off
theorem wit_OutputCommandsComplete :
    ReadyAtFront (owned (setOn 39) 39) 5 0 (setOn 39) [] ∧ boundTo (owned (setOn 39) 39).dev 5 39 = true ∧
    fld (dw (setOn 39) 5) 9 8 = 1 ∧ fld (dw (setOn 39) 5) 5 0 = 39 ∧
    (loadOf (owned (setOn 39) 39).dev 39).permit = false ∧
    (loadOf (dv (owned (setOn 39) 39) (setLoad · 39 { forced := true })).dev 39).forced = true ∧
    (let s := dv (owned (setOn 39) 39) (setLoad · 39 { permit := true, recorded := true, gate := true })
     wantOn s.dev 39 = true ∧ (loadOf s.dev 39).gate = true) ∧
    (let s := dv (owned (setOn 39) 39) (setLoad · 39 { permit := true })
     (loadOf s.dev 39).permit = true ∧ supplyOff s.dev 39 = false ∧ s.dev.ldc.gateHold = false ∧
     (loadOf s.dev 39).slState = .off ∧ 39 ∉ (bankOf s.dev (bankIdx 39)).queue) ∧
    ReadyAtFront (owned (fset 0x11F) 71) 5 0 (fset 0x11F) [] ∧ boundTo (owned (fset 0x11F) 71).dev 5 71 = true ∧
    (let s := dv (owned (fset 0x11F) 71) fun d => { setField d 31 { permit := true } with
        fio := { (setField d 31 { permit := true }).fio with up := true } }
     (fieldOf s.dev 31).permit = true ∧ s.dev.fio.up = true ∧ groupSafe s.dev 31 = false ∧ quadBad s.dev 31 = false ∧
     (fieldOf s.dev 31).repDrive = (!bit (dw (fset 0x11F) 5) 8)) ∧
    AtFront (owned { setOn 39 with stage := .started } 39) 5 0 { setOn 39 with stage := .started } [] ∧
    AtFront (owned { fset 0x11F with stage := .started } 71) 5 0 { fset 0x11F with stage := .started } [] :=
  ⟨ready1 (by decide), by decide, by decide, by decide, by decide, by decide, by decide, by decide,
    ready1 (by decide), by decide, by decide, front1 (by decide), front1 (by decide)⟩

theorem wit_MessagesAndDeviceLog :
    up.dev.log.flash.length + up.dev.log.staging.length ≤ 262144 ∧
    (let s := rg (rg (sl up 5 { act with pba := 0x80 }) (slipWin 5 + 4) 0x80000000) 0x800010 4
     (slipOf s.dev 5).state ≠ .free ∧ msixOpen s.dev 5 = true ∧ (slipOf s.dev 5).pba.getLsbD (7 : Fin 8) = true ∧
     (slipOf s.dev 5).pba.getLsbD (6 : Fin 8) = false) ∧
    (ringOf (ring5 { run5 [] with held := true }).dev 5 0).owed = false ∧
    (ringOf (ring5 { run5 [] with held := true, owed := true }).dev 5 0).owed = true ∧
    (ringOf (ring5 (run5 [])).dev 5 0).held = false := by decide

def blocked : State := rg up 0x1300018 0x100
def allHeld : State :=
  dv up fun d => { d with brg := { d.brg with sems := (List.range 64).map fun k => (k, { held := true }) } }
def resv (h : Nat) (b : Bool) : Sem := { held := true, kind := .lr, broken := b, block := ldcWord1 39 / 8 * 8, hart := h }

/-- The one access in the bridge's queue: a write of word 1 of channel 39 by the physical function, not answered yet. -/
def pendingWrite : BusAcc :=
  { seq := 1, who := .pf, target := ldcWord1At 39, op := .write [⟨0, 4, 5, .silent⟩] false, ts := 0, wall := 0, slip := 0, inc := 0,
    strict := false, silent := true }

theorem wit_RegisterWritesAndTheirFailures :
    fabricUp up.dev = true ∧ bit (rd up.dev 0xC00000) 31 = false ∧ up.dev.brg.queue = [] ∧
    blockBusy up.dev .pf (ldcWord1 39) = false ∧
    (0x2000000 : BitVec 26).toNat % 4 = 0 ∧ regDesc 0x2000000 = none ∧ peripheral 0x2000000 = false ∧
    barBlock 0x2000000 ≠ 1 ∧ regDesc 0x300000 = none ∧ peripheral 0x300000 = false ∧ barBlock 0x300000 ≠ 1 ∧
    barBlock 0x100000 = 1 ∧ BusFree up.dev .pf ∧ BusFree up.dev .qm ∧
    (slipOf up.dev 0).state ≠ .free ∧ (slipOf up.dev 0).state ≠ .resetting ∧ fabricUp State.reset.dev = false ∧
    (let s := dv up fun d => { d with brg := { d.brg with queue := [pendingWrite] } }
     fabricUp s.dev = true ∧ s.dev.brg.queue = [pendingWrite] ∧
     pendingWrite.op = .write [⟨0, 4, 5, .silent⟩] false) := by unfold BusFree; decide

/-- The rows that write peripheral space: performed at once; no path; behind another requester's operation or a posted write;
their block in reset or in hand-over; World S owns the block and the Lock is out. -/
abbrev rows : List (Nat × Instr) := PeripheralRows 15 39 31 63 0x80000000
theorem wit_RowReady : ∀ c ∈ rows, RowReady up.dev c.1 := by unfold RowReady BusFree; decide +kernel
theorem wit_RegisterWritesAndTheirFailures_rows :
    (∀ c ∈ rows, farCause State.reset.dev c.1 ≠ 3 ∧ fabricUp State.reset.dev = false ∧
      farCause (queuedAcc up posted).dev c.1 ≠ 3 ∧ fabricUp (queuedAcc up posted).dev = true) ∧
    (∃ q ∈ (queuedAcc up posted).dev.brg.queue, q.who = .pf ∧ isPosted q = true) ∧
    (∀ c ∈ rows,
      let r : AtomicReq := ⟨.hart 7, c.1, false, .amo .add, 0, 0, .responds⟩
      blockBusy (sem0 up { held := true, kind := .amo, block := c.1 / 8 * 8, req := some r }).dev .pf c.1 = true) ∧
    (let s := (List.range 23).foldl (fun s b => rg s (0x100080 + 4 * b) 1) up
     ∀ c ∈ rows.take 11, farCause s.dev c.1 = 4 ∧ fabricUp s.dev = true ∧ s.dev.brg.queue = [] ∧ blockBusy s.dev .pf c.1 = false ∧
       bit (rd s.dev 0xC00000) 31 = false) ∧
    (let s := dv up fun d => setHo { d with clt := { d.clt with lockHalted := true } } 15 { state := .sOwned }
     farCause s.dev (canBase 15) = 3 ∧ lockUp s.dev = false) ∧
    (let s := dv up fun d => setHo d 15 { state := .toN }
     farCause s.dev (netBase 15) = 4 ∧ fabricUp s.dev = true ∧ s.dev.brg.queue = []) ∧
    farCause up.dev (ldcWord1 39) = 0 := by decide +kernel
theorem wit_RegisterWritesAndTheirFailures_strict (at_ : Nat) : allStrictAt up.dev at_ = false := by
  have h1 : bit (rd up.dev 0xC00000) 31 = false := by decide
  have h2 : up.dev.brg.strictWas = false := by decide
  simp [allStrictAt, h1, h2]

theorem wit_AtomicOperationsAndReservations :
    bit (rd blocked.dev 0x1300018) 8 = true ∧ freeSem blocked.dev = some 0 ∧ BusFree blocked.dev (.hart 7) ∧
    BusFree blocked.dev .pf ∧ blockBusy blocked.dev (.hart 7) (ldcWord1 39) = false ∧
    atomicOn blocked.dev (ldcWord1 39) = false ∧ atomicOn blocked.dev 0xF00000 = false ∧
    fabricUp blocked.dev = true ∧ peripheral (0x000000 : BitVec 26).toNat = false ∧
    (0xF01004 : BitVec 26).toNat % 8 ≠ 0 ∧ (0xF01006 : BitVec 26).toNat % 4 ≠ 0 ∧
    freeSem allHeld.dev = none ∧ BusFree allHeld.dev .pf ∧
    (let s := sem0 up { held := true, kind := .amo, block := ldcWord1 39 / 8 * 8 }
     BusFree s.dev .pf ∧ atomicOn s.dev (ldcWord1 39) = true) ∧
    (let s := sem0 up { held := true, kind := .amo, req := some ⟨.pf, ldcWord1 39, false, .amo .swap, 5, 0, .responds⟩ }
     (semOf s.dev 0).held = true ∧ s.dev.brg.queue = []) ∧
    reservationOf blocked.dev 7 = none ∧ reservationOf (sem0 blocked (resv 7 false)).dev 7 = some 0 ∧
    BusFree (sem0 blocked (resv 7 false)).dev (.hart 7) ∧
    blockBusy (sem0 blocked (resv 7 false)).dev (.hart 7) (ldcWord1 39) = false ∧
    (semOf (sem0 blocked (resv 7 false)).dev 0).block = ldcWord1 39 / 8 * 8 ∧
    (sem0 blocked (resv 7 false)).dev.wall - (semOf (sem0 blocked (resv 7 false)).dev 0).at_ <
      resTimeout (sem0 blocked (resv 7 false)).dev ∧
    (let s := dv (sem0 blocked (resv 7 false)) fun d => { d with wall := resTimeout blocked.dev }
     resTimeout s.dev ≤ s.dev.wall - (semOf s.dev 0).at_) ∧
    (semOf (sem0 blocked (resv 7 true)).dev 0).broken = true := by unfold BusFree; decide

def xlMsg : CanMsg := { id := 0x7FF, fmt := 4, data := [1] }
/-- Stream 255 sending and receiving in mode 2 without authentication, and a frame queued at the engine. -/
def stream : State := rg up (tunBase 255) 0xE0000000
def atEngine (b : FrameBody) (t : Bool) (dst : Dest) : State :=
  dv stream fun d => { d with basin := { d.basin with
    frames := [{ frame1 with body := b, tunnelled := t }], nextUid := 2
    queues := [{ uid := 1, port := 13, cls := 3, cells := 1, dest := dst }] } }
theorem wit_TunnelStreams :
    fld (rd stream.dev (tunBase 255)) 31 30 ≠ 0 ∧ fld (rd up.dev (tunBase 255)) 31 30 = 0 ∧
    (streamOf up.dev 255).valid1 = false ∧
    (streamOf (dv up (setStream · 255 { valid1 := true })).dev 255).valid1 = true ∧
    (let s := atEngine (.can xlMsg 0 false) false (.wrap 255)
     tunHead s.dev = some { uid := 1, port := 13, cls := 3, cells := 1, dest := .wrap 255 } ∧
     frameOf s.dev 1 = some { frame1 with body := .can xlMsg 0 false } ∧
     readGood s.dev { frame1 with body := .can xlMsg 0 false } .clean = true ∧ wrapRefusal s.dev 255 xlMsg = none ∧
     wrapRefusal (rg s (tunBase 255) 0).dev 255 xlMsg = some 3) ∧
    (let s := atEngine (.eth (wire60 60)) true .unwrap
     tunHead s.dev = some { uid := 1, port := 13, cls := 3, cells := 1, dest := .unwrap } ∧
     frameOf s.dev 1 = some { frame1 with tunnelled := true } ∧
     readGood s.dev { frame1 with tunnelled := true } .clean = true) ∧
    (let s := atEngine (.eth (wire60 60)) false .unwrap
     frameOf s.dev 1 = some frame1 ∧ readGood s.dev frame1 .clean = true) ∧ etherType (wire60 60) ≠ 0x22F0 ∧
    etherType (wire60 60) ≠ 0x88B5 := by decide

theorem wit_UnwrapRecoversWrappedFrame :
    (let s := atEngine (.eth (wrapBuild stream.dev 255 xlMsg 7).1) false .unwrap
     tunHead s.dev = some { uid := 1, port := 13, cls := 3, cells := 1, dest := .unwrap } ∧
     frameOf s.dev 1 = some { frame1 with body := .eth (wrapBuild s.dev 255 xlMsg 7).1 } ∧ tunMode s.dev 255 = 2 ∧
     tunAuth s.dev 255 = false ∧ rxStream s.dev (tunSid s.dev 255) (tunBus s.dev 255) true = some 255 ∧
     readGood s.dev { frame1 with body := .eth (wrapBuild s.dev 255 xlMsg 7).1 } .clean = true) ∧
    xlMsg.fmt = 4 ∧ xlMsg.data.length = 1 ∧ xlMsg.id.toNat ≤ 0x7FF ∧ xlMsg.rtr = false ∧ xlMsg.brs = false ∧
    xlMsg.esi = false ∧ xlMsg.dlc = 0 :=
  ⟨⟨by decide, rfl, by decide, by decide, by decide +kernel, by decide⟩, by decide⟩

/-- Channel 15 in a state, its network machine off. -/
def can15 (c : Can) : State := dv up (setCan · 15 c)
def tim (w : Word) : State := rg (can15 { state := .config }) (canBase 15 + 0x10) w
/-- The timing of channel 15 in `w` passes every check. -/
abbrev timOk (w : Word) : Prop :=
  let v := rd (tim w).dev (canBase 15 + 0x10)
  1 ≤ fld v 23 16 ∧ 1 ≤ fld v 14 8 ∧ 80 ≤ (fld v 7 0 + 1) * (3 + fld v 23 16 + fld v 14 8) ∧
    (fld v 7 0 + 1) * (3 + fld v 23 16 + fld v 14 8) ≤ 8000 ∧ fld v 30 24 ≤ fld v 14 8 ∧ bit v 31 = false
def on15 : Can := { state := .active }
theorem wit_CanChannelStates :
    (canOf (tim 0).dev (15 : Fin 16)).state = .config ∧ (canOf (tim 0).dev (15 : Fin 16)).stopping = false ∧
    canSettings (tim 0x00010000) 15 0x80000000 = 1 ∧ canSettings (tim 0x004C0100) 15 0x80000000 = 0 ∧
    timOk 0x004C0100 ∧ timOk 0x00E80F1F ∧
    fld (rd (tim 0x00000100).dev (canBase 15 + 0x10)) 23 16 = 0 ∧
    fld (rd (tim 0x00010000).dev (canBase 15 + 0x10)) 14 8 = 0 ∧
    (canOf (can15 on15).dev (15 : Fin 16)).state ≠ .config ∧ (canOf (can15 on15).dev (15 : Fin 16)).state ≠ .offline ∧
    (canOf (can15 on15).dev (15 : Fin 16)).onBus = none ∧ (canOf (can15 on15).dev (15 : Fin 16)).stopping = false ∧
    (canOf (can15 { on15 with onBus := some 7 }).dev (15 : Fin 16)).onBus = some 7 ∧
    (canOf (can15 { state := .integrating }).dev (15 : Fin 16)).state = .integrating ∧
    coreUp (can15 { state := .integrating }).dev 4 = true ∧ (netOf up.dev 15).callDue = false ∧
    (netOf up.dev 15).frozen = false ∧ (canOf (can15 { state := .busOff }).dev (15 : Fin 16)).state = .busOff ∧
    bit (canOf (can15 { state := .busOff }).dev (15 : Fin 16)).ctrl 22 = false ∧
    (canOf (can15 { state := .recovering }).dev (15 : Fin 16)).state = .recovering ∧
    resultValid (can15 on15).dev (canBase 15 + 0x38) = true ∧
    (canOf (can15 { state := .offline }).dev (15 : Fin 16)).state = .offline ∧
    (canOf (can15 { state := .offline }).dev (15 : Fin 16)).supplyFault = false ∧
    canOnline (canOf (can15 { on15 with ctrl := 0x00800000 }).dev (15 : Fin 16)) = true ∧
    canOnline (canOf (can15 on15).dev (15 : Fin 16)) = true ∧ bit (canOf (can15 on15).dev (15 : Fin 16)).ctrl 23 = false ∧
    bit (canOf (can15 { on15 with ctrl := 0x00800000 }).dev (15 : Fin 16)).ctrl 23 = true := by decide +kernel

/-- Filter element 127 of channel 15 taking identifier 0 to class 5, the filter in a mode. -/
theorem wit_CanChannelStates_ready : ∀ s ∈ [tim 0x00010000, tim 0x004C0100, can15 on15, can15 { on15 with onBus := some 7 },
      can15 { state := .busOff }, can15 { state := .offline, thermalFault := true }],
    RowReady s.dev (canBase 15) ∧ RowReady s.dev (canBase 15 + 0x34) ∧ coreUp s.dev 4 = true ∧ (netOf s.dev 15).frozen = false ∧
      resultValid s.dev (canBase 15 + 0x38) = true := by unfold RowReady BusFree; decide +kernel

def filt (mode w2 : Word) : State :=
  rg (rg (can15 on15) (canBase 15 + 0x2C) (mode <<< 30)) (aAcc 15 127 + 8) w2
def anId : CanMsg := { id := 0 }
/-- The high-priority element 15 of channel 15 and a ring of slip 5 to take its frames. -/
def hp15 (h : List HpFrame) : State :=
  rg (rg (dv (handRx (dsc 0x01 64 0 0 0)) (setCan · 15 { on15 with hp := h })) (canBase 15 + 0x50) 0x80000005)
    (aHp 15 15 + 8) 0x80000001
theorem wit_CanReceptionAndHighPriority :
    canOnline (canOf (can15 on15).dev (15 : Fin 16)) = true ∧ (netOf up.dev 15).frozen = false ∧
    coreUp (can15 on15).dev 4 = true ∧ sOwned (can15 on15).dev 15 = false ∧
    canDecodes 15 (canOf (can15 on15).dev (15 : Fin 16)) anId = true ∧
    bit (rd (can15 on15).dev (canBase 15 + 0x50)) 31 = false ∧ acceptTest (can15 on15).dev 15 anId = some 0 ∧
    fabricUp (can15 on15).dev = true ∧
    fabricUp (dv (can15 on15) fun d => { d with rst := { d.rst with inReset := 0x40 } }).dev = false ∧
    coreUp (dv (can15 on15) fun d => { d with rst := { d.rst with inReset := 0x40 } }).dev 4 = true ∧
    (∀ k < 128, canMatch (filt 1 0).dev (aAcc 15 k) anId = false) ∧
    acceptTest (filt 1 0).dev 15 anId = none ∧ fld (rd (filt 1 0).dev (canBase 15 + 0x2C)) 31 30 = 1 ∧
    fld (rd (can15 on15).dev (canBase 15 + 0x2C)) 31 30 = 0 ∧
    canMatch (filt 1 0x80D00001).dev (aAcc 15 127) anId = true ∧ bit (rd (filt 1 0x80D00001).dev (aAcc 15 127 + 8)) 23 = true ∧
    (∀ j < 127, canMatch (filt 1 0x80D00001).dev (aAcc 15 j) anId = false) ∧
    fld (rd (filt 2 0x80D00001).dev (canBase 15 + 0x2C)) 31 30 = 2 ∧
    canMatch (filt 2 0x80D00001).dev (aAcc 15 127) anId = true ∧ canOnline (canOf up.dev (15 : Fin 16)) = false := by decide +kernel

theorem wit_HighPriorityBuffer :
    (let s := hp15 (List.replicate 31 ⟨anId, 0, 0⟩)
     canOnline (canOf s.dev (15 : Fin 16)) = true ∧ (netOf s.dev 15).frozen = false ∧ coreUp s.dev 4 = true ∧
     canDecodes 15 (canOf s.dev (15 : Fin 16)) anId = true ∧ sOwned s.dev 15 = false ∧ bit (rd s.dev (canBase 15 + 0x50)) 31 = true ∧
     canMatch s.dev (aHp 15 15) anId = true ∧ bit (rd s.dev (aHp 15 15 + 8)) 30 = false ∧
     (∀ j < 15, canMatch s.dev (aHp 15 j) anId = false) ∧ hpTakes s.dev (rd s.dev (canBase 15 + 0x50)) = true ∧
     (canOf s.dev (15 : Fin 16)).hp.length < 32 ∧ (canOf s.dev (15 : Fin 16)).tec < 256) ∧
    (canOf (hp15 [⟨anId, 0, 0⟩]).dev (15 : Fin 16)).hp = ⟨anId, 0, 0⟩ :: [] ∧
    5 = fld (rd (hp15 []).dev (canBase 15 + 0x50)) 11 0 ∧ 0 = fld (rd (hp15 []).dev (canBase 15 + 0x50)) 18 16 ∧
    ReadyAtFront (hp15 [⟨anId, 0, 0⟩]) 5 0 (dsc 0x01 64 0 0 0) [] ∧ opOf (dsc 0x01 64 0 0 0) = 0x01 :=
  ⟨by decide +kernel, by decide, by decide, by decide, ready1 (by decide), by decide⟩

/-- A frame of class 0 queued for channel 15, with TX_CFG word `w`. -/
def cq : QEntry := { uid := 1, port := 13, cls := 0, cells := 1, dest := .can 15 }
def cframe : Frame := { frame1 with body := .can anId 15 false, cls := 0, cells := [7] }
def queued (w : Word) (c : Can) : State :=
  dv (rg (can15 c) (canBase 15 + 0x28) w) fun d => { d with
    basin := { d.basin with frames := [cframe], nextUid := 2, queues := [cq] } }
def ld (k : Option Nat) (coll : Nat) : CanLoaded := { slot := k, uid := 1, msg := anId, cls := 0, at_ := 0, coll := coll }
theorem wit_CanTransmission :
    sOwned (queued 0 on15).dev 15 = false ∧ netAwake (queued 0 on15).dev 15 = true ∧ coreUp (queued 0 on15).dev 4 = true ∧
    (canOf (queued 0 on15).dev (15 : Fin 16)).stopping = false ∧
    frameOf (queued 0 on15).dev cq.uid = some cframe ∧ canDoomed (queued 0 on15).dev 15 = none ∧
    canHead (queued 0 on15).dev 15 = some cq ∧ fld (rd (queued 0 on15).dev (canBase 15 + 0x28)) 26 24 ≤ cq.cls ∧
    readGood (queued 0 on15).dev cframe .clean = true ∧ readGood (queued 0 on15).dev cframe (.uncorrectable 7) = false ∧
    canHead (queued 0x01000000 on15).dev 15 = some cq ∧
    cq.cls < fld (rd (queued 0x01000000 on15).dev (canBase 15 + 0x28)) 26 24 ∧
    canDoomed (queued 0 { state := .busOff }).dev 15 = some cq ∧ canOffer { on15 with loaded := [ld none 0] } = some (ld none 0) ∧
    (let s := queued 0x00020001 { on15 with loaded := [ld (some 31) 1] }
     canOnline (canOf s.dev (15 : Fin 16)) = true ∧ (canOf s.dev (15 : Fin 16)).onBus = none ∧ (netOf s.dev 15).frozen = false ∧
     coreUp s.dev 4 = true ∧
     kaFirst s.dev 15 = false ∧ canOffer (canOf s.dev (15 : Fin 16)) = some (ld (some 31) 1) ∧
     bit (rd s.dev (canBase 15 + 0x28)) 31 = false ∧ (canOf s.dev (15 : Fin 16)).loaded[(0 : Fin 48).val]? = some (ld (some 31) 1) ∧
     fld (rd s.dev (canBase 15 + 0x28)) 15 0 ≠ 0) ∧
    (let s := dv (queued 0x00020001 { on15 with loaded := [ld (some 31) 1] }) fun d => { d with wall := 1000000 }
     (canOf s.dev (15 : Fin 16)).loaded[(0 : Fin 48).val]? = some (ld (some 31) 1) ∧ (canOf s.dev (15 : Fin 16)).onBus = none ∧
     coreUp s.dev 4 = true ∧
     (ld (some 31) 1).at_ + 1000000 * fld (rd s.dev (canBase 15 + 0x28)) 15 0 ≤ s.dev.wall) ∧
    (∀ c < 2, let s := queued 0x00020000 { on15 with loaded := [ld (some 31) c], onBus := some 1, tec := 239 }
     canOnline (canOf s.dev (15 : Fin 16)) = true ∧ (netOf s.dev 15).frozen = false ∧ coreUp s.dev 4 = true ∧
     (canOf s.dev (15 : Fin 16)).stopping = false ∧ (ld (some 31) c).abort = false ∧
     (canOf s.dev (15 : Fin 16)).onBus = some (ld (some 31) c).uid ∧ (canOf s.dev (15 : Fin 16)).tec < 256 ∧
     (canOf s.dev (15 : Fin 16)).tec + 8 + 8 * (1 : Nat) < 256 ∧ bit (rd s.dev (canBase 15 + 0x28)) 31 = false ∧
     canMode (canOf s.dev (15 : Fin 16)) = 0 ∧
     (canOf s.dev (15 : Fin 16)).loaded.find? (·.uid == 1) = some (ld (some 31) c) ∧
     (atLeast1 (fld (rd s.dev (canBase 15 + 0x28)) 19 16) ≤ c + 1 ↔ c = 1)) := by decide +kernel

/-- Network 15 running (its channel and its network machine enabled) in a state. -/
def net15 (x : Net) : State :=
  rg (rg (dv (can15 on15) (setNet · 15 x)) (canBase 15) 0x80000000) (netBase 15) 0x80000000
abbrev f15 : Fin 16 := 15
/-- The keep-alive of node 63. -/
def kam (b : Bool) : CanMsg := { id := 63, data := List.replicate 7 0 ++ [if b then 0x80 else 0] }
def hostNeed (s : State) : State := rg s (netBase 15 + 0x10) 1
theorem wit_NetworkSleepAndWake :
    bit (netCfg up.dev f15) 31 = false ∧ bit (netCfg (net15 {}).dev f15) 31 = true ∧ bit (0 : Word) 31 = false ∧
    netRuns (net15 {}).dev f15 = true ∧ (netOf (net15 {}).dev f15).frozen = false ∧
    kaNode (rg (net15 {}) (netBase 15 + 0xC) 0).dev f15 (kam true) = some 63 ∧ (leNat (kam true).data).testBit 63 = true ∧
    (heldMap (net15 {}).dev f15).testBit 63 = false ∧ (netOf (net15 {}).dev f15).state ≠ .asleep ∧
    (leNat (kam false).data).testBit 63 = false ∧
    (heldMap (rg (net15 {}) (netBase 15 + 0x2C) 0x80000000).dev f15).testBit 63 = true ∧
    needHolds (hostNeed (net15 {})).dev f15 = true ∧ (netOf (net15 {}).dev f15).state = .awake ∧
    canOnline (canOf (net15 {}).dev f15) = true ∧
    (let s := hostNeed (dv (net15 {}) (setCan · 15 { state := .busOff }))
     netRuns s.dev f15 = true ∧ needHolds s.dev f15 = true ∧ (netOf s.dev f15).state = .awake ∧
     (canOf s.dev f15).state = .busOff) ∧
    needHolds (net15 {}).dev f15 = false ∧
    (let s := net15 { state := .asleep, frozen := true, switching := true }
     needHolds s.dev f15 = false ∧ (netOf s.dev f15).state = .asleep ∧ (netOf s.dev f15).waking = false ∧
     (netOf s.dev f15).latched = none ∧ (netOf s.dev f15).switching = true ∧ netRuns s.dev f15 = true) ∧
    (netOf (net15 { state := .asleep, frozen := true }).dev f15).switching = false ∧
    (netOf (net15 { state := .draining }).dev f15).state = .draining ∧
    netRuns (net15 { state := .draining }).dev f15 = true ∧
    (netOf (net15 { state := .draining }).dev f15).until_ ≤ (net15 {}).dev.wall ∧
    (canOf (net15 { state := .draining }).dev f15).onBus = none ∧
    (netOf (net15 {}).dev f15).until_ ≤ (net15 {}).dev.wall ∧
    (let s := hostNeed (dv (net15 {}) (setCan · 15 { state := .config }))
     bit (netCfg s.dev f15) 31 = true ∧ needHolds s.dev f15 = true ∧ (netOf s.dev f15).state = .awake ∧
     (canOf s.dev f15).state = .config) ∧
    fld (rd (rg (net15 {}) (netBase 15 + 8) 0x10000).dev (netBase 15 + 8)) 31 16 ≠ 0 ∧
    (let s := rg (net15 { state := .asleep, frozen := true }) (netBase 15 + 0x38) 0x80000000
     netRuns s.dev f15 = true ∧ bit (rd s.dev (netBase 15 + 0x38)) 31 = true ∧ bit (rd s.dev (netBase 15 + 0x38)) 30 = false ∧
     wufRate s.dev f15 = false ∧ wufRate (dv s (setCan · 15 { on15 with nbt := 0x004C0107 })).dev f15 = true ∧ (netOf s.dev f15).state = .asleep ∧
     (netOf s.dev f15).waking = false ∧ (netOf s.dev f15).latched = none ∧ wufMatch s.dev f15 { id := 0x73F } = true ∧
     wufMatch s.dev f15 { id := 0x740 } = false ∧
     bit (rd (rg s (netBase 15 + 0x38) 0x40000000).dev (netBase 15 + 0x38)) 30 = true) ∧
    (let s := net15 { state := .asleep, frozen := true, waking := true, causeCode := .localNeed }
     (netOf s.dev f15).state = .asleep ∧ (netOf s.dev f15).frozen = true ∧
     (netOf s.dev f15).waking = true ∧ (netOf s.dev f15).switching = false ∧ coreUp s.dev 4 = true ∧
     (netOf s.dev f15).causeCode = .localNeed) ∧
    (netOf (net15 { causeCode := .wuf }).dev f15).causeCode ≠ .localNeed := by decide +kernel

theorem wit_NetworkSleepAndWake_ready : (∀ s ∈ [up, net15 {}], RowReady s.dev (netBase f15)) ∧
    (∀ k ∈ [0, 1], let s := dv (hostNeed (net15 {})) (setNet · 15 { kaPending := decide (k = 1) });
      needHolds s.dev f15 = true ∧ netRuns s.dev f15 = true ∧ canOnline (canOf s.dev f15) = true) ∧
    (let s := rg (dv (net15 { state := .asleep, frozen := true }) (setCan · 15 { on15 with nbt := 0x004C0107 })) (netBase 15 + 0x38)
      0x80000000
     netRuns s.dev f15 = true ∧ wufRate s.dev f15 = true ∧ wufMatch s.dev f15 { id := 0x73F } = true ∧
     (netOf s.dev f15).state = .asleep ∧ (netOf s.dev f15).waking = false ∧ (netOf s.dev f15).latched = none) := by
  unfold RowReady BusFree; decide +kernel

/-- The Hail caller of network 15. -/
def caller (x : Net) : State := rg (net15 x) (netBase 15) 0xA0000000
def part63 (p : Partner) (x : Net) : State := dv (caller x) (setPart · 15 63 p)
abbrev m63 : Fin 64 := 63
theorem wit_HailDiscovery :
    hailCaller (caller {}).dev f15 = true ∧ QmIdle (caller {}) ∧ canSend (caller {}).dev f15 = true ∧ QmIdle up ∧
    qmAwake (dv up fun d => { d with clt := { d.clt with qmHalted := true } }).dev = false ∧ up.dev.qm.shed = 0 ∧
    up.dev.qm.queue.length < 1600 ∧ (netOf (caller {}).dev f15).callOpen = false ∧
    (netOf (caller {}).dev f15).callDue = false ∧ (netOf (caller {}).dev f15).state ≠ .asleep ∧
    fld (rd (rg (caller {}) (netBase 15 + 0x60) 0x01000000).dev (netBase 15 + 0x60)) 31 24 ≠ 0 ∧
    resultValid (caller {}).dev (netBase 15 + 0x68) = true ∧ hailCaller up.dev f15 = false ∧
    resultValid up.dev (netBase 15 + 0x68) = true ∧ (partView (part63 { state := .lost } {}).dev f15 m63).state = .lost ∧
    QmIdle (part63 { state := .lost } {}) ∧ resultValid (part63 { state := .lost } {}).dev (netBase 15 + 0x68) = true ∧
    hailCaller (part63 { state := .lost } {}).dev f15 = true ∧
    (let s := part63 { state := .lost, uid := 2 ^ 56 - 1 } { callOpen := true, session := 255 }
     hailCaller s.dev f15 = true ∧ QmIdle s ∧ canSend s.dev f15 = true ∧ (netOf s.dev f15).callOpen = true ∧ (netOf s.dev f15).callDue = false ∧
     255 = (netOf s.dev f15).session ∧ partFind s.dev f15 (BitVec.allOnes 56).toNat
       (fun st => st == .present || st == .assigning || st == .lost) = some m63.val ∧
     partFind s.dev f15 (0 : BitVec 56).toNat (fun st => st == .present || st == .assigning || st == .lost) = none ∧
     (partView s.dev f15 (62 : Fin 64)).state = .free) ∧
    hailCaller (part63 { state := .present, uid := 7 } {}).dev f15 = true ∧ QmIdle (part63 { state := .present, uid := 7 } {}) ∧
    partFind (part63 { state := .present, uid := 7 } {}).dev f15 (7 : BitVec 56).toNat
      (fun st => st == .present || st == .assigning) = some 63 ∧
    (∀ k ∈ [1, 2],
      let s := rg (part63 { state := .present, misses := k } { callOpen := true, callAll := true }) (netBase 15 + 0x60) 0x3000;
      (netOf s.dev f15).callOpen = true ∧ (netOf s.dev f15).callDue = false ∧ (netOf s.dev f15).callAll = true ∧
      QmIdle s ∧ (partView s.dev f15 63).state = .present ∧ (partView s.dev f15 63).answered = false ∧
      (partView s.dev f15 62).state ≠ .present ∧
      ((partOf s.dev f15 63).misses + 1 < atLeast1 (fld (rd s.dev (netBase 15 + 0x60)) 15 12) ↔ k = 1)) ∧
    (∀ k ∈ [2, 3], let s := part63 { state := .assigning, tries := k } {};
      (partView s.dev f15 m63).state = .assigning ∧ QmIdle s ∧ hailCaller s.dev f15 = true ∧ canSend s.dev f15 = true ∧
      ((partOf s.dev f15 m63).tries < 3 ↔ k = 2)) := by decide +kernel

theorem wit_HailDiscovery_ready :
    (∀ s ∈ [up, caller {}, part63 { state := .lost } {}], RowReady s.dev (netBase f15 + 0x64) ∧
      resultValid s.dev (netBase 15 + 0x68) = true ∧ QmIdle s) ∧
    (∀ n ∈ List.range 15, hailCaller (caller {}).dev n = false) ∧
    sOwned (dv up (setHo · 15 { state := .sOwned })).dev f15 = true ∧ sOwned up.dev f15 = false ∧
    sOwned (caller {}).dev f15 = false ∧ sOwned (part63 { state := .present, uid := 7 } {}).dev f15 = false := by
  unfold RowReady BusFree; decide +kernel

/-- Some UID is neither the device's own nor its bound peer's. -/
theorem wit_HailDiscovery_foreign :
    ∃ uid : BitVec 56, uid.toNat ≠ ownUid ∧ uid.toNat ≠ up.dev.pair.bound % 2 ^ 56 := by
  have hb : up.dev.pair.bound % 2 ^ 56 = 0 := by decide
  by_cases h : ownUid = 1
  · exact ⟨2, by rw [h]; decide, by rw [hb]; decide⟩
  · exact ⟨1, fun e => h (e ▸ by decide), by rw [hb]; decide⟩

/-- LLDP on every port, port 10 linked, `k` of its neighbour places taken. -/
def lldp10 (k : Nat) : State :=
  dv (rg (rg up 0xE00010 0x800007FF) (aPort 10 0) 0x80000000) fun d =>
    (List.range k).foldl (fun d i => setNbr d 10 i (some ⟨4, [BitVec.ofNat 8 i], 7, [0], 1, 0, 0, []⟩))
      (setPort d 10 { link := true })
/-- An LLDPDU of chassis 9, port 9 and TTL 120, after its 14 bytes of addresses and type. -/
def lldpdu : List Byte := List.replicate 14 0 ++ [2, 2, 4, 9, 4, 2, 7, 9, 6, 2, 0, 120, 0, 0]
/-- An LLDPDU that waits for an RX_BUF, and LLDP_RX naming ring 0 of slip 5, where one is in hand. -/
def copied : LldpCopy := { port := 10, bytes := lldpdu, ts := 0, pcp := 0, vid := 1, cls := 7 }
def copyWait (l : List LldpCopy) : State :=
  dv (rg (rg (rg (handRx (dsc 0x01 64 0 0 0)) 0xE00010 0x800007FF) 0xE00014 0x80000005) (aPort 10 0) 0x80000000) fun d =>
    { setPort d 10 { link := true } with nws := { (setPort d 10 { link := true }).nws with copies := l } }
def heard : Neighbour := ⟨4, [9], 7, [9], 120, 0, 0, []⟩
abbrev p10 : Fin 11 := 10
theorem wit_LldpNeighbours :
    lldpOn (lldp10 0).dev p10 = true ∧ wireUp (lldp10 0).dev p10 = true ∧ portPowered (lldp10 0).dev p10 = true ∧
    macsecTx (lldp10 0).dev p10 = false ∧ lldpOn (lldp10 3).dev p10 = true ∧ bit (rd (lldp10 3).dev 0xE00014) 31 = false ∧
    lldpParse ((wire60 15).drop 14) = none ∧ lldpParse (lldpdu.drop 14) = some heard ∧ heard.ttl ≠ 0 ∧
    (∀ k < 4, (nbrOf (lldp10 3).dev p10 k).any (sameNbr heard) = false) ∧ nbrOf (lldp10 3).dev p10 3 = none ∧
    (∀ j < 3, nbrOf (lldp10 3).dev p10 j ≠ none) ∧
    (∀ k < 4, (nbrOf (lldp10 4).dev p10 k).any (sameNbr heard) = false) ∧ (∀ k < 4, nbrOf (lldp10 4).dev p10 k ≠ none) ∧
    nbrOf (lldp10 4).dev p10 (3 : Fin 4) ≠ none := by decide +kernel
theorem wit_LldpNeighbours_copies :
    (let s := copyWait (List.replicate 31 copied)
     lldpOn s.dev p10 = true ∧ bit (rd s.dev 0xE00014) 31 = true ∧ hpTakes s.dev (rd s.dev 0xE00014) = true ∧
     s.dev.nws.copies.length < 32) ∧
    (copyWait [copied]).dev.nws.copies = copied :: [] ∧ 5 = fld (rd (copyWait [copied]).dev 0xE00014) 11 0 ∧
    0 = fld (rd (copyWait [copied]).dev 0xE00014) 18 16 ∧
    ReadyAtFront (copyWait [copied]) 5 0 (dsc 0x01 64 0 0 0) [] ∧ opOf (dsc 0x01 64 0 0 0) = 0x01 :=
  ⟨by decide +kernel, rfl, by decide, by decide, ready1 (by decide), by decide⟩

theorem wit_LldpNeighbours_live : LldpLive (lldp10 0).dev p10 ∧ LldpLive (lldp10 3).dev p10 ∧ LldpLive (lldp10 4).dev p10 ∧
    (let s := dv (lldp10 0) fun d => { d with clt := { d.clt with qmHalted := true } }
     LldpLive s.dev p10 ∧ qmAwake s.dev = false ∧ s.dev.qm.shed = 0 ∧ s.dev.qm.queue.length < 1600 ∧
     bit (rd s.dev 0xE00014) 31 = false) ∧
    LldpLive (copyWait (List.replicate 31 copied)).dev p10 ∧ QmIdle (lldp10 0) ∧ QmIdle (lldp10 3) ∧ QmIdle (lldp10 4) ∧
    lldpOn (rg (lldp10 0) 0xE00010 0x800003FF).dev p10 = false ∧ wireUp (rg (lldp10 0) (aPort 10 0) 0).dev p10 = false ∧
    (let s (e : Nat) := dv (lldp10 0) (setNbr · 10 3 (some { heard with expires := e }))
     nbrOf (s 0).dev p10 (3 : Fin 4) = some { heard with expires := 0 } ∧ (0 : Nat) ≤ (s 0).dev.wall ∧
     (s 1).dev.wall < 1) := by
  unfold LldpLive; decide +kernel

/-- Load channel 39 in a state. -/
def l39 (x : Load) : State := dv up (setLoad · 39 x)
def onL : Load := { gate := true, permit := true, recorded := true, slState := .on, nowMa := 1000 }
/-- Its settings in effect: LDC_ACT_CFG and the three words after it. -/
def cfg39 (o : Nat) (w : Word) (x : Load) : State := rg (l39 x) (ldcBase 39 + o) w
abbrev n39 : Fin 40 := 39

theorem wit_LoadTripsAndRestarts :
    (loadOf (l39 onL).dev n39).gate = true ∧ (loadOf (l39 { ramping := true }).dev n39).ramping = true ∧
    (loadOf (l39 onL).dev n39).shaped = false ∧ (loadOf (l39 { onL with shaped := true }).dev n39).shaped = true ∧
    11 * (loadClass n39).short ≤ 10 * ((loadClass n39).short * 11 / 10 : Int).natAbs ∧
    10 * (-1 : Int).natAbs < 9 * (loadClass n39).short ∧ (175 : Int) ≤ 175 ∧
    (loadOf up.dev n39).gate = false ∧ (loadOf up.dev n39).ramping = false ∧
    fld (actLoad (cfg39 0x14 1 onL).dev n39) 23 0 ≠ 0 ∧ 0 < (loadOf (cfg39 0x14 1 onL).dev n39).nowMa ∧
    fld (actLoad (l39 onL).dev n39) 23 0 = 0 ∧ (loadOf (l39 { onL with nowMa := 0 }).dev n39).nowMa ≤ 0 ∧
    bit (actCfg (cfg39 0x10 0x04000000 onL).dev n39) 30 = false ∧
    (loadOf (cfg39 0x10 0x04000000 onL).dev n39).restarts < fld (actCfg (cfg39 0x10 0x04000000 onL).dev n39) 29 26 ∧
    bit (actCfg (cfg39 0x10 0x40000000 onL).dev n39) 30 = true ∧
    fld (actCfg (cfg39 0x10 0x04000000 { onL with restarts := 1 }).dev n39) 29 26 ≤
      (loadOf (cfg39 0x10 0x04000000 { onL with restarts := 1 }).dev n39).restarts ∧
    (loadOf (l39 { restartWait := true }).dev n39).restartWait = true ∧ (149 : Int) < 150 ∧
    (-129 : Int) < -128 * (atLeast1 (fld (actCfg (cfg39 0x10 0 onL).dev n39) 23 16) : Int) ∧
    -128 * (atLeast1 (fld (actCfg (cfg39 0x10 0 onL).dev n39) 23 16) : Int) ≤ -128 ∧
    100 * (-328 : Int) < -32768 ∧ -32768 ≤ 100 * (-327 : Int) ∧
    bit (actCfg (cfg39 0x10 0 onL).dev n39) 31 = false ∧ bit (actCfg (cfg39 0x10 0 onL).dev n39) 25 = false ∧
    bit (actCfg (cfg39 0x10 0x02000000 onL).dev n39) 31 = false ∧
    bit (actCfg (cfg39 0x10 0x02000000 onL).dev n39) 25 = true ∧
    bit (actCfg (cfg39 0x10 0x80000000 { onL with reverse := true }).dev n39) 31 = true ∧
    (loadOf (cfg39 0x10 0x80000000 { onL with reverse := true }).dev n39).gate = true ∧
    (loadOf (cfg39 0x10 0x80000000 { onL with reverse := true }).dev n39).reverse = true ∧
    (loadOf (l39 { clamping := true }).dev n39).clamping = true ∧
    (loadOf (l39 { clamping := true }).dev n39).ramping = false ∧
    (loadOf (l39 { clamping := true }).dev n39).gate = false := by decide +kernel

/-- A shaped turn-on whose ceiling is past the short-circuit threshold, and one whose ceiling is below it. -/
theorem wit_LoadTripsAndRestarts_shaped :
    (let s := l39 { onL with shaped := true, windowRes := 10 ^ 6 }
     (ceiling s.dev n39 : Int) = 10 ^ 6 ∧ 11 * (loadClass n39).short ≤ 10 * (min (10 ^ 6 : Int) (ceiling s.dev n39)).natAbs) ∧
    (let s := l39 { onL with shaped := true, windowRes := 100 }
     10 * (min (10 ^ 6 : Int) (ceiling s.dev n39)).natAbs < 9 * (loadClass n39).short ∧
     11 * (loadClass n39).short ≤ 10 * (10 ^ 6 : Int).natAbs) ∧
    (let s := l39 { ramping := true }
     domUp s.dev 1 = true ∧ s.dev.ldc.resetDue = false ∧ (loadOf s.dev n39).gate = false ∧ (loadOf s.dev n39).ramping = true) ∧
    domUp (l39 { clamping := true }).dev 1 = true ∧ (l39 { clamping := true }).dev.ldc.resetDue = false := by decide +kernel

theorem wit_ClampOrRampChoice :
    (rampChoice 39 0xFFFFFF 10000 2400 85).isSome = true ∧ rampChoice 39 0 10000 2400 85 = none ∧
    rampChoice 39 0xFFFFFF 10000 7000 85 = some (50000000, true) ∧ rampChoice 39 100000 2000 2400 175 ≠ none := by
  decide +kernel

theorem wit_SegmentsDiagnosticsAndSamples :
    (let s := l39 { onL with swap := some ⟨6, 4⟩ }
     (loadOf s.dev n39).swap = some ⟨6, 4⟩ ∧ (⟨6, 4⟩ : SegSwap).seg < 7 ∧ 4 ≤ 4 * 1 ∧ 4 * 1 < 5) ∧
    (loadOf up.dev n39).clamping = false ∧ (loadOf up.dev n39).ramping = false ∧
    (1 : Fin 7).val ≤ (loadClass n39).segs ∧ (loadOf up.dev n39).retiredSegs.getLsbD (1 : Fin 7) = false ∧
    (1 : Fin 7).val < (loadClass n39).segs ∧ spareLeft n39 (loadOf up.dev n39) = true ∧
    spareLeft n39 (loadOf (l39 { spareIn := true }).dev n39) = false ∧
    (let s := l39 { onL with nowMa := (loadClass n39).rated }
     (loadOf s.dev n39).gate = true ∧ ((loadClass n39).rated : Int) ≤ 5 * (loadOf s.dev n39).nowMa ∧
     (loadOf s.dev n39).swap = none) ∧ flashWorn up.dev = false ∧ (127 : Int) < 128 ∧
    (31 : Int) < 32 * (fld (actDiag (cfg39 0x18 0x01000000 onL).dev n39) 31 24 : Int) ∧
    32 * (fld (actDiag (cfg39 0x18 0x01000000 onL).dev n39) 31 24 : Int) ≤ 32 ∧
    (let s := cfg39 0x18 0x01000000 { underCur := true }
     (loadOf s.dev n39).underCur = true ∧ 32 * (fld (actDiag s.dev n39) 31 24 : Int) < 33) ∧
    (bankOf up.dev (bankIdx n39)).held = false ∧ bit (actDiag (cfg39 0x18 0x80 onL).dev n39) 7 = true ∧
    (loadOf (cfg39 0x18 0x80 onL).dev n39).openLoad = false ∧ (loadOf (l39 onL).dev n39).slState = .on ∧
    fld (actDiag (cfg39 0x18 0x01000000 onL).dev n39) 31 24 ≠ 0 ∧
    (loadOf (cfg39 0x18 0x01000000 onL).dev n39).underCur = false ∧
    (loadOf (l39 { onL with slState := .window }).dev n39).slState = .window ∧
    (bankOf (dv up (setBank · 1 { held := true })).dev (bankIdx n39)).held = true ∧
    (loadOf (l39 { openLoad := true }).dev n39).openLoad = true ∧
    (loadOf (l39 { underCur := true }).dev n39).underCur = true ∧
    bit (actCfg (cfg39 0x10 0x01000000 {}).dev n39) 24 = true ∧
    (∀ k ∈ [94, 95], let s := cfg39 0x1C 0x8C00000A { block := { samples := List.replicate k 0 } }
     bit (actSample s.dev n39) 31 = true ∧ ((loadOf s.dev n39).block.samples.length + 1 < fld (actSample s.dev n39) 27 21 ↔
       k = 94)) ∧
    fabricUp (dv up fun d => { d with rst := { d.rst with inReset := 0x40 } }).dev = false := by decide +kernel

/-- Channel 39 waiting alone in bank 1's queue, with an inrush reservation of 125 mA × `k` and a budget of 100 mA × `b`. -/
def wait39 (k b : Word) : State :=
  rg (rg (dv (l39 { permit := true, recorded := true, slState := .waiting }) (setBank · 1 { queue := [39] }))
    (wgsBase 39 + 0x18) (k <<< 16)) (bankBase 1) (b <<< 16)
theorem wit_SlalomAndSupplies :
    (let s := l39 { permit := true, recorded := true }
     wantOn s.dev 39 = true ∧ (loadOf s.dev 39).gate = false ∧ (loadOf s.dev 39).ramping = false ∧
     (loadOf s.dev 39).shed = false ∧ (loadOf s.dev 39).slState = .off ∧ 39 ∉ (bankOf s.dev (bankIdx 39)).queue) ∧
    (supplyOut 2 (-100) = false ∧ supplyOut 0 1799 = true ∧ supplyOut 0 1800 = false ∧ supplyIn 0 2099 = false ∧
      supplyIn 0 2100 = true) ∧
    (let s := l39 { onL with slState := .window, shortHeld := true, shaped := true }
     (loadOf s.dev n39).slState = .window ∧ (loadOf s.dev n39).windowEnd ≤ s.dev.wall ∧ (loadOf s.dev n39).shortHeld = true) ∧
    (loadOf (l39 { onL with slState := .window }).dev n39).shortHeld = false ∧
    (l39 {}).dev.wall < (loadOf (l39 { onL with windowEnd := 10 ^ 15 }).dev n39).windowEnd ∧
    (let s := dv (rg up (bankBase 1 + 4) 0x05000000) (setBank · 1 { volts := [240000] })
     (bankOf s.dev 1).inDip = false ∧ dipThr s.dev 1 < bankMean s.dev 1 - 2349 ∧ bankMean s.dev 1 - 2350 ≤ dipThr s.dev 1) ∧
    (let s := dv (rg up (bankBase 1 + 4) 0x05000000) (setBank · 1 { inDip := true, frozen := 2400 })
     (bankOf s.dev 1).inDip = true ∧ 2 * ((bankOf s.dev 1).frozen - 2375) ≤ dipThr s.dev 1 ∧
     2 * (2375 - (bankOf s.dev 1).frozen) ≤ dipThr s.dev 1) ∧
    (let s := dv (rg (l39 onL) (bankBase 1) 0x10000) (setBank · 1 { currs := [101, 101] })
     (bankOf s.dev 1).currs ≠ [] ∧ budget s.dev 1 < bankMeanMa s.dev 1 ∧ shedNext s.dev 1 = some 39) ∧
    bankMeanMa (rg (l39 onL) (bankBase 1) 0x10000).dev 1 ≤ budget (rg (l39 onL) (bankBase 1) 0x10000).dev 1 ∧
    up.dev.ldc.resetDue = false ∧
    (let s := wait39 4 5
     (bankOf s.dev 1).held = false ∧ gapOk s.dev 1 = true ∧ firstFit s.dev 1 = some 39 ∧ bankIdx 39 = 1 ∧
     reserved s.dev 1 + inrushRes s.dev 39 ≤ budget s.dev 1) ∧
    firstFit (wait39 5 6).dev 1 = none ∧
    (let s := dv (wait39 4 5) (setLoad · 38 { onL with slState := .ramping, rampI0 := 1 })
     firstFit s.dev 1 = some 39 ∧ budget s.dev 1 < reserved s.dev 1 + inrushRes s.dev 39) ∧
    gapOk (dv (rg up (bankBase 1 + 4) 1) (setBank · 1 { lastAdmit := some 0 })).dev 1 = false ∧
    (bankOf (dv up (setBank · 1 { held := true })).dev 1).held = true ∧
    (loadOf (l39 { onL with slState := .window }).dev n39).slState = .window ∧ (bankOf up.dev (bankIdx n39)).inDip = false ∧
    (bankOf (dv up (setBank · 1 { inDip := true })).dev (bankIdx n39)).inDip = true ∧
    up.dev.ldc.mainsLow = false ∧ (dv up fun d => { d with ldc := { d.ldc with mainsLow := true } }).dev.ldc.mainsLow = true ∧
    shedNext (l39 onL).dev 1 = some 39 ∧ shedNext up.dev 1 = none ∧
    (let s := l39 { shed := true, permit := true, recorded := true }
     (loadOf s.dev n39).shed = true ∧ wantOn s.dev n39 = true ∧ (loadOf s.dev n39).gate = false ∧
     (loadOf s.dev n39).ramping = false ∧ (loadOf s.dev n39).slState = .off ∧
     n39.val ∉ (bankOf s.dev (bankIdx n39)).queue) := by decide +kernel

theorem wit_SlalomAndSupplies_domain : domUp (wait39 4 5).dev 1 = true ∧ (wait39 4 5).dev.ldc.resetDue = false ∧
    domUp (dv up fun d => { d with rst := { d.rst with inReset := 0x02 } }).dev 1 = false := by decide

/-- Channel 39's four staged wire-guard words. -/
def wg39 (a b c d : Word) : State :=
  rg (rg (rg (rg up (wgsBase 39) a) (wgsBase 39 + 4) b) (wgsBase 39 + 8) c) (wgsBase 39 + 0xC) d
/-- COUNT and INTERVAL of channel 39's staged LDC_SAMPLE word `w`. -/
def sampleOf (w : Word) : Nat × Nat :=
  let v := rd (rg up (ldcBase 39 + 0xC) w).dev (ldcBase 39 + 0xC)
  (fld v 27 21, fld v 13 0)
abbrev sampleBad (w : Word) : Prop := (sampleOf w).1 < 1 ∨ 96 < (sampleOf w).1 ∨ (sampleOf w).2 < 10 ∨
  10000 < (sampleOf w).2 ∨ (sampleOf w).1 * (sampleOf w).2 < 100
abbrev sampleGood (w : Word) : Prop := 1 ≤ (sampleOf w).1 ∧ (sampleOf w).1 ≤ 96 ∧ 10 ≤ (sampleOf w).2 ∧
  (sampleOf w).2 ≤ 10000 ∧ 100 ≤ (sampleOf w).1 * (sampleOf w).2
theorem wit_LoadAndGuardCommands :
    resultValid (rg up 0xF00014 0).dev 0xF00014 = false ∧ resultValid up.dev 0xF00014 = true ∧ 40 ≤ (40 : Fin 64).val ∧
    (39 : Fin 64).val < 40 ∧
    ([(0x0020000A : Word), (0x0C000001 : Word), (0x0C200064 : Word), (0x03200009 : Word), (0x00202711 : Word), (0x01200009 : Word)].all fun w =>
      decide (sampleBad w)) = true ∧
    ([(0x0140000A : Word), (0x0C002710 : Word), (0x00202710 : Word)].all fun w => decide (sampleGood w)) = true ∧
    rampRangeBad (rg up (ldcBase 39 + 4) 0xFF000000).dev 39 (rd (rg up (ldcBase 39 + 4) 0xFF000000).dev (ldcBase 39 + 4)) = true ∧
    rampRangeBad up.dev 39 (rd up.dev (ldcBase 39 + 4)) = false ∧
    (let s := rg (l39 { trip := 4, theta := 100 * deg }) (wgsBase 39 + 0x14) 0x6400
     (loadOf s.dev n39).trip = 4 ∧ (loadOf s.dev n39).theta ≤ (fld (actTemp s.dev 39) 15 8 : Int) * deg) ∧
    (let s := rg (l39 { trip := 4, theta := 100 * deg + 1 }) (wgsBase 39 + 0x14) 0x6400
     (fld (actTemp s.dev 39) 15 8 : Int) * deg < (loadOf s.dev n39).theta) ∧
    (loadOf (l39 { trip := 3 }).dev n39).trip < 4 ∧ (loadOf (l39 { trip := 5 }).dev n39).trip = 5 ∧
    (loadOf (l39 onL).dev n39).gate = true ∧ (inService 39 (loadOf up.dev n39)).getLsbD (7 : Fin 8) = false ∧
    (inService 39 (loadOf up.dev n39)).getLsbD (1 : Fin 8) = true ∧ spareLeft 39 (loadOf up.dev n39) = true ∧
    (loadClass 39).segs ≤ 2 * activeSegs 39 (loadOf up.dev n39) ∧
    resultValid (rg up 0x1000014 0).dev 0x1000014 = false ∧ resultValid up.dev 0x1000014 = true ∧
    wgsCheck (wg39 0 0 0 0).dev 39 ≠ 0 := by decide +kernel
theorem wit_LoadAndGuardCommands_ready :
    (∀ s ∈ [up, rg up 0xF00014 0, l39 { trip := 4, theta := 100 * deg }, l39 { trip := 3 }, l39 onL, rg up (ldcBase 39 + 4) 0xFF000000,
      rg up (ldcBase 39 + 0xC) 0x0140000A], RowReady s.dev 0xF00010) ∧
    (∀ s ∈ [up, rg up 0x1000014 0, wg39 0 0 0 0, wg39 0x01002800 0xC8C7C600 0 0], RowReady s.dev 0x1000010) := by
  unfold RowReady BusFree; decide +kernel

theorem wit_LoadAndGuardCommands_applies :
    wgsCheck (wg39 0x01002800 0xC8C7C600 0 0).dev 39 = 0 ∧ bit (rd (wg39 0x01002800 0xC8C7C600 0 0).dev (wgsBase 39 + 8)) 31 = false ∧
    wgsCheck (rg (wg39 0x01002800 0xC8C7C600 0x80010000 0x000101F4) (ldcBase 39 + 0x14) 0x01000000).dev 39 = 0 ∧
    bit (rd (wg39 0x01002800 0xC8C7C600 0x80500000 0x005001F4).dev (wgsBase 39 + 8)) 31 = true := by decide +kernel

theorem wit_WireGuardModel :
    (0 : Int) ≤ 511 * deg ∧ bit (actWg (cfg39 0 0 onL).dev 39) 31 = true ∧ bit (actWg (rg up (wgsBase 39 + 0x10) 0).dev 39) 31 = false ∧
    (bankOf up.dev 0).inDip = false ∧ (bankOf up.dev 0).volts.length < 100 ∧
    (bankOf (dv up (setBank · 0 { inDip := true })).dev 0).inDip = true ∧
    measMean 39 { now := 0, sum := 0, sat := 0, mean10 := 0 } = 0 ∧
    (let s := rg (rg (l39 onL) (wgsBase 39 + 0x10) 0x81000000) (wgsBase 39 + 0x14) 0x00000100
     let th := thetaStep (actWg s.dev 39) (ambient s.dev 39) 0 (loadOf s.dev 39).theta;
       bit (actWg s.dev 39) 31 = true ∧ (fld (actTemp s.dev 39) 31 24 : Int) * deg ≤ th ∧ (loadOf s.dev 39).trip < 4 ∧
       (fld (actTemp s.dev 39) 23 16 : Int) * deg ≤ th ∧ (loadOf s.dev 39).warn = false) ∧
    (let s := rg (rg (l39 onL) (wgsBase 39 + 0x10) 0x81000000) (wgsBase 39 + 0x14) 0x02010100
     let th := thetaStep (actWg s.dev 39) (ambient s.dev 39) 0 (loadOf s.dev 39).theta;
       th < (fld (actTemp s.dev 39) 31 24 : Int) * deg ∧ th < (fld (actTemp s.dev 39) 23 16 : Int) * deg ∧
       th < (fld (actTemp s.dev 39) 15 8 : Int) * deg) := by decide +kernel

theorem wit_WireGuardModel_held : domUp up.dev 1 = true ∧ domUp State.reset.dev 1 = false ∧
    (bankOf up.dev 1).currs.length < 100 ∧ (loadOf (l39 { onL with shaped := true }).dev 39).shaped = true ∧
    (loadOf up.dev 39).shaped = false := by decide

/-- Field channel `n` with its word in effect, its filter word, and a state of its own. -/
def fc (n : Nat) (w ev : Word) (x : FieldCh) : State :=
  dv (rg (rg up (fioBase n + 8) w) (fioBase n + 0xC) ev) (setField · n x)
def fio (s : State) (f : Fio → Fio) : State := dv s fun d => { d with fio := f d.fio }
abbrev c31 : Fin 32 := 31
abbrev c7 : Fin 32 := 7
def edges (k : Nat) : List FieldEdge := List.replicate k ⟨31, true, 0, 0⟩
def upF : UpFrame := ⟨15, 0x80000000, 0, edges 8, [⟨7, 0, 0, 0⟩], (List.range 8).map fun n => (n, (0, 0)), 0⟩
theorem wit_FieldInputsAndRecords :
    (let s := fio (fc 31 0x40000000 0xC0000000 {}) fun f => { f with edges := edges 63 }
     (fieldOf s.dev c31).state ≠ true ∧ fieldMode s.dev 31 = 1 ∧ bit (actEv s.dev 31) 31 = true ∧
     s.dev.fio.edges.length < 64) ∧
    64 ≤ (fio up fun f => { f with edges := edges 64 }).dev.fio.edges.length ∧
    bit (actEv (fc 31 0x40000000 0x80000000 { state := true }).dev 31) 30 = false ∧
    (fieldOf (fc 7 0xC0000000 0 {}).dev c7).state ≠ true ∧ fieldMode (fc 7 0xC0000000 0 {}).dev 7 = 3 ∧
    (fieldOf (fc 31 0x80000000 0 {}).dev c31).state ≠ true ∧ fieldMode (fc 31 0x80000000 0 {}).dev 31 = 2 ∧
    (let s := fc 31 0x70000000 0 {}
     fieldMode s.dev 31 = 1 ∧ quadBad s.dev 31 = false ∧ bit (actField s.dev 31) 29 = true ∧ bit (actField s.dev 31) 28 = true ∧
     (fieldOf s.dev c31).broken = false ∧ (fieldOf s.dev c31).repFault ≠ 1) ∧
    (fieldOf (fc 31 0x70000000 0 { broken := true }).dev c31).broken = true ∧
    quadBad (fio (fc 31 0x70000000 0 {}) fun f => { f with quadBad := 0x80 }).dev 31 = true ∧
    (1799 : BitVec 16).toNat < 1800 ∧ 3200 < (3201 : BitVec 16).toNat ∧ 1900 ≤ (1900 : BitVec 16).toNat ∧
    (3100 : BitVec 16).toNat ≤ 3100 ∧
    up.dev.fio.quadBad.getLsbD (7 : Fin 8) = false ∧ 31 / 4 = (7 : Fin 8).val ∧
    (fio up fun f => { f with quadBad := 0x80 }).dev.fio.quadBad.getLsbD (7 : Fin 8) = true ∧
    fieldMode (fc 31 0x80000000 0 {}).dev 31 = 2 ∧ (fieldOf (fc 31 0x80000000 0 {}).dev c31).drive = false ∧
    (fieldOf (fc 31 0x80000000 0 {}).dev c31).mismatch = false ∧ (fieldOf (fc 31 0x80000000 0 {}).dev c31).latched = 0 ∧
    (fieldOf (fc 31 0x80000000 0 { mismatch := true }).dev c31).mismatch = true ∧
    fld (actEv (fc 7 0xC0000000 1 {}).dev (7 : Fin 8)) 15 0 ≠ 0 ∧ fieldMode (fc 7 0xC0000000 1 {}).dev (7 : Fin 8) = 3 ∧
    (let s := fio up fun f => { f with upFrame := some upF, rxCount := some 14 }
     s.dev.fio.upFrame = some upF ∧ coreUp s.dev 4 = true ∧ s.dev.fio.rxCount = some 14 ∧ upF.count = 14 + 1 ∧
     upF.counts = (List.range 8).map fun n => (n, (fun _ => ((0 : BitVec 32), 0)) n)) := by decide +kernel

def downF : DownFrame := ⟨0, 0x80000000⟩
/-- Both sides hold a frame in sequence, with `k` good ones before it. -/
def linked (k : Nat) : State := fio (fc 31 0x80000000 0 {}) fun f => { f with
  upFrame := some upF, rxCount := none, upRun := k, fsRxCount := some 15, downFrame := some downF, goodRun := k }
theorem wit_FieldOutputsAndLink :
    (let s := fio up fun f => { f with upFrame := some upF, rxCount := some 0, fsRxCount := some 0, downFrame := some downF }
     s.dev.fio.upFrame = some upF ∧ s.dev.fio.rxCount = some 0 ∧ upF.count ≠ 0 + 1 ∧ s.dev.fio.up = false ∧
     coreUp s.dev 4 = true ∧ domUp s.dev 2 = true ∧
     s.dev.fio.downFrame = some downF ∧ s.dev.fio.fsRxCount = some 0 ∧ downF.count ≠ 0 + 1) ∧
    (∀ k ∈ [1, 2], (linked k).dev.fio.rxCount = none ∧ coreUp (linked k).dev 4 = true ∧ domUp (linked k).dev 2 = true ∧
      downF.count = 15 + 1 ∧ (linked k).dev.fio.fsParked = false ∧ fieldMode (linked k).dev 31 = 2 ∧
      groupSafe (linked k).dev 31 = false ∧ (2 ≤ (linked k).dev.fio.upRun ↔ k = 2) ∧ (2 ≤ (linked k).dev.fio.goodRun ↔ k = 2)) ∧
    groupSafe (fio up fun f => { f with safe := 8 }).dev 31 = true ∧ up.dev.fio.fsParked = false ∧ (fio up fun f => { f with up := true }).dev.fio.up = true ∧
    fieldMode (fc 31 0x40000000 0 {}).dev 31 = 1 ∧ up.dev.fio.safe.getLsbD (3 : Fin 4) = false ∧ 31 / 8 = (3 : Fin 4).val ∧
    fieldMode (fc 31 0x80000000 0 { drive := true }).dev 31 = 2 ∧ (fieldOf (fc 31 0x80000000 0 { drive := true }).dev c31).drive = true ∧
    resultValid (rg up 0x1100010 0).dev 0x1100010 = false ∧ resultValid up.dev 0x1100010 = true ∧
    (fld (0xC0000000 : Word) 31 30 = 3 ∧ 8 ≤ (8 : Fin 32).val) ∧
    (bit (0x50000000 : Word) 28 = true ∧ fld (0x50000000 : Word) 31 30 = 1 ∧ bit (0x50000000 : Word) 29 = false) ∧
    (bit (0x90000000 : Word) 28 = true ∧ 2 ≤ fld (0x90000000 : Word) 31 30) ∧
    (fld (0x4C000000 : Word) 31 30 ≤ 1 ∧ bit (0x4C000000 : Word) 28 = false ∧ fld (0x4C000000 : Word) 27 26 = 3) ∧
    (fld (0x80000000 : Word) 31 30 ≤ 2 ∧ bit (0x80000000 : Word) 28 = false ∧ fld (0x80000000 : Word) 27 26 ≠ 3 ∧
     fld (0x80000000 : Word) 31 30 ≠ fieldMode (own up 71 .held .off).dev c31 ∧
     (resOf (own up 71 .held .off).dev (40 + c31)).state ≠ .unbound ∧ (resOf up.dev (40 + c31)).state = .unbound) ∧
    fieldMode (fc 31 0x80000000 0 {}).dev 31 = fld (0x80000000 : Word) 31 30 ∧
    (fieldOf up.dev c31).latched = 0 ∧ (fieldOf (fc 31 0x80000000 0 { latched := 3 }).dev c31).latched ≠ 0 ∧
    fieldMode up.dev c31 ≠ 3 ∧ fieldMode (fc 7 0xC0000000 1 {}).dev c7 = 3 ∧ up.dev.fio.parked = false := by decide +kernel

theorem wit_FieldOutputsAndLink_ready :
    (∀ s ∈ [up, rg up 0x1100010 0, fc 31 0x80000000 0 { latched := 3 }, fc 7 0xC0000000 1 {}, own up 71 .held .off],
      RowReady s.dev 0x110000C) ∧ domUp up.dev 2 = true ∧ domUp (fc 31 0x40000000 0xC0000000 {}).dev 2 = true ∧
    coreUp (fc 31 0x70000000 0 { broken := true }).dev 4 = true ∧ coreUp State.reset.dev 4 = false ∧
    (∀ b ∈ [true, false], let s := fc 31 0x80000000 0 { mismatch := b };
      coreUp s.dev 4 = true ∧ fieldMode s.dev 31 = 2 ∧ (fieldOf s.dev c31).drive = false) := by
  unfold RowReady BusFree; decide +kernel

def bwk (f : Bwk → Bwk) : State := dv up fun d => { d with bwk := f d.bwk }
def quiet : OutSig := {}
theorem wit_BreakwaterCycle :
    (let s := bwk fun b => { b with next := { b.next with outs := (List.range 72).map fun k => (k, quiet), alarms := 0x80000000 } }
     s.dev.bwk.state = .running ∧ s.dev.bwk.commit = false ∧ domUp s.dev 0 = true ∧
     s.dev.bwk.next.outs = (List.range 72).map (fun k => (k, (fun _ => quiet) k)) ∧ bit s.dev.bwk.next.alarms 31 = true ∧
     bit s.dev.bwk.last.alarms 31 = false) ∧
    (let s := bwk fun b => { b with bank0 := [(0x4008, 0x20000000), (0x4018, 0x80000005)] }
     let d1 := latchAll (sampleBeats (applyCycle (cycleEnd s.dev))) s.dev;
     domUp s.dev 0 = true ∧ s.dev.bwk.state = .running ∧ s.dev.bwk.commit = false ∧
     (rulesOf (activeBank d1)).Pairwise (· < ·) ∧ flagOrderBad (activeBank d1) = none ∧
     rulesOf (activeBank d1) = [0, 1] ∧ bit (bankWord d1 0x4008) 28 = false) ∧
    bit (0x00000001 : Word) 30 = false ∧ 0 < fld (0x00000001 : Word) 15 0 ∧ bit (0x8000FFFF : Word) 31 = true := by
  decide +kernel

/-- UNIT 1 with a preset, and a timer in the state that its polarity does not name. -/
theorem wit_BreakwaterCycle_timers : bit (0xC000FFFF : Word) 30 = true ∧ 0 < fld (0xC000FFFF : Word) 15 0 ∧
    ({ last := false } : BwkTimer).last ≠ bit (0xC000FFFF : Word) 31 ∧
    ({ last := true } : BwkTimer).last ≠ bit (0x40000001 : Word) 31 := by decide

/-- The three cases of a comparator, at the edges of its hysteresis: source word 5, threshold 10, hysteresis 3. -/
def comp (cfg : Word) (v : BitVec 16) : Dev :=
  { (bwk fun b => { b with bank0 := [(0x400 + 20, 0), (0x1000, cfg), (0x1004, 10)], word := [(5, v)], wordAt := [(5, some 0)] }).dev
    with wall := 5 }
theorem wit_BreakwaterCycle_comparators :
    compSource (comp 0x00050003 10) (comp 0x00050003 10) 5 false = (10, false, false) ∧ compSource (comp 0x00050003 6) (comp 0x00050003 6) 5 false = (6, false, false) ∧
    compSource (comp 0x00050003 7) (comp 0x00050003 7) 5 false = (7, false, false) ∧ (compSource up.dev up.dev 5 false).2.2 = true ∧
    fld (bankWord (comp 0x00050003 10) 0x1000) 15 0 = 3 ∧ bit (bankWord (comp 0x40050003 10) 0x1000) 30 = true ∧
    fld (bankWord (comp 0x40050003 10) 0x1004) 15 0 = 10 := by decide +kernel

theorem wit_BreakwaterBanksAndFaults :
    (1 : BitVec 8) = up.dev.bwk.qm.seq + 1 ∧ (2 : BitVec 8) ≠ up.dev.bwk.qm.seq + 1 ∧
    beatLive up.dev up.dev.bwk.qm (qmTimeout up.dev) = false ∧ beatLive up.dev up.dev.bwk.cl (clTimeout up.dev) = false ∧
    (let s := dv (bwk fun b => { b with bank0 := [(0x40, 0x00010001)], qm := { b.qm with at_ := some 0 }, cl := { b.cl with at_ := some 0 } })
        fun d => { d with wall := 999999 }
     beatLive s.dev s.dev.bwk.qm (qmTimeout s.dev) = true ∧ beatLive s.dev s.dev.bwk.cl (clTimeout s.dev) = true) ∧
    qmAwake up.dev = true ∧ clusterRuns up.dev = true ∧ domUp up.dev 0 = true ∧
    qmAwake (dv up fun d => { d with clt := { d.clt with qmHalted := true } }).dev = false ∧
    clusterRuns (dv up fun d => { d with rst := { d.rst with inReset := 0x80 } }).dev = false ∧
    up.dev.bwk.state = .running ∧ up.dev.bwk.commit = false ∧ up.dev.bwk.state ≠ .fault ∧
    (bwk fun b => { b with state := .fault }).dev.bwk.state = .fault ∧
    (latchOf (bwk fun b => { b with latch := [(0, false, 1), (1, true, 2)] }).dev 0).2 = 1 ∧
    (latchOf (bwk fun b => { b with latch := [(0, false, 1), (1, true, 2)] }).dev 1).2 = 2 ∧ (latchOf up.dev 71).2 = 0 ∧
    (bwk fun b => { b with commit := true }).dev.bwk.commit = true ∧ up.dev.bwk.bad = [] ∧
    (bwk fun b => { b with bad := [4] }).dev.bwk.bad ≠ [] ∧
    (bwk fun b => { b with state := .empty }).dev.bwk.state = .empty ∧
    resultValid (rg up 0x1200010 0).dev 0x1200010 = false ∧ resultValid up.dev 0x1200010 = true ∧
    bankCheck (inactiveBank up.dev) (up.dev.bwk.bad != []) = (1, 0) ∧ hasAuthority up.dev = true ∧
    hasAuthority (dv up fun d => { d with pair := { d.pair with role := .standby } }).dev = false := by decide +kernel

theorem wit_BreakwaterBanksAndFaults_kicks : qmAwake (queuedAcc up { posted with who := .qm }).dev = true ∧
    ¬ NoneBefore (queuedAcc up { posted with who := .qm }) .qm 0x1200018 ∧ NoneBefore up .qm 0x1200018 ∧ someHart up.dev = true ∧
    someHart (dv up fun d => { d with rst := { d.rst with inReset := 0x80 } }).dev = false := by
  unfold NoneBefore; decide +kernel

/-- A bank with its magic, version and CRC word, and no entries. -/
def bareBank (c : Word) : List (Nat × Word) := [(0, 0x49525742), (4, 1), (0xC, c)]
theorem bareBank_bytes (c : Word) : bankBytes (bareBank c) 0x10 0x8000 = bankBytes (bareBank 0) 0x10 0x8000 := by
  unfold bankBytes
  congr 1
  funext i
  have h : ∀ c, tget 0 (bareBank c) (0x10 + 4 * i) = 0 := by
    intro c
    simp only [bareBank, tget]
    rw [if_neg (by omega), if_neg (by omega), if_neg (by omega)]
  rw [h c, h 0]
theorem bareBank_check (c : Word) (h : crc32c 0xFFFFFFFF (bankBytes (bareBank 0) 0x10 0x8000) = c) :
    bankCheck (bareBank c) false = (0, 0) := by
  unfold bankCheck
  rw [bareBank_bytes, h]
  simp [bareBank, tget, entryOk, flagOrderBad, timerSharedBad, rulesOf, fld]
/-- Such a bank passes every check of Table 11.7, whatever its CRC is. -/
theorem wit_BreakwaterBanksAndFaults_passes : ∃ c, bankCheck (bareBank c) false = (0, 0) :=
  ⟨_, bareBank_check _ rfl⟩

def clt (f : Clt → Clt) : State := dv up fun d => { d with clt := f d.clt }
abbrev h7 : Fin 8 := 7
theorem wit_ClusterEvents :
    up.dev.clt.map.length = 8 ∧ coreOf up.dev h7 < 10 ∧ coreUp up.dev 7 = true ∧ up.dev.clt.halted.getLsbD h7 = false ∧
    parked up.dev = false ∧ coreUp (dv up fun d => { d with rst := { d.rst with inReset := 0x80 } }).dev 7 = false ∧
    (0x7F : BitVec 56).toNat / 64 * 64 ∈ (clt fun c => { c with cachePoison := [64] }).dev.clt.cachePoison ∧
    (0x80 : BitVec 56).toNat / 64 * 64 ∉ up.dev.clt.cachePoison ∧
    ((tget [] (clt fun c => { c with dramCe := [(7, [0, 0])] }).dev.clt.dramCe (7 : BitVec 24).toNat).filter fun a =>
      decide (up.dev.wall - a < day)).length < 3 ∧
    3 ≤ ((tget [] (clt fun c => { c with dramCe := [(7, [0, 0, 0])] }).dev.clt.dramCe (7 : BitVec 24).toNat).filter fun a =>
      decide (up.dev.wall - a < day)).length ∧
    (let s := clt fun c => { c with retired := 0x100 }
     s.dev.clt.retired.getLsbD 9 = false ∧ (0 : BitVec 10).getLsbD 9 = false ∧ (∀ j < 8, coreOf s.dev j ≠ 9) ∧
     ∀ i < 9, s.dev.clt.retired.getLsbD i = true ∨ (0 : BitVec 10).getLsbD i = true ∨ ∃ j < 8, coreOf s.dev j = i) ∧
    (∀ k < 10, up.dev.clt.retired.getLsbD k = true ∨ (0x300 : BitVec 10).getLsbD k = true ∨ ∃ j < 8, coreOf up.dev j = k) ∧
    (0x7F : BitVec 56).toNat / 64 * 64 ∈ (clt fun c => { c with poison := [64] }).dev.clt.poison ∧
    (0x80 : BitVec 56).toNat / 64 * 64 ∉ (clt fun c => { c with poison := [64] }).dev.clt.poison ∧ reserveLeft up.dev 3 ≠ 0 ∧
    1 ≤ (255 : Word).toNat ∧ (255 : Word).toNat ≤ 255 ∧ (0 : Word).toNat = 0 ∧ 255 < (256 : Word).toNat ∧
    (let s := rg (rg up (0x4000000 + 56) 0) (0x4000004 + 56) 0
     rd64 s.dev (0x4000000 + 8 * h7) ≤ mtime s.dev ∧ s.dev.clt.timerPend.getLsbD h7 = false) ∧
    mtime (rg up (0x4000000 + 56) 0xFFFFFFFF).dev < rd64 (rg up (0x4000000 + 56) 0xFFFFFFFF).dev (0x4000000 + 8 * h7) ∧
    (clt fun c => { c with wdog := 2 }).dev.clt.wdog ≠ 0 ∧ up.dev.clt.wdog = 0 ∧ (0x5A5B : BitVec 16) ≠ 0x5A5A := by
  decide +kernel

/-- A read of slip 5 is outstanding under tag 7 of the fabric; poisoned is the line at 64. -/
theorem wit_ClusterEvents_dma :
    (let s := dv (clt fun c => { c with poison := [64] }) fun d =>
      { d with slips := { d.slips with outst := [{ tag := 7, fabric := true, slip := 5, ring := 0, idx := 0, off := 0 }] } }
     fabricUp s.dev = true ∧ (∃ o ∈ s.dev.slips.outst, o.fabric = true ∧ o.tag = (7 : Fin 768).val ∧ o.slip = (5 : Fin 4096).val) ∧
     (0x40 : BitVec 56).toNat / 64 * 64 ∈ s.dev.clt.poison) ∧ up.dev.slips.outst = [] := by decide

theorem wit_WorldRegionAccesses :
    (∀ c < 7, classUp up.dev c = true) ∧ flashWorn up.dev = false ∧
    (∀ c < 7, c = 0 → classUp (dv up fun d => { d with rst := { d.rst with inReset := 0x80 } }).dev c = false) ∧
    basinByte up.dev 0 = none ∧ lockUp up.dev = true ∧
    clusterMem (0x400000007 : BitVec 56).toNat = some ((0 : Fin 5).val, (7 : BitVec 34).toNat) ∧
    clusterMem (1 : BitVec 56).toNat = none ∧ clusterIo (1 : BitVec 56).toNat = false ∧
    (∀ b, basinByte (dv up fun d => { d with basin := { d.basin with frames := [{ frame1 with cells := [0], body := .eth [b] }] } }).dev 32
      = some b) ∧
    debugAllows up.dev (0 : Fin 7) = true ∧ 0 < opLen (.write (List.replicate 64 1)) ∧ opLen (.write (List.replicate 64 1)) ≤ 64 ∧
    (2 ^ 33 - 64 : BitVec 34).toNat + opLen (.write (List.replicate 64 1)) ≤ memSize (4 : Fin 5) ∧
    regionAllows up.dev (2 : Fin 7) (0 : Fin 5) (0 : BitVec 34).toNat 64 true = true ∧ (0 : Fin 5) ≠ 1 ∧
    regionAllows up.dev (2 : Fin 7) (4 : Fin 5) (2 ^ 33 - 64 : BitVec 34).toNat 64 true = true ∧
    regionAllows up.dev (0 : Fin 7) (4 : Fin 5) (2 ^ 33 - 64 : BitVec 34).toNat (opLen (.read 64 .clean)) false = true ∧
    regionAllows up.dev (2 : Fin 7) (1 : Fin 5) (0 : BitVec 34).toNat 64 false = true ∧
    (let s := dv up fun d => { d with wld := { d.wld with regions := [(319, { owner := true, enable := true, last := 2097151 })] } }
     regionAllows s.dev (0 : Fin 7) (4 : Fin 5) (0 : BitVec 34).toNat (opLen (.read 1 .clean)) false = false ∧
     regionAt s.dev (4 : Fin 5) (0 : BitVec 34).toNat = some 63 ∧ (regionOf s.dev 4 63).owner = true) ∧
    debugAllows up.dev (5 : Fin 7) = false ∧ (regionOf up.dev (4 : Fin 5) (63 : Fin 64)).owner = false ∧
    (regionOf up.dev (4 : Fin 5) (63 : Fin 64)).locked = false ∧ bit (0x80000000 : Word) 30 = false ∧
    bit (0x80000000 : Word) 29 = false ∧ bit (0xC0000000 : Word) 30 = true := by decide +kernel

/-- A poisoned byte in the DRAM, a read of slip 5 outstanding, an error in a cell of the Basin, a strict write behind one. -/
theorem wit_WorldRegionAccesses_more :
    (∀ m < 5, rowFaulted up.dev m 0 64 = false) ∧
    (let s := clt fun c => { c with poison := [0x400000000] }
     firstPoison s.dev 0 0 64 = some 0x400000000 ∧ regionAllows s.dev 0 0 0 64 false = true) ∧
    firstPoison up.dev 0 0 64 = none ∧ cellsRead 0 64 (.uncorrectable 0) = .uncorrectable 0 ∧
    regionAllows up.dev (2 : Fin 7) (1 : Fin 5) 0 64 false = true ∧
    (let s := dv up fun d =>
      { d with slips := { d.slips with outst := [{ tag := 7, fabric := true, slip := 5, ring := 0, idx := 0, off := 0 }] } }
     (∃ o ∈ s.dev.slips.outst, o.fabric = true ∧ o.tag = (7 : Fin 768).val ∧ o.slip = (5 : Fin 4096).val) ∧
     regionAllows s.dev (1 : Fin 7) (0 : Fin 5) 0 64 false = true) ∧
    (let s := dv up fun d => { d with wld := { d.wld with regions := [(63, {})] } }
     regionAllows s.dev (1 : Fin 7) (0 : Fin 5) 0 64 false = false) ∧
    ¬ NoneBefore (queuedAcc up posted) .pf (aRegion 4 63 3) ∧ NoneBefore up .pf (aRegion 4 63 3) ∧ NoneBefore up .qm (aRegion 4 63 3) := by
  unfold NoneBefore; decide +kernel
/-- Which rows a page lies in is a free value: whatever says so makes the access fault. -/
theorem wit_WorldRegionAccesses_row (h : Config.rowInPage 7 0 = true) :
    rowFaulted (clt fun c => { c with rowsOut := [7] }).dev 0 0 64 = true := by
  simp [rowFaulted, clt, dv, h]

def ho (b : Nat) (x : HoBlock) : State := dv up (setHo · b x)
abbrev b16 : Fin 17 := 16
theorem wit_HandOverAndDebug :
    (hoOf up.dev b16).state = .nOwned ∧ (hoOf (ho 16 { state := .releaseReq }).dev b16).state = .releaseReq ∧
    (hoOf (ho 16 { state := .sOwned }).dev b16).state = .sOwned ∧ (hoOf (ho 16 { state := .toS, cmd := true }).dev b16).state = .toS ∧
    (hoOf (ho 16 { state := .toS, cmd := true }).dev b16).cmd = true ∧ (hoOf (ho 15 { state := .toN }).dev (15 : Fin 17)).state = .toN ∧
    resultValid (rg up 0x1300014 0).dev 0x1300014 = false ∧ resultValid up.dev 0x1300014 = true ∧ 16 < (17 : BitVec 5).toNat ∧
    (16 : BitVec 5).toNat ≤ 16 ∧ (hoOf up.dev (16 : BitVec 5).toNat).state ≠ .releaseReq ∧
    (hoOf (ho 16 { state := .releaseReq }).dev (16 : BitVec 5).toNat).state = .releaseReq ∧
    lockUp up.dev = true ∧
    (let s := ho 16 { state := .releaseReq, at_ := 0 }
     s.dev.wall - (hoOf s.dev b16).at_ < 1000000 * hoTimeoutMs s.dev) ∧
    (let s := dv (ho 16 { state := .releaseReq, at_ := 0 }) fun d => { d with wall := 1000000 * hoTimeoutMs d }
     lockUp s.dev = true ∧ (hoOf s.dev b16).state = .releaseReq ∧
     1000000 * hoTimeoutMs s.dev ≤ s.dev.wall - (hoOf s.dev b16).at_) ∧
    certDue up.dev = none ∧
    (∀ e ∈ [up.dev.wall, up.dev.wall + 1],
      certDue (dv up fun d => { d with wld := { d.wld with certs := [⟨2, some e⟩] } }).dev = some e ∧
      (e ≤ up.dev.wall ↔ e = up.dev.wall)) ∧
    (∀ h < 10, debugCovers up.dev h = false) ∧
    (let s := dv up fun d => { d with wld := { d.wld with nInv := true, qmDbg := true, sInv := true } }
     (∀ h < 10, debugCovers s.dev h = true ∧ procUp s.dev h = true) ∧
     procUp (dv s fun d => { d with rst := { d.rst with inReset := 0x80 } }).dev 7 = false) := by decide +kernel

/-- Each processor halted under its enable, and seen. -/
theorem wit_HandOverAndDebug_halted : ∀ h < 10,
    (let s := dv up fun d => { d with wld := { d.wld with nInv := true, qmDbg := true, sInv := true }
                                      clt := { d.clt with halted := 0xFF, qmHalted := true, lockHalted := true } }
     debugCovers s.dev h = true ∧ debugHalted s.dev h = true) ∧ debugHalted up.dev h = false ∧ debugSees up.dev h = false := by
  decide

def mbx (k : Nat) (x : Mbx) : State := dv up (setMbx · k x)
def keyDesc : Desc := dsc 0x30 16 0 0 16
def job (j : LockJob) (st : MbxState) : State := dv (mbx j.slot { state := st }) fun d => { d with keys := { d.keys with job := some j } }
/-- Slip 5 with a KEY_REQ at the front of its ring, its request in engine slot 7. -/
def engine7 (x : Mbx) : State := dv (hand 2 keyDesc) (setMbx · 7 { x with slip := 5, ring := 0, idx := 0 })
theorem wit_MailboxSlots :
    mbxOwner .pf (15 : Fin 16) = false ∧ mbxOwner .qm (11 : Fin 16) = true ∧ mbxOwner (.hart 0) (12 : Fin 16) = true ∧
    (∀ st ∈ [MbxState.free, .posted, .taken, .done, .cancelled], (mbxOf (mbx 15 { state := st }).dev (15 : Fin 16)).state = st) ∧
    8 ≤ (15 : Fin 16).val ∧
    (let j : LockJob := ⟨15, 127, List.replicate 60 0, false⟩
     (job j .taken).dev.keys.job = some j ∧ j.cut = false ∧ j.slot < 16 ∧ (mbxOf (job j .taken).dev j.slot).state = .taken ∧
     8 ≤ j.slot ∧ j.out.length ≤ 60 ∧ j.status < 128 ∧ (mbxOf (job j .cancelled).dev j.slot).state = .cancelled ∧
     (mbxOf (job j .done).dev j.slot).state = .done) ∧
    (let j : LockJob := ⟨7, 0, List.replicate 61 0, false⟩
     (job j .taken).dev.keys.job = some j ∧ (mbxOf (job j .taken).dev j.slot).state = .taken ∧ j.slot < 8) ∧
    engineFree (hand 2 keyDesc).dev = some 0 ∧ lockUp (job ⟨15, 0, [], false⟩ .taken).dev = true ∧
    (hand 2 keyDesc).dev.slips.waits = [] ∧ freeTag (hand 2 keyDesc).dev 5 = some 0 ∧
    fld (dw keyDesc 4) 12 0 ≤ partLen (hand 2 keyDesc).dev (keyWait 5 0 keyDesc) ∧
    (noTags (hand 2 keyDesc)).dev.slips.waits = [] ∧ freeTag (noTags (hand 2 keyDesc)).dev 5 = none ∧
    engineFree (dv (hand 2 keyDesc) fun d => (List.range 8).foldl (fun d k => setMbx d k { state := .posted }) d).dev = none ∧
    engineFree (hand 2 { keyDesc with stage := .reading, passed := true }).dev = some 0 ∧
    (ringOf (hand 2 { keyDesc with stage := .reading, passed := true }).dev 5 0).inflight =
      { keyDesc with stage := .reading, passed := true } :: [] ∧
    (∀ st ∈ [MbxState.posted, .taken, .cancelled],
      (let s := mbx 15 { state := st }; s.dev.wall - (mbxOf s.dev 15).at_ < 1000000000) ∧
      let s := dv (mbx 15 { state := st }) fun d => { d with wall := 1000000000 };
        (mbxOf s.dev 15).state = st ∧ 1000000000 ≤ s.dev.wall - (mbxOf s.dev 15).at_) ∧
    (let s := dv (engine7 { state := .taken }) fun d => { d with wall := 1000000000 }
     (mbxOf s.dev (7 : Fin 8)).state = .taken ∧ 1000000000 ≤ s.dev.wall - (mbxOf s.dev (7 : Fin 8)).at_ ∧
     (engine7 { state := .taken }).dev.wall - (mbxOf (engine7 { state := .taken }).dev (7 : Fin 8)).at_ < 1000000000) ∧
    (let s := engine7 { state := .done, status := 0, rsp := List.replicate 16 0 }
     (mbxOf s.dev (7 : Fin 8)).slip = 5 ∧ (mbxOf s.dev (7 : Fin 8)).ring = 0 ∧ (mbxOf s.dev (7 : Fin 8)).idx = keyDesc.idx ∧
     (mbxOf s.dev (7 : Fin 8)).state = .done ∧ (mbxOf s.dev (7 : Fin 8)).status ≠ 0x7E ∧
     (mbxOf s.dev (7 : Fin 8)).rsp.length ≤ fld (dw keyDesc 7) 12 0) ∧
    fld (dw keyDesc 7) 12 0 < (mbxOf (engine7 { state := .done, rsp := List.replicate 17 0 }).dev (7 : Fin 8)).rsp.length ∧
    (mbxOf (engine7 { state := .taken }).dev (7 : Fin 8)).state = .taken := by decide +kernel
theorem wit_MailboxSlots_front :
    ReadyAtFront (hand 2 keyDesc) 5 0 keyDesc [] ∧ ReadyAtFront (noTags (hand 2 keyDesc)) 5 0 keyDesc [] ∧
    opOf keyDesc = 0x30 ∧ AtFront (engine7 { state := .done }) 5 0 keyDesc [] :=
  ⟨ready1 (by decide), ready1 (by decide), by decide, front1 (by decide)⟩

theorem wit_MailboxSlots_waits : ¬ NoneBefore (queuedAcc up posted) .pf (aMbxReq 15 0) ∧ NoneBefore (mbx 15 {}) (.hart 7) (aMbxReq 15 0) ∧
    NoneBefore (queuedAcc (mbx 11 { state := .done }) posted) .qm (aMbxReq 15 0) := by
  unfold NoneBefore; decide +kernel

/-- A request of `code` in slot `k`: an engine slot below 8 (from slip 0), a mailbox of the Quaymaster or the cluster. -/
def ask (k code lc : Nat) (ks : List (Nat × KeySlot)) (p : List Byte) : State :=
  let d0 := (dv up fun d => { d with keys := { d.keys with slots := ks, lc := lc } }).dev
  let d1 := setMbx d0 k { state := .posted, req := if k < 8 then [0, 0, 0, BitVec.ofNat 8 code] ++ p else [] }
  let d2 := if k < 8 then d1 else (List.range 15).foldl (fun d i => wr d (aMbxReq k (i + 1)) (leWord p i))
    (wr d1 (aMbxReq k 0) (at_ code 24 ||| at_ p.length 16))
  { up with dev := d2 }
/-- The first 8 payload bytes (Table 13.4), inline, and the input. -/
def inl (slot slot2 arg : Byte) (inp : List Byte) : List Byte := [slot, slot2, 0, arg] ++ leBytes inp.length 4 ++ inp
theorem served {s : State} {k code : Nat} {q : KeyReq} {inp : List Byte}
    (h : oldestPosted s.dev = some k ∧ lockIdle s.dev = true ∧ q = requestOf s.dev k ∧ q.service = code ∧
      (serviceMask code).testBit q.who.code = true ∧ badLength s.dev k = false ∧ payloadBad q = false ∧
      q.byaddr = false ∧ inp = (q.payload.drop 8).take q.inLen ∧ lcForbids s.dev code = false) : Served s k code q inp := h
theorem usable {s : State} {q : KeyReq} {k usage : Nat} {alg : Nat → Bool}
    (h : 16 ≤ k ∧ inUsers (keyOfSlot s.dev k) q.who = true ∧ (keyOfSlot s.dev k).alg ≠ 0 ∧
      (keyOfSlot s.dev k).fault = false ∧ (keyOfSlot s.dev k).usage = usage ∧ alg (keyOfSlot s.dev k).alg = true) :
    Usable s q k usage alg := h
theorem creatable {s : State} {q : KeyReq} {k : Nat} {inp : List Byte}
    (h : 16 ≤ k ∧ mayCreate k q.who = true ∧ (keyOfSlot s.dev k).fault = false ∧
      (keyOfSlot s.dev k).gen.toNat = (leWord inp 1).toNat ∧ attrBad (leWord inp 0) q.who = false) : Creatable s q k inp := h
/-- A slot of an algorithm and a usage that every requester may use. -/
def ky (alg usage : Nat) : KeySlot := { alg := alg, usage := usage, users := 15, gen := 1, key := List.replicate 32 7 }
/-- ATTR with USERS = slip 0, and EXPECT_GEN. -/
def attr (w : Nat) (g : Nat) : List Byte := leBytes (w + 0x8000) 4 ++ leBytes g 4
abbrev rqs (s : State) (k : Nat) : KeyReq := requestOf s.dev k

theorem wit_KeysCreatedAndDestroyed :
    (let s := ask 7 0x02 1 [(255, ky 1 0)] (inl 255 0 0 (attr 0x01000000 1))
     Served s 7 0x02 (rqs s 7) (attr 0x01000000 1) ∧ Creatable s (rqs s 7) (rqs s 7).slot (attr 0x01000000 1) ∧
     isPub (attrSlot (leWord (attr 0x01000000 1) 0)).alg = false) ∧
    (let i := attr 0x01000000 0 ++ List.replicate 16 0
     let s := ask 7 0x03 1 [(17, ky 1 2)] (inl 16 17 0 i)
     Served s 7 0x03 (rqs s 7) i ∧ 24 ≤ i.length ∧ Creatable s (rqs s 7) (rqs s 7).slot i ∧
     Usable s (rqs s 7) (rqs s 7).slot2 2 isAes) ∧
    (let i := attr 0x01000000 0 ++ [0]
     let s := ask 7 0x17 1 [(17, ky 4 3)] (inl 17 16 1 i)
     Served s 7 0x17 (rqs s 7) i ∧ 9 + (i.getD 8 0).toNat ≤ i.length ∧ (rqs s 7).arg ≤ 1 ∧
     Creatable s (rqs s 7) (rqs s 7).slot2 i ∧ isPub (attrSlot (leWord i 0)).alg = false ∧
     Usable s (rqs s 7) (rqs s 7).slot 3 (fun g => isAes g || isHmac g || g == 9 || g == 10)) ∧
    (let i := attr 0x3A000000 0 ++ List.replicate 96 0
     let s := ask 7 0x18 1 [(17, ky 6 3)] (inl 17 16 0 i)
     Served s 7 0x18 (rqs s 7) i ∧ Creatable s (rqs s 7) (rqs s 7).slot2 i ∧ (keyOfSlot s.dev 17).alg = 6 ∧
     Usable s (rqs s 7) (rqs s 7).slot 3 isPriv ∧ i.length = 8 + 2 * curveSize 6 ∧
     (attrSlot (leWord i 0)).alg = 9 + curveOf 6) ∧
    (let s := ask 7 0x05 1 [(255, ky 1 3)] (inl 255 0 0 [1, 0, 0, 0])
     Served s 7 0x05 (rqs s 7) [1, 0, 0, 0] ∧ 16 ≤ (rqs s 7).slot ∧ mayCreate (rqs s 7).slot (rqs s 7).who = true ∧
     (keyOfSlot s.dev (rqs s 7).slot).alg ≠ 0 ∧ (keyOfSlot s.dev (rqs s 7).slot).gen.toNat = leNat [1, 0, 0, 0]) ∧
    (let s := ask 7 0x02 1 [] (inl 15 0 0 (attr 0x01000000 0))
     Served s 7 0x02 (rqs s 7) (attr 0x01000000 0) ∧ attrBad (leWord (attr 0x01000000 0) 0) (rqs s 7).who = false ∧
     (rqs s 7).slot < 16) ∧
    (let i := leBytes 0x01020000 4 ++ leBytes 0 4
     let s := ask 11 0x02 1 [] (inl 127 0 0 i)
     Served s 11 0x02 (rqs s 11) i ∧ attrBad (leWord i 0) (rqs s 11).who = false ∧ 16 ≤ (rqs s 11).slot ∧
     mayCreate (rqs s 11).slot (rqs s 11).who = false) ∧
    (let s := ask 7 0x02 1 [(255, ky 1 0)] (inl 255 0 0 (attr 0x01000000 0))
     Served s 7 0x02 (rqs s 7) (attr 0x01000000 0) ∧ mayCreate (rqs s 7).slot (rqs s 7).who = true ∧
     (keyOfSlot s.dev (rqs s 7).slot).fault = false ∧
     (keyOfSlot s.dev (rqs s 7).slot).gen.toNat ≠ (leWord (attr 0x01000000 0) 1).toNat) :=
  ⟨⟨served (by decide), creatable (by decide), by decide⟩,
    ⟨served (by decide), by decide, creatable (by decide), usable (by decide)⟩,
    ⟨served (by decide), by decide, by decide, creatable (by decide), by decide, usable (by decide)⟩,
    ⟨served (by decide), creatable (by decide), by decide, usable (by decide), by decide, by decide⟩,
    ⟨served (by decide), by decide⟩, ⟨served (by decide), by decide⟩, ⟨served (by decide), by decide⟩,
    ⟨served (by decide), by decide⟩⟩

theorem wit_KeyServicesAnswer :
    (let i := List.replicate 14 0
     let s := ask 7 0x10 1 [(255, ky 1 0)] (inl 255 0 0 i)
     Served s 7 0x10 (rqs s 7) i ∧ 14 + aadLen i ≤ i.length ∧ Usable s (rqs s 7) (rqs s 7).slot 0 isAes) ∧
    (let i := List.replicate 30 0
     let s := ask 7 0x11 1 [(255, ky 1 1)] (inl 255 0 0 i)
     Served s 7 0x11 (rqs s 7) i ∧ 30 + aadLen i ≤ i.length ∧ Usable s (rqs s 7) (rqs s 7).slot 1 isAes) ∧
    (let s := ask 11 0x12 1 [(16, ky 4 0)] (inl 16 0 0 [])
     Served s 11 0x12 (rqs s 11) [] ∧ Usable s (rqs s 11) (rqs s 11).slot 0 isHmac) ∧
    (let i := List.replicate 48 0
     let s := ask 15 0x13 1 [(255, ky 3 1)] (inl 255 0 0 i)
     Served s 15 0x13 (rqs s 15) i ∧ Usable s (rqs s 15) (rqs s 15).slot 1 isHmac ∧ hashLen (hashOf 3) ≤ i.length) ∧
    (let i := List.replicate 48 0
     let s := ask 7 0x14 1 [(255, ky 6 0)] (inl 255 0 0 i)
     Served s 7 0x14 (rqs s 7) i ∧ Usable s (rqs s 7) (rqs s 7).slot 0 isPriv ∧
     i.length = curveSize (keyOfSlot s.dev (rqs s 7).slot).alg) ∧
    (let i := List.replicate 144 0
     let s := ask 7 0x15 1 [(255, ky 8 1)] (inl 255 0 0 i)
     Served s 7 0x15 (rqs s 7) i ∧ Usable s (rqs s 7) (rqs s 7).slot 1 isPub ∧ i.length = 3 * curveSize 8) ∧
    (let s := ask 7 0x16 4 [] (inl 0 0 2 [])
     Served s 7 0x16 (rqs s 7) [] ∧ (rqs s 7).arg ≤ 2) ∧
    (let s := ask 7 0x06 1 [(255, ky 7 0), (16, ky 5 0)] (inl 255 0 0 [])
     Served s 7 0x06 (rqs s 7) [] ∧ 16 ≤ (rqs s 7).slot ∧ (keyOfSlot s.dev (rqs s 7).slot).fault = false ∧
     isPub (keyOfSlot s.dev (rqs s 7).slot).alg = true ∧ isPriv (keyOfSlot s.dev 16).alg = true) ∧
    (∀ b, let s := ask 7 0x04 1 [(255, { ky 1 0 with exportable := b }), (254, ky 1 2)] (inl 255 254 0 [])
     Served s 7 0x04 (rqs s 7) [] ∧ (keyOfSlot s.dev (rqs s 7).slot).alg ≠ 0 ∧
     (keyOfSlot s.dev (rqs s 7).slot).exportable = b ∧ Usable s (rqs s 7) (rqs s 7).slot2 2 isAes) :=
  ⟨⟨served (by decide +kernel), by decide, usable (by decide +kernel)⟩, ⟨served (by decide +kernel), by decide, usable (by decide +kernel)⟩,
    ⟨served (by decide +kernel), usable (by decide +kernel)⟩,
    ⟨served (by decide +kernel), usable (by decide +kernel), by decide +kernel⟩,
    ⟨served (by decide +kernel), usable (by decide +kernel), by decide +kernel⟩, ⟨served (by decide +kernel), usable (by decide +kernel), by decide +kernel⟩,
    ⟨served (by decide +kernel), by decide +kernel⟩, ⟨served (by decide +kernel), by decide +kernel⟩,
    fun b => by cases b <;> exact ⟨served (by decide +kernel), by decide, by decide, usable (by decide +kernel)⟩⟩

theorem wit_KeyServicesAnswer_engines :
    (let s := ask 11 0x21 1 [(16, ky 1 3)] (inl 16 0 0 [1, 0])
     Served s 11 0x21 (rqs s 11) [1, 0] ∧ Usable s (rqs s 11) (rqs s 11).slot 3 isAes ∧ cknBad [1, 0] = false) ∧
    (let s := ask 7 0x19 1 [] ([0, 0, 0, 0] ++ leBytes 4084 4)
     Served s 7 0x19 (rqs s 7) [] ∧ (rqs s 7).inLen ≤ 4084) ∧
    (let s := ask 11 0x20 1 [(16, ky 1 3)] (inl 16 0 255 [1])
     Served s 11 0x20 (rqs s 11) [1] ∧ Usable s (rqs s 11) (rqs s 11).slot 3 isAes ∧ (1 : Byte).toNat ≤ 1 ∧
     bit (tunCfg s.dev (rqs s 11).arg) 31 = false) ∧
    (let s := rg (ask 11 0x20 1 [(16, ky 1 3)] (inl 16 0 255 [0])) (tunBase 255) 0x80000000
     Served s 11 0x20 (rqs s 11) [0] ∧ bit (tunCfg s.dev (rqs s 11).arg) 31 = true ∧
     (streamOf s.dev (rqs s 11).arg).txNum = (([0].getD 0 0 : Byte).toNat == 1)) ∧
    (let i := [1, 0, 3]
     let s := ask 11 0x22 1 [(16, ky 1 3)] (inl 16 0 2 i)
     Served s 11 0x22 (rqs s 11) i ∧ cknBad i = false ∧ ((afterCkn i).getD 0 0).toNat ≤ 3 ∧ (rqs s 11).arg ≤ 2 ∧
     Usable s (rqs s 11) (rqs s 11).slot 3 isAes ∧ (afterCkn i).length = 1) ∧
    (let i := [1, 0, 3] ++ List.replicate 40 0
     let s := ask 11 0x23 1 [(16, ky 1 3)] (inl 16 0 2 i)
     Served s 11 0x23 (rqs s 11) i ∧ cknBad i = false ∧ (afterCkn i).length = 41) ∧
    (let i := List.replicate 30 0
     let s := ask 7 0x10 1 [] (inl 255 0 0 i)
     Served s 7 0x10 (rqs s 7) i ∧ 30 + aadLen i ≤ i.length ∧ 16 ≤ (rqs s 7).slot ∧ (keyOfSlot s.dev (rqs s 7).slot).alg = 0 ∧
     inUsers (keyOfSlot s.dev (rqs s 7).slot) (rqs s 7).who = false ∧
     inUsers (keyOfSlot (ask 7 0x10 1 [(255, { users := 1 })] (inl 255 0 0 i)).dev (rqs s 7).slot) (rqs s 7).who = true) :=
  ⟨⟨served (by decide +kernel), usable (by decide +kernel), by decide⟩,
    ⟨served (by decide), by decide⟩, ⟨served (by decide +kernel), usable (by decide +kernel), by decide, by decide +kernel⟩,
    ⟨served (by decide +kernel), by decide +kernel, by decide +kernel⟩,
    ⟨served (by decide +kernel), by decide, by decide, by decide +kernel, usable (by decide +kernel), by decide⟩,
    ⟨served (by decide +kernel), by decide, by decide⟩,
    ⟨served (by decide), by decide⟩⟩

/-- FIPS 180-4 and FIPS 202, the digests of "abc"; FIPS 197, C.3; SP 800-38D, the 256-bit key of zeros. -/
theorem test_sha256_abc : sha256 [0x61, 0x62, 0x63] =
    beBytes 0xBA7816BF8F01CFEA414140DE5DAE2223B00361A396177A9CB410FF61F20015AD 32 := by decide +kernel
theorem test_sha384_abc : sha384 [0x61, 0x62, 0x63] =
    beBytes 0xCB00753F45A35E8BB5A03D699AC65007272C32AB0EDED1631A8B605A43FF5BED8086072BA1E7CC2358BAECA134C825A7 48 := by
  decide +kernel
theorem test_sha3_abc : sha3 [0x61, 0x62, 0x63] =
    beBytes 0x3A985DA74FE225B2045C172D6BD390BD855F086E3E9D525B46BFE24511431532 32 := by decide +kernel
theorem test_aes_c3 : aesEncrypt (aesKeys ((List.range 32).map (BitVec.ofNat 8))) ((List.range 16).map fun i => BitVec.ofNat 8 (17 * i)) =
    beBytes 0x8EA2B7CA516745BFEAFC49904B496089 16 := by decide +kernel
theorem test_gcm_zeros : gcmSeal (List.replicate 32 0) (List.replicate 12 0) [] (List.replicate 16 0) =
    beBytes 0xCEA7403D4D606B6E074EC5D3BAF39D18D0D1C8A799996BF0265B98B5D48AB919 32 := by decide +kernel

/-- RFC 6979, A.2.5: P-256, SHA-256 and the message "sample": the signature for its k, which its public key verifies. -/
theorem test_ecdsa_sample :
    let key := beBytes 0xC9AFA9D845BA75166B5C215767B1D6934E50C3DB36E89B127B8A622B120F6721 32
    let h := sha256 [0x73, 0x61, 0x6D, 0x70, 0x6C, 0x65]
    let r := 0xEFD48B2AACB6A8FD1140DD9CD45E81D69D2C877B56AAF991C34D0EA84EAF3716
    let s := 0xF7CB1C942D657C41D436C7A1B6E29F65F3E900DBB9AFF4064DC4AB2F843ACDA8
    eccSignWith 0 key h 0xA6E3C57DD01ABE90086538398355DD4C3B17AA873382B0F24D6129493D8AAD60 = some (r, s) ∧
    ecdsaVerify 0 (eccPublic 0 key) h (beBytes r 32 ++ beBytes s 32) = true := by decide +kernel

/-- The generators of P-256 and P-384: y from x and its parity (SEC 2, 2.4.2 and 2.5.1). -/
theorem test_keyFull_p256 :
    leNat ((keyFull { alg := 7, key := beBytes 0x6B17D1F2E12C4247F8BCE6E563A440F277037D812DEB33A0F4A13945D898C296 32 ++ [1] }).drop 32).reverse =
      0x4FE342E2FE1A7F9B8EE7EB4A7C0F9E162BCE33576B315ECECBB6406837BF51F5 := by decide +kernel

/-- HASH by address from the mailbox of the cluster: `n` bytes at the start of memory 4, 32 bytes out at `o`. -/
def byAddr (n o cap : Nat) : State :=
  ask 15 0x16 1 [] ([0, 0, 1, 0] ++ leBytes n 4 ++ leBytes 0x200000000 8 ++ leBytes o 8 ++ leBytes cap 4)
theorem wit_KeyServicesAnswer_byAddress :
    (let s := dv (byAddr 64 0x200000040 32) fun d => { d with wld := { d.wld with
        regions := [(319, { last := 2097151, rd := 8, wr := 8, enable := true })] } }
     oldestPosted s.dev = some 15 ∧ lockIdle s.dev = true ∧ (rqs s 15).service = 0x16 ∧ badLength s.dev 15 = false ∧
     payloadBad (rqs s 15) = false ∧ (rqs s 15).byaddr = true ∧ (rqs s 15).arg ≤ 2 ∧
     (lockReach s.dev ((rqs s 15).le 8 8) (rqs s 15).inLen false).1 = some (memKey 4 0) ∧
     (lockReach s.dev ((rqs s 15).le 16 8) 32 true).1 = some (memKey 4 64) ∧ (rqs s 15).le 24 4 = 32) ∧
    (lockReach (byAddr 64 0x100000000 32).dev 0x100000000 32 true).1 = none := by decide +kernel

/-- A token refused at its first check; whether a signature is good is a free value, and both cases of each statement
about tokens are stated. -/
theorem wit_LifeCycleAndTokens :
    (let s := ask 7 0x30 4 [] (inl 0 0 0 [])
     Served s 7 0x30 (rqs s 7) []) ∧
    (let s := ask 7 0x31 1 [] (inl 0 0 0 (List.replicate 232 0))
     Served s 7 0x31 (rqs s 7) (List.replicate 232 0) ∧ tokenStatus s.dev (List.replicate 232 0) 1 ≠ 0) ∧
    (let s := ask 7 0x32 1 [] (inl 0 0 0 (List.replicate 232 0))
     Served s 7 0x32 (rqs s 7) (List.replicate 232 0) ∧ tokenStatus s.dev (List.replicate 232 0) 2 ≠ 0) ∧
    (let i := List.replicate 48 0
     let s := ask 7 0x33 1 [(0, ky 6 0)] (inl 0 0 0 i)
     Served s 7 0x33 (rqs s 7) i ∧ (keyOfSlot s.dev 0).alg ≠ 0 ∧ (keyOfSlot s.dev 0).fault = false ∧
     (keyOfSlot (ask 7 0x33 1 [] (inl 0 0 0 i)).dev 0).alg = 0) ∧
    (let s := ask 7 0x34 1 [] (inl 0 0 0 [])
     Served s 7 0x34 (rqs s 7) [] ∧ (keyOfSlot s.dev 0).alg = 0) ∧
    ([] : List Byte).length ≠ 232 :=
  ⟨served (by decide), ⟨served (by decide +kernel), by decide +kernel⟩, ⟨served (by decide +kernel), by decide +kernel⟩,
    ⟨served (by decide +kernel), by decide⟩, ⟨served (by decide), by decide⟩, by decide⟩

def rst (s : State) (f : Rst → Rst) : State := dv s fun d => { d with rst := f d.rst }
def busy (s : State) : State := rg s 0x100014 0
/-- The cluster's watchdog in a state, its period over. -/
def wd (k : Nat) : State :=
  dv (clt fun c => { c with wdog := k }) fun d => { d with wall := 1000000 * wdogPeriod d }
theorem wit_ResetSourcesAndWatchdogs :
    up.dev.rst.pstate ≠ .moored ∧ resultValid (busy up).dev 0x100014 = false ∧ resultValid up.dev 0x100014 = true ∧
    (0xA4 : Byte) ≠ 0xA5 ∧ domUp up.dev 6 = true ∧ domUp up.dev 5 = true ∧ domUp up.dev 1 = true ∧
    up.dev.ldc.recNext = false ∧ (dv up fun d => { d with ldc := { d.ldc with recNext := true } }).dev.ldc.recNext = true ∧
    (Requester.pf ≠ .qm) ∧ bit (rd up.dev 0x10000C) 30 = true ∧ fabricUp up.dev = true ∧
    bit (rd (rg up 0x10000C 0).dev 0x10000C) 30 = false ∧ parked (rst up fun r => { r with pstate := .berthed }).dev = true ∧
    (100 : Nat) < 300 ∧ up.dev.rst.mainsHere = true ∧ (rst up fun r => { r with mainsHere := false }).dev.rst.mainsHere = false ∧
    fabricUp (rst up fun r => { r with inReset := 0x40 }).dev = false ∧
    (let s := dv up fun d => { d with wall := 5000000000 }
     s.dev.rst.qmKick = none ∧ s.dev.clt.epoch + 5000000000 ≤ s.dev.wall) ∧
    (up.dev.rst.qmKick = none ∧ up.dev.wall - up.dev.clt.epoch < 5000000000) ∧
    (let s := rst (dv up fun d => { d with wall := 1000000000 }) fun r => { r with qmKick := some 0 }
     s.dev.rst.qmKick = some 0 ∧ 0 + 1000000000 ≤ s.dev.wall) ∧
    (let s := rst (dv up fun d => { d with wall := 999999999 }) fun r => { r with qmKick := some 0 }
     s.dev.rst.qmKick = some 0 ∧ s.dev.wall - 0 < 1000000000) ∧
    clusterRuns (rst up fun r => { r with pstate := .berthed }).dev = false ∧ up.dev.clt.wdog ≠ 1 ∧ up.dev.clt.wdog ≠ 2 ∧
    (∀ k ∈ [1, 2], clusterRuns (wd k).dev = true ∧ 1000000 * wdogPeriod (wd k).dev ≤ (wd k).dev.wall - (wd k).dev.clt.wdogAt ∧
      (wd k).dev.clt.wdog = k) ∧
    (clt fun c => { c with wdog := 2 }).dev.wall - (clt fun c => { c with wdog := 2 }).dev.clt.wdogAt <
      1000000 * wdogPeriod (clt fun c => { c with wdog := 2 }).dev := by decide +kernel

/-- Source 3 standing; a Module reset of a field side already down, its turn-off ramps over or not; a kick behind a posted
write. -/
theorem wit_ResetSourcesAndWatchdogs_holds :
    (rst up fun r => { r with sources := 8 }).dev.rst.sources.getLsbD 3 = true ∧ up.dev.rst.sources.getLsbD 3 = false ∧
    (∃ b < 6, domUp up.dev b = true ∧ (b ≠ 1 ∨ up.dev.ldc.resetDue = false)) ∧
    (let s := dv (rst up fun r => { r with inReset := 0x3D }) fun d => { d with ldc := { d.ldc with resetDue := true } }
     ¬ ∃ b < 6, domUp s.dev b = true ∧ (b ≠ 1 ∨ s.dev.ldc.resetDue = false)) ∧
    NoneBefore up .qm 0x100018 ∧ NoneBefore up (.hart 7) 0x100018 ∧ NoneBefore (queuedAcc up posted) .qm 0x100018 ∧ ¬ NoneBefore (queuedAcc up posted) .pf 0x100018 := by
  unfold NoneBefore; decide +kernel

/-- The exit sequence due to take step `k` of an episode of a reach; no source asserts a reach. -/
def exit_ (k reach : Nat) : State := rst up fun r => { r with episode := true, nextStep := k, epReach := reach, inReset := 0xFF }
theorem wit_ExitSequenceClocksAndFuses :
    up.dev.rst.episode = false ∧
    (∀ k < 6, (exit_ k 4).dev.rst.episode = true ∧ k = (exit_ k 4).dev.rst.nextStep ∧
      effReach (exit_ k 4).dev < [4, 3, 3, 2, 2, 1].getD k 1 ∧
      (exit_ k 4).dev.rst.held &&& [0, 0x0F, 0x30, 0x40, 0, 0x80].getD k 0 = 0) ∧
    effReach (rst up fun r => { r with sources := 0x20, srcReach := [(5, 2)] }).dev = 2 ∧
    (rst up fun r => { r with held := 0x40 }).dev.rst.held &&& [0, 0x0F, 0x30, 0x40, 0, 0x80].getD 3 0 ≠ 0 ∧
    (exit_ 4 4).dev.rst.qmRunning = true ∧ (rst (exit_ 4 4) fun r => { r with qmRunning := false }).dev.rst.qmRunning = false ∧
    (exit_ 4 4).dev.svc.store = [] ∧ (dv (exit_ 2 4) fun d => { d with keys := { d.keys with torn := [255] } }).dev.keys.torn ≠ [] ∧
    (exit_ 5 1).dev.clt.map.length = 8 ∧ (exit_ 5 1).dev.clt.cause.length = 8 ∧
    (exit_ 5 1).dev.rst.epReach = 1 ∧ (exit_ 5 2).dev.rst.epReach = 2 ∧ (exit_ 5 3).dev.rst.epReach = 3 ∧
    ((List.range 10).filter fun c => !(exit_ 5 1).dev.clt.retired.getLsbD c)[7]? = some 7 ∧
    up.dev.rst.xtalFail = false ∧ (rst up fun r => { r with xtalFail := true }).dev.rst.xtalFail = true ∧
    (bwk fun b => { b with state := .fault }).dev.bwk.state = .fault ∧ up.dev.bwk.state ≠ .fault ∧
    up.dev.rst.inReset &&& 0x30#8 = 0 ∧ (exit_ 5 1).dev.rst.inReset &&& 0x80#8 ≠ 0 ∧ up.dev.rst.escFabric = false ∧
    (rst up fun r => { r with escFabric := true }).dev.rst.escFabric = true ∧ up.dev.rst.scOk = true ∧
    (rst up fun r => { r with scOk := false }).dev.rst.scOk = false := by decide +kernel

/-- The five words of FMAP_DATA, as the fuse row takes them. -/
def fmapWords (s : State) : List Word := (List.range 5).map fun w => rd s.dev (0x100200 + 4 * w)
theorem wit_ExitSequenceClocksAndFuses_commands :
    (let l := fmapWords (rg up 0x100208 0x8000)
     (∃ n < 40, 2 ≤ fld (l.getD (n / 16) 0) (2 * (n % 16) + 1) (2 * (n % 16)))) ∧
    (let l := fmapWords (rg up 0x100208 0x5555)
     ∀ n < 40, fld (l.getD (n / 16) 0) (2 * (n % 16) + 1) (2 * (n % 16)) < 2) ∧
    up.dev.rst.rows.length < 4 ∧ 4 ≤ (rst up fun r => { r with rows := List.replicate 4 ⟨[], true⟩ }).dev.rst.rows.length ∧
    up.dev.keys.lc ≠ 4 ∧ (dv up fun d => { d with keys := { d.keys with lc := 4 } }).dev.keys.lc = 4 ∧ 17 ≤ (17 : Fin 19).val ∧
    sOwned (ho 16 { state := .sOwned }).dev (16 : Fin 19) = true ∧ sOwned up.dev (16 : Fin 19) = false ∧
    (hoOf (ho 16 { state := .toN }).dev (16 : Fin 19)).state = .toN ∧
    ((15 : Fin 19).val < 16 ∧ (2 : Word) &&& 3 ≠ 0 ∧ (canOf (can15 on15).dev (15 : Fin 19)).state ≠ .config) ∧
    (canOf up.dev (15 : Fin 19)).state = .config ∧ (hoOf up.dev (15 : Fin 19)).state ≠ .toS ∧
    (let s := rg (can15 on15) (0x100080 + 60) 2
     bit (rd s.dev (0x100080 + 4 * (15 : Fin 19).val)) 1 = true ∧ bit (0 : Word) 1 = false ∧ (0 : Word) &&& 3 = 0) := by
  decide +kernel

/-- Keys left torn at E2; blocks 17 and 18 powered off; clocks held; a parked cluster at E5. -/
theorem wit_ExitSequenceClocksAndFuses_blocks :
    (∀ b ∈ [(17 : Fin 19), 18], let s := rg up (0x100080 + 4 * b.val) 2
     bit (rd s.dev (0x100080 + 4 * b.val)) 1 = true ∧ bit (0 : Word) 1 = false ∧ 17 ≤ b.val) ∧
    NoneBefore up .pf (0x100080 + 4 * 17) ∧ NoneBefore (queuedAcc up posted) .qm (0x100080 + 4 * 17) ∧ ¬ NoneBefore (queuedAcc up posted) .pf (0x100080 + 4 * 17) ∧
    functionOf .qm = none ∧ functionOf (.vf 7) = some 7 ∧
    (∀ b : Bool, (rst up fun r => { r with held := 0x40, clkFail := b }).dev.rst.clkFail = b) ∧
    (let s := rst (exit_ 5 1) fun r => { r with pstate := .berthed }
     parked s.dev = true ∧ s.dev.rst.epReach = 1 ∧ effReach s.dev < 1) ∧
    parked (exit_ 5 1).dev = false ∧ (∀ h < 8, coreOf (exit_ 5 1).dev h < 10) := by
  unfold NoneBefore; decide +kernel

def inPs (p : PState) : State := rst up fun r => { r with pstate := p }
theorem wit_PowerStatesAndWakes :
    (inPs .berthing).dev.rst.pstate ∈ [PState.berthing, .unberthing, .mooring, .unmooring] ∧ up.dev.rst.pstate = .underway ∧
    (inPs .berthed).dev.rst.pstate = .berthed ∧ powerFree (inPs .berthed).dev = true ∧ up.dev.rst.wakeSeen = false ∧
    (rst up fun r => { r with wakeSeen := true }).dev.rst.wakeSeen = true ∧ resultValid (inPs .berthed).dev 0x100014 = true ∧
    (inPs .mooring).dev.rst.wakeLatched = false ∧ (rst (inPs .mooring) fun r => { r with wakeLatched := true }).dev.rst.wakeLatched = true ∧
    (rst (inPs .berthing) fun r => { r with cmdWait := true }).dev.rst.cmdWait = true ∧ (inPs .unberthing).dev.rst.startDue = false ∧
    (inPs .unberthing).dev.rst.pstate = .unberthing ∧ wakeOn up.dev (0 : Fin 7) (0 : Fin 32) = false ∧
    wakeOn (rg (inPs .moored) 0x100040 0x10000000).dev (6 : Fin 7) (31 : Fin 32) = true ∧
    wakeOn (rg (inPs .moored) 0x100040 0x8000).dev (5 : Fin 7) (15 : Fin 32) = true ∧
    wakeOn (rg (rg up 0x100040 0x10000) (fioBase 31 + 8) 0x42000000).dev (4 : Fin 7) (31 : Fin 32) = true ∧
    (inPs .moored).dev.rst.pstate = .moored ∧ bit (rd up.dev 0x10000C) 29 = true ∧
    fabricUp (inPs .moored).dev = false ∧ fabricUp up.dev = true ∧ up.dev.rst.wakeN = false ∧
    (rst up fun r => { r with wakeN := true }).dev.rst.wakeN = true := by decide +kernel

/-- An episode of Fabric reach in each state; the end of each transition with no episode. -/
theorem wit_PowerStatesAndWakes_free :
    (let s := rst up fun r => { r with episode := true, epReach := 2 }
     powerFree s.dev = false ∧ s.dev.rst.pstate = .underway ∧ resultValid s.dev 0x100014 = true) ∧
    powerFree (rst up fun r => { r with episode := true, epReach := 1 }).dev = true ∧
    (∀ p ∈ [PState.underway, .berthing, .berthed, .unberthing, .mooring, .moored, .unmooring], powerFree (inPs p).dev = true) ∧
    (∀ p ∈ [PState.berthing, .mooring], ∀ b : Bool,
      let s := rst (inPs p) fun r => { r with wakeLatched := b }
      s.dev.rst.wakeLatched = b ∧ s.dev.rst.pstate = p ∧ powerFree s.dev = true) := by decide +kernel

def pr (f : Pair → Pair) : State := dv up fun d => { d with pair := f d.pair }
/-- The module in a role, its loop intact. -/
def inRole (x : PairRole) : State := pr fun p => { p with role := x, loopOk := true }
/-- PL linked and enabled. -/
def pl (s : State) : State := dv (rg s (aPort 10 0) 0x80000000) fun d => setPort d 10 { link := true }
/-- JOIN_WAIT, of the 1 s that a 0 stands for, due. -/
def joined (x : Pair) : State := dv (rg up 0x1500000 0x80000000) fun d => { d with pair := x, wall := 1000000000 }
theorem wit_PairRolesMove :
    up.dev.pair.role = .single ∧ (inRole .seeking).dev.pair.role ≠ .single ∧ fabricUp (inRole .seeking).dev = true ∧
    (pr fun p => { p with handoverWait := true }).dev.pair.handoverWait = true ∧
    mayClaim (inRole .standby).dev = true ∧ mayClaim (pr fun p => { p with role := .standby }).dev = false ∧
    ownSlot (inRole .seeking).dev = 1 ∧ ownSlot (pr fun p => { p with strap := false, role := .seeking }).dev = 0 ∧
    (3 : Byte) = ({ role := 3 } : PairHdr).role ∧ (inRole .standby).dev.pair.missed < 3 ∧
    (pr fun p => { p with role := .standby, loopOk := true, peerLive := true, missed := 3 }).dev.pair.peerLive = true ∧
    3 ≤ (pr fun p => { p with role := .standby, loopOk := true, peerLive := true, missed := 3 }).dev.pair.missed ∧
    wireUp (inRole .seeking).dev 10 = false ∧ wireUp (pl (inRole .seeking)).dev 10 = true ∧
    fabricUp (pl (inRole .seeking)).dev = true ∧
    fabricUp (rst (inRole .seeking) fun r => { r with inReset := 0x40 }).dev = false ∧
    (∀ live, let s := joined { role := .seeking, loopOk := true, peerLive := live }
     s.dev.pair.role = .seeking ∧ joinDue s.dev = true ∧ fabricUp s.dev = true ∧ s.dev.pair.peerLive = live ∧
     mayClaim s.dev = true) ∧
    joinDue (joined { role := .seeking, joinAt := 1 }).dev = false ∧
    (inRole .primary).dev.pair.role = .primary ∧ (inRole .isolated).dev.pair.role = .isolated ∧
    (inRole .primary).dev.pair.domOwn = false ∧ (pr fun p => { p with domOwn := true }).dev.pair.domOwn = true ∧
    resultValid up.dev 0x1500014 = true ∧ resultValid (rg up 0x1500014 0).dev 0x1500014 = false ∧
    (let s := pr fun p => { p with role := .primary, peerLive := true, peerRole := 2, peerSync := true }
     s.dev.pair.role = .primary ∧ s.dev.pair.peerLive = true ∧ s.dev.pair.peerRole = 2 ∧ s.dev.pair.peerSync = true) := by
  decide +kernel
/-- A heartbeat of role 3: to a module that seeks, and to a Primary in slot 1; a Primary in slot 0 sends none to itself. -/
theorem wit_PairRolesMove_role3 :
    HbValid (pl (inRole .seeking)) { role := 3 } ∧ HbValid (pl (inRole .primary)) { role := 3 } ∧
    (pl (inRole .primary)).dev.pair.role = .primary ∧ ownSlot (pl (inRole .primary)).dev = 1 ∧
    (pl (inRole .seeking)).dev.pair.handoverWait = false ∧
    (let s := pl (pr fun p => { p with strap := false, role := .primary, loopOk := true })
     HbValid s { role := 3, flags := 1 } ∧ ownSlot s.dev = 0) ∧ HbValid (pl (inRole .isolated)) {} := by
  unfold HbValid; decide

/-- A first heartbeat from slot 0 is valid; from slot 1, the device's own, it is not; with the peer alive the sequence may
advance by 1 to 32767. -/
theorem wit_PairRolesMove_heartbeats :
    HbValid (pl (inRole .seeking)) {} ∧ ¬ HbValid (pl (inRole .seeking)) { flags := 1 } ∧
    HbValid (pl (pr fun p => { p with peerLive := true, bound := 5, hbRx := 32768 })) { serial := 5, hbSeq := 65535 } ∧
    ¬ HbValid (pl (pr fun p => { p with peerLive := true, bound := 5, hbRx := 32767 })) { serial := 5, hbSeq := 65535 } := by
  unfold HbValid
  decide

theorem wit_MirroringAndTakeover :
    pairsUp (inRole .standby).dev = false ∧ pairsUp (pl (inRole .standby)).dev = true ∧
    (pl (inRole .standby)).dev.pair = (inRole .standby).dev.pair ∧ qmAwake (inRole .primary).dev = true ∧
    qmAwake (dv (inRole .primary) fun d => { d with clt := { d.clt with qmHalted := true } }).dev = false ∧
    (inRole .primary).dev.pair.theta = [] ∧ (pr fun p => { p with theta := [(39, 1)] }).dev.pair.theta ≠ [] ∧
    (inRole .primary).dev.pair.acked = (inRole .primary).dev.pair.mirrorSeq ∧
    (inRole .primary).dev.pair.role ≠ .standby ∧ (inRole .standby).dev.pair.role = .standby ∧
    (inRole .standby).dev.pair.rebase = false ∧ (2 : Word) ≠ (inRole .standby).dev.pair.mirrorSeq + 1 ∧
    (1 : Word) = (inRole .standby).dev.pair.mirrorSeq + 1 ∧
    (pr fun p => { p with role := .standby, rebase := true }).dev.pair.rebase = true ∧
    bit (rd (rg up 0x150019C 0x80000047).dev (0x1500100 + 4 * 39)) 31 = true ∧
    fld (rd (rg up 0x150019C 0x80000047).dev (0x1500100 + 4 * 39)) 6 0 = 71 ∧
    (let s := pl (pr fun p => { p with role := .primary, resyncing := true, handoverWait := true, peerLive := true, acked := 1 })
     pairsUp s.dev = true ∧ s.dev.pair.resyncing = true ∧ (0 : Word) = s.dev.pair.mirrorSeq ∧ s.dev.pair.handoverWait = true ∧
     (0 : Word) = s.dev.pair.handoverSeq ∧ s.dev.pair.peerLive = true ∧ s.dev.pair.acked ≠ s.dev.pair.mirrorSeq ∧
     (1 : Word) ≠ s.dev.pair.handoverSeq) ∧
    mayClaim (inRole .standby).dev = true ∧ mayClaim (pr fun p => { p with role := .standby }).dev = false ∧
    (inRole .primary).dev.pair.takeover = false ∧ (inRole .seeking).dev.pair.role ≠ .primary ∧
    (let s := pr fun p => { p with role := .primary, takeover := true, slips := [(5, {})], binds := [(87, { owner := 5 })] }
     qmAwake s.dev = true ∧ s.dev.pair.takeover = true ∧ (s.dev.pair.binds.map (·.1)).Nodup ∧ (s.dev.pair.binds.map (·.2.owner)) = [5]) := by
  decide +kernel

/-- A Standby whose resync is under way; one that a gap reaches; and the Primary's θ records. -/
theorem wit_MirroringAndTakeover_staged :
    (let s := pl (pr fun p => { p with role := .standby, resyncing := true, staged := [.theta [], .learn []], mirrorSeq := 4 })
     pairsUp s.dev = true ∧ s.dev.pair.role = .standby ∧ s.dev.pair.resyncing = true ∧ (5 : Word) = s.dev.pair.mirrorSeq + 1 ∧
     s.dev.pair.staged = [.theta []] ++ [.learn []] ∧ (6 : Word) ≠ s.dev.pair.mirrorSeq + 1) ∧
    (pl (inRole .standby)).dev.pair.resyncing = false ∧ (pl (inRole .standby)).dev.pair.rebase = false ∧
    mayClaim (pl (inRole .standby)).dev = true ∧
    mayClaim (pl (pr fun p => { p with role := .standby })).dev = false ∧
    (let s := pl (pr fun p => { p with role := .primary, peerLive := true, theta := [(39, 1)] })
     pairsUp s.dev = true ∧ s.dev.pair.peerLive = true ∧ s.dev.pair.theta ≠ []) := by decide +kernel

def img (t : Nat) (x : ImgType) : State := dv up (setImgType · t x)
def full : ImgBank := { valid := true, fmtMin := 2, fmtMax := 3 }
/-- An image of type 4 that sets the learning templates only: one section of type 4 with no template. -/
def learnOnly : List Byte := ((List.replicate 512 0).set 6 1).set 64 4
/-- A firmware bank that shares no format with any peer. -/
def noFmt : ImgBank := { full with fmtMin := 1, fmtMax := 0 }
theorem wit_ImagesAndReserve_formats :
    pairFmtBad (dv (img 1 { bank1 := noFmt }) fun d => { d with pair := { d.pair with peerLive := true } }).dev (1 : Fin 16) noFmt = true := by
  simp [pairFmtBad, fmtCommon, noFmt, dv]
theorem wit_ImagesAndReserve :
    resultValid (rg up 0x160000C 0).dev 0x160000C = false ∧ resultValid up.dev 0x160000C = true ∧ (0 : Fin 16).val < 1 ∧
    4 < (5 : Fin 16).val ∧ 16777216 < fld (rd (rg up 0x1600020 0x1000001).dev 0x1600020) 24 0 ∧
    fld (rd (rg up 0x1600020 0x1000000).dev 0x1600020) 24 0 ≤ 16777216 ∧ (imgType up.dev (3 : Fin 16)).inact.valid = false ∧
    (imgType (img 1 { bank1 := full }).dev (1 : Fin 16)).inact.valid = true ∧
    pairFmtBad (img 1 { bank1 := full }).dev (1 : Fin 16) (imgType (img 1 { bank1 := full }).dev (1 : Fin 16)).inact = false ∧
    (let b : ImgBank := { full with delta := true, base := 1, image := learnOnly }
     let s := img 4 { bank1 := b }
     (imgType s.dev 4).inact = b ∧ b.valid = true ∧ b.delta = true ∧ b.base ≠ s.dev.svc.cfgGen ∧ imageWork b.image ≠ [] ∧
     ∀ w ∈ imageWork b.image, w.2.2 = .learn []) ∧
    16 ≤ (dv up fun d => { d with svc := { d.svc with store := List.replicate 16 [] } }).dev.svc.store.length ∧
    up.dev.svc.store.length < 16 ∧ (imgType up.dev 3).svnRows < 16 ∧
    16 ≤ (imgType (img 3 { svnRows := 16 }).dev 3).svnRows ∧
    (imgType (img 3 { bank0 := { full with svn := 1 } }).dev 3).svnMin.toNat <
      (imgType (img 3 { bank0 := { full with svn := 1 } }).dev 3).act.svn.toNat ∧
    reserveUsed up.dev 5 < 1 ∧ 1 ≤ reserveUsed (dv up fun d => { d with svc := { d.svc with used := [(6, 1)] } }).dev 6 ∧
    reserveUsed up.dev 4 < 1024 ∧ min 100 20 ≤ fld (rd up.dev 0x1600138) 15 0 := by decide +kernel

theorem wit_StepRunsFrontCommand :
    ({ up with pending := [.capture, .berth] } : State).pending = .capture :: [.berth] ∧ up.pending = [] ∧
    up.dev.as_.slew = 0 ∧ up.dev.svc.applying = none ∧
    (∀ k ∈ [1980, 1990], let s := dv up fun d => { d with as_ := { d.as_ with slew := -1, slewAcc := k } }
     s.dev.as_.slew ≠ 0 ∧ (s.dev.as_.slewAcc + 10 < 2000 ↔ k = 1980)) := by decide

theorem wit_MemoryFormKept :
    MemOk { up with mem := [(memKey 0 0, 1), (memKey 4 0, 2)] } ∧ step up = .next { up with dev := { up.dev with wall := 10 } } ∧
    touchesMemory .capture = false := by
  unfold MemOk
  exact ⟨by decide, rfl, by decide⟩

/-! ## Ill-formed commands are refused by the checks of WellFormed -/

theorem test_wellFormed_width : (Instr.registerWrite .pf (.bar0 0) 3 0 .responds .responds).wellFormed = false ∧
    (Instr.peripheralBusTimeout .pf (some (.bar0 0xD00000, 5, .responds))).wellFormed = false ∧
    (Instr.registerWrite .pf (.bar0 0) 4 0 .responds .responds).wellFormed = true := by decide
theorem test_wellFormed_cells : (Instr.basinPatrol (.corrected 104448)).wellFormed = false ∧
    (Instr.txFrameEnd 0 (.uncorrectable 104448)).wellFormed = false ∧
    (Instr.logbookRecordWrite (.corrected 104448)).wellFormed = false ∧ (Instr.rxBuf 0 0 (.uncorrectable 104448)).wellFormed = false ∧
    (Instr.basinPatrol (.corrected 104447)).wellFormed = true := by decide
theorem test_wellFormed_march : (Instr.basinMarchEnd [5, 5]).wellFormed = false ∧
    (Instr.basinMarchEnd [104448]).wellFormed = false ∧ (Instr.basinMarchEnd [5, 104447]).wellFormed = true := by decide
theorem test_wellFormed_descriptor : (Instr.descriptorFetch 0 0 (some (List.replicate 15 0))).wellFormed = false ∧
    (Instr.descriptorFetch 0 0 (some (List.replicate 16 0))).wellFormed = true := by decide
theorem test_wellFormed_messages : (Instr.canFrameRx 0 { id := 0x800 } 0).wellFormed = false ∧
    (Instr.canFrameRx 0 { data := List.replicate 9 0 } 0).wellFormed = false ∧
    (Instr.canFrameRx 0 { fmt := 2, data := List.replicate 65 0 } 0).wellFormed = false ∧
    (Instr.canFrameRx 0 { fmt := 4 } 0).wellFormed = false ∧ (Instr.canFrameRx 4 { fmt := 4, data := [1], rtr := true } 0).wellFormed = false ∧
    (Instr.canFrameRx 0 { fmt := 2, rtr := true } 0).wellFormed = false ∧ (Instr.keepAliveRx 0 { id := 0x800 }).wellFormed = false ∧
    (Instr.busWake 0 .frame { rtr := true, dlc := 16 }).wellFormed = false ∧
    (Instr.canFrameRx 3 { fmt := 4, data := [1] } 0).wellFormed = true := by decide
theorem test_wellFormed_lists : (Instr.segmentMeasure 0 []).wellFormed = false ∧ (Instr.wgModelUpdate 0 0 []).wellFormed = false ∧
    (Instr.wgModelUpdate 0 0 (List.replicate 40 { now := 0, sum := 0, sat := 101, mean10 := 0 })).wellFormed = false ∧
    (Instr.wgModelUpdate 0 0 (List.replicate 40 { now := 0, sum := 0, sat := 100, mean10 := 0 })).wellFormed = true ∧
    (Instr.pfcFrameRx 0 0x101 0 (List.replicate 7 0)).wellFormed = false ∧
    (Instr.pfcFrameRx 0 0x101 0 (List.replicate 8 0)).wellFormed = true := by decide
theorem test_wellFormed_mirror : (Instr.mirrorRecordRx 0 (.output 72 true)).wellFormed = false ∧
    (Instr.mirrorRecordRx 0 (.theta [])).wellFormed = false ∧ (Instr.mirrorRecordRx 0 (.output 71 true)).wellFormed = true := by
  decide

/-! ## Single commands, with the results of the spec's worked examples and tables -/

/-- What a command leaves, by a test of its next state. -/
def after (c : Instr) (s : State) (p : Dev → Bool) : Bool :=
  match exec c s with
  | .next t => p t.dev
  | _ => false

/-- 00_scope, worked example of a W1C word: bits 3 and 1 set; writing bit 3 clears it alone. -/
theorem test_registerWrite_w1c : after (.registerWrite .pf (.bar0 0x1C) 4 8 .responds .responds) (rg up 0x1C 0xA) (fun d =>
    decide (rd d 0x1C = 2)) = true := by decide +kernel
/-- 01, camera frame: 1,200 bytes need 5 cells; 02, sizing limits: 1,518 bytes need 7. -/
theorem test_cells : cellsOf { frame1 with body := .eth (List.replicate 1196 0) } = 5 ∧
    cellsOf { frame1 with body := .eth (List.replicate 1514 0) } = 7 := by decide +kernel
/-- 03, rack temperature: item 0x63C0_3011 takes bytes 6–7, 0x01B4, to analog word 17 as 436. -/
theorem test_extract_rack : tget 0 (extractItem up.dev [0, 0, 0, 0, 0, 0, 0x01, 0xB4] 0x63C03011).bwk.word 17 = 436 := by
  decide +kernel
/-- Table 3.7: the shadow values of the rack entry are inserted; the result is VALID, STATUS 0, the next SEQ. -/
def rack : State :=
  [(0, 0x18A), (4, 0x22), (8, 0), (0xC, 0x10000000), (0x10, 0x52), (0x14, 0x50000), (0x18, 0x1064), (0x1C, 0x80000011)].foldl
    (fun s e => rg s (0x400020 + e.1) e.2) up
theorem test_insert_rack : after .insert rack (fun d => decide (rd d 0x400014 = 0x80000001)) = true := by decide +kernel
/-- 05, wrap sizes: a 2,048-byte XL frame wraps to 2,136 bytes with its tag and FCS, 9 cells; a 64-byte FD frame in mode 0
to 114 bytes, 1 cell. -/
theorem test_wrap_sizes :
    (wrapBuild (rg up (tunBase 0) 0xA4000000).dev 0 { fmt := 4, data := List.replicate 2048 0 } 0).1.length + 4 = 2136 ∧
    (wrapBuild (rg up (tunBase 0) 0x84000000).dev 0 { fmt := 2, data := List.replicate 64 0 } 0).1.length + 4 = 114 := by
  decide +kernel
/-- 06, 125 kbit/s with triple sampling: CAN_NBT 0x8944_0907 passes every check of Table 6.4. -/
theorem test_canEnable_triple : after (.canEnable 2 0x80000000) (rg up (canBase 2 + 0x10) 0x89440907) (fun d =>
    decide ((canOf d 2).state = .integrating ∧ (canOf d 2).cfgErr = 0)) = true := by decide +kernel
/-- 06, a collision: the second bit error in the window reaches COLL_LIMIT 2; TEC 16, the frame abandoned and reported. -/
def second : Can :=
  { on15 with tec := 8, onBus := some 1, loaded := [{ slot := some 0, uid := 1, msg := { id := 0x120 }, cls := 0, at_ := 0, coll := 1 }] }
theorem test_canBusError_collision :
    after (.canBusError 2 0 0 true {}) (rg (dv up (setCan · 2 second)) (canBase 2 + 0x28) 0x20000) (fun d =>
      decide ((canOf d 2).tec = 16 ∧ (canOf d 2).loaded = [] ∧ rd d (canBase 2 + 0x40) = 0x120) && bit (rd d (canBase 2 + 8)) 5) =
    true := by decide +kernel
/-- 07, local need during the switch into sleep: latched, then served when the transceiver reports sleep. -/
theorem test_localNeed_latched : after (.localNeed 15 true) (net15 { state := .asleep, frozen := true, switching := true }) (fun d =>
    decide ((netOf d 15).latched = some .localNeed ∧ (netOf d 15).state = .asleep)) = true := by decide +kernel
/-- 08, contactor coil on LA12: at 26.4 V a ramp of 25.64 ms, in service at 24.0 V one of 25.0 ms. -/
theorem test_ramp_coil : rampChoice 12 300000 2000 2640 85 = some (25641025, false) ∧
    rampChoice 12 300000 2000 2400 62 = some (25000000, false) := by decide +kernel
theorem test_ldcApply_coil : after (.ldcApply 12) (rg up (ldcBase 12 + 4) 0x100493E0) (fun d =>
    decide (fld (rd d 0xF00014) 30 28 = 0 ∧ rd d (ldcBase 12 + 0x14) = 0x100493E0)) = true := by decide +kernel
/-- 09, a trip time: θ settles at 43.40 °C at 4 A and at 130.28 °C at 18 A, and the four words pass every check. -/
def la1 : State := rg (rg up (wgsBase 1) 0x9980F000) (wgsBase 1 + 4) 0x695F5028
theorem test_wireGuard_settles :
    ((thetaSs 0x9980F000 (40 * deg) 4000).any fun x => decide (43395000000 < x) && decide (x < 43405000000)) = true ∧
    ((thetaSs 0x9980F000 (40 * deg) 18000).any fun x => decide (130275000000 < x) && decide (x < 130285000000)) = true := by
  decide +kernel
theorem test_wgsApply_fan : after (.wgsApply 1) (rg la1 (ldcBase 1 + 0x14) 0x20000000) (fun d =>
    decide (fld (rd d 0x1000014) 30 28 = 0 ∧ rd d (wgsBase 1 + 0x10) = 0x9980F000)) = true := by decide +kernel
/-- 09, a seven-load start at 1.0 ms: with 78.0 A of 83.3 A reserved LA2 needs 7.5 A and waits, and LA8 behind it; at
76.5 A LA2 would reach 84.0 A and still waits. -/
def start (res : Nat) : State :=
  let d0 := (rg (rg (rg up (wgsBase 2 + 0x18) 0xB0000000) (wgsBase 2 + 0x1C) 0x003C0190) (bankBase 0) 0x03410000).dev
  let d1 := setLoad d0 20 { slState := .window, windowRes := res, gate := true }
  { up with dev := setBank (setLoad (setLoad d1 2 { slState := .waiting }) 8 { slState := .waiting }) 0 { queue := [2, 8] } }
theorem test_slalom_waits : ∀ r ∈ [78000, 76500], after (.slalomAdmit 0) (start r) (fun d =>
    decide ((loadOf d 2).slState = .waiting ∧ (loadOf d 8).slState = .waiting ∧ (bankOf d 0).queue = [2, 8])) = true := by
  decide +kernel
theorem test_slalom_admits : after (.slalomAdmit 0) (start 75800) (fun d =>
    decide ((loadOf d 2).slState = .window ∧ (bankOf d 0).queue = [8] ∧ reserved d 0 = 83300)) = true := by decide +kernel
/-- 10, silence on group 1: the field side drives FD12, bound SAFE off, off. -/
theorem test_fieldSilence_off : after (.fieldSilence 1) (fc 12 0x80000000 0 { drive := true, want := true }) (fun d =>
    decide ((fieldOf d 12).drive = false ∧ d.fio.safe = 2)) = true := by decide +kernel
/-- 11, the pump rules: comparator 5 (0xA011_0014, K 420, HYST 20) is 1 at 436 and keeps its value at 410. -/
def pump (v : BitVec 16) (old : Bool) : Dev :=
  { (bwk fun b => { b with bank0 := [(0x444, 0x1F4), (0x1028, 0xA0110014), (0x102C, 0x1A4)], word := [(17, v)]
                           wordAt := [(17, some 0)], comps := [(5, some old)] }).dev with wall := 62000 }
theorem test_comparator_pump : compOut (pump 436 false) (pump 436 false) 5 = true ∧ compOut (pump 410 true) (pump 410 true) 5 = true ∧
    compOut (pump 410 false) (pump 410 false) 5 = false ∧ compOut (pump 399 true) (pump 399 true) 5 = false := by decide +kernel
/-- 12, handing CA15 to World S: RELEASE_REQ, and S_OWNED after the grant. -/
theorem test_handOver_ca15 : after (.hoClaim 15) up (fun d => decide ((hoOf d 15).state = .releaseReq)) = true ∧
    after (.hoGrant 15) (ho 15 { state := .toS }) (fun d => decide ((hoOf d 15).state = .sOwned ∧ (hoOf d 15).count = 1)) = true :=
  by decide +kernel
/-- 13, an update cut by power loss: the old key stays at GEN 6. -/
theorem test_generate_cut : after (.generate (.cut .torn)) (ask 0 0x02 1 [(40, { ky 1 3 with gen := 6, users := 1 })]
    (inl 40 0 0 (attr 0x31000000 6))) (fun d => decide ((keyOfSlot d 40).gen = 6 ∧ 40 ∈ d.keys.torn)) = true := by decide +kernel
/-- 14, coincident resets: the cluster's second period, then the Quaymaster's watchdog: reach Fabric, sources 6 and 9. -/
def stuck : State :=
  match exec .cltWdogExpire (dv (wd 2) fun d => { d with wall := 5000000000 }) with
  | .next t => t
  | _ => up
theorem test_coincident_resets : after .qmWatchdogExpire stuck (fun d =>
    decide (d.rst.epReach = 2 ∧ d.rst.epSources = 0x240 ∧ d.rst.nextStep = 3)) = true := by decide +kernel
/-- R402's widths: a RESET_N pulse of 99 µs is ignored. -/
theorem test_resetPin_short : exec (.resetPin 99) up = .next up := by rfl
/-- 15, a takeover: the fourth missed period; the peer's line reads high, the loop is intact, and the Standby claims. -/
theorem test_takeover : after .pairHeartbeatMiss
    (pr fun p => { p with role := .standby, loopOk := true, peerLive := true, missed := 3 }) (fun d =>
      decide (d.pair.role = .primary ∧ d.pair.domOwn = true ∧ d.pair.peerLive = false)) = true := by decide +kernel
/-- 04: CREATE of an existing slip with CLASS 3, and BIND of an index above 39 to a FREE slip, end BAD_ARG (3). -/
theorem test_slip_badArg : after (.create 5) (a0 0xC0000000 ctl) (fun d => decide (fld (rd d 0x80000C) 30 27 = 3)) = true ∧
    after (.bind 5) (a0 0x28 up) (fun d => decide (fld (rd d 0x80000C) 30 27 = 3)) = true := by decide +kernel
/-- The host's two plain definitions: no row of the table gives bits, so no word spells a command. -/
theorem test_decodeTableWord : decodeTableWord 32 0 = none ∧ up.withFetchWord 32 0 = up := ⟨rfl, rfl⟩

end Sys2Proof.Tests
end

/-! PROOFS. Register writes and their failures (chapter 5): an access that times out, and whose SLIP_EVENT its failure
sets. -/

namespace Sys2Proof.Proofs.RegisterWrites

open Sys2Proof Sys2Proof.Machine Sys2Proof.Laws

/-! ## A failure that is logged -/

/-- A SLIP_EVENT bit is 1 once it is set. -/
theorem setSlipEv_bit (d : Dev) (n : Nat) {b : Nat} (h : b < 32) :
    bit (rd (setSlipEv d n b) (slipWin n + 0xC)) b = true := by
  simp only [setSlipEv]
  split
  · assumption
  · split <;> simp [bit_or, bit_flag_self h]

/-- A failure charged to a slip of the same incarnation as at acceptance sets that slip's BRIDGE_ERR (R162, R166). -/
theorem errLog_slipEvent {d : Dev} {slip : Nat} {incar : BitVec 8} (h : (slipOf d slip).inc = incar) (who : Requester)
    (t : Target) (width : Nat) (value : DWord) (read : Bool) (cause delay ts : Nat) :
    bit (rd (errLog d who t slip width value read cause delay ts incar) (slipWin slip + 0xC)) 2 = true := by
  simp only [errLog, h, ne_eq, not_true_eq_false, decide_false, Bool.false_eq_true, if_false]
  exact setSlipEv_bit _ _ (by decide)

/-- A log entry leaves the bridge's own state alone. -/
@[simp] theorem errLog_brg (d : Dev) (who : Requester) (t : Target) (slip width : Nat) (value : DWord) (read : Bool)
    (cause delay ts : Nat) (incar : BitVec 8) :
    (errLog d who t slip width value read cause delay ts incar).brg = d.brg := by
  simp only [errLog, setSlipEv_brg, evBrg_brg]
  split <;> simp

/-! ## A posted write that times out -/

/-- Taking an error from the answers changes only what is sent. -/
theorem takeError_only (d d1 : Dev) (who : Requester) :
    (takeError d d1 who).2 = { d1 with out := (takeError d d1 who).2.out } := by
  simp only [takeError]
  split <;> rfl

/-- With nothing unresolved, nothing goes on. -/
theorem busGo_of_empty {d : Dev} (h : d.brg.queue = []) : busGo d = d := by
  simp [busGo, busDrain, h]

/-- The device without the access `e` in the bridge's queue. -/
def withoutAcc (d : Dev) (e : BusAcc) : Dev := { d with brg := { d.brg with queue := d.brg.queue.erase e } }

/-- The last part of a posted BAR0 write that found no response fails TIMEOUT into the error log, and beside that only
what is sent changes (R162, R164). -/
theorem busTimeout_posted_write {d : Dev} {e : BusAcc} {p : BusPart} {o : BitVec 26} (hf : fabricUp d = true)
    (hq : d.brg.queue = [e]) (hs : e.silent = true) (ht : e.target = .bar0 o) (hp : e.strict = false)
    (ho : e.op = .write [p] false) :
    ∃ delay out, busTimeout d e.who none = { errLog (withoutAcc d e) e.who (targetAdd e.target p.off) e.slip p.width
      p.value false 5 delay e.ts e.inc with out := out } := by
  have hfind : d.brg.queue.find? (fun q => q.silent && decide (q.who = e.who)) = some e := by simp [hq, hs]
  have hempty : (withoutAcc d e).brg.queue = [] := by simp [withoutAcc, hq]
  have htime : accessTimeout (withoutAcc d e) e = (takeError (withoutAcc d e) (partFails (withoutAcc d e) e p 5
      (max (pbTimeout (withoutAcc d e)) (accDelay (withoutAcc d e) e))) e.who).2 := by
    simp [accessTimeout, ho, runParts, hp]
  have hfails (delay : Nat) : partFails (withoutAcc d e) e p 5 delay = errLog (withoutAcc d e) e.who
      (targetAdd e.target p.off) e.slip p.width p.value false 5 delay e.ts e.inc := by simp [partFails, ht, hp]
  have hrun : busTimeout d e.who none = busGo (accessTimeout (withoutAcc d e) e) := by
    simp [busTimeout, hf, hfind, withoutAcc]
  rw [hrun, htime, hfails, takeError_only, busGo_of_empty (by simp [hempty])]
  exact ⟨_, _, rfl⟩

/-! ## The counterexample -/

/-- A write of word 1 of load channel 0 that found no response, charged to slip 6144: 4096 slips exist, but the field of an
access that names the one charged is any number. -/
def strayWrite : BusAcc :=
  { seq := 0, who := .pf, target := ldcWord1At 0, op := .write [⟨0, 4, 0, .silent⟩] false, ts := 0, wall := 0, slip := 6144,
    inc := 0, strict := false, silent := true }

/-- The device out of reset with that write unresolved. -/
def strayState : State :=
  { State.reset with dev := { Dev.reset with rst := { inReset := 0 }, brg := { queue := [strayWrite] } } }

/-- Refutes O24, by its last clause, that a write which fails TIMEOUT changes no register outside 0xA0_0000–0xCF_FFFF. The
clause quantifies over every queued access, also over one whose charged slip is no slip. For slip 6144 the place of
SLIP_EVENT comes out as 0xD0_000C, the enables of CA0's events, whose bit 2 the failure sets. No run accepts such an access
(`chargedSlip` is at most 4095): what fails is the statement without that bound. -/
theorem not_registerWritesAndTheirFailures : ¬ Obligations.RegisterWritesAndTheirFailures := by
  unfold Obligations.RegisterWritesAndTheirFailures
  rintro ⟨-, -, -, -, -, -, -, -, -, hTimeout⟩
  have hf : fabricUp strayState.dev = true := by decide
  obtain ⟨t, ht, -, -, -, -, hkeeps⟩ :=
    hTimeout strayState 0 strayWrite ⟨0, 4, 0, .silent⟩ hf rfl rfl rfl rfl rfl rfl
  obtain ⟨delay, out, hrun⟩ := busTimeout_posted_write (e := strayWrite) hf rfl rfl rfl rfl rfl
  have hset : bit (rd (busTimeout strayState.dev .pf none) 0xD0000C) 2 = true := by
    rw [show Requester.pf = strayWrite.who from rfl, hrun]
    exact errLog_slipEvent (slip := strayWrite.slip) (by decide) ..
  have hdev : t.dev = busTimeout strayState.dev .pf none := by cases ht; rfl
  have hclear : bit (rd strayState.dev 0xD0000C) 2 = false := by decide
  rw [← hdev, hkeeps 0xD0000C (.inr (by decide)), hclear] at hset
  exact Bool.false_ne_true hset

end Sys2Proof.Proofs.RegisterWrites

/-! PROOFS. The Quaymaster's work queue (R29, R30, R107): what leaves it alone, down to a whole verdict, and how it grows,
sheds and is served. -/

namespace Sys2Proof.Proofs.WorkQueue

open Sys2Proof Sys2Proof.Machine Sys2Proof.Laws

/-! ## Operations quiet towards the Quaymaster -/

/-- From `d` to `t` the Quaymaster's queue and shedding stay as they are, and no bit of DEV_EVENT falls. -/
structure Quiet (d t : Dev) : Prop where
  qm : t.qm = d.qm
  events : ∀ i, bit (rd d 0x1C) i = true → bit (rd t 0x1C) i = true

theorem Quiet.refl (d : Dev) : Quiet d d := ⟨rfl, fun _ h => h⟩

theorem Quiet.trans {a b c : Dev} (h : Quiet a b) (g : Quiet b c) : Quiet a c :=
  ⟨g.qm.trans h.qm, fun i hi => g.events i (h.events i hi)⟩

theorem Quiet.of_eq {d t : Dev} (hqm : t.qm = d.qm) (hev : rd t 0x1C = rd d 0x1C) : Quiet d t :=
  ⟨hqm, fun _ h => by rwa [hev]⟩

theorem Quiet.ite {c : Prop} [Decidable c] {d a b : Dev} (ha : Quiet d a) (hb : Quiet d b) :
    Quiet d (if c then a else b) := by
  split <;> assumption

theorem Quiet.foldl {α : Type} {f : Dev → α → Dev} (h : ∀ d x, Quiet d (f d x)) (l : List α) (d : Dev) :
    Quiet d (l.foldl f d) := by
  induction l generalizing d with
  | nil => exact .refl d
  | cons x l ih => exact (h d x).trans (ih _)

/-- A fold that carries an answer beside the device. -/
theorem Quiet.foldl_snd {α β : Type} {f : β × Dev → α → β × Dev} (h : ∀ a x, Quiet a.2 (f a x).2) (l : List α)
    (a : β × Dev) : Quiet a.2 (l.foldl f a).2 := by
  induction l generalizing a with
  | nil => exact .refl _
  | cons x l ih => exact (h a x).trans (ih _)

section
variable (d : Dev)

/-! ### Counters, events, vectors and mirrored changes -/

theorem inc_quiet (a : Nat) : Quiet d (inc d a) := .of_eq rfl rfl
theorem emit_quiet (o : Out) : Quiet d (emit d o) := .of_eq rfl rfl
theorem setBasin_quiet (b : Basin) : Quiet d (setBasin d b) := .of_eq rfl rfl
theorem setSlip_quiet (n : Nat) (x : Slip) : Quiet d (setSlip d n x) := .of_eq rfl rfl
theorem setRing_quiet (n r : Nat) (x : Ring) : Quiet d (setRing d n r x) := .of_eq rfl rfl
theorem setPort_quiet (p : Nat) (x : WirePort) : Quiet d (setPort d p x) := .of_eq rfl rfl
theorem setNet_quiet (n : Nat) (x : Net) : Quiet d (setNet d n x) := .of_eq rfl rfl

theorem wr_quiet {a : Nat} (v : Word) (h : a ≠ 0x1C) : Quiet d (wr d a v) :=
  .of_eq rfl (by rw [rd_wr, if_neg h.symm])

theorem setEv_quiet (src ev en b inst : Nat) (detail : Word) : Quiet d (setEv d src ev en b inst detail) :=
  ⟨setEv_qm .., fun i => setEv_keeps d src ev en b inst detail 0x1C i⟩

theorem sendVec_quiet (n v : Nat) : Quiet d (sendVec d n v) := .of_eq (by simp) (by simp)

theorem setSlipEv_quiet (n b : Nat) : Quiet d (setSlipEv d n b) := by
  have ha : slipWin n + 0xC ≠ 0x1C := by unfold slipWin; omega
  simp only [setSlipEv]
  exact .ite (.refl d) (.ite ((wr_quiet d _ ha).trans (sendVec_quiet ..)) (wr_quiet d _ ha))

theorem setSignal_quiet (i : Nat) (v : Bool) : Quiet d (setSignal d i v) :=
  .of_eq (mirrorNote_qm ..) (rd_mirrorNote ..)

theorem setAnalog_quiet (i : Nat) (v : BitVec 16) : Quiet d (setAnalog d i v) :=
  .of_eq (mirrorNote_qm ..) (rd_mirrorNote ..)

/-! ### Cells and frames given up (R44, R54, R76) -/

theorem pfcJudge_quiet (p c : Nat) : Quiet d (pfcJudge d p c) := by
  have hsend (d : Dev) (x : Bool) : Quiet d (sendPfc d p c x) := (emit_quiet ..).trans (inc_quiet ..)
  simp only [pfcJudge]
  exact .ite (.ite (.ite ((setPort_quiet ..).trans (hsend ..)) (.refl d))
    (.ite ((setPort_quiet ..).trans (hsend ..)) (.refl d))) (.refl d)

theorem reserveBring_quiet (r : Nat) : Quiet d (reserveBring d r) := by
  have hnote (d : Dev) : Quiet d (reserveNote d r) :=
    (setEv_quiet ..).trans ((setEv_quiet ..).trans (.ite (setEv_quiet ..) (.refl _)))
  unfold reserveBring
  refine .trans ?_ (hnote _)
  exact .of_eq rfl rfl

theorem retireCell_quiet (cell : Nat) : Quiet d (retireCell d cell) := by
  unfold retireCell
  extract_lets b b1 d1 d2 d3 reserves
  have h1 : Quiet d d1 := .ite (setBasin_quiet ..) (setBasin_quiet ..)
  have h2 : Quiet d1 d2 := .ite ((setEv_quiet ..).trans (reserveBring_quiet ..)) ((setEv_quiet ..).trans (setEv_quiet ..))
  have h3 : Quiet d2 d3 := .ite (setEv_quiet ..) (.refl _)
  have h : Quiet d d3 := h1.trans (h2.trans h3)
  exact .ite (.refl d) (.ite (h.trans ((setBasin_quiet ..).trans (setEv_quiet ..))) h)

theorem freeIfDone_quiet (uid : Nat) : Quiet d (freeIfDone d uid) := by
  unfold freeIfDone
  split
  · exact .refl d
  · extract_lets due _ d1
    have hdue : Quiet d1 (due.foldl (fun d e => retireCell d e.2) d1) :=
      .foldl (fun d (e : Nat × Nat) => retireCell_quiet d e.2) ..
    exact .ite (.refl d) ((setBasin_quiet ..).trans (hdue.trans (pfcJudge_quiet ..)))

/-! ### The report to a transmit descriptor (R137–R142, R150) -/

theorem ringIrq_quiet (n r : Nat) : Quiet d (ringIrq d n r) := by
  simp only [ringIrq]
  exact .ite (.ite (setRing_quiet ..) (.ite (sendVec_quiet ..) ((sendVec_quiet ..).trans (setRing_quiet ..)))) (.refl d)

theorem writeCompl_quiet (n r : Nat) (x : Desc) (c : Compl) : Quiet d (writeCompl d n r x c) := by
  unfold writeCompl
  extract_lets g g1 z d0
  have h0 : Quiet d d0 := by
    unfold d0
    split
    · exact setSlip_quiet ..
    · exact .refl d
  refine h0.trans (.ite (setRing_quiet ..) ?_)
  exact (setRing_quiet ..).trans ((emit_quiet ..).trans ((emit_quiet ..).trans (ringIrq_quiet ..)))

theorem flushList_quiet (n r : Nat) (l : List Desc) : Quiet d (flushList d n r l) := by
  induction l generalizing d with
  | nil => exact .refl d
  | cons x l ih =>
    unfold flushList
    split
    · exact (writeCompl_quiet ..).trans (ih _)
    · exact .refl d

theorem finish_quiet (n r idx : Nat) (c : Compl) : Quiet d (finish d n r idx c) := by
  unfold finish
  split
  · exact .refl d
  · exact (setRing_quiet ..).trans (flushList_quiet ..)

theorem txVerdict_quiet (f : Frame) (v : VReport) : Quiet d (txVerdict d f v) := by
  have hjudge (d : Dev) (n r : Nat) (x : Desc) : Quiet d (confirmJudge d n r x) := .ite (finish_quiet ..) (.refl d)
  unfold txVerdict
  split
  · exact .refl d
  · split
    · exact .refl d
    · exact .ite ((setRing_quiet ..).trans (hjudge ..)) (finish_quiet ..)

/-! ### Destinations (R104, R105, R208) -/

theorem netEnter_quiet (n : Nat) (st : NetState) : Quiet d (netEnter d n st) :=
  .ite (setNet_quiet ..) ((setNet_quiet ..).trans (setEv_quiet ..))

theorem kaDue_quiet (n : Nat) : Quiet d (kaDue d n) := by
  unfold kaDue
  split
  iterate 4 exact inc_quiet ..
  exact .trans (.ite (inc_quiet ..) (.refl d)) (setNet_quiet ..)

theorem netWake_quiet (n : Nat) (c : WakeCause) (node : Nat) : Quiet d (netWake d n c node) :=
  .ite (.refl d) (setNet_quiet ..)

theorem needArises_quiet (n : Nat) : Quiet d (needArises d n) := by
  unfold needArises
  refine .ite (.ite (kaDue_quiet ..) (.refl d)) ?_
  split
  · exact kaDue_quiet ..
  · exact (netEnter_quiet ..).trans ((setNet_quiet ..).trans ((setNet_quiet ..).trans (kaDue_quiet ..)))
  · exact netWake_quiet ..

theorem offer_quiet (f : Frame) (q : Nat) (dest : Dest) (miss tern : Bool) (entry : Nat) :
    Quiet d (offer d f q dest miss tern entry).2 := by
  have hneed (d1 : Dev) (n : Nat) : Quiet d1 (needAfter d d1 n) := .ite (needArises_quiet ..) (.refl _)
  simp only [offer]
  split
  · split; · exact inc_quiet ..
    split; · exact inc_quiet ..
    split; · exact inc_quiet ..
    exact setBasin_quiet ..
  · split; · exact (inc_quiet ..).trans ((inc_quiet ..).trans (setSlipEv_quiet ..))
    split; · exact (inc_quiet ..).trans (setSlipEv_quiet ..)
    exact setBasin_quiet ..
  · split; · exact inc_quiet ..
    exact (setBasin_quiet ..).trans (hneed ..)
  · split; · exact inc_quiet ..
    exact setBasin_quiet ..

theorem deliver_quiet (f : Frame) (h : Hit) (dset : Nat) : Quiet d (deliver d f h dset) := by
  refine .foldl (fun d m => ?_) ..
  exact .ite (.refl d) (.ite (offer_quiet ..) ((inc_quiet ..).trans (setEv_quiet ..)))

theorem tunnelOnce_quiet (f : Frame) (stream : Nat) : Quiet d (tunnelOnce d f stream) :=
  .ite ((inc_quiet ..).trans (setEv_quiet ..)) (.ite ((inc_quiet ..).trans (setEv_quiet ..)) (offer_quiet ..))

theorem forward_quiet (f : Frame) (ports chset : Nat) : Quiet d (forward d f ports chset).2 := by
  unfold forward
  split
  · extract_lets d1
    have hwires : Quiet d d1 := by
      refine .foldl (fun d p => ?_) ..
      exact .ite (offer_quiet ..) (.refl d)
    exact hwires.trans (.ite (offer_quiet ..) (.refl d1))
  · split
    · refine Quiet.foldl_snd (fun a n => ?_) _ (0, d)
      dsimp only
      split
      · exact offer_quiet ..
      · exact .refl _
    · exact .refl d
  · exact .refl d

/-! ### The verdict (R98–R108) -/

theorem extract_quiet (idx len : Nat) (body : FrameBody) : Quiet d (extract d idx len body) := by
  refine .foldl (fun d k => ?_) ..
  unfold extractItem
  split
  · exact (inc_quiet ..).trans (setEv_quiet ..)
  · exact .ite (setSignal_quiet ..) (setAnalog_quiet ..)

theorem meter_quiet (k : Nat) (f : Frame) : Quiet d (meter d k f).2 := by
  simp only [meter]
  repeat' split
  all_goals exact .of_eq rfl rfl

theorem selected_quiet (msel : Nat) : Quiet d (selected d msel).2 := by
  simp only [selected]
  repeat' split
  all_goals exact .of_eq rfl rfl

theorem logbook_quiet (f : Frame) (cause : Nat) (h : Hit) (colour dropCause : Nat) :
    Quiet d (logbook d f cause h colour dropCause) :=
  .ite (.refl d) (.ite ((inc_quiet ..).trans (setEv_quiet ..)) (setBasin_quiet ..))

theorem puntRefused_quiet : Quiet d (puntRefused d) := (inc_quiet ..).trans (setEv_quiet ..)

theorem countPair_quiet (k : Nat) (f : Frame) : Quiet d (countPair d k f) := .of_eq rfl rfl

/-- A verdict leaves the Quaymaster alone: what it hands over, its caller queues. -/
theorem verdict_quiet (uid : Nat) (returned : Bool) : Quiet d (verdict d uid returned).2 := by
  unfold verdict
  split
  · exact .refl d
  next f hf =>
  extract_lets k h e dMiss impostor m colour dMetered cause wantPunt dRefused cause' dCounted s copy dSampled dDropCopy
    dDropCount dImpostor dExtracted ports dTunnelled fw named dDelivered wantCopy dReported dCopyRefused
  have hcopy (d : Dev) : Quiet d (copy d) := .ite (logbook_quiet ..) (.refl d)
  have hmiss : Quiet d dMiss := .ite (inc_quiet ..) (.refl d)
  have hmetered : Quiet d dMetered := by
    refine hmiss.trans ?_
    unfold dMetered m
    split
    · exact meter_quiet ..
    · exact .refl _
  have hsampled : Quiet d dSampled := by
    have hcounted : Quiet dMetered dCounted :=
      .trans (.ite (puntRefused_quiet ..) (.refl _)) (.ite (countPair_quiet ..) (.refl _))
    refine hmetered.trans (hcounted.trans ?_)
    unfold dSampled s
    split
    · exact selected_quiet ..
    · exact .refl _
  have himpostor : Quiet d dImpostor := by
    refine hsampled.trans ((hcopy _).trans ((inc_quiet ..).trans (.ite ?_ (.refl _))))
    split
    · exact (inc_quiet ..).trans ((wr_quiet _ _ (by decide)).trans ((wr_quiet _ _ (by decide)).trans (setEv_quiet ..)))
    · exact .refl _
  have hforwarded : Quiet d fw.2 := by
    have htunnelled : Quiet dSampled dTunnelled :=
      .trans (.ite (extract_quiet ..) (.refl _)) (.ite (tunnelOnce_quiet ..) (.refl _))
    refine hsampled.trans (htunnelled.trans ?_)
    unfold fw
    split
    · exact forward_quiet ..
    · exact .refl _
  have hreported : Quiet d dReported :=
    hforwarded.trans (.trans (.ite (deliver_quiet ..) (.refl _)) ((txVerdict_quiet ..).trans (hcopy _)))
  split
  · exact hmetered
  · split
    · exact himpostor.trans ((txVerdict_quiet ..).trans (freeIfDone_quiet ..))
    · split
      · exact hreported
      · exact hreported.trans (.trans (.ite (puntRefused_quiet ..) (.refl _)) (freeIfDone_quiet ..))

/-- A returned frame is not punted again (R107). -/
theorem verdict_returned (uid : Nat) : (verdict d uid true).1 = [] := by
  unfold verdict
  split
  · rfl
  · extract_lets k h e dMiss impostor m colour dMetered cause wantPunt dRefused cause' dCounted s copy dSampled dDropCopy
      dDropCount dImpostor dExtracted ports dTunnelled fw named dDelivered wantCopy dReported dCopyRefused
    have hframe : wantPunt = false := Bool.and_false _
    have hcopy : wantCopy = false := Bool.and_false _
    simp only [hframe, hcopy, Bool.false_and, Bool.false_eq_true, if_false]
    split <;> rfl

/-! ## Punts outlive what happens to other frames -/

theorem pfcJudge_punts (p c : Nat) : (pfcJudge d p c).basin.punts = d.basin.punts := by
  simp only [pfcJudge, sendPfc]
  repeat' split
  all_goals rfl

theorem reserveBring_punts (r : Nat) : (reserveBring d r).basin.punts = d.basin.punts := by
  simp only [reserveBring, reserveNote, reserveJudge]
  split <;> simp

theorem retireCell_punts (cell : Nat) : (retireCell d cell).basin.punts = d.basin.punts := by
  unfold retireCell
  extract_lets b b1 d1 d2 d3 reserves bOver
  split
  · rfl
  · have h1 : d1.basin.punts = d.basin.punts := by unfold d1; split <;> rfl
    have h2 : d2.basin.punts = d1.basin.punts := by unfold d2; split <;> simp [reserveBring_punts]
    have h3 : d3.basin.punts = d2.basin.punts := by unfold d3; split <;> simp
    have h : d3.basin.punts = d.basin.punts := h3.trans (h2.trans h1)
    split <;> simp [h, setBasin, bOver]

theorem freeIfDone_punts (uid : Nat) : (freeIfDone d uid).basin.punts = d.basin.punts := by
  have hdue (l : List (Nat × Nat)) (d : Dev) :
      (l.foldl (fun d e => retireCell d e.2) d).basin.punts = d.basin.punts := by
    induction l generalizing d with
    | nil => rfl
    | cons e l ih => exact (ih _).trans (retireCell_punts ..)
  unfold freeIfDone
  split
  · rfl
  · split
    · rfl
    · simp only [pfcJudge_punts, hdue, setBasin]

/-! ## The shedding level (R30) -/

/-- Judging the level changes nothing of the Quaymaster but the level. -/
theorem qmLevel_qm : (qmLevel d).qm = { d.qm with shed := shedLevel d.qm.shed d.qm.queue.length } := by
  simp only [qmLevel]
  split
  · rename_i h; rw [h]
  · simp

theorem qmLevel_steady {d : Dev} (h : shedLevel d.qm.shed d.qm.queue.length = d.qm.shed) : qmLevel d = d := by
  simp [qmLevel, h]

/-- A change of the level sets SHED_EVT. -/
theorem qmLevel_event {d : Dev} (h : shedLevel d.qm.shed d.qm.queue.length ≠ d.qm.shed) :
    bit (rd (qmLevel d) 0x1C) 1 = true := by
  simp only [qmLevel, if_neg h]
  exact setEv_bit _ _ _ _ _ _ _ (by decide)

theorem qmLevel_keeps {d : Dev} {i : Nat} (h : bit (rd d 0x1C) i = true) : bit (rd (qmLevel d) 0x1C) i = true := by
  simp only [qmLevel]
  split
  · exact h
  · exact setEv_keeps _ _ _ _ _ _ _ _ _ h

theorem refuseLate_quiet (uid : Nat) (copy : Bool) : Quiet d (refuseLate d uid copy) :=
  (setBasin_quiet ..).trans ((puntRefused_quiet _).trans (.ite (freeIfDone_quiet ..) (verdict_quiet ..)))

/-- The discarded work is of class 5 and is counted as shed; the late refusal of the punts in it is quiet. -/
theorem qmDiscard_quiet : Quiet { d with qm := { d.qm with
    queue := d.qm.queue.filter (·.1 != 5), shedCount := d.qm.shedCount + (d.qm.queue.filter (·.1 == 5)).length } }
    (qmDiscard d) := by
  simp only [qmDiscard]
  refine .foldl (fun d e => ?_) ..
  split
  · exact refuseLate_quiet ..
  · exact .refl d

/-- At an unchanged level only the interval's peak is kept. -/
theorem qmJudge_steady {d : Dev} (h : shedLevel d.qm.shed d.qm.queue.length = d.qm.shed) : qmJudge d = qmPeak d := by
  have hlevel : qmLevel (qmPeak d) = qmPeak d := qmLevel_steady h
  simp only [qmJudge, hlevel]
  rw [if_neg]
  rintro ⟨h0, hpos⟩
  exact hpos.ne' h0

/-- Above level 0 a change of the queue discards nothing. -/
theorem qmJudge_of_shedding {d : Dev} (h : 0 < d.qm.shed) : qmJudge d = qmLevel (qmPeak d) := by
  simp [qmJudge, h.ne']

/-- The first rise discards the queued class-5 work and judges the level again. -/
theorem qmJudge_rises {d : Dev} (h0 : d.qm.shed = 0) (h : 0 < shedLevel 0 d.qm.queue.length) :
    qmJudge d = qmLevel (qmDiscard (qmLevel (qmPeak d))) := by
  have hup : 0 < (qmLevel (qmPeak d)).qm.shed := by rw [qmLevel_qm]; simpa [qmPeak, h0] using h
  simp [qmJudge, h0, hup]

end

/-! ## The order of service (R29) -/

theorem le_foldl_min {c m : Nat} {l : List (Nat × QmWork)} :
    c ≤ l.foldl (fun m e => min m e.1) m ↔ c ≤ m ∧ ∀ e ∈ l, c ≤ e.1 := by
  induction l generalizing m with
  | nil => simp
  | cons e l ih => simp [ih, and_assoc]

/-- The next item is the first of the lowest class. -/
theorem qmNext_eq {d : Dev} {cls : Nat} {w : QmWork} {before after : List (Nat × QmWork)} (hcls : cls ≤ 5)
    (hq : d.qm.queue = before ++ (cls, w) :: after) (hb : ∀ e ∈ before, cls < e.1) (ha : ∀ e ∈ after, cls ≤ e.1) :
    qmNext d = some (cls, w) := by
  have hmin : d.qm.queue.foldl (fun m e => min m e.1) 6 = cls := by
    refine Nat.le_antisymm ((le_foldl_min.1 le_rfl).2 (cls, w) (by simp [hq])) ?_
    refine le_foldl_min.2 ⟨by omega, fun e he => ?_⟩
    rw [hq, List.mem_append, List.mem_cons] at he
    rcases he with he | rfl | he
    · exact (hb e he).le
    · exact le_rfl
    · exact ha e he
  have hskip : before.find? (·.1 == cls) = none := by
    simpa using fun c w he => (hb (c, w) he).ne'
  simp only [qmNext, hmin]
  simp [hq, hskip]

/-- What leaves the queue is the first item equal to the one taken. -/
theorem erase_served {cls : Nat} {w : QmWork} {before after : List (Nat × QmWork)} (hb : ∀ e ∈ before, cls < e.1) :
    (before ++ (cls, w) :: after).erase (cls, w) = before ++ after := by
  rw [List.erase_append_right _ fun h => (hb _ h).false, List.erase_cons_head]

/-! ## What a change of the queue does -/

/-- The device with another queue, before the level is judged. -/
def withQueue (d : Dev) (q : List (Nat × QmWork)) : Dev := { d with qm := { d.qm with queue := q } }

@[simp] theorem withQueue_queue (d : Dev) (q : List (Nat × QmWork)) : (withQueue d q).qm.queue = q := rfl
@[simp] theorem withQueue_shed (d : Dev) (q : List (Nat × QmWork)) : (withQueue d q).qm.shed = d.qm.shed := rfl

/-- Work of class 5 at level 1 and above, or with the queue full, is the only work not queued. -/
theorem qmEnqueue_queued {d : Dev} {cls : Nat} (w : QmWork) (h : cls = 5 → d.qm.shed = 0 ∧ d.qm.queue.length < 2048) :
    qmEnqueue d cls w = qmJudge (withQueue d (d.qm.queue ++ [(cls, w)])) := by
  simp only [qmEnqueue]
  rw [if_neg]
  · rfl
  · rintro ⟨h5, hfull⟩
    have hroom := h h5
    omega

/-- The next item is served by taking it out of the queue. -/
theorem qmTake_next {d : Dev} {cls : Nat} {w : QmWork} {before after : List (Nat × QmWork)}
    (hq : d.qm.queue = before ++ (cls, w) :: after) (hb : ∀ e ∈ before, cls < e.1) :
    qmTake d (cls, w) = qmJudge (withQueue d (before ++ after)) := by
  simp only [qmTake, hq, erase_served hb]
  rfl

theorem qmServe_other {d : Dev} {cls id : Nat} (hawake : qmAwake d = true) (h : qmNext d = some (cls, .other id)) :
    qmServe d = qmTake d (cls, .other id) := by
  simp [qmServe, hawake, h]

theorem puntHandle_punt {d : Dev} {cls uid : Nat} {copy : Bool} (hawake : qmAwake d = true)
    (h : qmNext d = some (cls, .punt uid copy)) : puntHandle d = puntServe (qmTake d (cls, .punt uid copy)) uid copy := by
  simp [puntHandle, qmServe, hawake, h]

/-- A queue that brings a level from 0 on: SHED_EVT is set and the class-5 work goes, counted. -/
theorem qmJudge_of_rise {d : Dev} (h0 : d.qm.shed = 0) (h : 0 < shedLevel 0 d.qm.queue.length) :
    bit (rd (qmJudge d) 0x1C) 1 = true ∧ ∃ peak, (qmJudge d).qm = { d.qm with
      queue := d.qm.queue.filter (·.1 != 5), peakRun := peak
      shedCount := d.qm.shedCount + (d.qm.queue.filter (·.1 == 5)).length
      shed := shedLevel (shedLevel 0 d.qm.queue.length) (d.qm.queue.filter (·.1 != 5)).length } := by
  have hevent : bit (rd (qmLevel (qmPeak d)) 0x1C) 1 = true :=
    qmLevel_event (by simpa [qmPeak, h0] using h.ne')
  rw [qmJudge_rises h0 h]
  refine ⟨qmLevel_keeps ((qmDiscard_quiet _).events 1 hevent), max d.qm.peakRun (qmOcc d), ?_⟩
  simp [qmLevel_qm, (qmDiscard_quiet _).qm, qmPeak, h0]

/-! ## Punts at the Quaymaster (R107) -/

/-- The device without the punt of `uid`. -/
def withoutPunt (d : Dev) (uid : Nat) (copy : Bool) : Dev :=
  setBasin d { d.basin with punts := d.basin.punts.filter fun p => p != ⟨uid, copy⟩ }

theorem mem_withoutPunt {d : Dev} {uid : Nat} {copy : Bool} (p : Punt) :
    p ∈ (withoutPunt d uid copy).basin.punts ↔ p ∈ d.basin.punts ∧ p ≠ ⟨uid, copy⟩ := by
  simp [withoutPunt, setBasin]

/-- A handled copy is released. -/
theorem puntServe_copy (d : Dev) (uid : Nat) : puntServe d uid true = freeIfDone (withoutPunt d uid true) uid := rfl

/-- With no template nothing is learned: the frame is returned, and nothing new is punted. -/
theorem puntServe_frame {d : Dev} (uid : Nat) (h : d.svc.templates = []) :
    puntServe d uid false = (verdict (withoutPunt d uid false) uid true).2 := by
  have hlearn : learn d uid = d := by
    unfold learn
    split <;> simp [h]
  simp [puntServe, hlearn, takePunts, verdict_returned, withoutPunt]

/-- At an unchanged level, handling a punt at the head of a queue of class 5 takes only it away. -/
theorem puntHandle_head {d : Dev} {uid : Nat} {copy : Bool} {rest : List (Nat × QmWork)} (hawake : qmAwake d = true)
    (hq : d.qm.queue = (5, .punt uid copy) :: rest) (hrest : ∀ e ∈ rest, 5 ≤ e.1)
    (hlevel : shedLevel d.qm.shed rest.length = d.qm.shed) :
    puntHandle d = puntServe (qmPeak (withQueue d rest)) uid copy := by
  have hq' : d.qm.queue = [] ++ (5, .punt uid copy) :: rest := hq
  rw [puntHandle_punt hawake (qmNext_eq le_rfl hq' (by simp) hrest), qmTake_next hq' (by simp), List.nil_append,
    qmJudge_steady hlevel]

/-! ## The statement -/

theorem exec_qmWorkEnqueue {s : State} (cls : Fin 5) (id : Nat) (hf : fabricUp s.dev = true) :
    exec (.qmWorkEnqueue cls id) s = .next { s with dev := qmEnqueue s.dev (cls.val + 1) (.other id) } := by
  change execQmWorkEnqueue cls id s = _
  simp [execQmWorkEnqueue, onDev, hf]

/-- Settles O8. A verdict never touches the Quaymaster (`verdict_quiet`), so the late refusal of discarded punts leaves
its queue, its level and SHED_EVT as they are; the rest is what `qmJudge` does to a queue that grew or shrank. -/
theorem quaymasterWorkQueue : Obligations.QuaymasterWorkQueue := by
  unfold Obligations.QuaymasterWorkQueue
  refine ⟨?queued, ?shed, ?served, ?copy, ?frame, ?rise, ?fall, ?peak⟩
  case queued =>
    intro s cls id hf hroom hlow hlevel
    rw [exec_qmWorkEnqueue cls id hf, qmEnqueue_queued _ (by omega), qmJudge_steady (by simpa using hlevel)]
    exact ⟨_, rfl, rfl, rfl, rfl⟩
  case shed =>
    intro s id hf hshed
    rw [exec_qmWorkEnqueue 4 id hf]
    simp [qmEnqueue, hshed]
  case served =>
    intro s cls id before after hawake hcls hq hb ha hlevel
    refine ⟨{ s with dev := qmServe s.dev }, rfl, ?_⟩
    rw [qmServe_other hawake (qmNext_eq hcls hq hb ha), qmTake_next hq hb, qmJudge_steady (by simpa using hlevel)]
    exact ⟨rfl, rfl⟩
  case copy =>
    intro s uid rest hawake hq hrest hlevel
    refine ⟨{ s with dev := puntHandle s.dev }, rfl, ?_⟩
    simp only [puntHandle_head hawake hq hrest hlevel, puntServe_copy, (freeIfDone_quiet ..).qm, freeIfDone_punts]
    exact ⟨rfl, mem_withoutPunt⟩
  case frame =>
    intro s uid rest hawake hq hrest hlevel htemplates
    refine ⟨{ s with dev := puntHandle s.dev }, withoutPunt (qmPeak (withQueue s.dev rest)) uid false, rfl, ?_,
      verdict_returned .., rfl, rfl, mem_withoutPunt⟩
    exact (puntHandle_head hawake hq hrest hlevel).trans (puntServe_frame uid htemplates)
  case rise =>
    intro s cls id q hf hcls hq h0 hrise
    rw [exec_qmWorkEnqueue cls id hf, qmEnqueue_queued _ (by omega), ← hq]
    obtain ⟨hevent, peak, hqm⟩ := qmJudge_of_rise (d := withQueue s.dev q) h0 hrise
    refine ⟨_, rfl, hevent, ?_⟩
    simp only [hqm]
    exact ⟨rfl, rfl, fun _ => rfl⟩
  case fall =>
    intro s cls id rest hawake hcls hq hrest hshed hfall
    have hq' : s.dev.qm.queue = [] ++ (cls, .other id) :: rest := hq
    refine ⟨{ s with dev := qmServe s.dev }, rfl, ?_⟩
    rw [qmServe_other hawake (qmNext_eq hcls hq' (by simp) hrest), qmTake_next hq' (by simp),
      qmJudge_of_shedding (by simpa using hshed)]
    simp only [qmLevel_qm]
    exact ⟨rfl, qmLevel_event hfall.ne, rfl⟩
  case peak =>
    intro s hf hlevel
    refine ⟨{ s with dev := occPeakInterval s.dev }, rfl, ?_⟩
    simp only [occPeakInterval, hf, if_true, qmJudge_steady hlevel]
    exact ⟨rfl, rfl, rfl⟩

end Sys2Proof.Proofs.WorkQueue

/-! PROOFS. Reset and the step on an empty queue (chapters 0 and 14). -/

namespace Sys2Proof.Proofs.ResetAndStep

open Sys2Proof Sys2Proof.Machine Sys2Proof.Laws

/-! ## Reset -/

/-- Settles O60. Reset stores no register and no counter, so each reads its table's reset value; slip 0 alone is listed. -/
theorem resetLeaves : Obligations.ResetLeaves := by
  unfold Obligations.ResetLeaves
  have hslips : ∀ n, n ≠ 0 → (slipOf State.reset.dev n).state = .free := fun n hn => by
    simp [slipOf, State.reset, Dev.reset, tget, hn.symm]
  refine ⟨rfl, rfl, rfl, ?registers, ?backup, fun _ _ => rfl, rfl, hslips, rfl, rfl, rfl, rfl, rfl, rfl, rfl, rfl, fun _ => rfl⟩
  case registers => decide
  case backup => decide

/-! ## The empty queue -/

/-- A grandmaster 10 ns before a multiple of 125 ms: port 0 is up, powered and one of its 802.1AS ports. -/
def syncDue : State :=
  { State.reset with dev := { Dev.reset with
      wall := 124999990, as_ := { state := 3 }, rst := { inReset := 0 }, ports := [(0, { link := true })]
      regs := [(aPort 0 0, 0x80000000), (0x204008, 0xC0000001)] } }

/-- The step from it sends a Sync message. -/
theorem syncDue_sends : (tick syncDue.dev).out = [.gptp 0 125000000 false] := by decide +kernel

/-- Refutes O57, by its second clause, that with nothing to slew and no configuration being applied an idle step changes
only the time: as grandmaster the device sends a Sync message every 125 ms (R68), which is due in `syncDue`. -/
theorem not_stepRunsFrontCommand : ¬ Obligations.StepRunsFrontCommand := by
  unfold Obligations.StepRunsFrontCommand
  rintro ⟨-, hidle, -⟩
  have hstep : step syncDue = .next { syncDue with dev := tick syncDue.dev } := rfl
  have hsame := hidle syncDue rfl rfl rfl
  rw [hstep] at hsame
  injection hsame with hsame
  injection hsame with _ hdev _
  have hsent := congrArg Dev.out hdev
  rw [syncDue_sends] at hsent
  cases hsent

end Sys2Proof.Proofs.ResetAndStep

/-! PROOFS. Transmission (R66, R82): a frame dropped for want of a PN, and what its freed cells send. -/

namespace Sys2Proof.Proofs.Transmission

open Sys2Proof Sys2Proof.Machine Sys2Proof.Laws

/-- A frame of class 3 from port 9. -/
def fromPort9 : Frame := { uid := 1, body := .eth (List.replicate 60 0), inPort := 9, cls := 3, ts := 0 }

/-- That frame queued at port 8. -/
def atPort8 : QEntry := { uid := 1, port := 8, cls := 3, cells := 1, dest := .wire }

/-- The association of port 8 with its next PN at the end of the space of 2^32. -/
def spentSa : MsSa := { an := 0, pn := 4294967295, key := [] }

/-- Port 8 protects what it sends, and its PNs are spent. At port 9 PFC is on for class 3, the frame's one cell is all its
input limit allows, and XOFF has been sent. -/
def spentPort : State :=
  { State.reset with dev := { Dev.reset with
      rst := { inReset := 0 }
      basin := { marching := false, frames := [fromPort9], nextUid := 2, queues := [atPort8] }
      ports := [(8, { link := true }), (9, { link := true, xoff := 8 })]
      ms := [(0, { txSa := some spentSa, xpn := false })]
      regs := [(0x20192C, 1), (aPort 8 0, 0xA0000000), (aPort 9 0, 0xC0000000), (aPort 9 0x10, 8), (0x205000, 0x10)] } }

theorem spentPort_head : HeadOf spentPort 8 3 atPort8 fromPort9 := by
  have hhigher : ∀ b, 3 < b → wireHead spentPort.dev 8 b = none := fun b hb => by
    simp [wireHead, spentPort, atPort8, hb.ne]
  exact ⟨by decide, by decide, rfl, rfl, rfl, fun b hb _ => .inl (hhigher b hb)⟩

/-- The frame is dropped, its cell is freed, and XON goes out at port 9 (R54, R76). -/
theorem spentPort_sends : (txFrameStart spentPort.dev 8 0).out = [.pfc 9 3 false] := by decide +kernel

/-- Refutes O3, by the clause that nothing is sent when a frame is dropped at the maximum PN. The drop frees the frame's
cells, and a class that had sent XOFF sends its XON then (R76), as it does in `spentPort`. -/
theorem not_transmitHighestClassFirst : ¬ Obligations.TransmitHighestClassFirst := by
  unfold Obligations.TransmitHighestClassFirst
  rintro ⟨hopen, -, -⟩
  obtain ⟨-, hprotected⟩ := hopen spentPort 8 0 3 atPort8 fromPort9 (by decide) spentPort_head (by decide)
  obtain ⟨-, hspent⟩ := hprotected spentSa (by decide) rfl
  obtain ⟨t, ht, -, -, -, hout⟩ := hspent (by decide)
  have hdev : t.dev = txFrameStart spentPort.dev 8 0 := by cases ht; rfl
  rw [hdev, spentPort_sends] at hout
  cases hout

end Sys2Proof.Proofs.Transmission

/-! PROOFS. What freed cells do (R44, R54, R76): retirement, events and PFC touch their own registers and counters and send,
and leave the queues alone. The laws that the statements of chapter 2 share. -/

namespace Sys2Proof.Proofs.FreedCells

open Sys2Proof Sys2Proof.Machine Sys2Proof.Laws

/-- A relation that every step of a fold keeps holds from its start to its end. -/
theorem rel_foldl {α : Type} {R : Dev → Dev → Prop} (hrefl : ∀ d, R d d) (htrans : ∀ {a b c}, R a b → R b c → R a c)
    {f : Dev → α → Dev} (h : ∀ d x, R d (f d x)) (l : List α) (d : Dev) : R d (l.foldl f d) := by
  induction l generalizing d with
  | nil => exact hrefl d
  | cons x l ih => exact htrans (h d x) (ih _)

/-! ## The bit of a class -/

theorem getLsbD_bit (c b : Nat) : (1#8 <<< c).getLsbD b = decide (b = c ∧ b < 8) := by
  rw [Bool.eq_iff_iff]
  simp
  omega

theorem getLsbD_clear (x : BitVec 8) (c b : Nat) : (x &&& ~~~(1#8 <<< c)).getLsbD b = (x.getLsbD b && !decide (b = c)) := by
  by_cases hb : b < 8
  · rw [BitVec.getLsbD_and, BitVec.getLsbD_not, getLsbD_bit]
    simp [hb]
  · simp [BitVec.getLsbD_of_ge x b (by omega)]

theorem getLsbD_set (x : BitVec 8) (c b : Nat) : (x ||| (1#8 <<< c)).getLsbD b = (x.getLsbD b || decide (b = c ∧ b < 8)) := by
  rw [BitVec.getLsbD_or, getLsbD_bit]

/-! ## What is sent stays sent -/

theorem sendVec_out (d : Dev) (n v : Nat) : d.out <:+ (sendVec d n v).out := by
  simp only [sendVec]
  split
  · exact List.suffix_cons ..
  · exact List.suffix_rfl

theorem setEv_out (d : Dev) (src ev en b inst : Nat) (detail : Word) : d.out <:+ (setEv d src ev en b inst detail).out := by
  simp only [setEv]
  split
  · exact List.suffix_rfl
  · split
    · refine List.IsSuffix.trans ?_ (sendVec_out ..)
      simp
    · simp

/-! ## Quiet operations -/

/-- The event registers of the device, the switch and the service block. -/
def eventRegs : List Nat := [0x1C, 0x200014, 0x1600000]

theorem aPort_not_event {p o : Nat} (hp : p < 11) (ho : o < 0x40) : aPort p o ∉ eventRegs := by
  simp [eventRegs, aPort]
  omega

/-- From `d` to `t` only event registers have changed and no bit of any register fell, what was sent stays sent, and the
links, the Logbook and the network state are as before. -/
structure Frees (d t : Dev) : Prop where
  regs : ∀ a ∉ eventRegs, rd t a = rd d a
  bits : ∀ a i, bit (rd d a) i = true → bit (rd t a) i = true
  out : d.out <:+ t.out
  link : ∀ p, (portOf t p).link = (portOf d p).link
  lb : t.lb = d.lb
  nws : t.nws = d.nws

theorem Frees.of_same {d t : Dev} (hregs : t.regs = d.regs) (hout : t.out = d.out) (hports : t.ports = d.ports)
    (hlb : t.lb = d.lb) (hnws : t.nws = d.nws) : Frees d t where
  regs _ _ := by simp only [rd, hregs]
  bits _ _ h := by simpa only [rd, hregs] using h
  out := hout ▸ List.suffix_rfl
  link _ := by simp only [portOf, hports]
  lb := hlb
  nws := hnws

theorem Frees.refl (d : Dev) : Frees d d := .of_same rfl rfl rfl rfl rfl

theorem Frees.trans {a b c : Dev} (h : Frees a b) (g : Frees b c) : Frees a c where
  regs i hi := (g.regs i hi).trans (h.regs i hi)
  bits i j hb := g.bits i j (h.bits i j hb)
  out := h.out.trans g.out
  link p := (g.link p).trans (h.link p)
  lb := g.lb.trans h.lb
  nws := g.nws.trans h.nws

theorem Frees.ite {c : Prop} [Decidable c] {d a b : Dev} (ha : Frees d a) (hb : Frees d b) :
    Frees d (if c then a else b) := by
  split <;> assumption

section
variable (d : Dev)

theorem inc_frees (a : Nat) : Frees d (inc d a) := .of_same rfl rfl rfl rfl rfl

theorem setBasin_frees (b : Basin) : Frees d (setBasin d b) := .of_same rfl rfl rfl rfl rfl

theorem setEv_frees (src en b inst : Nat) (detail : Word) {ev : Nat} (hev : ev ∈ eventRegs) :
    Frees d (setEv d src ev en b inst detail) where
  regs a ha := by rw [rd_setEv, if_neg (by rintro ⟨rfl, -⟩; exact ha hev)]
  bits a i := setEv_keeps d src ev en b inst detail a i
  out := setEv_out ..
  link p := by simp only [portOf, setEv_ports]
  lb := setEv_lb ..
  nws := setEv_nws ..

theorem evSw_frees (b inst : Nat) : Frees d (evSw d b inst) := setEv_frees _ _ _ _ _ _ (by decide)
theorem evDev_frees (b : Nat) : Frees d (evDev d b) := setEv_frees _ _ _ _ _ _ (by decide)
theorem evSvc_frees (b inst : Nat) : Frees d (evSvc d b inst) := setEv_frees _ _ _ _ _ _ (by decide)

@[simp] theorem portOf_inc (a p : Nat) : portOf (inc d a) p = portOf d p := rfl

@[simp] theorem portOf_evSw (b inst p : Nat) : portOf (evSw d b inst) p = portOf d p := by
  simp only [portOf, evSw_ports]

/-- After a switch event its bit of SW_EVENT is 1. -/
theorem evSw_bit {b : Nat} (inst : Nat) (h : b < 32) : bit (rd (evSw d b inst) 0x200014) b = true :=
  setEv_bit _ _ _ _ _ _ _ h

/-! ## PFC (R76) -/

@[simp] theorem portOf_sendPfc (p c : Nat) (xoff : Bool) (q : Nat) : portOf (sendPfc d p c xoff) q = portOf d q := rfl

/-- PFC of a class stays as it is, or an XOFF or XON changes its own bit alone and is sent, on one of the ports 8–10. -/
theorem pfcJudge_cases (p c : Nat) : pfcJudge d p c = d ∨ ∃ (m : BitVec 8) (xoff : Bool), 8 ≤ p ∧ p ≤ 10 ∧
    (∀ b, b ≠ c → m.getLsbD b = (portOf d p).xoff.getLsbD b) ∧
    pfcJudge d p c = sendPfc (setPort d p { portOf d p with xoff := m }) p c xoff := by
  have hport (h : (pfcOn d p c && wireUp d p) = true) : 8 ≤ p ∧ p ≤ 10 := by
    simp only [pfcOn, Bool.and_eq_true, decide_eq_true_eq] at h
    exact h.1.1.1
  simp only [pfcJudge]
  split
  case isFalse => exact .inl rfl
  case isTrue h =>
    obtain ⟨hlo, hhi⟩ := hport h
    split
    · split
      · exact .inr ⟨_, _, hlo, hhi, fun b hb => by simp only [getLsbD_clear, hb, decide_false, Bool.not_false, Bool.and_true], rfl⟩
      · exact .inl rfl
    · split
      · exact .inr ⟨_, _, hlo, hhi, fun b hb => by simp only [getLsbD_set, hb, false_and, decide_false, Bool.or_false], rfl⟩
      · exact .inl rfl

theorem pfcJudge_frees (p c : Nat) : Frees d (pfcJudge d p c) := by
  obtain h | ⟨m, xoff, -, -, -, h⟩ := pfcJudge_cases d p c
  · rw [h]; exact .refl d
  · rw [h]
    refine ⟨fun _ _ => rfl, fun _ _ h => h, List.suffix_cons .., fun q => ?_, rfl, rfl⟩
    rw [portOf_sendPfc, portOf_setPort]
    split
    · subst q; rfl
    · rfl

@[simp] theorem pfcJudge_basin (p c : Nat) : (pfcJudge d p c).basin = d.basin := by
  obtain h | ⟨m, xoff, -, -, -, h⟩ := pfcJudge_cases d p c
  · rw [h]
  · rw [h]; rfl

@[simp] theorem rd_pfcJudge (p c a : Nat) : rd (pfcJudge d p c) a = rd d a := by
  obtain h | ⟨m, xoff, -, -, -, h⟩ := pfcJudge_cases d p c
  · rw [h]
  · rw [h]; rfl

/-- No other counter than PFC_TX of a port 8–10. -/
theorem cnt_pfcJudge (p c : Nat) {a : Nat} (h : ∀ q, 8 ≤ q → q ≤ 10 → a ≠ aPcnt q 12) : cnt (pfcJudge d p c) a = cnt d a := by
  obtain hc | ⟨m, xoff, hlo, hhi, -, hc⟩ := pfcJudge_cases d p c
  · rw [hc]
  · rw [hc, sendPfc, cnt_inc, if_neg (h p hlo hhi)]
    rfl

/-! ## Retirement (R44, R45) -/

theorem reserveBring_frees (r : Nat) : Frees d (reserveBring d r) := by
  have hnote (d : Dev) : Frees d (reserveNote d r) :=
    (evSvc_frees ..).trans ((evDev_frees ..).trans (.ite (evSvc_frees ..) (.refl _)))
  unfold reserveBring
  refine .trans ?_ (hnote _)
  exact .of_same rfl rfl rfl rfl rfl

@[simp] theorem reserveBring_basin (r : Nat) : (reserveBring d r).basin = d.basin := by
  simp only [reserveBring, reserveNote, reserveJudge]
  split <;> simp

@[simp] theorem reserveBring_cnts (r : Nat) : (reserveBring d r).cnts = d.cnts := by
  simp only [reserveBring, reserveNote, reserveJudge]
  split <;> simp

/-- A cell retired already changes nothing. -/
theorem retireCell_again {c : Nat} (h : c ∈ d.basin.retiredCells) : retireCell d c = d := by
  simp [retireCell, h]

/-- Retiring a cell lists it and counts it, takes a spare or a cell of the pool, and may bring OVERCOMMIT. -/
theorem retireCell_basin {c : Nat} (h : c ∉ d.basin.retiredCells) : ∃ spares pool low, (retireCell d c).basin =
    { d.basin with retiredCells := d.basin.retiredCells ++ [c], retired := d.basin.retired + 1
                   spares := spares, poolCells := pool, overcommit := low } := by
  unfold retireCell
  extract_lets b b1 d1 d2 d3 reserves bOver
  rw [if_neg (by simpa [b] using h)]
  have h1 : ∃ spares pool, d1.basin = { b1 with spares := spares, poolCells := pool } := by
    unfold d1; split <;> exact ⟨_, _, rfl⟩
  have h2 : d2.basin = d1.basin := by unfold d2; split <;> simp
  have h3 : d3.basin = d2.basin := by unfold d3; split <;> simp
  obtain ⟨spares, pool, hb⟩ := h1
  rw [← h2, ← h3] at hb
  refine ⟨spares, pool, ?_⟩
  split
  · exact ⟨true, by simp [setBasin, bOver, hb, b1, b]⟩
  · exact ⟨d.basin.overcommit, by simp [hb, b1, b]⟩

theorem retireCell_frees (c : Nat) : Frees d (retireCell d c) := by
  unfold retireCell
  extract_lets b b1 d1 d2 d3 reserves
  have h1 : Frees d d1 := .ite (setBasin_frees ..) (setBasin_frees ..)
  have h2 : Frees d1 d2 := .ite ((evSw_frees ..).trans (reserveBring_frees ..)) ((evSw_frees ..).trans (evDev_frees ..))
  have h3 : Frees d2 d3 := .ite (evSw_frees ..) (.refl _)
  have h : Frees d d3 := h1.trans (h2.trans h3)
  exact .ite (.refl d) (.ite (h.trans ((setBasin_frees ..).trans (evSw_frees ..))) h)

theorem retireCell_cnts (c : Nat) : (retireCell d c).cnts = d.cnts := by
  unfold retireCell
  extract_lets b b1 d1 d2 d3 reserves bOver
  have h1 : d1.cnts = d.cnts := by unfold d1; split <;> rfl
  have h2 : d2.cnts = d1.cnts := by unfold d2; split <;> simp
  have h3 : d3.cnts = d2.cnts := by unfold d3; split <;> simp
  have h : d3.cnts = d.cnts := h3.trans (h2.trans h1)
  split
  · rfl
  · split <;> simp [h, setBasin, bOver]

/-- What a part of the Basin keeps when one cell is retired it keeps when many are. -/
theorem foldl_retireCell_keeps {β γ : Type} {g : Dev → γ} (h : ∀ d c, g (retireCell d c) = g d) (k : β → Nat) (l : List β) :
    g (l.foldl (fun d e => retireCell d (k e)) d) = g d :=
  rel_foldl (R := fun a b => g b = g a) (fun _ => rfl) (fun h₁ h₂ => h₂.trans h₁) (fun d e => h d (k e)) l d

/-- Retirement leaves the queues, the Logbook copies, the frames and the march alone. -/
theorem retireCell_keeps (c : Nat) : (retireCell d c).basin.queues = d.basin.queues ∧
    (retireCell d c).basin.copies = d.basin.copies ∧ (retireCell d c).basin.frames = d.basin.frames ∧
    (retireCell d c).basin.marching = d.basin.marching := by
  by_cases h : c ∈ d.basin.retiredCells
  · rw [retireCell_again d h]
    exact ⟨rfl, rfl, rfl, rfl⟩
  · obtain ⟨_, _, _, hb⟩ := retireCell_basin d h
    rw [hb]
    exact ⟨rfl, rfl, rfl, rfl⟩

theorem mem_retireCell (c k : Nat) : k ∈ (retireCell d c).basin.retiredCells ↔ k ∈ d.basin.retiredCells ∨ k = c := by
  by_cases h : c ∈ d.basin.retiredCells
  · rw [retireCell_again d h]
    exact ⟨.inl, fun hk => hk.elim id (· ▸ h)⟩
  · obtain ⟨_, _, _, hb⟩ := retireCell_basin d h; simp [hb]

/-! ## Freeing a frame (R54) -/

theorem freeIfDone_frees (uid : Nat) : Frees d (freeIfDone d uid) := by
  unfold freeIfDone
  split
  · exact .refl d
  · extract_lets due _ d1
    have hdue : Frees d1 (due.foldl (fun d e => retireCell d e.2) d1) :=
      rel_foldl .refl .trans (fun d (e : Nat × Nat) => retireCell_frees d e.2) ..
    exact .ite (.refl d) ((setBasin_frees ..).trans (hdue.trans (pfcJudge_frees ..)))

theorem leaveQueue_frees (e : QEntry) : Frees d (leaveQueue d e) := (setBasin_frees ..).trans (freeIfDone_frees ..)

theorem freeIfDone_queues (uid : Nat) : (freeIfDone d uid).basin.queues = d.basin.queues := by
  unfold freeIfDone
  split
  · rfl
  · split
    · rfl
    · rw [pfcJudge_basin, foldl_retireCell_keeps (g := (·.basin.queues)) _ fun d c => (retireCell_keeps d c).1]; rfl

theorem freeIfDone_copies (uid : Nat) : (freeIfDone d uid).basin.copies = d.basin.copies := by
  unfold freeIfDone
  split
  · rfl
  · split
    · rfl
    · rw [pfcJudge_basin, foldl_retireCell_keeps (g := (·.basin.copies)) _ fun d c => (retireCell_keeps d c).2.1]; rfl

/-- No other counter than PFC_TX of a port 8–10. -/
theorem cnt_freeIfDone (uid : Nat) {a : Nat} (h : ∀ q, 8 ≤ q → q ≤ 10 → a ≠ aPcnt q 12) :
    cnt (freeIfDone d uid) a = cnt d a := by
  unfold freeIfDone
  split
  · rfl
  · split
    · rfl
    · rw [cnt_pfcJudge _ _ _ h, cnt, foldl_retireCell_keeps (g := (·.cnts)) _ retireCell_cnts]; rfl

end

end Sys2Proof.Proofs.FreedCells

/-! PROOFS. Counter clears, ENABLE 0, link loss and link up (R49, R67, R76, R92). -/

namespace Sys2Proof.Proofs.LinksAndClears

open Sys2Proof Sys2Proof.Machine Sys2Proof.Laws Sys2Proof.Proofs.FreedCells

/-! ## Counter clears -/

theorem clearsExactly_range {c : Instr} {lo hi : Nat}
    (h : ∀ s, exec c s = .next { s with dev := clearCnts s.dev lo hi }) : ClearsExactly c fun a => lo ≤ a ∧ a < hi := by
  refine fun s => ⟨_, h s, rfl, fun a ha => ?_, fun a ha => ?_⟩
  · exact (cnt_clearCnts ..).trans (if_pos ha)
  · exact (cnt_clearCnts ..).trans (if_neg ha)

theorem clearsExactly_ranges {c : Instr} {lo hi lo' hi' : Nat}
    (h : ∀ s, exec c s = .next { s with dev := clearCnts (clearCnts s.dev lo hi) lo' hi' }) :
    ClearsExactly c fun a => (lo ≤ a ∧ a < hi) ∨ (lo' ≤ a ∧ a < hi') := by
  refine fun s => ⟨_, h s, rfl, fun a ha => ?_, fun a ha => ?_⟩
  all_goals simp only [cnt_clearCnts]
  · rcases ha with ha | ha <;> simp [ha]
  · rw [not_or] at ha
    rw [if_neg ha.2, if_neg ha.1]

section
variable (d : Dev)

/-! ## The queue of a port that carries no more traffic (R67) -/

theorem mem_leaveQueues (a : Nat) (l : List QEntry) (x : QEntry) :
    x ∈ (l.foldl (fun d e => leaveQueue (inc d a) e) d).basin.queues ↔ x ∈ d.basin.queues ∧ x ∉ l := by
  induction l generalizing d with
  | nil => simp
  | cons e l ih =>
    rw [List.foldl_cons, ih, leaveQueue, freeIfDone_queues]
    simp [setBasin, and_assoc]

theorem discardPort_frees (p : Nat) : Frees d (discardPort d p) :=
  rel_foldl .refl .trans (fun d e => (inc_frees d _).trans (leaveQueue_frees _ e)) ..

/-- Every queued frame of the port has left, and no other. -/
theorem mem_discardPort (p : Nat) (x : QEntry) :
    x ∈ (discardPort d p).basin.queues ↔ x ∈ d.basin.queues ∧ ¬ (x.port = p ∧ x.dest = Dest.wire) := by
  rw [discardPort, mem_leaveQueues]
  simp +contextual [List.mem_filter]

/-! ## The gPTP role after a port changed (R68) -/

/-- The role stays, or it ends with its event. -/
theorem asJudge_cases : asJudge d = d ∨ ∃ x, asJudge d = evSw (wr { d with as_ := x } 0x204010 0) 5 0 := by
  simp only [asJudge]
  split
  · exact .inl rfl
  · exact .inr ⟨_, rfl⟩

@[simp] theorem asJudge_basin : (asJudge d).basin = d.basin := by
  obtain h | ⟨x, h⟩ := asJudge_cases d
  · rw [h]
  · rw [h, evSw_basin]; rfl

@[simp] theorem asJudge_ports : (asJudge d).ports = d.ports := by
  obtain h | ⟨x, h⟩ := asJudge_cases d
  · rw [h]
  · rw [h, evSw_ports]; rfl

@[simp] theorem asJudge_nws : (asJudge d).nws = d.nws := by
  obtain h | ⟨x, h⟩ := asJudge_cases d
  · rw [h]
  · rw [h, evSw_nws]; rfl

/-- Beside its event only the last offset changes. -/
theorem rd_asJudge {a : Nat} (ha : a ≠ 0x204010) (hev : a ∉ eventRegs) : rd (asJudge d) a = rd d a := by
  obtain h | ⟨x, h⟩ := asJudge_cases d
  · rw [h]
  · rw [h, (evSw_frees ..).regs a hev, rd_wr, if_neg ha]; rfl

theorem asJudge_bits {a i : Nat} (ha : a ≠ 0x204010) (hb : bit (rd d a) i = true) : bit (rd (asJudge d) a) i = true := by
  obtain h | ⟨x, h⟩ := asJudge_cases d
  · rwa [h]
  · rw [h]
    refine (evSw_frees ..).bits a i ?_
    rwa [rd_wr, if_neg ha]

/-! ## Link loss (R67, R226) -/

theorem nbrOf_setNbr (p b : Nat) (x : Option Neighbour) (k : Nat) :
    nbrOf (setNbr d p b x) p k = if k = b then x else nbrOf d p k := by
  simp [nbrOf, setNbr]

/-- Forgetting neighbours of a port changes the network state alone. -/
theorem forgetNbrs_only (p : Nat) (l : List Nat) : l.foldl (fun d k => setNbr d p k none) d =
    { d with nws := (l.foldl (fun d k => setNbr d p k none) d).nws } :=
  rel_foldl (R := fun a b => b = { a with nws := b.nws }) (fun _ => rfl) (fun h g => by rw [g, h]) (fun _ _ => rfl) l d

theorem nbrOf_forgetNbrs (p : Nat) (l : List Nat) (k : Nat) :
    nbrOf (l.foldl (fun d k => setNbr d p k none) d) p k = if k ∈ l then none else nbrOf d p k := by
  induction l generalizing d with
  | nil => rfl
  | cons b l ih =>
    rw [List.foldl_cons, ih, nbrOf_setNbr]
    by_cases hl : k ∈ l <;> by_cases hb : k = b <;> simp [hl, hb]

/-- With its neighbours' event and the end of the role a lost link changes no port, no queue and no event of the switch. -/
theorem linkLoss_reported (p : Nat) (had : Bool) :
    let t := asJudge (if had then evLldp d 1 p else d)
    t.ports = d.ports ∧ t.basin = d.basin ∧ t.nws = d.nws ∧
    (bit (rd d 0x200014) 8 = true → bit (rd t 0x200014) 8 = true) := by
  cases had
  · exact ⟨asJudge_ports _, asJudge_basin _, asJudge_nws _, asJudge_bits _ (by decide)⟩
  · refine ⟨?_, ?_, ?_, fun h => asJudge_bits _ (by decide) (setEv_keeps _ _ _ _ _ _ _ _ _ h)⟩
    · exact (asJudge_ports _).trans (evLldp_ports ..)
    · exact (asJudge_basin _).trans (evLldp_basin ..)
    · exact (asJudge_nws _).trans (evLldp_nws ..)

/-- A lost link is down with its event, its port's queue is empty, and its neighbours are gone. -/
theorem portLinkLoss_up {p : Nat} (h : (portOf d p).link = true) :
    (portOf (portLinkLoss d p) p).link = false ∧ bit (rd (portLinkLoss d p) 0x200014) 8 = true ∧
    (∀ k < 4, nbrOf (portLinkLoss d p) p k = none) ∧
    ∀ x, x ∈ (portLinkLoss d p).basin.queues ↔ x ∈ d.basin.queues ∧ ¬ (x.port = p ∧ x.dest = Dest.wire) := by
  have hdown := discardPort_frees (evSw (setPort d p { portOf d p with link := false }) 8 p) p
  have hleft := mem_discardPort (evSw (setPort d p { portOf d p with link := false }) 8 p) p
  simp only [portLinkLoss, h, if_true]
  generalize hd1 : discardPort (evSw (setPort d p { portOf d p with link := false }) 8 p) p = d1 at hdown hleft ⊢
  have honly := forgetNbrs_only d1 p (List.range 4)
  have hnone := nbrOf_forgetNbrs d1 p (List.range 4)
  generalize (List.range 4).foldl (fun d k => setNbr d p k none) d1 = d2 at honly hnone ⊢
  obtain ⟨hports, hbasin, hnws, hevent⟩ := linkLoss_reported d2 p ((List.range 4).any fun k => (nbrOf d1 p k).isSome)
  have hregs (a : Nat) : rd d2 a = rd d1 a := by rw [honly]; rfl
  refine ⟨?_, hevent ?_, fun k hk => ?_, fun x => ?_⟩
  · rw [portOf, hports, honly]
    exact (hdown.link p).trans (by simp)
  · rw [hregs]
    exact hdown.bits _ _ (evSw_bit _ _ (by decide))
  · rw [nbrOf, hnws]
    exact (hnone k).trans (if_pos (List.mem_range.2 hk))
  · rw [hbasin, honly, hleft, evSw_basin]
    rfl

/-! ## Link up (R49, R76) -/

/-- From `d` to `t` PFC of port `p` was judged: its XOFF bits changed, and frames were sent and counted. -/
structure Judged (p : Nat) (d t : Dev) : Prop where
  only : t = { d with ports := t.ports, out := t.out, cnts := t.cnts }
  out : d.out <:+ t.out
  port : portOf t p = { portOf d p with xoff := (portOf t p).xoff }
  others : ∀ q, q ≠ p → portOf t q = portOf d q

theorem Judged.refl (p : Nat) (d : Dev) : Judged p d d := ⟨rfl, List.suffix_rfl, rfl, fun _ _ => rfl⟩

theorem Judged.trans {p : Nat} {a b c : Dev} (h : Judged p a b) (g : Judged p b c) : Judged p a c where
  only := by rw [g.only, h.only]
  out := h.out.trans g.out
  port := by rw [g.port, h.port]
  others q hq := (g.others q hq).trans (h.others q hq)

/-- What decides on an XOFF is as before. -/
theorem Judged.same {p : Nat} {d t : Dev} (h : Judged p d t) (c : Nat) :
    pfcOn t p c = pfcOn d p c ∧ wireUp t p = wireUp d p ∧ xoffDue t p c = xoffDue d p c := by
  have hlink : (portOf t p).link = (portOf d p).link := by rw [h.port]
  have hregs (a : Nat) : rd t a = rd d a := by rw [h.only]; rfl
  have hbasin : t.basin = d.basin := by rw [h.only]
  have hiocc : iocc t p c = iocc d p c := by simp only [iocc, hbasin]
  have hthr : xoffThr t p c = xoffThr d p c := by simp only [xoffThr, limIL, hregs]
  exact ⟨by simp only [pfcOn, hregs], by simp only [wireUp, hregs, hlink], decide_eq_decide.2 (by rw [hiocc, hthr])⟩

theorem pfcJudge_judged (p c : Nat) : Judged p d (pfcJudge d p c) := by
  obtain h | ⟨m, xoff, -, -, -, h⟩ := pfcJudge_cases d p c
  · rw [h]; exact .refl p d
  · rw [h]
    exact ⟨rfl, List.suffix_cons .., by simp, fun q hq => by simp [hq]⟩

theorem foldl_judged (p : Nat) (l : List Nat) : Judged p d (l.foldl (fun d c => pfcJudge d p c) d) :=
  rel_foldl (.refl p) .trans (fun d c => pfcJudge_judged d p c) l d

variable {d}

/-- Judging other classes leaves a class's XOFF as it is. -/
theorem foldl_pfcJudge_other {p c : Nat} {l : List Nat} (h : c ∉ l) :
    (portOf (l.foldl (fun d c => pfcJudge d p c) d) p).xoff.getLsbD c = (portOf d p).xoff.getLsbD c := by
  induction l generalizing d with
  | nil => rfl
  | cons b l ih =>
    rw [List.mem_cons, not_or] at h
    rw [List.foldl_cons, ih h.2]
    obtain hb | ⟨m, xoff, -, -, hm, hb⟩ := pfcJudge_cases d p b
    · rw [hb]
    · rw [hb, ← hm c h.1]; simp

/-- A class that has sent no XOFF sends it exactly when it is due. -/
theorem pfcJudge_xoff {p c : Nat} (hc : c < 8) (hon : pfcOn d p c = true) (hup : wireUp d p = true)
    (hx : (portOf d p).xoff.getLsbD c = false) :
    (portOf (pfcJudge d p c) p).xoff.getLsbD c = xoffDue d p c ∧
    (xoffDue d p c = true → .pfc p c true ∈ (pfcJudge d p c).out) := by
  have hjudge : pfcJudge d p c = if xoffDue d p c then
      sendPfc (setPort d p { portOf d p with xoff := (portOf d p).xoff ||| (1#8 <<< c) }) p c true else d := by
    simp [pfcJudge, hon, hup, hx]
  rw [hjudge]
  cases hdue : xoffDue d p c
  · exact ⟨hx, nofun⟩
  · refine ⟨?_, fun _ => List.mem_cons_self ..⟩
    simp [hc]

/-- The same when every class of the port is judged. -/
theorem pfcJudgeAll_xoff {p c : Nat} (hc : c < 8) (hon : pfcOn d p c = true) (hup : wireUp d p = true)
    (hx : (portOf d p).xoff.getLsbD c = false) :
    (portOf (pfcJudgeAll d p) p).xoff.getLsbD c = xoffDue d p c ∧
    (xoffDue d p c = true → .pfc p c true ∈ (pfcJudgeAll d p).out) := by
  obtain ⟨before, after, hl⟩ := List.append_of_mem (List.mem_range.2 hc)
  have hnodup := List.nodup_range (n := 8)
  rw [hl] at hnodup
  have hafter : c ∉ after := (List.nodup_cons.1 (List.nodup_append.1 hnodup).2.1).1
  have hbefore : c ∉ before := fun h => (List.nodup_append.1 hnodup).2.2 c h c (by simp) rfl
  obtain ⟨hon', hup', hdue'⟩ := (foldl_judged d p before).same c
  rw [pfcJudgeAll, hl, List.foldl_append, List.foldl_cons]
  generalize hd0 : before.foldl (fun d c => pfcJudge d p c) d = d0 at hon' hup' hdue' ⊢
  have hx0 : (portOf d0 p).xoff.getLsbD c = false := by rw [← hd0, foldl_pfcJudge_other hbefore, hx]
  obtain ⟨hbit, hsent⟩ := pfcJudge_xoff hc (hon'.trans hon) (hup'.trans hup) hx0
  refine ⟨?_, fun hdue => ?_⟩
  · rw [foldl_pfcJudge_other hafter, hbit, hdue']
  · exact (foldl_judged _ p after).out.subset (hsent (hdue'.trans hdue))

end

/-! ## The statement -/

/-- Settles O1. `mem_discardPort` says which queue entries leave; at the link up each class is judged in turn, and its
neighbours' judgements leave its own XOFF alone (`foldl_pfcJudge_other`). -/
theorem switchClearsAndLinkChanges : Obligations.SwitchClearsAndLinkChanges := by
  unfold Obligations.SwitchClearsAndLinkChanges
  refine ⟨fun _ => rfl, clearsExactly_range fun _ => rfl, clearsExactly_ranges fun _ => rfl,
    clearsExactly_range fun _ => rfl, clearsExactly_ranges fun _ => rfl, ?disable, ?loss, ?up⟩
  case disable =>
    intro s p
    refine ⟨_, rfl, ?_, fun e he => ?_⟩
    · have hne : aPort p 0 ≠ 0x204010 := by unfold aPort; omega
      have hev : aPort p 0 ∉ eventRegs := aPort_not_event p.isLt (by decide)
      simp only [portDisable, rd_asJudge _ hne hev, (discardPort_frees ..).regs _ hev, rd_wr, if_true]
    · simpa only [portDisable, asJudge_basin, mem_discardPort, wr_basin] using he
  case loss =>
    intro s p hlink
    obtain ⟨hdown, hevent, hnbrs, hqueues⟩ := portLinkLoss_up s.dev hlink
    exact ⟨_, rfl, hdown, hevent, hnbrs, fun e he => (hqueues e).1 he⟩
  case up =>
    intro s p hlink hpower
    have hexec : exec (.portLinkUp p) s = .next { s with
        dev := pfcJudgeAll (evSw (setPort s.dev p { portOf s.dev p with link := true }) 8 p) p } := by
      change onDev (portLinkUp · p) s = _
      simp [portLinkUp, hlink, hpower]
    refine ⟨_, hexec, ?_⟩
    have hregs (a : Nat) (ha : a ∉ eventRegs) :
        rd (evSw (setPort s.dev p { portOf s.dev p with link := true }) 8 p) a = rd s.dev a := (evSw_frees ..).regs a ha
    have hbasin : (evSw (setPort s.dev p { portOf s.dev p with link := true }) 8 p).basin = s.dev.basin := by simp
    have hport (q : Nat) : portOf (evSw (setPort s.dev p { portOf s.dev p with link := true }) 8 p) q =
        if q = p then { portOf s.dev p with link := true } else portOf s.dev q := by simp
    have hevent := evSw_bit (setPort s.dev p { portOf s.dev p with link := true }) (b := 8) p (by decide)
    generalize evSw (setPort s.dev p { portOf s.dev p with link := true }) 8 p = d1 at hregs hbasin hport hevent ⊢
    have hjudged : Judged p d1 (pfcJudgeAll d1 p) := foldl_judged ..
    refine ⟨?_, fun q hq => ?_, fun c hc hon hup hx => ?_, ?_, ?_, rfl, rfl⟩
    · refine hjudged.port.trans ?_
      rw [hport, if_pos rfl]
    · rw [hjudged.others q hq, hport, if_neg hq]
    · have hsettings (o : Nat) (ho : o < 0x40) : rd d1 (aPort p o) = rd s.dev (aPort p o) :=
        hregs _ (aPort_not_event p.isLt ho)
      have hlimit : limIL d1 p c = limIL s.dev p c := by
        rw [limIL, limIL, hregs _ (by simp [eventRegs]; omega)]
      have hon1 : pfcOn d1 p c = true := by
        simpa only [pfcOn, hsettings 0 (by decide), hsettings 0x10 (by decide)] using hon
      have hx1 : (portOf d1 p).xoff.getLsbD c = false := by rwa [hport, if_pos rfl]
      obtain ⟨hbit, hsent⟩ := pfcJudgeAll_xoff hc hon1 ((hjudged.same c).2.1.symm.trans hup) hx1
      refine ⟨hbit.trans (decide_eq_decide.2 ?_), fun h => hsent (hbit.symm.trans h)⟩
      simp only [xoffThr, hlimit, hsettings 0x14 (by decide), iocc, hbasin]
    · have hsame : rd (pfcJudgeAll d1 p) 0x200014 = rd d1 0x200014 := by rw [hjudged.only]; rfl
      rw [hsame, hevent]
    · change (pfcJudgeAll d1 p).basin = _
      rw [hjudged.only, hbasin]

end Sys2Proof.Proofs.LinksAndClears

/-! PROOFS. Limit commit (R56): the snapshot, and its application whole or not at all. -/

namespace Sys2Proof.Proofs.LimitCommit

open Sys2Proof Sys2Proof.Machine Sys2Proof.Laws Sys2Proof.Proofs.FreedCells

/-! ## Limits written one after another -/

/-- The registers from `base` on take the values of a list of indices and words. -/
def putWords (base : Nat) (l : List (Nat × Word)) (d : Dev) : Dev := l.foldl (fun d e => wr d (base + 4 * e.1) e.2) d

/-- The snapshot of `n` limits. -/
def words (n : Nat) (v : Nat → Word) : List (Nat × Word) := (List.range n).map fun i => (i, v i)

theorem putWords_basin (base : Nat) (l : List (Nat × Word)) (d : Dev) : (putWords base l d).basin = d.basin :=
  rel_foldl (R := fun a b => b.basin = a.basin) (fun _ => rfl) (fun h g => g.trans h) (fun d _ => wr_basin d ..) l d

theorem putWords_succ (base n : Nat) (v : Nat → Word) (d : Dev) :
    putWords base (words (n + 1) v) d = wr (putWords base (words n v) d) (base + 4 * n) (v n) := by
  simp [putWords, words, List.range_succ]

theorem rd_putWords (base : Nat) {n i : Nat} (v : Nat → Word) (d : Dev) (h : i < n) :
    rd (putWords base (words n v) d) (base + 4 * i) = v i := by
  induction n with
  | zero => omega
  | succ n ih =>
    rw [putWords_succ, rd_wr]
    by_cases hi : i = n
    · rw [if_pos (by omega), hi]
    · rw [if_neg (by omega), ih (by omega)]

theorem rd_putWords_other {base n a : Nat} (v : Nat → Word) (d : Dev) (h : a < base ∨ base + 4 * n ≤ a) :
    rd (putWords base (words n v) d) a = rd d a := by
  induction n with
  | zero => rfl
  | succ n ih => rw [putWords_succ, rd_wr, if_neg (by omega), ih (by omega)]

/-! ## COMMIT -/

section
variable {d : Dev}

theorem limitCommit_valid (h : resultValid d 0x200020 = true) : limitCommit d = resultBegin (setBasin d { d.basin with
    limitPending := some ⟨words 112 fun i => rd d (0x201000 + 4 * i), words 112 fun i => rd d (0x201200 + 4 * i),
      words 8 fun i => rd d (0x201400 + 4 * i)⟩ }) 0x200020 := by
  simp [limitCommit, h, words]

/-- A commit while one runs is ignored. -/
theorem limitCommit_running (h : resultValid d 0x200020 = false) : limitCommit d = evSw d 11 0 := by
  simp [limitCommit, h]

/-! ## Its application -/

/-- The snapshot's reserves. -/
def reserves (s : LimitSnap) : Nat := s.gr.foldl (fun n e => n + e.2.toNat) 0

theorem reserves_words (il el : List (Nat × Word)) (gr : Nat → Word) : reserves ⟨il, el, words 8 gr⟩ =
    (gr 0).toNat + (gr 1).toNat + (gr 2).toNat + (gr 3).toNat + (gr 4).toNat + (gr 5).toNat + (gr 6).toNat
      + (gr 7).toNat := by
  simp [reserves, words, List.range_succ]

theorem limitApplied_refused {s : LimitSnap} (hs : d.basin.limitPending = some s)
    (h : d.basin.poolCells - 1036 < reserves s) :
    limitApplied d = resultEnd (setBasin d { d.basin with limitPending := none }) 0x200020
      (at_ 1 28 ||| (rd d 0x200020 &&& 0x00FF0000)) := by
  rw [reserves] at h
  simp [limitApplied, hs, h]

/-- A snapshot that fits is written to the active limits, with its result; PFC judged with it reads them only. -/
theorem limitApplied_fits {s : LimitSnap} (hs : d.basin.limitPending = some s)
    (h : reserves s ≤ d.basin.poolCells - 1036) : ∃ d' st, limitApplied d = resultEnd d' 0x200020 st ∧
      d'.basin = { d.basin with limitPending := none, overcommit := false } ∧
      ∀ a, rd d' a = rd (putWords 0x201C00 s.gr (putWords 0x201A00 s.el (putWords 0x201800 s.il
        (setBasin d { d.basin with limitPending := none })))) a := by
  rw [reserves] at h
  have hpfc (l : List (Nat × Nat)) (d : Dev) : (l.foldl (fun d pc => pfcJudge d pc.1 pc.2) d).basin = d.basin ∧
      ∀ a, rd (l.foldl (fun d pc => pfcJudge d pc.1 pc.2) d) a = rd d a :=
    rel_foldl (R := fun a b => b.basin = a.basin ∧ ∀ i, rd b i = rd a i) (fun _ => ⟨rfl, fun _ => rfl⟩)
      (fun h g => ⟨g.1.trans h.1, fun i => (g.2 i).trans (h.2 i)⟩)
      (fun d _ => ⟨pfcJudge_basin d .., rd_pfcJudge d _ _⟩) l d
  simp only [limitApplied, hs]
  rw [if_neg (by omega)]
  refine ⟨_, _, rfl, (hpfc ..).1.trans ?_, fun a => ((hpfc ..).2 a).trans rfl⟩
  have hput := (putWords_basin 0x201C00 s.gr _).trans ((putWords_basin 0x201A00 s.el _).trans
    (putWords_basin 0x201800 s.il (setBasin d { d.basin with limitPending := none })))
  simp only [putWords] at hput
  simp only [setBasin] at hput ⊢
  rw [hput]

end

/-! ## The statement -/

/-- Settles O2. The limits written later never lie among those written before (`rd_putWords_other`). -/
theorem limitCommitAppliesWhole : Obligations.LimitCommitAppliesWhole := by
  unfold Obligations.LimitCommitAppliesWhole
  refine ⟨?commit, ?running, ?refused, ?fits⟩
  case commit =>
    intro s hvalid
    refine ⟨{ s with dev := limitCommit s.dev }, rfl, ?_⟩
    simp only [limitCommit_valid hvalid]
    exact ⟨rfl, fun a ha => (rd_wr ..).trans (if_neg ha), (rd_wr ..).trans (if_pos rfl), rfl⟩
  case running =>
    intro s hrunning
    refine ⟨{ s with dev := limitCommit s.dev }, rfl, ?_⟩
    simp only [limitCommit_running hrunning]
    exact ⟨evSw_basin .., (evSw_frees ..).regs _ (by decide), evSw_bit _ _ (by decide)⟩
  case refused =>
    intro s il el gr hs hover
    refine ⟨{ s with dev := limitApplied s.dev }, rfl, ?_⟩
    rw [← reserves_words (words 112 il) (words 112 el) gr] at hover
    simp only [limitApplied_refused hs hover]
    exact ⟨rfl, fun a ha => (rd_wr ..).trans (if_neg ha), rd_resultEnd_valid ..⟩
  case fits =>
    intro s il el gr hs hfit
    refine ⟨{ s with dev := limitApplied s.dev }, rfl, ?_⟩
    rw [← reserves_words (words 112 il) (words 112 el) gr] at hfit
    obtain ⟨d', st, happlied, hbasin, hregs⟩ :=
      limitApplied_fits (s := ⟨words 112 il, words 112 el, words 8 gr⟩) hs hfit
    have hlimit (a : Nat) (ha : a ≠ 0x200020) : rd (resultEnd d' 0x200020 st) a = rd d' a := (rd_wr ..).trans (if_neg ha)
    simp only [happlied]
    refine ⟨by simp [hbasin], by simp [hbasin], fun p c hp hc => ⟨?_, ?_⟩, fun c hc => ?_, rd_resultEnd_valid ..⟩
    · rw [limIL, hlimit _ (by omega), hregs]
      rw [rd_putWords_other _ _ (by omega), rd_putWords_other _ _ (by omega), rd_putWords _ _ _ (by omega)]
    · rw [limEL, hlimit _ (by omega), hregs]
      rw [rd_putWords_other _ _ (by omega), rd_putWords _ _ _ (by omega)]
    · rw [limGR, hlimit _ (by omega), hregs]
      rw [rd_putWords _ _ _ (by omega)]

end Sys2Proof.Proofs.LimitCommit

/-! PROOFS. Received PFC (R75–R77): which classes a frame pauses and for how long, and what ends a pause. -/

namespace Sys2Proof.Proofs.PauseFrames

open Sys2Proof Sys2Proof.Machine Sys2Proof.Laws Sys2Proof.Proofs.FreedCells

/-! ## A frame's pauses -/

/-- One class of a PFC frame that gives it a time. -/
def pauseClass (p : Nat) (classes : BitVec 8) (times : List Nat) (d : Dev) (c : Nat) : Dev :=
  if classes.getLsbD c then
    let x := portOf d p
    let x1 := if x.paused.getLsbD c then x else { x with pauseStart := tset 0 x.pauseStart c d.wall }
    setPort d p { x1 with
      paused := x1.paused ||| (1#8 <<< c), pauseEnd := tset 0 x1.pauseEnd c (d.wall + pauseNs p (times.getD c 0)) }
  else d

theorem pauseClass_unnamed {classes : BitVec 8} {c : Nat} (h : classes.getLsbD c = false) (p : Nat) (times : List Nat)
    (d : Dev) : pauseClass p classes times d c = d := by
  simp [pauseClass, h]

theorem pauseClass_only (p : Nat) (classes : BitVec 8) (times : List Nat) (d : Dev) (c : Nat) :
    pauseClass p classes times d c = { d with ports := (pauseClass p classes times d c).ports } := by
  simp only [pauseClass]
  split <;> rfl

theorem portOf_pauseClass {classes : BitVec 8} {c : Nat} (h : classes.getLsbD c = true) (p : Nat) (times : List Nat)
    (d : Dev) : ∃ start, portOf (pauseClass p classes times d c) p = { portOf d p with
      pauseStart := start, paused := (portOf d p).paused ||| (1#8 <<< c)
      pauseEnd := tset 0 (portOf d p).pauseEnd c (d.wall + pauseNs p (times.getD c 0)) } := by
  simp only [pauseClass, h, if_true, portOf_setPort]
  split <;> exact ⟨_, rfl⟩

/-- From `d` to `t` the classes of `l` that `classes` names were paused at port `p`, each for its time. -/
structure Paused (p : Nat) (classes : BitVec 8) (times : List Nat) (l : List Nat) (d t : Dev) : Prop where
  only : t = { d with ports := t.ports }
  paused : ∀ b, (portOf t p).paused.getLsbD b =
    ((portOf d p).paused.getLsbD b || decide (b ∈ l ∧ b < 8) && classes.getLsbD b)
  times : ∀ b ∈ l, classes.getLsbD b = true → tget 0 (portOf t p).pauseEnd b = d.wall + pauseNs p (times.getD b 0)
  ignore : (portOf t p).ignorePause = (portOf d p).ignorePause

theorem foldl_pauseClass (p : Nat) (classes : BitVec 8) (times : List Nat) (n : Nat) (d : Dev) :
    Paused p classes times (List.range n) d ((List.range n).foldl (pauseClass p classes times) d) := by
  induction n with
  | zero => exact ⟨rfl, by simp, by simp, rfl⟩
  | succ n ih =>
    obtain ⟨honly, hpaused, htimes, hignore⟩ := ih
    rw [List.range_succ, List.foldl_append]
    generalize (List.range n).foldl (pauseClass p classes times) d = t at honly hpaused htimes hignore ⊢
    simp only [List.foldl_cons, List.foldl_nil]
    have honly' := pauseClass_only p classes times t n
    cases hn : classes.getLsbD n
    case false =>
      rw [pauseClass_unnamed hn]
      refine ⟨honly, fun b => ?_, fun b hb hc => ?_, hignore⟩
      · rw [hpaused]
        by_cases hb : b = n
        · simp [hb, hn]
        · simp [hb]
      · refine htimes b ?_ hc
        have hne : b ≠ n := by rintro rfl; simp [hn] at hc
        simpa [hne] using hb
    case true =>
      obtain ⟨start, hport⟩ := portOf_pauseClass hn p times t
      have hwall : t.wall = d.wall := by rw [honly]
      refine ⟨by rw [honly', honly], fun b => ?_, fun b hb hc => ?_, by rw [hport, ← hignore]⟩
      · rw [hport, getLsbD_set, hpaused]
        by_cases hb : b = n
        · subst hb; simp [hn]
        · simp [hb]
      · rw [hport, tget_tset, hwall]
        by_cases hbn : b = n
        · rw [if_pos hbn, hbn]
        · rw [if_neg hbn]
          exact htimes b (by simpa [hbn] using hb) hc

/-- With PFC on for every class, none ignored and no time 0, a PFC frame pauses what it names. -/
theorem pfcObey_pauses {d : Dev} {p : Nat} {classes : BitVec 8} {times : List Nat} (hp : 8 ≤ p ∧ p ≤ 10)
    (hon : ∀ c < 8, pfcOn d p c = true) (hignore : (portOf d p).ignorePause = 0) (htimes : ∀ c < 8, times.getD c 0 ≠ 0) :
    pfcObey d p 0x0101 classes times = (List.range 8).foldl (pauseClass p classes times) d := by
  simp only [pfcObey, hp, and_self, if_true]
  have hclasses (n : Nat) (hn : n ≤ 8) (f : Dev → Nat → Dev)
      (hf : ∀ t c, c < 8 → pfcOn t p c = true → (portOf t p).ignorePause = 0 → f t c = pauseClass p classes times t c) :
      (List.range n).foldl f d = (List.range n).foldl (pauseClass p classes times) d := by
    induction n with
    | zero => rfl
    | succ n ih =>
      obtain ⟨honly, -, -, hkeep⟩ := foldl_pauseClass p classes times n d
      rw [List.range_succ, List.foldl_append, List.foldl_append, ih (by omega)]
      refine hf _ _ (by omega) ?_ (hkeep.trans hignore)
      rw [honly]
      exact hon n (by omega)
  refine hclasses 8 le_rfl _ fun t c hc honc hign => ?_
  rw [honc, Bool.and_true, pauseClass]
  split
  · dsimp only
    rw [if_neg (htimes c hc), hign, if_neg (by simp)]
  · rfl

/-! ## The statement -/

/-- Settles O4. Each class of the frame is paused by `pauseClass`, which leaves the other classes alone. -/
theorem priorityFlowControl : Obligations.PriorityFlowControl := by
  unfold Obligations.PriorityFlowControl
  refine ⟨?pauses, ?counts, ?down, ?expire, ?obey, ?watchdog, ?repeats⟩
  case pauses =>
    intro s p classes times hpower hup hon hignore htimes
    have hp : 8 ≤ p.val ∧ p.val ≤ 10 := by
      have h := hon 0 (by decide)
      simp only [pfcOn, Bool.and_eq_true, decide_eq_true_eq] at h
      exact h.1.1
    have htime (c : Nat) : (times.map (·.toNat)).getD c 0 = (times.getD c 0).toNat := by
      simpa using (List.getD_map (f := BitVec.toNat) (l := times) (d := 0#16) (n := c))
    have hobey := pfcObey_pauses (d := inc s.dev (aPcnt p 13)) (classes := classes) (times := times.map (·.toNat)) hp hon
      hignore fun c hc h => htimes c hc (BitVec.eq_of_toNat_eq ((htime c).symm.trans h))
    obtain ⟨honly, hpaused, hends, -⟩ :=
      foldl_pauseClass p classes (times.map (·.toNat)) 8 (inc s.dev (aPcnt p 13))
    refine ⟨{ s with dev := pfcFrameRx s.dev p 0x0101 classes (times.map (·.toNat)) }, rfl, ?_⟩
    simp only [pfcFrameRx, hpower, hup, Bool.and_self, if_true, hobey]
    generalize (List.range 8).foldl (pauseClass p classes (times.map (·.toNat))) (inc s.dev (aPcnt p 13)) = t
      at honly hpaused hends ⊢
    refine ⟨?_, BitVec.eq_of_getLsbD_eq fun b hb => ?_, fun c hc hnamed => ?_, ?_⟩
    · have hcnts : t.cnts = (inc s.dev (aPcnt p 13)).cnts := by rw [honly]
      rw [cnt, hcnts, ← cnt, cnt_inc, if_pos rfl]
    · rw [hpaused, BitVec.getLsbD_or]
      simp [hb]
    · rw [hends c (List.mem_range.2 hc) hnamed, htime]
      rfl
    · rw [honly]
      rfl
  case counts =>
    intro s p opcode classes times hpower hup hother
    have hobey : pfcObey (inc s.dev (aPcnt p 13)) p opcode.toNat classes (times.map (·.toNat)) = inc s.dev (aPcnt p 13) := by
      rw [pfcObey, if_neg]
      rintro ⟨hop, hlo, -⟩
      exact hother.elim (fun h => h (BitVec.eq_of_toNat_eq hop)) (by omega)
    change onDev (pfcFrameRx · p opcode.toNat classes (times.map (·.toNat))) s = _
    simp [pfcFrameRx, hpower, hup, hobey]
  case down =>
    intro s p opcode classes times hdown
    change onDev (pfcFrameRx · p opcode.toNat classes (times.map (·.toNat))) s = _
    simp [pfcFrameRx, hdown]
  case expire =>
    intro s p c hdue
    refine ⟨{ s with dev := pfcPauseExpire s.dev p c }, rfl, ?_⟩
    simp only [pfcPauseExpire, hdue, if_true]
    exact ⟨rfl, by simp, fun q hq => by simp [hq]⟩
  case obey =>
    intro s p c hdue
    refine ⟨{ s with dev := pfcWatchdogEnd s.dev p c }, rfl, ?_⟩
    simp only [pfcWatchdogEnd, hdue, if_true]
    exact ⟨rfl, by simp, fun q hq => by simp [hq]⟩
  case watchdog =>
    intro s p c hp hpaused hon hdue
    refine ⟨{ s with dev := pfcWatchdog s.dev p c }, rfl, ?_⟩
    have hp' : 8 ≤ p.val ∧ p.val ≤ 10 := by omega
    simp only [pfcWatchdog, hpaused, hon, hp', hdue, ne_eq, not_false_eq_true, and_self, decide_true, Bool.and_self, if_true]
    refine ⟨?_, ?_, ?_, evSw_bit _ _ (by decide)⟩
    · simp only [portOf_evSw, portOf_inc, portOf_setPort, if_true, getLsbD_clear, decide_true, Bool.not_true, Bool.and_false]
    · simp only [portOf_evSw, portOf_inc, portOf_setPort, if_true, getLsbD_set, c.isLt, and_self, decide_true, Bool.or_true]
    · simp
  case repeats =>
    intro s p c hup hon hx hthr hcharged
    change onDev (pfcXoffRepeat · p c) s = _
    have hdue : xoffDue s.dev p c = true := decide_eq_true ⟨hthr, hcharged⟩
    simp [pfcXoffRepeat, hx, hon, hup, hdue]

end Sys2Proof.Proofs.PauseFrames

/-! PROOFS. Gate lists and device time (R33, R68, R70–R73). -/

namespace Sys2Proof.Proofs.GatesAndTime

open Sys2Proof Sys2Proof.Machine Sys2Proof.Laws Sys2Proof.Proofs.FreedCells

/-! ## The first cycle start from an instant on -/

theorem cycleStart_eq (base cycle t : Nat) : ∃ k, cycleStart base cycle t = base + k * cycle := by
  simp only [cycleStart]
  split
  · exact ⟨0, by simp⟩
  · exact ⟨_, rfl⟩

theorem le_cycleStart {cycle : Nat} (base t : Nat) (h : 0 < cycle) : t ≤ cycleStart base cycle t := by
  simp only [cycleStart, ceilDiv]
  split
  · assumption
  · have hdiv := Nat.div_add_mod (t - base + cycle - 1) cycle
    have hmod := Nat.mod_lt (t - base + cycle - 1) h
    rw [Nat.mul_comm _ cycle]
    omega

/-! ## The outcome of a gate list request (R40, R73) -/

theorem fld_status {k : Nat} (hk : k < 8) (n : Nat) : fld (0x80000000 ||| at_ k 28 ||| at_ (n % 65536) 0) 30 28 = k := by
  have hseq : (at_ (n % 65536) 0).toNat >>> 28 = 0 := by
    simp only [at_, w32, Nat.shiftLeft_zero, BitVec.toNat_ofNat, Nat.shiftRight_eq_div_pow]
    omega
  have hstatus : (at_ k 28).toNat >>> 28 = k := by
    simp only [at_, w32, BitVec.toNat_ofNat, Nat.shiftRight_eq_div_pow, Nat.shiftLeft_eq]
    omega
  rw [fld, BitVec.toNat_or, BitVec.toNat_or, Nat.shiftRight_or_distrib, Nat.shiftRight_or_distrib, hseq, hstatus]
  interval_cases k <;> rfl

section
variable (d : Dev)

theorem qbvEnd_valid (p : Nat) (st : Word) : resultValid (qbvEnd d p st) (aPort p 0x2C) = true := rd_resultEnd_valid ..

theorem qbvEnd_status (p : Nat) {k : Nat} (hk : k < 8) : fld (rd (qbvEnd d p (at_ k 28)) (aPort p 0x2C)) 30 28 = k := by
  simp only [qbvEnd, resultEnd, rd_wr, if_true]
  exact fld_status hk _

theorem portOf_qbvEnd (p : Nat) (st : Word) : portOf (qbvEnd d p st) p = { portOf d p with replaced := 0 } :=
  (portOf_setPort ..).trans (if_pos rfl)

/-! ## COMMIT of a gate list (R73, Table 2.26) -/

/-- LENGTH of the administrative list. -/
def gclLength (p : Nat) : Nat := fld (rd d (aPort p 0x18)) 6 0

/-- The administrative list. -/
def gclEntries (p : Nat) : List (Nat × BitVec 8) := (List.range (gclLength d p)).map fun i =>
  ((rd d (aGcl p i)).toNat, BitVec.ofNat 8 (fld (rd d (aGcl p i + 4)) 7 0))

/-- Its length or an interval is bad. -/
def GclBad (p : Nat) : Prop :=
  gclLength d p < 1 ∨ 64 < gclLength d p ∨ ∃ i < gclLength d p, (rd d (aGcl p i)).toNat < 64

theorem gclBad_iff (p : Nat) : (gclLength d p < 1 ∨ 64 < gclLength d p ∨
    (gclEntries d p).any (fun e => decide (e.1 < 64)) = true) ↔ GclBad d p := by
  simp [GclBad, gclEntries]

theorem not_gclBad {p : Nat} (hlo : 1 ≤ gclLength d p) (hhi : gclLength d p ≤ 64)
    (hintervals : ∀ i < gclLength d p, 64 ≤ (rd d (aGcl p i)).toNat) : ¬ GclBad d p := by
  rintro (h | h | ⟨i, hi, h⟩)
  · omega
  · omega
  · exact absurd (hintervals i hi) (by omega)

/-- CYCLE lies outside its range. -/
def CycleBad (p : Nat) : Prop := (rd d (aPort p 0x1C)).toNat < 1000 ∨ 1000000000 < (rd d (aPort p 0x1C)).toNat

/-- A port without its pending request, which the new one replaces. -/
def withdrawn (x : WirePort) : WirePort :=
  { x with pendList := none, replaced := x.replaced + if x.pendList.isSome then 1 else 0 }

/-- The device after a request refused with status `k`. -/
def refusedWith (p k : Nat) : Dev := qbvEnd (setPort (resultBegin d (aPort p 0x2C)) p (withdrawn (portOf d p))) p (at_ k 28)

theorem qbvCommit_badList {p : Nat} (h : GclBad d p) : qbvCommit d p = refusedWith d p 1 :=
  if_pos ((gclBad_iff d p).2 h)

theorem qbvCommit_badCycle {p : Nat} (h : ¬ GclBad d p) (hcycle : CycleBad d p) : qbvCommit d p = refusedWith d p 2 :=
  (if_neg fun hb => h ((gclBad_iff d p).1 hb)).trans (if_pos hcycle)

/-- The administrative list with its cycle and base time. -/
def adminList (p : Nat) : GateList := ⟨gclEntries d p, (rd d (aPort p 0x1C)).toNat, rd64 d (aPort p 0x20)⟩

/-- A good list becomes the pending request. -/
theorem qbvCommit_pending {p : Nat} (h : ¬ GclBad d p) (hcycle : ¬ CycleBad d p) : qbvCommit d p =
    setPort (resultBegin d (aPort p 0x2C)) p { withdrawn (portOf d p) with
      pendList := some (adminList d p)
      changeTime := cycleStart (adminList d p).base (adminList d p).cycle (devTime d + 2000) } :=
  (if_neg fun hb => h ((gclBad_iff d p).1 hb)).trans (if_neg hcycle)

/-- What a refused request leaves: nothing pending, its status, and the operative list as before. -/
theorem refusedWith_result (p : Nat) {k : Nat} (hk : k < 8) : (portOf (refusedWith d p k) p).pendList = none ∧
    resultValid (refusedWith d p k) (aPort p 0x2C) = true ∧ fld (rd (refusedWith d p k) (aPort p 0x2C)) 30 28 = k ∧
    (portOf (refusedWith d p k) p).oper = (portOf d p).oper := by
  have hport : portOf (refusedWith d p k) p = { withdrawn (portOf d p) with replaced := 0 } := by
    rw [refusedWith, portOf_qbvEnd, portOf_setPort, if_pos rfl]
  rw [hport]
  exact ⟨rfl, qbvEnd_valid .., qbvEnd_status _ _ hk, rfl⟩

/-! ## The change time and the gate changes (R71, R73) -/

variable {d}

/-- At its change time the pending list becomes operative, its first interval starting. -/
theorem qbvChangeTime_due {p : Nat} {g : GateList} (hpend : (portOf d p).pendList = some g)
    (hdue : (portOf d p).changeTime ≤ devTime d) : ∃ d', qbvChangeTime d p = qbvEnd d' p 0 ∧
      portOf d' p = { portOf d p with
        oper := some g, pendList := none, gateIdx := 0
        gateNext := (portOf d p).changeTime + ((fitList g.cycle g.entries).getD 0 (g.cycle, 0)).1 } := by
  have hports (l : List Nat) (f g : Nat → Nat) (v w : Nat → Word) (d : Dev) :
      (l.foldl (fun d i => wr (wr d (f i) (v i)) (g i) (w i)) d).ports = d.ports :=
    rel_foldl (R := fun a b => b.ports = a.ports) (fun _ => rfl) (fun h g => g.trans h) (fun d _ => (wr_ports ..).trans (wr_ports d ..)) l d
  simp only [qbvChangeTime, hpend]
  rw [if_neg (by omega)]
  refine ⟨_, rfl, ?_⟩
  rw [portOf, hports, ← portOf, portOf_setPort, if_pos rfl]

theorem gateChange_due {p : Nat} {g : GateList} (hoper : (portOf d p).oper = some g)
    (hdue : (portOf d p).gateNext ≤ devTime d) : ∃ next, gateChange d p = setPort d p { portOf d p with
      gateIdx := if (portOf d p).gateIdx + 1 < (fitList g.cycle g.entries).length then (portOf d p).gateIdx + 1 else 0
      gateNext := next } := by
  simp only [gateChange, hoper]
  rw [if_neg (by omega)]
  exact ⟨_, rfl⟩

/-! ## Sync messages (R68) -/

variable (d)

/-- From `d` to `t` frames were sent beside the queues: no register but SW_EVENT changed, no bit of SW_EVENT fell, what was
sent stays sent, and the ports, the resets and the device time are as before. -/
structure Relays (d t : Dev) : Prop where
  regs : ∀ a, a ≠ 0x200014 → rd t a = rd d a
  events : ∀ i, bit (rd d 0x200014) i = true → bit (rd t 0x200014) i = true
  out : d.out <:+ t.out
  ports : t.ports = d.ports
  rst : t.rst = d.rst
  as_ : t.as_ = d.as_
  timeOff : t.timeOff = d.timeOff

variable {d} in
theorem Relays.trans {a b c : Dev} (h : Relays a b) (g : Relays b c) : Relays a c where
  regs i hi := (g.regs i hi).trans (h.regs i hi)
  events i hi := g.events i (h.events i hi)
  out := h.out.trans g.out
  ports := g.ports.trans h.ports
  rst := g.rst.trans h.rst
  as_ := g.as_.trans h.as_
  timeOff := g.timeOff.trans h.timeOff

theorem Relays.refl : Relays d d := ⟨fun _ _ => rfl, fun _ h => h, List.suffix_rfl, rfl, rfl, rfl, rfl⟩

theorem sendAside_relays (p : Nat) (out : Bool → Out) : Relays d (sendAside d p out) := by
  have hregs (a : Nat) : rd (sendAside d p out) a = rd d a := by rw [rd, sendAside_regs, rd]
  refine ⟨fun a _ => hregs a, fun i h => by rwa [hregs], ?_, by simp, by simp, by simp, by simp⟩
  simp only [sendAside]
  split
  · exact List.suffix_rfl
  · split
    · split
      next d1 h => rw [takePn_eq d h]; exact List.suffix_cons ..
      · exact List.suffix_rfl
    · exact List.suffix_cons ..

theorem evSw_relays (b inst : Nat) : Relays d (evSw d b inst) where
  regs _ ha := (rd_setEv ..).trans (if_neg fun h => ha h.1)
  events i := setEv_keeps d _ _ _ _ _ _ _ i
  out := setEv_out ..
  ports := evSw_ports ..
  rst := evSw_rst ..
  as_ := evSw_as_ ..
  timeOff := evSw_timeOff ..

theorem setMs_relays (k : Nat) (x : MsPort) : Relays d (setMs d k x) :=
  ⟨fun _ _ => rfl, fun _ h => h, List.suffix_rfl, rfl, rfl, rfl, rfl⟩

theorem pnJudge_relays (p : Nat) : Relays d (pnJudge d p) := by
  simp only [pnJudge]
  split
  · exact .refl d
  · split
    · exact (setMs_relays ..).trans (evSw_relays ..)
    · exact .refl d

/-- A Sync message for port `q`, if it is one of the 802.1AS ports but `except`. -/
def syncPort (except : Nat) (d : Dev) (q : Nat) : Dev :=
  if bit (rd d 0x204008) q && decide (q ≠ except) && portPowered d q then
    pnJudge (sendAside d q (.gptp q (devTime d))) q
  else d

theorem foldl_syncPort_relays (except : Nat) (l : List Nat) : Relays d (l.foldl (syncPort except) d) := by
  refine rel_foldl Relays.refl .trans (fun d q => ?_) l d
  unfold syncPort
  split
  · exact (sendAside_relays ..).trans (pnJudge_relays ..)
  · exact .refl d

theorem asSend_relays (except : Nat) : Relays d (asSend d except) := foldl_syncPort_relays ..

variable {d}

/-- A port that carries traffic and is not protected sends the message. -/
theorem syncPort_sends {except q : Nat} (hport : bit (rd d 0x204008) q = true) (hne : q ≠ except)
    (hpower : portPowered d q = true) (hup : wireUp d q = true) (hms : macsecOn d q = false) :
    .gptp q (devTime d) false ∈ (syncPort except d q).out := by
  have hsend : sendAside d q (.gptp q (devTime d)) = emit d (.gptp q (devTime d) false) := by
    simp [sendAside, hup, macsecTx, hms]
  simp only [syncPort, hport, hne, hpower, ne_eq, not_false_eq_true, decide_true, Bool.and_self, if_true, hsend]
  exact (pnJudge_relays _ q).out.subset (List.mem_cons_self ..)

/-- What decides on a port's message is as before where the registers, the ports and the resets are. -/
theorem sync_same {t : Dev} (hregs : ∀ a, a ≠ 0x200014 → a ≠ 0x204010 → rd t a = rd d a) (hports : t.ports = d.ports)
    (hrst : t.rst = d.rst) {q : Nat} (hq : q < 11) : rd t 0x204008 = rd d 0x204008 ∧
    portPowered t q = portPowered d q ∧ wireUp t q = wireUp d q ∧ macsecOn t q = macsecOn d q := by
  have hctrl (o : Nat) (ho : o < 0x40) : rd t (aPort q o) = rd d (aPort q o) :=
    hregs _ (by unfold aPort; omega) (by unfold aPort; omega)
  exact ⟨hregs _ (by decide) (by decide), by simp only [portPowered, fabricUp, domUp, hrst, hregs 0x10000C (by decide) (by decide)],
    by simp only [wireUp, portOf, hctrl 0 (by decide), hports], by simp only [macsecOn, hctrl 0 (by decide)]⟩

theorem asSend_sends {except q : Nat} (hq : q < 11) (hport : bit (rd d 0x204008) q = true) (hne : q ≠ except)
    (hpower : portPowered d q = true) (hup : wireUp d q = true) (hms : macsecOn d q = false) :
    ∃ n, .gptp q n false ∈ (asSend d except).out := by
  obtain ⟨before, after, hl⟩ := List.append_of_mem (List.mem_range.2 hq)
  have hrelays := foldl_syncPort_relays d except before
  obtain ⟨hports', hpower', hup', hms'⟩ :=
    sync_same (fun a h _ => hrelays.regs a h) hrelays.ports hrelays.rst hq
  change ∃ n, _ ∈ ((List.range 11).foldl (syncPort except) d).out
  rw [hl, List.foldl_append, List.foldl_cons]
  exact ⟨_, (foldl_syncPort_relays _ except after).out.subset (syncPort_sends (by rwa [hports']) hne (hpower'.trans hpower)
    (hup'.trans hup) (hms'.trans hms))⟩

/-! ## Synchronisation (R68, R70) -/

theorem asRole_follows {slave : Fin 16} {state : Fin 4} {prio : Byte} (h : AsFollows d slave state prio) :
    asRole d slave state prio.toNat = (state.val, slave.val) := by
  obtain ⟨hon, hslave, hlt, hstate, hup, hprio⟩ := h
  have hown : (bit (rd d 0x204008) 30 && decide (fld (rd d 0x204008) 23 16 < prio.toNat)) = false := by
    cases hgm : bit (rd d 0x204008) 30
    · rfl
    · simpa using hprio hgm
  simp [asRole, hon, hslave, hlt, hstate, hup, hown]

/-- The device once the role and the offset of a synchronisation are noted. -/
def heard (d : Dev) (role : Nat × Nat) (offset : Word) : Dev :=
  let d1 := wr { d with as_ := { d.as_ with state := role.1, slavePort := role.2 } } 0x204010 offset
  if role.1 = d.as_.state then d1 else evSw d1 5 0

theorem heard_same (role : Nat × Nat) (offset : Word) :
    (∀ a, a ≠ 0x200014 → a ≠ 0x204010 → rd (heard d role offset) a = rd d a) ∧ (heard d role offset).ports = d.ports ∧
    (heard d role offset).rst = d.rst ∧ (heard d role offset).timeOff = d.timeOff ∧
    (heard d role offset).as_ = { d.as_ with state := role.1, slavePort := role.2 } := by
  simp only [heard]
  split
  · exact ⟨fun a _ ha => (rd_wr ..).trans (if_neg ha), rfl, rfl, rfl, rfl⟩
  · have h := evSw_relays (wr { d with as_ := { d.as_ with state := role.1, slavePort := role.2 } } 0x204010 offset) 5 0
    exact ⟨fun a hev ha => (h.regs a hev).trans ((rd_wr ..).trans (if_neg ha)), h.ports, h.rst, h.timeOff, h.as_⟩

/-- An offset of at most 1 ms is left to slewing. -/
theorem asSync_slews {slave : Fin 16} {state : Fin 4} {prio : Byte} (h : AsFollows d slave state prio) {offset : Int}
    (hsmall : offset.natAbs ≤ 1000000) : asSync d offset slave state prio.toNat =
      let d1 := heard d (state, slave) (BitVec.ofInt 32 offset)
      asSend { d1 with as_ := { d1.as_ with slew := -offset } } slave := by
  have hmaster : state.val = 1 ∨ state.val = 2 := h.2.2.2.1
  have hrole : ¬ (state.val = 0 ∨ state.val = 3) := by omega
  simp only [asSync, asRole_follows h, hmaster, hrole, hsmall, if_true, if_false]
  rfl

/-- A larger one is removed by a step. -/
theorem asSync_steps {slave : Fin 16} {state : Fin 4} {prio : Byte} (h : AsFollows d slave state prio) {offset : Int}
    (hlarge : 1000000 < offset.natAbs) : asSync d offset slave state prio.toNat =
      let d1 := heard d (state, slave) (BitVec.ofInt 32 offset)
      asSend (gatesRestart (evSw { d1 with
        timeOff := d1.timeOff - offset, as_ := { d1.as_ with slew := 0, slewAcc := 0 } } 4 0)) slave := by
  have hmaster : state.val = 1 ∨ state.val = 2 := h.2.2.2.1
  have hrole : ¬ (state.val = 0 ∨ state.val = 3) := by omega
  simp only [asSync, asRole_follows h, hmaster, hrole, hlarge.not_ge, if_true, if_false]
  rfl

/-- With GM_CAPABLE 0 and no master heard the clock runs free. -/
theorem asSync_free {slave : Fin 16} (state : Fin 4) (prio : Byte) (offset : Int) (hgm : bit (rd d 0x204008) 30 = false)
    (hslave : bit (rd d 0x204008) slave = false) : asSync d offset slave state prio.toNat =
      let d1 := heard d (0, 15) 0
      { d1 with as_ := { d1.as_ with slew := 0, slewAcc := 0 } } := by
  have hrole : asRole d slave state prio.toNat = (0, 15) := by simp [asRole, hgm, hslave]
  simp only [asSync, hrole]
  rfl

/-- Restarting the gate lists changes the ports alone. -/
theorem gatesRestart_only : gatesRestart d = { d with ports := (gatesRestart d).ports } := by
  refine rel_foldl (R := fun a b => b = { a with ports := b.ports }) (fun _ => rfl) (fun h g => by rw [g, h])
    (fun d p => ?_) (List.range 11) d
  split <;> rfl

theorem gatesRestart_same : (gatesRestart d).timeOff = d.timeOff ∧ (gatesRestart d).as_ = d.as_ ∧
    ∀ a, rd (gatesRestart d) a = rd d a := by
  rw [gatesRestart_only]
  generalize (gatesRestart d).ports = ports
  exact ⟨rfl, rfl, fun _ => rfl⟩

end

/-! ## The statement -/

/-- Settles O5. A commit is refused, or becomes pending with the first cycle start at least 2 µs away (`le_cycleStart`);
the Sync message of a port is sent at its turn, and the turns of the other ports leave it standing. -/
theorem gateListsAndDeviceTime : Obligations.GateListsAndDeviceTime := by
  unfold Obligations.GateListsAndDeviceTime
  refine ⟨?pending, ?badList, ?badCycle, ?changeTime, ?gateChange, ?slews, ?steps, ?free, fun _ => rfl⟩
  case pending =>
    intro s p hlo hhi hintervals hcycle hcycle'
    have hgood := not_gclBad s.dev hlo hhi hintervals
    have hcommit := qbvCommit_pending s.dev hgood (by unfold CycleBad; omega)
    refine ⟨{ s with dev := qbvCommit s.dev p }, adminList s.dev p, rfl, ?_⟩
    have hlength : (adminList s.dev p).entries.length = gclLength s.dev p := by simp [adminList, gclEntries]
    have hpos : 0 < (adminList s.dev p).cycle := Nat.lt_of_lt_of_le (by decide) hcycle
    simp only [hcommit, portOf_setPort, if_true]
    exact ⟨trivial, hlength, rfl, rfl, le_cycleStart _ _ hpos, cycleStart_eq .., rd_resultBegin_valid s.dev (aPort p 0x2C), rfl⟩
  case badList =>
    intro s p hbad
    have hbad : GclBad s.dev p := by
      rcases hbad with h | h
      · exact .inl (by unfold gclLength; omega)
      · exact .inr h
    refine ⟨{ s with dev := qbvCommit s.dev p }, rfl, ?_⟩
    simp only [qbvCommit_badList s.dev hbad]
    exact refusedWith_result _ _ (by decide)
  case badCycle =>
    intro s p hlo hhi hintervals hcycle
    have hgood := not_gclBad s.dev hlo hhi hintervals
    refine ⟨{ s with dev := qbvCommit s.dev p }, rfl, ?_⟩
    simp only [qbvCommit_badCycle s.dev hgood hcycle]
    exact refusedWith_result _ _ (by decide)
  case changeTime =>
    intro s p g hpend hdue
    obtain ⟨d', hchange, hport⟩ := qbvChangeTime_due hpend hdue
    refine ⟨{ s with dev := qbvChangeTime s.dev p }, rfl, ?_⟩
    simp only [hchange, portOf_qbvEnd, hport]
    exact ⟨trivial, trivial, trivial, qbvEnd_valid ..⟩
  case gateChange =>
    intro s p g hoper hdue
    obtain ⟨next, hchange⟩ := gateChange_due hoper hdue
    refine ⟨{ s with dev := gateChange s.dev p }, rfl, ?_⟩
    simp only [hchange]
    exact ⟨rfl, by simp, fun q hq => by simp [hq]⟩
  case slews =>
    intro s offset slave state prio hfollows hsmall
    obtain ⟨hregs, hports, hrst, htime, has⟩ := heard_same (d := s.dev) (state.val, slave.val) (BitVec.ofInt 32 offset)
    refine ⟨{ s with dev := asSync s.dev offset slave state prio.toNat }, rfl, ?_⟩
    simp only [asSync_slews hfollows hsmall]
    generalize heard s.dev (state.val, slave.val) (BitVec.ofInt 32 offset) = d1 at hregs hports hrst htime has ⊢
    generalize hd2 : ({ d1 with as_ := { d1.as_ with slew := -offset } } : Dev) = d2
    have hsent := asSend_relays d2 slave
    have hregs2 (a : Nat) : rd d2 a = rd d1 a := by simp only [rd, ← hd2]
    have hports2 : d2.ports = s.dev.ports := by rw [← hd2, hports]
    have hrst2 : d2.rst = s.dev.rst := by rw [← hd2, hrst]
    have htime2 : d2.timeOff = s.dev.timeOff := by rw [← hd2, htime]
    have has2 : d2.as_ = { s.dev.as_ with state := state.val, slavePort := slave.val, slew := -offset } := by rw [← hd2, has]
    refine ⟨hsent.timeOff.trans htime2, ?_, ?_, ?_, hsent.ports.trans hports2, fun q hq hne hpower hup hms => ?_⟩
    iterate 3 rw [hsent.as_, has2]
    obtain ⟨hctrl, hpower', hup', hms'⟩ :=
      sync_same (t := d2) (fun a h h' => (hregs2 a).trans (hregs a h h')) hports2 hrst2 q.isLt
    exact asSend_sends q.isLt (by rwa [hctrl]) hne (hpower'.trans hpower) (hup'.trans hup) (hms'.trans hms)
  case steps =>
    intro s offset slave state prio hfollows hlarge
    obtain ⟨-, -, -, htime, -⟩ := heard_same (d := s.dev) (state.val, slave.val) (BitVec.ofInt 32 offset)
    refine ⟨{ s with dev := asSync s.dev offset slave state prio.toNat }, rfl, ?_⟩
    simp only [asSync_steps hfollows hlarge]
    generalize heard s.dev (state.val, slave.val) (BitVec.ofInt 32 offset) = d1 at htime ⊢
    generalize hd2 : ({ d1 with timeOff := d1.timeOff - offset, as_ := { d1.as_ with slew := 0, slewAcc := 0 } } : Dev) = d2
    have hsent := asSend_relays (gatesRestart (evSw d2 4 0)) slave
    obtain ⟨hoff, has, hregs⟩ := gatesRestart_same (d := evSw d2 4 0)
    refine ⟨?_, ?_, hsent.events 4 ?_⟩
    · rw [hsent.timeOff, hoff, evSw_timeOff, ← hd2, htime]
    · rw [hsent.as_, has, evSw_as_, ← hd2]
    · rw [hregs]
      exact evSw_bit _ _ (by decide)
  case free =>
    intro s offset slave state prio hgm hslave
    obtain ⟨-, hports, -, htime, has⟩ := heard_same (d := s.dev) (0, 15) 0
    refine ⟨{ s with dev := asSync s.dev offset slave state prio.toNat }, rfl, ?_⟩
    simp only [asSync_free state prio offset hgm hslave]
    exact ⟨by rw [has], trivial, htime, hports⟩

end Sys2Proof.Proofs.GatesAndTime

/-! PROOFS. March, patrol and the retirement map (R43–R47). -/

namespace Sys2Proof.Proofs.BasinTests

open Sys2Proof Sys2Proof.Machine Sys2Proof.Laws Sys2Proof.Proofs.FreedCells

/-- Retiring many cells lists them all beside those retired before, and keeps the frames and whether the march runs. -/
theorem foldl_retireCell (l : List Nat) (d : Dev) :
    (l.foldl retireCell d).basin.marching = d.basin.marching ∧ (l.foldl retireCell d).basin.frames = d.basin.frames ∧
    ∀ c, c ∈ (l.foldl retireCell d).basin.retiredCells ↔ c ∈ d.basin.retiredCells ∨ c ∈ l := by
  induction l generalizing d with
  | nil => simp
  | cons k l ih =>
    obtain ⟨hmarching, hframes, hretired⟩ := ih (retireCell d k)
    obtain ⟨-, -, hframes', hmarching'⟩ := retireCell_keeps d k
    rw [List.foldl_cons]
    refine ⟨hmarching.trans hmarching', hframes.trans hframes', fun c => ?_⟩
    rw [hretired, mem_retireCell, List.mem_cons, or_assoc]

theorem cellFree_holder {d : Dev} {c : Nat} (h : cellFree d [] c = true) : cellHolder d c = none := by
  simp only [cellFree, Bool.and_eq_true] at h
  simpa using h.2

/-- Settles O6. What the march and the patrol do to a cell is `retireCell`, a fold of it for the march. -/
theorem basinTestsAndRetirement : Obligations.BasinTestsAndRetirement := by
  unfold Obligations.BasinTestsAndRetirement
  refine ⟨?march, fun _ => rfl, ?corrected, ?uncorrectable, ?save⟩
  case march =>
    intro s failed hmarching
    refine ⟨{ s with dev := basinMarchEnd s.dev failed }, rfl, ?_⟩
    simp only [basinMarchEnd, hmarching, if_true]
    exact foldl_retireCell failed _
  case corrected =>
    intro s c hfree hfew
    refine ⟨{ s with dev := basinPatrol s.dev (.corrected c) }, rfl, ?_⟩
    have hbelow : ¬ atLeast1 (fld (rd s.dev 0x200010) 3 0) ≤ tget 0 s.dev.basin.ceCount c + 1 := by
      unfold atLeast1
      split <;> omega
    simp only [basinPatrol, hfree, cellRead, hbelow, if_true, if_false]
    exact ⟨by simp [setBasin], (cnt_inc ..).trans (if_pos rfl), rfl⟩
  case uncorrectable =>
    intro s c hfree
    have hholder : cellHolder (evSw s.dev 9 0) c = none := by
      rw [cellHolder, evSw_basin]
      exact cellFree_holder hfree
    refine ⟨{ s with dev := basinPatrol s.dev (.uncorrectable c) }, rfl, ?_⟩
    simp only [basinPatrol, hfree, cellRead, retireWhenFree, hholder, if_true]
    exact ⟨(mem_retireCell ..).2 (.inr rfl), (retireCell_frees ..).bits _ _ (evSw_bit _ _ (by decide))⟩
  case save =>
    intro s hgood
    change onDev retireMapSave s = _
    simp only [onDev_eq, retireMapSave, flashKeep, hgood, Bool.false_eq_true, if_false]
    rfl

end Sys2Proof.Proofs.BasinTests

/-! PROOFS. Reception checks of a wire port (R50, R81). -/

namespace Sys2Proof.Proofs.Reception

open Sys2Proof Sys2Proof.Machine Sys2Proof.Laws

section
variable {d : Dev} {p : Fin 11} {b : List Byte}

/-- An Ethernet frame that is neither a pairs frame nor an LLDP frame and that the VLAN rules let in enters the Basin. -/
theorem wireAccept_received (ts : Nat) (hpairs : etherType b ≠ 0x88B6) (hlldp : etherType b ≠ 0x88CC)
    (hvlan : vlanDrops d p (rxVlan d p b).1 = false) : wireAccept d p b ts = Received d p b ts := by
  simp [wireAccept, hpairs, hlldp, hvlan, Received, rxCounted, wireFrame]

/-- Checks 1 to 3 of Table 2.3 passed: what MACsec answers decides. -/
theorem frameReceived_checked (ts : Nat) (m : MsCheck) (hpower : portPowered d p = true) (hup : wireUp d p = true)
    (hmac : eth16 b 12 ≠ 0x8808) (hrunt : 64 ≤ b.length + 4) (hover : b.length + 4 ≤ maxLen d p) :
    frameReceived d p b ts true m =
      let x : Bool × Dev := if macsecOn d p then msReceive d (p - 8) (etherType b) m else (true, d)
      if x.1 then wireAccept x.2 p b ts else inc x.2 (aPcnt p 15) := by
  simp [frameReceived, hpower, hup, hmac, hrunt.not_gt, hover.not_gt]

end

/-! ## The receive association (R81) -/

theorem vlanDrops_setMs (d : Dev) (k : Nat) (x : MsPort) (p : Nat) (b : List Byte) :
    vlanDrops (setMs d k x) p (rxVlan (setMs d k x) p b).1 = vlanDrops d p (rxVlan d p b).1 := rfl

/-- The association of a frame that is heard keeps the highest PN. -/
def hear (an pn : Nat) (a : MsRxSa) : MsRxSa := if a.an == an then { a with last := max a.last pn } else a

/-- The channel of its SCI with it. -/
def hearIn (sci an pn : Nat) (c : MsRxSc) : MsRxSc := if c.sci == sci then { c with sas := c.sas.map (hear an pn) } else c

theorem hear_an (an pn : Nat) (a : MsRxSa) : (hear an pn a).an = a.an := by
  unfold hear; split <;> rfl

theorem hearIn_sci (sci an pn : Nat) (c : MsRxSc) : (hearIn sci an pn c).sci = c.sci := by
  unfold hearIn; split <;> rfl

theorem find_hear {l : List MsRxSa} {an : Nat} {a : MsRxSa} (pn : Nat) (h : l.find? (·.an == an) = some a) :
    (l.map (hear an pn)).find? (·.an == an) = some { a with last := max a.last pn } := by
  have hself : a.an = an := by simpa using List.find?_some h
  have hpred : ((·.an == an) ∘ hear an pn : MsRxSa → Bool) = (·.an == an) := by
    funext x; simp [hear_an]
  rw [List.find?_map, hpred, h]
  simp [hear, hself]

theorem find_hearIn {l : List MsRxSc} {sci : Nat} {c : MsRxSc} (an pn : Nat) (h : l.find? (·.sci == sci) = some c) :
    (l.map (hearIn sci an pn)).find? (·.sci == sci) = some { c with sas := c.sas.map (hear an pn) } := by
  have hself : c.sci = sci := by simpa using List.find?_some h
  have hpred : ((·.sci == sci) ∘ hearIn sci an pn : MsRxSc → Bool) = (·.sci == sci) := by
    funext x; simp [hearIn_sci]
  rw [List.find?_map, hpred, h]
  simp [hearIn, hself]

section
variable {d : Dev} {k sci an pn : Nat} {c : MsRxSc} {a : MsRxSa} (etype : Nat)

theorem msReceive_late (hc : (msOf d k).rx.find? (·.sci == sci) = some c) (ha : c.sas.find? (·.an == an) = some a)
    (hlate : msTooLate d k a.last pn = true) : msReceive d k etype (.valid sci an pn) = (false, d) := by
  simp [msReceive, hc, ha, hlate]

theorem msReceive_heard (hc : (msOf d k).rx.find? (·.sci == sci) = some c) (ha : c.sas.find? (·.an == an) = some a)
    (hintime : msTooLate d k a.last pn = false) : msReceive d k etype (.valid sci an pn) =
      (true, setMs d k { msOf d k with rx := (msOf d k).rx.map (hearIn sci an pn) }) := by
  simp only [msReceive, hc, ha, hintime]
  rfl

end

/-! ## The statement -/

/-- Settles O9. Each check that fails ends the frame's way with its counter; one that passes all meets `wireAccept`. -/
theorem wireReceptionChecks : Obligations.WireReceptionChecks := by
  unfold Obligations.WireReceptionChecks
  refine ⟨?fcs, ?runt, ?oversize, ?checked⟩
  case fcs =>
    intro s p b ts m hpower hup
    change onDev (frameReceived · p b ts false m) s = _
    simp [frameReceived, hpower, hup]
  case runt =>
    intro s p b ts m hpower hup hmac hrunt
    change onDev (frameReceived · p b ts true m) s = _
    simp [frameReceived, hpower, hup, hmac, hrunt]
  case oversize =>
    intro s p b ts m hpower hup hmac hlong hover
    change onDev (frameReceived · p b ts true m) s = _
    simp [frameReceived, hpower, hup, hmac, hlong.not_gt, hover]
  case checked =>
    intro s p b ts m hpower hup hmac hlong hfits hpairs hlldp hvlan
    have hexec : exec (.frameReceived p b ts true m) s = .next { s with dev := frameReceived s.dev p b ts true m } := rfl
    have hchecked := frameReceived_checked ts m hpower hup hmac hlong hfits
    rw [hexec, hchecked]
    refine ⟨fun hpass => ?passes, fun hon => ⟨fun hm htype hstrict => ?plain, fun enc hm hdrop => ?failed,
      fun sci an pn c a hm hc ha => ⟨fun hlate => ?late, fun hintime => ?heard⟩⟩⟩
    case passes =>
      have hms : (if macsecOn s.dev p then msReceive s.dev (p - 8) (etherType b) m else (true, s.dev)) = (true, s.dev) := by
        rcases hpass with hoff | ⟨rfl, hmode⟩
        · simp [hoff]
        · have hok : (etherType b == 0x888E || decide (msValidate s.dev (p - 8) < 2)) = true := by simpa using hmode
          simp only [msReceive, hok, ite_self]
      simp [hms, wireAccept_received ts hpairs hlldp hvlan]
    case plain => simp [hon, hm, msReceive, htype, hstrict]
    case failed =>
      have hbad : (!enc && decide (msValidate s.dev (p - 8) < 2)) = false := by
        rcases hdrop with rfl | hstrict
        · rfl
        · simp [hstrict]
      simp only [hon, hm, msReceive, hbad, if_true, Bool.false_eq_true, if_false]
    case late => simp [hon, hm, msReceive_late _ hc ha hlate]
    case heard =>
      have hheard := msReceive_heard (etherType b) hc ha hintime
      have hrx := find_hearIn an pn hc
      refine ⟨setMs s.dev (p - 8) { msOf s.dev (p - 8) with rx := (msOf s.dev (p - 8)).rx.map (hearIn sci an pn) }, ?_, rfl,
        _, _, by simpa using hrx, find_hear pn ha, rfl⟩
      simp only [hon, hm, hheard, if_true]
      rw [wireAccept_received ts hpairs hlldp ((vlanDrops_setMs ..).trans hvlan)]

end Sys2Proof.Proofs.Reception

/-! PROOFS. Admission (R46, R53): the tests of Table 2.4, what a refusal counts, and what an admitted frame is charged. -/

namespace Sys2Proof.Proofs.Admission

open Sys2Proof Sys2Proof.Machine Sys2Proof.Laws Sys2Proof.Proofs.FreedCells

section
variable {d : Dev} {f : Frame}

/-! ## Refusal -/

theorem admissionFails_iff {n : Nat} : (admissionFails d f.inPort f.cls n).1 = true ↔
    limIL d f.inPort f.cls < iocc d f.inPort f.cls + n ∨ limGR d f.cls < gocc d f.cls + n ∨
      (d.basin.overcommit = true ∧ d.basin.poolCells - 1036 < inUse d + n) := by
  simp [admissionFails, or_assoc]

/-- Count one at `a` if `b` holds. -/
def incIf (b : Bool) (d : Dev) (a : Nat) : Dev := if b then inc d a else d

theorem incIf_basin (b : Bool) (d : Dev) (a : Nat) : (incIf b d a).basin = d.basin := by
  unfold incIf; split <;> rfl

theorem cnt_incIf_self (b : Bool) (d : Dev) (a : Nat) : cnt (incIf b d a) a = cnt d a + if b then 1 else 0 := by
  unfold incIf; split <;> simp

theorem cnt_incIf_other (b : Bool) (d : Dev) {a i : Nat} (h : i ≠ a) : cnt (incIf b d a) i = cnt d i := by
  unfold incIf; split <;> simp [h]

/-- A refused frame only counts: at its port and class, and for the reserve and the pool where their tests failed. -/
theorem admitFrame_refused (hmarch : d.basin.marching = false) (h : (admissionFails d f.inPort f.cls (cellsOf f)).1 = true) :
    admitFrame d f = (none, incIf (admissionFails d f.inPort f.cls (cellsOf f)).2.2
      (incIf (admissionFails d f.inPort f.cls (cellsOf f)).2.1 (inc d (aDrop f.inPort f.cls)) (aGdrop f.cls)) aPdrop) := by
  simp only [admitFrame, hmarch, h, Bool.false_eq_true, if_true, if_false]
  rfl

/-! ## Admission -/

@[simp] theorem violation_basin (d : Dev) (kind mem cls off region source : Nat) :
    (violation d kind mem cls off region source).basin = d.basin := by
  simp [violation]

@[simp] theorem evClt_basin (d : Dev) (b : Nat) : (evClt d b).basin = d.basin := by
  simp only [evClt]
  split
  · rfl
  · split <;> simp

@[simp] theorem accessRefused_basin (d : Dev) (cls source m off : Nat) (write : Bool) :
    (accessRefused d cls source m off write).basin = d.basin := by
  have hclt (d : Dev) : (if cls ≤ 1 then evClt d 5 else d).basin = d.basin := by split <;> simp
  cases hr : regionAt d m off with
  | none => simp [accessRefused, hr, hclt]
  | some r =>
    simp only [accessRefused, hr]
    split <;> simp [lockNotice, hclt]

/-- An admitted frame joins the frames, with the next number and its cells. -/
theorem admitFrame_admits (hmarch : d.basin.marching = false)
    (h : (admissionFails d f.inPort f.cls (cellsOf f)).1 = false) : (admitFrame d f).1 = some d.basin.nextUid ∧
    ∃ cells torn, (admitFrame d f).2.basin.frames =
      d.basin.frames ++ [{ f with uid := d.basin.nextUid, cells := cells, torn := torn }] := by
  simp only [admitFrame, hmarch, h, Bool.false_eq_true, if_false]
  exact ⟨trivial, _, _, congrArg Basin.frames (pfcJudge_basin ..)⟩

theorem sumCells_append (l : List Frame) (f : Frame) : sumCells (l ++ [f]) = sumCells l + cellsOf f := by
  simp [sumCells]

end

/-! ## The statement -/

/-- Settles O10. A refusal counts at addresses of three different tables; an admitted frame is the last of the frames. -/
theorem admissionTests : Obligations.AdmissionTests := by
  unfold Obligations.AdmissionTests
  refine fun d f hmarch => ⟨fun hfail => ?refused, fun hil hgr hpool => ?admitted⟩
  case refused =>
    rw [admitFrame_refused hmarch (admissionFails_iff.2 hfail)]
    refine ⟨rfl, ?_, fun hp hc => ?_⟩
    · simp only [incIf_basin, inc_basin]
    · have hdrop : aDrop f.inPort f.cls ≠ aGdrop f.cls ∧ aDrop f.inPort f.cls ≠ aPdrop ∧ aGdrop f.cls ≠ aPdrop := by
        unfold aDrop aGdrop aPdrop
        omega
      obtain ⟨hdg, hdp, hgp⟩ := hdrop
      refine ⟨?_, ?_, ?_⟩
      · rw [cnt_incIf_other _ _ hdp, cnt_incIf_other _ _ hdg, cnt_inc, if_pos rfl]
      · rw [cnt_incIf_other _ _ hgp, cnt_incIf_self, cnt_inc, if_neg hdg.symm]
        simp [admissionFails]
      · rw [cnt_incIf_self, cnt_incIf_other _ _ hgp.symm, cnt_inc, if_neg hdp.symm]
        simp [admissionFails]
  case admitted =>
    have hpass : (admissionFails d f.inPort f.cls (cellsOf f)).1 = false := by
      rw [Bool.eq_false_iff, ne_eq, admissionFails_iff]
      rintro (h | h | ⟨hover, h⟩)
      · omega
      · omega
      · exact absurd (hpool hover) (by omega)
    obtain ⟨huid, cells, torn, hframes⟩ := admitFrame_admits hmarch hpass
    refine ⟨huid, ?_, ?_⟩
    · rw [iocc, hframes, List.filter_append, List.filter_singleton]
      simp [sumCells_append, iocc, cellsOf, storedLen]
    · rw [gocc, hframes, List.filter_append, List.filter_singleton]
      simp [sumCells_append, gocc, cellsOf, storedLen]

end Sys2Proof.Proofs.Admission

/-! PROOFS. The Logbook (R83–R89): enabling, records, the full ring, and the consumer index. -/

namespace Sys2Proof.Proofs.LogbookRecords

open Sys2Proof Sys2Proof.Machine Sys2Proof.Laws Sys2Proof.Proofs.FreedCells

section
variable {d : Dev}

/-! ## ENABLE (R84, R89) -/

theorem masked_bit (v : Word) {i : Nat} (h : (0x800F3701 : Word).getLsbD i = true) : bit (v &&& 0x800F3701) i = bit v i := by
  simp only [bit, BitVec.getLsbD_and, h, Bool.and_true]

/-- ENABLE = 1 for slip 0 is accepted with PORT_EN 0 and starts a session. -/
theorem logbookEnable_manager {v : Word} (hoff : bit (rd d 0x206000) 31 = false) (hon : bit v 31 = true)
    (hslip : lbSlip d = 0) (hport : bit v 0 = false) : logbookEnable d v =
      { wr d 0x206000 (v &&& 0x800F3701) with lb := { d.lb with
          index := 0, phase := true, cons := 0, written := 0, consumed := 0
          slip := 0, base := rd64 d 0x206008 / 4096 * 4096, ctrl := v &&& 0x800F3701 } } := by
  have hon' : bit (v &&& 0x800F3701) 31 = true := (masked_bit v (by decide)).trans hon
  have hport' : bit (v &&& 0x800F3701) 0 = false := (masked_bit v (by decide)).trans hport
  unfold logbookEnable
  generalize v &&& 0x800F3701 = w at *
  simp [hoff, hon', hslip, hport']

/-- For a slip that is not ACTIVE it is refused. -/
theorem logbookEnable_refused {v : Word} (hoff : bit (rd d 0x206000) 31 = false) (hon : bit v 31 = true)
    (hslip : lbSlip d ≠ 0) (hstate : (slipOf d (lbSlip d)).state ≠ .active) :
    logbookEnable d v = evSw (wr d 0x206000 (v &&& 0x800F3701 &&& 0x7FFFFFFF)) 10 0 := by
  have hon' : bit (v &&& 0x800F3701) 31 = true := (masked_bit v (by decide)).trans hon
  unfold logbookEnable
  generalize v &&& 0x800F3701 = w at *
  simp [hoff, hon', hslip, hstate]

/-! ## The oldest copy (R86, R87) -/

/-- Clean cells that the regions allow are read without a trace. -/
theorem frameRead_clean (d : Dev) {f : Frame} (h : readRefused d f = false) : frameRead d f .clean = d := by
  simp [frameRead, h, readOf, cellRead]

theorem readRefused_of_good {f : Frame} {c : CellRead} (h : readGood d f c = true) : readRefused d f = false := by
  simp only [readGood, Bool.and_eq_true, Bool.not_eq_true'] at h
  exact h.1

/-- The device with its oldest copy taken. -/
def copyTaken (d : Dev) (rest : List LbCopy) : Dev := setBasin d { d.basin with copies := rest }

/-- The device after a record is written: the producer index and the sequence go on. -/
def recorded (d d1 : Dev) (r : List Byte) : Dev :=
  let d2 := lbWrite d1 (d.lb.base + d.lb.index * (32 + lbSnap d)) r
  { d2 with lb := { d2.lb with
      index := (d.lb.index + 1) % lbSize d
      phase := if (d.lb.index + 1) % lbSize d = 0 then !d2.lb.phase else d2.lb.phase
      seq := (d2.lb.seq + 1) % 65536, written := d2.lb.written + 1 } }

/-- A copy whose cells read well is written while the ring has space, else it is lost; then its frame may be freed. -/
theorem logbookRecordWrite_clean {c : LbCopy} {rest : List LbCopy} {f : Frame} (hcopies : d.basin.copies = c :: rest)
    (hf : frameOf d c.uid = some f) (hgood : readGood d f .clean = true) : logbookRecordWrite d .clean =
      freeIfDone (if lbSize d ≤ d.lb.written - d.lb.consumed then evSw (inc (copyTaken d rest) aLbLost) 6 0
        else recorded d (copyTaken d rest) (lbRecord d f c)) c.uid := by
  have hread : frameRead (copyTaken d rest) f .clean = copyTaken d rest :=
    frameRead_clean _ (readRefused_of_good (d := d) hgood)
  simp only [copyTaken] at hread
  simp only [logbookRecordWrite, hcopies, hf, hread, hgood, Bool.not_true, Bool.or_false, decide_eq_true_eq]
  rfl

/-- PFC_TX of no port is the count of lost records. -/
theorem aLbLost_not_pfc (q : Nat) : aLbLost ≠ aPcnt q 12 := by
  unfold aLbLost aPcnt
  omega

/-! ## The consumer index (R86) -/

/-- An index within the records written is accepted; all the records up to it are consumed. -/
theorem lbCons_accepted {n v : Nat} (hslip : lbSlip d = n) (hv : v < 65536) (hsize : v < lbSize d)
    (hapart : (v + lbSize d - d.lb.cons % lbSize d) % lbSize d ≤ d.lb.written - d.lb.consumed) :
    ∃ span, lbCons d n v = { d with lb := { d.lb with cons := v, consumed := d.lb.consumed + span } } ∧
      ((v + lbSize d - d.lb.cons % lbSize d) % lbSize d ≠ 0 →
        span = (v + lbSize d - d.lb.cons % lbSize d) % lbSize d) := by
  unfold lbCons
  rw [Nat.mod_eq_of_lt hv]
  by_cases hfull : (v + lbSize d - d.lb.cons % lbSize d) % lbSize d = 0 ∧ lbSize d ≤ d.lb.written - d.lb.consumed
  · exact ⟨d.lb.written - d.lb.consumed, by simp only [if_pos hfull, hslip, hsize, le_refl, true_and, if_true], fun h => absurd hfull.1 h⟩
  · exact ⟨_, by simp only [if_neg hfull, hslip, hsize, hapart, true_and, if_true], fun _ => rfl⟩

/-- Two different places of a ring are apart. -/
theorem ring_apart {v k size : Nat} (hv : v < size) (hk : k < size) (h : v ≠ k) : (v + size - k % size) % size ≠ 0 := by
  rw [Nat.mod_eq_of_lt hk]
  rcases Nat.lt_or_gt_of_ne h with hlt | hgt
  · rw [Nat.mod_eq_of_lt (by omega)]
    omega
  · rw [show v + size - k = v - k + size by omega, Nat.add_mod_right, Nat.mod_eq_of_lt (by omega)]
    omega

end

/-! ## The statement -/

/-- Settles O7. Freeing the frame of a record leaves the Logbook, what was sent, and the count of lost records as they are. -/
theorem logbookRecords : Obligations.LogbookRecords := by
  unfold Obligations.LogbookRecords
  refine ⟨?enable, ?refused, ?written, ?full, ?cons, ?interrupt⟩
  case enable =>
    intro s v hoff hon hslip hport
    refine ⟨{ s with dev := logbookEnable s.dev v }, rfl, ?_⟩
    simp only [logbookEnable_manager hoff hon hslip hport]
    exact ⟨(rd_wr ..).trans (if_pos rfl), trivial, trivial, trivial, trivial, trivial⟩
  case refused =>
    intro s v hoff hon hslip hstate
    refine ⟨{ s with dev := logbookEnable s.dev v }, rfl, ?_⟩
    simp only [logbookEnable_refused hoff hon hslip hstate]
    refine ⟨?_, evSw_bit _ _ (by decide)⟩
    rw [(evSw_frees ..).regs _ (by decide), rd_wr, if_pos rfl]
    simp [bit]
  case written =>
    intro s c rest f hcopies hf hgood hroom
    refine ⟨{ s with dev := logbookRecordWrite s.dev .clean }, rfl, ?_⟩
    simp only [logbookRecordWrite_clean hcopies hf hgood, if_neg (Nat.not_le.2 hroom)]
    have hfrees := freeIfDone_frees (recorded s.dev (copyTaken s.dev rest) (lbRecord s.dev f c)) c.uid
    obtain ⟨l, hl⟩ := hfrees.out
    refine ⟨freeIfDone_copies .., ⟨l, hl.symm⟩, ?_, ?_, ?_, ?_⟩
    all_goals rw [hfrees.lb]; rfl
  case full =>
    intro s c rest f hcopies hf hgood hfull
    refine ⟨{ s with dev := logbookRecordWrite s.dev .clean }, rfl, ?_⟩
    simp only [logbookRecordWrite_clean hcopies hf hgood, if_pos hfull]
    have hfrees := freeIfDone_frees (evSw (inc (copyTaken s.dev rest) aLbLost) 6 0) c.uid
    refine ⟨?_, ?_, ?_, hfrees.bits _ _ (evSw_bit _ _ (by decide))⟩
    · rw [freeIfDone_copies, evSw_basin]
      rfl
    · rw [hfrees.lb, evSw_lb]
      rfl
    · rw [← aLbLost, cnt_freeIfDone _ _ fun q _ _ => aLbLost_not_pfc q, cnt_evSw, cnt_inc, if_pos rfl]
      rfl
  case cons =>
    intro s n v hfree hslip hsize hapart
    obtain ⟨span, hcons, hspan⟩ := lbCons_accepted hslip v.isLt hsize hapart
    refine ⟨{ s with dev := lbCons s.dev n v.toNat }, ?_, ?_⟩
    · change onDev (fun d => bellRow d n 0x40 (v.setWidth 32) (lbCons · n v.toNat)) s = _
      rw [onDev_eq, bellRow_ready _ _ _ hfree]
    · simp only [hcons]
      exact ⟨trivial, trivial, trivial, fun hne hlt => by rw [hspan (ring_apart hsize hlt hne)]⟩
  case interrupt =>
    intro s hleft
    change onDev logbookInterrupt s = _
    simp [logbookInterrupt, hleft]

end Sys2Proof.Proofs.LogbookRecords

/-! PROOFS. The Chart's commands (R111–R114, R422): what a command that ends OK has written, and the one that is ignored or
refused. -/

namespace Sys2Proof.Proofs.ChartCommands

open Sys2Proof Sys2Proof.Machine Sys2Proof.Laws

/-! ## Entries and their copies (R112) -/

@[simp] theorem inCopy_putCopy (e : ChtEntry) (c : ChtCopy) : inCopy (putCopy e c) = c := by
  cases h : e.gen <;> simp [inCopy, putCopy, h]

@[simp] theorem putCopy_gen (e : ChtEntry) (c : ChtCopy) : (putCopy e c).gen = !e.gen := by
  cases h : e.gen <;> simp [putCopy, h]

section
variable {d t : Dev} {i : Nat} {c : ChtCopy}

/-- Where the entries differ from `d`'s by a copy put into exact entry `i` only. -/
theorem exact_written (h : t.cht = (setExact d i (putCopy (exactAt d i) c)).cht) : inCopy (exactAt t i) = c ∧
    (exactAt t i).gen = !(exactAt d i).gen ∧ (∀ j, j ≠ i → exactAt t j = exactAt d j) ∧
    t.cht.tern = d.cht.tern ∧ t.cht.miss = d.cht.miss := by
  have hat (j : Nat) : exactAt t j = if j = i then putCopy (exactAt d i) c else exactAt d j := by
    rw [exactAt, h]
    exact tget_tset ..
  refine ⟨?_, ?_, fun j hj => (hat j).trans (if_neg hj), by rw [h]; rfl, by rw [h]; rfl⟩ <;> simp [hat]

/-- The same for ternary entry `i`. -/
theorem tern_written (h : t.cht = (setTern d i (putCopy (ternAt d i) c)).cht) : inCopy (ternAt t i) = c ∧
    (∀ j, j ≠ i → ternAt t j = ternAt d j) ∧ t.cht.exact = d.cht.exact := by
  have hat (j : Nat) : ternAt t j = if j = i then putCopy (ternAt d i) c else ternAt d j := by
    rw [ternAt, h]
    exact tget_tset ..
  exact ⟨by simp [hat], fun j hj => (hat j).trans (if_neg hj), by rw [h]; rfl⟩

/-- The same for miss entry `i`. -/
theorem miss_written (h : t.cht = (setMiss d i (putCopy (missAt d i) c)).cht) : inCopy (missAt t i) = c ∧
    (∀ j, j ≠ i → missAt t j = missAt d j) ∧ t.cht.exact = d.cht.exact := by
  have hat (j : Nat) : missAt t j = if j = i then putCopy (missAt d i) c else missAt d j := by
    rw [missAt, h]
    exact tget_tset ..
  exact ⟨by simp [hat], fun j hj => (hat j).trans (if_neg hj), by rw [h]; rfl⟩

end

/-! ## The end of a command (R40, R420) -/

section
variable (d : Dev)

/-- The end of a command that is OK changes no entry. -/
theorem chtDone_cht (miss tern : Bool) (i op : Nat) : (chtDone (chtIdx d miss tern i) op).cht = d.cht :=
  mirrorNote_cht ..

theorem rd_chtDone (miss tern : Bool) (i op : Nat) :
    rd (chtDone (chtIdx d miss tern i) op) 0x400014 = okWord (rd d 0x400014) := by
  have hidx : rd (chtIdx d miss tern i) 0x400014 = rd d 0x400014 := (rd_wr ..).trans (if_neg (by decide))
  rw [chtDone, rd_mirrorNote, chtEnd, resultEnd, rd_wr, if_pos rfl, hidx]
  simp [okWord, at_, w32]

theorem rd_evCht (b inst : Nat) {a : Nat} (h : a ≠ 0x400004) : rd (evCht d b inst) a = rd d a :=
  (rd_setEv ..).trans (if_neg fun hev => h hev.1)

theorem exactHigh_cht (n : Nat) : (exactHigh d n).cht = d.cht := by
  unfold exactHigh
  split <;> simp

theorem rd_exactHigh (n : Nat) : rd (exactHigh d n) 0x400014 = rd d 0x400014 := by
  unfold exactHigh
  split
  · exact rd_evCht _ _ _ (by decide)
  · rfl

/-- STATUS of a result word whose field ends at bit 30 (R40). -/
theorem fld_resultStatus {k lo : Nat} (hlo : 16 ≤ lo) (hhi : lo ≤ 30) (hk : k < 2 ^ (31 - lo)) (n : Nat) :
    fld (0x80000000 ||| at_ k lo ||| at_ (n % 65536) 0) 30 lo = k := by
  have hsplit : (2 : Nat) ^ 31 = 2 ^ (31 - lo) * 2 ^ lo := by rw [← Nat.pow_add, Nat.sub_add_cancel (by omega)]
  have hvalid : (0x80000000 : Word).toNat >>> lo = 2 ^ (31 - lo) := by
    rw [Nat.shiftRight_eq_div_pow, show (0x80000000 : Word).toNat = 2 ^ 31 from rfl, hsplit]
    exact Nat.mul_div_cancel _ (Nat.two_pow_pos lo)
  have hstatus : (at_ k lo).toNat >>> lo = k := by
    have hfits : k * 2 ^ lo < 2 ^ 31 := hsplit ▸ Nat.mul_lt_mul_of_pos_right hk (Nat.two_pow_pos lo)
    rw [at_, w32, BitVec.toNat_ofNat, Nat.shiftLeft_eq, Nat.mod_eq_of_lt (by omega), Nat.shiftRight_eq_div_pow]
    exact Nat.mul_div_cancel _ (Nat.two_pow_pos lo)
  have hseq : (at_ (n % 65536) 0).toNat >>> lo = 0 := by
    have hlow : (at_ (n % 65536) 0).toNat < 2 ^ 16 := by
      simp only [at_, w32, Nat.shiftLeft_zero, BitVec.toNat_ofNat]
      omega
    rw [Nat.shiftRight_eq_div_pow]
    exact Nat.div_eq_of_lt (hlow.trans_le (Nat.pow_le_pow_right (by decide) hlo))
  rw [fld, show 30 - lo + 1 = 31 - lo by omega, BitVec.toNat_or, BitVec.toNat_or, Nat.shiftRight_or_distrib,
    Nat.shiftRight_or_distrib, hvalid, hstatus, hseq, Nat.or_zero, Nat.or_mod_two_pow, Nat.mod_self, Nat.zero_or]
  exact Nat.mod_eq_of_lt hk

theorem chtEnd_status {k : Nat} (hk : k < 16) : fld (rd (chtEnd d k) 0x400014) 30 27 = k := by
  simp only [chtEnd, resultEnd, rd_wr, if_true]
  exact fld_resultStatus (by decide) (by decide) hk _

end

/-! ## Whether a command runs (R114, R422) -/

section
variable {d : Dev} {i : Nat}

theorem chtCmd_running (h : resultValid d 0x400014 = false) (run : Dev → Dev) : chtCmd d run = evCht d 4 0 := by
  simp [chtCmd, h]

theorem chtCmd_unauthorised (h : resultValid d 0x400014 = true) (ha : hasAuthority d = false) (run : Dev → Dev) :
    chtCmd d run = chtEnd d 5 := by
  simp [chtCmd, h, ha]

/-- A command that may run and ends OK leaves the entries it had before its end, and the result of an OK. -/
theorem chtCmd_ends_ok {run : Dev → Dev} {d' : Dev} {miss tern : Bool} {op : Nat} (h : resultValid d 0x400014 = true)
    (ha : hasAuthority d = true) (hrun : run d = chtDone (chtIdx d' miss tern i) op) :
    (chtCmd d run).cht = d'.cht ∧ rd (chtCmd d run) 0x400014 = okWord (rd d' 0x400014) := by
  rw [chtCmd, h, ha, Bool.not_true, if_neg Bool.false_ne_true, if_pos rfl, hrun]
  exact ⟨chtDone_cht .., rd_chtDone ..⟩

/-! ## The commands that end OK -/

/-- INSERT takes the lowest empty way of its key's buckets (R113). -/
theorem runInsert_ok (hkey : keyBad (shadowKey d) = false) (hact : actBad (shadowCopy d false) = false)
    (hnew : findExact d (shadowKey d) = none)
    (hfree : ((List.range 4).map (bucketOf (shadowKey d))).find? (bucketFree d) = some i) :
    runInsert d = chtDone (chtIdx (exactHigh (setExact d i (putCopy (exactAt d i) (shadowCopy d false)))
      (exactUsed d)) false false i) 1 := by
  have hplace : placeExact d (shadowCopy d false) =
      (some i, exactHigh (setExact d i (putCopy (exactAt d i) (shadowCopy d false))) (exactUsed d)) := by
    have hfree' : ((List.range 4).map (bucketOf (keyOf (shadowCopy d false)))).find? (bucketFree d) = some i := hfree
    simp only [placeExact, hfree']
  simp only [runInsert, hkey, hact, hnew, hplace, Option.isSome_none, Bool.false_eq_true, if_false]

theorem runUpdate_ok (hact : actBad (shadowCopy d false) = false) (hfound : findExact d (shadowKey d) = some i) :
    runUpdate d = chtDone (chtIdx (setExact d i (putCopy (exactAt d i) (shadowCopy d false))) false false i) 2 := by
  simp only [runUpdate, hact, hfound, Bool.false_eq_true, if_false]

theorem runDelete_ok (hfound : findExact d (shadowKey d) = some i) : runDelete d = chtDone (chtIdx
    (setExact d i (putCopy (exactAt d i) { inCopy (exactAt d i) with valid := false })) false false i) 3 := by
  simp only [runDelete, hfound]

theorem runTwrite_ok (hkey : keyBad (shadowKey d) = false) (hmask : fld (rd d 0x40011C) 31 28 = 15)
    (hact : actBad (shadowCopy d true) = false) :
    runTwrite d i = chtDone (chtIdx (setTern d i (putCopy (ternAt d i) (shadowCopy d true))) false true i) 4 := by
  have hmask' : fld (shadowCopy d true).m3 31 28 = 15 := hmask
  simp [runTwrite, hkey, hmask', hact]

theorem runTdelete_ok : runTdelete d i = chtDone (chtIdx
    (setTern d i (putCopy (ternAt d i) { inCopy (ternAt d i) with valid := false })) false true i) 5 := rfl

/-- What MWRITE puts into a miss entry: the shadow actions. -/
def missCopy (d : Dev) : ChtCopy :=
  { valid := true, a0 := rd d 0x400120, a1 := rd d 0x400124, a2 := rd d 0x400128, a3 := rd d 0x40012C &&& 0x3FFFFFFF }

theorem runMwrite_ok (hi : i < 4) (hkind : rd d 0x40010C = at_ i 28) (hact : actBad (shadowCopy d false) = false) :
    runMwrite d = chtDone (chtIdx (setMiss d i (putCopy (missAt d i) (missCopy d))) true false i) 6 := by
  have hk3 : (shadowKey d).k3 = at_ i 28 := hkind
  have hzero : at_ i 28 &&& 0x0FFFFFFF = 0 := by interval_cases i <;> rfl
  have hfld : fld (at_ i 28) 31 28 = i := by interval_cases i <;> rfl
  have hkind' : ¬ 3 < i := by omega
  simp only [runMwrite, hk3, hzero, hfld, hkind', hact]
  rfl

end

/-! ## The statements -/

/-- Settles O11. Each command that ends OK has put one copy into the entry it names, and its end changes no entry
(`chtDone_cht`). -/
theorem chartCommandsWriteEntries : Obligations.ChartCommandsWriteEntries := by
  unfold Obligations.ChartCommandsWriteEntries
  refine ⟨?insert, ?update, ?delete, ?twrite, ?tdelete, ?mwrite⟩
  case insert =>
    intro s i hvalid hauth hkey hact hnew hfree
    obtain ⟨hcht, hresult⟩ := chtCmd_ends_ok hvalid hauth (runInsert_ok hkey hact hnew hfree)
    obtain ⟨hcopy, hgen, hothers, htern, hmiss⟩ := exact_written (hcht.trans (exactHigh_cht ..))
    exact ⟨_, rfl, hcopy, hgen, hothers, htern, hmiss, hresult.trans (congrArg okWord (rd_exactHigh ..))⟩
  case update =>
    intro s i hvalid hauth hact hfound
    obtain ⟨hcht, hresult⟩ := chtCmd_ends_ok hvalid hauth (runUpdate_ok hact hfound)
    obtain ⟨hcopy, hgen, hothers, htern, -⟩ := exact_written hcht
    exact ⟨_, rfl, hcopy, hgen, hothers, htern, hresult⟩
  case delete =>
    intro s i hvalid hauth hfound
    obtain ⟨hcht, hresult⟩ := chtCmd_ends_ok hvalid hauth (runDelete_ok hfound)
    obtain ⟨hcopy, -, hothers, htern, -⟩ := exact_written hcht
    exact ⟨_, rfl, congrArg ChtCopy.valid hcopy, hothers, htern, hresult⟩
  case twrite =>
    intro s i hvalid hauth hkey hmask hact
    obtain ⟨hcht, hresult⟩ := chtCmd_ends_ok (run := (runTwrite · i.toNat)) hvalid hauth (runTwrite_ok hkey hmask hact)
    obtain ⟨hcopy, hothers, hexact⟩ := tern_written hcht
    exact ⟨_, rfl, hcopy, hothers, hexact, hresult⟩
  case tdelete =>
    intro s i hvalid hauth
    obtain ⟨hcht, hresult⟩ := chtCmd_ends_ok (run := (runTdelete · i.toNat)) hvalid hauth runTdelete_ok
    obtain ⟨hcopy, hothers, hexact⟩ := tern_written hcht
    exact ⟨_, rfl, congrArg ChtCopy.valid hcopy, hothers, hexact, hresult⟩
  case mwrite =>
    intro s k hvalid hauth hk hkind hact
    obtain ⟨hcht, hresult⟩ := chtCmd_ends_ok hvalid hauth (runMwrite_ok hk hkind hact)
    obtain ⟨hcopy, hothers, hexact⟩ := miss_written hcht
    exact ⟨_, rfl, congrArg ChtCopy.a0 hcopy, congrArg ChtCopy.a1 hcopy, congrArg ChtCopy.a2 hcopy,
      hothers, hexact, hresult⟩

/-- Each of the six commands asks first whether it may run. -/
theorem exec_chartCommand {i : BitVec 10} {c : Instr}
    (hc : c ∈ [Instr.insert, .update, .delete, .twrite i, .tdelete i, .mwrite]) (s : State) :
    ∃ run, exec c s = .next { s with dev := chtCmd s.dev run } := by
  simp only [List.mem_cons, List.not_mem_nil, or_false] at hc
  rcases hc with rfl | rfl | rfl | rfl | rfl | rfl <;> exact ⟨_, rfl⟩

/-- Settles O12. The six commands differ in what they run, not in whether they run it (`exec_chartCommand`). -/
theorem chartCommandsIgnoredOrRefused : Obligations.ChartCommandsIgnoredOrRefused := by
  unfold Obligations.ChartCommandsIgnoredOrRefused
  intro s i c hc
  obtain ⟨run, hexec⟩ := exec_chartCommand hc s
  refine ⟨fun hrunning => ⟨_, hexec, ?ignored⟩, fun hvalid hauth => ⟨_, hexec, ?refused⟩⟩
  case ignored =>
    simp only [chtCmd_running hrunning]
    exact ⟨evCht_cht .., rd_evCht _ _ _ (by decide), setEv_bit _ _ _ _ _ _ _ (by decide)⟩
  case refused =>
    simp only [chtCmd_unauthorised hvalid hauth]
    exact ⟨rfl, chtEnd_status _ (by decide), rd_resultEnd_valid ..⟩

end Sys2Proof.Proofs.ChartCommands

/-! PROOFS. The lookup (R94): an exact entry, else the lowest ternary entry that matches, else the miss entry. -/

namespace Sys2Proof.Proofs.ChartLookup

open Sys2Proof Sys2Proof.Machine Sys2Proof.Laws

/-! ## The lowest of some numbers -/

/-- `b` is the lowest number with property `P`, or there is none. -/
def Lowest (P : Nat → Prop) : Option Nat → Prop
  | none => ∀ i, ¬ P i
  | some i => P i ∧ ∀ j < i, ¬ P j

theorem Lowest.congr {P Q : Nat → Prop} {b : Option Nat} (h : Lowest P b) (hPQ : ∀ i, P i ↔ Q i) : Lowest Q b := by
  have hsame : P = Q := funext fun i => propext (hPQ i)
  rwa [← hsame]

theorem Lowest.eq_some {P : Nat → Prop} {b : Option Nat} (h : Lowest P b) {i : Nat} (hi : P i) (hlow : ∀ j < i, ¬ P j) :
    b = some i := by
  cases b with
  | none => exact absurd hi (h i)
  | some k =>
    obtain ⟨hk, hklow⟩ := h
    have hki : ¬ k < i := fun hlt => hlow k hlt hk
    have hik : ¬ i < k := fun hlt => hklow i hlt hi
    rw [show k = i by omega]

theorem Lowest.eq_none {P : Nat → Prop} {b : Option Nat} (h : Lowest P b) (hnone : ∀ i, ¬ P i) : b = none := by
  cases b with
  | none => rfl
  | some k => exact absurd h.1 (hnone k)

/-- A number with nothing below it that has `P` is the lowest of itself and those. -/
theorem lowest_or_self {P Q : Nat → Prop} {n : Nat} (hn : Q n) (hlow : ∀ j < n, ¬ P j) :
    Lowest (fun i => P i ∨ Q i ∧ i = n) (some n) :=
  ⟨.inr ⟨hn, rfl⟩, fun j hj hP => hP.elim (hlow j hj) fun ⟨_, hjn⟩ => hj.ne hjn⟩

/-! ## Ternary entries -/

section
variable {d : Dev} {k : ChtKey}

theorem ternMatches_iff {i : Nat} : ternMatches d k i = true ↔ TernHit d k i := by
  simp [ternMatches, TernHit, and_assoc]

/-- The lower of the index so far and that of an entry that matches. -/
def takeLower (d : Dev) (k : ChtKey) (b : Option Nat) (e : Nat × ChtEntry) : Option Nat :=
  if ternMatches d k e.1 && (match b with | none => true | some j => decide (e.1 < j)) then some e.1 else b

theorem ternFirst_eq : ternFirst d k = d.cht.tern.foldl (takeLower d k) none := rfl

theorem takeLower_lowest {P : Nat → Prop} {b : Option Nat} (h : Lowest P b) (e : Nat × ChtEntry) :
    Lowest (fun i => P i ∨ TernHit d k i ∧ i = e.1) (takeLower d k b e) := by
  by_cases he : TernHit d k e.1
  case neg =>
    have hsame : takeLower d k b e = b := by simp [takeLower, ternMatches_iff, he]
    rw [hsame]
    exact h.congr fun i => ⟨.inl, fun hi => hi.elim id fun ⟨hhit, hie⟩ => absurd (hie ▸ hhit) he⟩
  case pos =>
    cases b with
    | none =>
      have htake : takeLower d k none e = some e.1 := by simp [takeLower, ternMatches_iff, he]
      rw [htake]
      exact lowest_or_self he fun j _ => h j
    | some m =>
      obtain ⟨hm, hlow⟩ := h
      have htake : takeLower d k (some m) e = if e.1 < m then some e.1 else some m := by
        simp [takeLower, ternMatches_iff.2 he]
      rw [htake]
      split
      next hlt => exact lowest_or_self he fun j hj => hlow j (hj.trans hlt)
      next hge => exact ⟨.inl hm, fun j hj hP => hP.elim (hlow j hj) fun ⟨_, hje⟩ => hge (hje ▸ hj)⟩

theorem foldl_takeLower_lowest (l : List (Nat × ChtEntry)) {P : Nat → Prop} {b : Option Nat} (h : Lowest P b) :
    Lowest (fun i => P i ∨ TernHit d k i ∧ ∃ e ∈ l, i = e.1) (l.foldl (takeLower d k) b) := by
  induction l generalizing P b with
  | nil => exact h.congr (by simp)
  | cons e l ih =>
    refine (ih (takeLower_lowest h e)).congr fun i => ?_
    simp only [List.exists_mem_cons_iff]
    tauto

/-- A key whose value is not the default is listed. -/
theorem exists_mem_of_tget_ne {α : Type} {x : α} {l : List (Nat × α)} {i : Nat} (h : tget x l i ≠ x) :
    ∃ e ∈ l, i = e.1 := by
  induction l with
  | nil => exact absurd rfl h
  | cons e l ih =>
    by_cases he : e.1 = i
    · exact ⟨e, List.mem_cons_self .., he.symm⟩
    · obtain ⟨f, hf, hi⟩ := ih (by simpa [tget, he] using h)
      exact ⟨f, List.mem_cons_of_mem _ hf, hi⟩

/-- An entry that matches is valid, so it has been written. -/
theorem ternHit_listed {i : Nat} (h : TernHit d k i) : ∃ e ∈ d.cht.tern, i = e.1 := by
  refine exists_mem_of_tget_ne (x := {}) fun hdefault => ?_
  have hvalid := h.1
  rw [ternAt, hdefault] at hvalid
  cases hvalid

theorem ternFirst_lowest : Lowest (TernHit d k) (ternFirst d k) := by
  have hnone : Lowest (fun _ => False) none := fun _ => id
  rw [ternFirst_eq]
  refine (foldl_takeLower_lowest d.cht.tern hnone).congr fun i => ?_
  rw [false_or]
  exact ⟨And.left, fun h => ⟨h, ternHit_listed h⟩⟩

/-! ## The three answers of a lookup -/

/-- Way `w` of key `k`'s buckets holds a valid entry with it. -/
def ExactHit (d : Dev) (k : ChtKey) (w : Nat) : Prop :=
  (inCopy (exactAt d (bucketOf k w))).valid = true ∧ keyOf (inCopy (exactAt d (bucketOf k w))) = k

theorem lookup_exact {w : Nat} (hw : w < 4) (h : ExactHit d k w) : (lookup d k).miss = false ∧
    (lookup d k).tern = false ∧ (lookup d k).e.valid = true ∧ keyOf (lookup d k).e = k := by
  unfold lookup
  split
  next v hfind =>
    have hv : ExactHit d k v := by simpa [ExactHit] using List.find?_some hfind
    exact ⟨rfl, rfl, hv.1, hv.2⟩
  next hfind =>
    have hnone := List.find?_eq_none.1 hfind w (List.mem_range.2 hw)
    simp [h.1, h.2] at hnone

theorem find_noExact (h : ∀ w < 4, ¬ ExactHit d k w) : ((List.range 4).find? fun w =>
    (inCopy (exactAt d (bucketOf k w))).valid && keyOf (inCopy (exactAt d (bucketOf k w))) == k) = none :=
  List.find?_eq_none.2 fun w hw hhit => h w (List.mem_range.1 hw) (by simpa [ExactHit] using hhit)

theorem lookup_tern (h : ∀ w < 4, ¬ ExactHit d k w) {i : Nat} (hi : TernHit d k i) (hlow : ∀ j < i, ¬ TernHit d k j) :
    lookup d k = ⟨inCopy (ternAt d i), false, true, i⟩ := by
  simp only [lookup, find_noExact h, ternFirst_lowest.eq_some hi hlow]

theorem lookup_miss (h : ∀ w < 4, ¬ ExactHit d k w) (hnone : ∀ i, ¬ TernHit d k i) :
    lookup d k = ⟨inCopy (missAt d (fld k.k3 31 28)), true, false, 0⟩ := by
  simp only [lookup, find_noExact h, ternFirst_lowest.eq_none hnone]

end

/-! ## The statement -/

/-- Settles O13. The fold over the ternary entries ends at the lowest that matches (`ternFirst_lowest`). -/
theorem exactThenTernaryThenMiss : Obligations.ExactThenTernaryThenMiss := by
  unfold Obligations.ExactThenTernaryThenMiss
  refine fun d k => ⟨fun w hw hvalid hkey => lookup_exact hw ⟨hvalid, hkey⟩, fun hno => ?_⟩
  have hexact : ∀ w < 4, ¬ ExactHit d k w := by
    rintro w hw ⟨hvalid, hkey⟩
    rcases hno w hw with h | h
    · exact Bool.false_ne_true (h.symm.trans hvalid)
    · exact h hkey
  refine ⟨fun i hi hlow => ?_, fun hnone => ?_⟩
  · rw [lookup_tern hexact hi hlow]
    exact ⟨rfl, rfl, rfl, rfl⟩
  · rw [lookup_miss hexact hnone]
    exact ⟨rfl, rfl, rfl⟩

end Sys2Proof.Proofs.ChartLookup

/-! PROOFS. Signal extraction (R99–R101): the value of an item, where it goes, and what the items of one frame leave. -/

namespace Sys2Proof.Proofs.Extraction

open Sys2Proof Sys2Proof.Machine Sys2Proof.Laws Sys2Proof.Proofs.ChartCommands

/-! ## The number bytes hold -/

theorem leNat_eq_sum (l : List Byte) :
    leNat l = ((List.range l.length).map fun j => (l.getD j 0).toNat * 2 ^ (8 * j)).sum := by
  induction l with
  | nil => rfl
  | cons b l ih =>
    have hshift (j : Nat) : ((b :: l).getD (j + 1) 0).toNat * 2 ^ (8 * (j + 1)) =
        256 * ((l.getD j 0).toNat * 2 ^ (8 * j)) := by
      rw [List.getD_cons_succ, Nat.mul_add, Nat.pow_add]
      ring
    rw [leNat, ih, List.length_cons, List.range_succ_eq_map, List.map_cons, List.sum_cons, List.map_map]
    simp only [Function.comp_def, Nat.succ_eq_add_one, hshift, List.sum_map_mul_left]
    simp

theorem beNat_eq_sum (l : List Byte) :
    beNat l = ((List.range l.length).map fun j => (l.getD j 0).toNat * 2 ^ (8 * (l.length - 1 - j))).sum := by
  induction l using List.reverseRecOn with
  | nil => rfl
  | append_singleton l b ih =>
    have hcons : beNat (l ++ [b]) = b.toNat + 256 * beNat l := by simp [beNat, leNat]
    have hshift : ∀ j ∈ List.range l.length, ((l ++ [b]).getD j 0).toNat * 2 ^ (8 * (l.length + 1 - 1 - j)) =
        256 * ((l.getD j 0).toNat * 2 ^ (8 * (l.length - 1 - j))) := by
      intro j hj
      have hlt : j < l.length := List.mem_range.1 hj
      rw [List.getD_append _ _ _ _ hlt, show 8 * (l.length + 1 - 1 - j) = 8 * (l.length - 1 - j) + 8 by omega, Nat.pow_add]
      ring
    rw [hcons, ih, List.length_append, List.length_singleton, List.range_succ, List.map_append, List.sum_append,
      List.map_congr_left hshift, List.sum_map_mul_left]
    simp [Nat.add_comm]

/-- The bytes of `p` from `i` on, as many as `n`, seen one by one. -/
theorem getD_take_drop (p : List Byte) {i n j : Nat} (hj : j < n) : ((p.drop i).take n).getD j 0 = p.getD (i + j) 0 := by
  simp [List.getD_eq_getElem?_getD, hj]

theorem length_take_drop {p : List Byte} {i n : Nat} (h : i + n ≤ p.length) : ((p.drop i).take n).length = n := by
  rw [List.length_take, List.length_drop]
  omega

/-! ## The value of an item (R100) -/

section
variable {item : Word} {p : List Byte}

/-- The number of bytes an item takes. -/
def itemBytes (item : Word) : Nat := ceilDiv (fld item 28 26 + (fld item 25 22 + 1)) 8

theorem itemValue_short (h : p.length < fld item 21 11 + itemBytes item) : itemValue item p = none := if_pos h

theorem itemValue_fits (h : fld item 21 11 + itemBytes item ≤ p.length) : itemValue item p =
    some ((if bit item 29 then beNat ((p.drop (fld item 21 11)).take (itemBytes item))
      else leNat ((p.drop (fld item 21 11)).take (itemBytes item))) / 2 ^ fld item 28 26 % 2 ^ (fld item 25 22 + 1)) := by
  rw [← Nat.shiftRight_eq_div_pow]
  exact if_neg h.not_gt

theorem itemValue_little (h : fld item 21 11 + itemBytes item ≤ p.length) (horder : bit item 29 = false) :
    itemValue item p = some (((List.range (itemBytes item)).map fun j =>
      (p.getD (fld item 21 11 + j) 0).toNat * 2 ^ (8 * j)).sum / 2 ^ fld item 28 26 % 2 ^ (fld item 25 22 + 1)) := by
  rw [itemValue_fits h, horder, if_neg Bool.false_ne_true, leNat_eq_sum, length_take_drop h]
  rw [List.map_congr_left fun j hj => by rw [getD_take_drop p (List.mem_range.1 hj)]]

theorem itemValue_big (h : fld item 21 11 + itemBytes item ≤ p.length) (horder : bit item 29 = true) :
    itemValue item p = some (((List.range (itemBytes item)).map fun j =>
      (p.getD (fld item 21 11 + j) 0).toNat * 2 ^ (8 * (itemBytes item - 1 - j))).sum
        / 2 ^ fld item 28 26 % 2 ^ (fld item 25 22 + 1)) := by
  rw [itemValue_fits h, horder, if_pos rfl, beNat_eq_sum, length_take_drop h]
  rw [List.map_congr_left fun j hj => by rw [getD_take_drop p (List.mem_range.1 hj)]]

end

/-! ## Signals and words (R101) -/

/-- Signal `i` of the Breakwater. -/
def signalBit (d : Dev) (i : Nat) : Bool := bit (tget 0 d.bwk.sig (i / 32)) (i % 32)

theorem bit_flag (b : Bool) {k i : Nat} (hi : i < 32) : bit (flag b k) i = (b && decide (i = k)) := by
  cases b
  · simp [bit, flag]
  · simp only [bit, flag, w32, if_true, Nat.one_shiftLeft, BitVec.getLsbD_ofNat, Nat.testBit_two_pow, hi, eq_comm,
      decide_true, Bool.true_and]

section
variable (d : Dev)

theorem signalBit_setSignal (k : Nat) (v : Bool) (i : Nat) :
    signalBit (setSignal d k v) i = if i = k then v else signalBit d i := by
  have hi : i % 32 < 32 := Nat.mod_lt _ (by decide)
  have hword : tget 0 (setSignal d k v).bwk.sig (i / 32) = if i / 32 = k / 32 then
      (tget 0 d.bwk.sig (k / 32) &&& ~~~(flag true (k % 32))) ||| flag v (k % 32) else tget 0 d.bwk.sig (i / 32) := by
    rw [setSignal, mirrorNote_bwk]
    exact tget_tset ..
  rw [signalBit, hword]
  by_cases hg : i / 32 = k / 32
  · have hsame : i = k ↔ i % 32 = k % 32 := by omega
    have hclear (w : Word) : bit (w &&& ~~~(flag true (k % 32))) (i % 32) =
        (bit w (i % 32) && !decide (i % 32 = k % 32)) := by
      have hflag := bit_flag true (k := k % 32) hi
      simp only [bit, Bool.true_and] at hflag ⊢
      rw [BitVec.getLsbD_and, BitVec.getLsbD_not, hflag]
      simp [hi]
    rw [if_pos hg, bit_or, hclear, bit_flag v hi, signalBit, hg]
    by_cases hb : i % 32 = k % 32 <;> simp [hsame, hb]
  · rw [if_neg hg, if_neg (by rintro rfl; exact hg rfl), signalBit]

theorem signalBit_setAnalog (k : Nat) (v : BitVec 16) (i : Nat) : signalBit (setAnalog d k v) i = signalBit d i := by
  rw [signalBit, setAnalog, mirrorNote_bwk]
  rfl

theorem word_setAnalog (k : Nat) (v : BitVec 16) (i : Nat) :
    tget 0 (setAnalog d k v).bwk.word i = if i = k then v else tget 0 d.bwk.word i := by
  rw [setAnalog, mirrorNote_bwk]
  exact tget_tset ..

/-! ## One item -/

variable {d} {item : Word} {p : List Byte} {v : Nat}

theorem extractItem_skipped (h : itemValue item p = none) : extractItem d p item = evCht (inc d 0x400270) 1 0 := by
  simp only [extractItem, h]

theorem extractItem_signal (h : itemValue item p = some v) (hkind : bit item 31 = true) :
    extractItem d p item = setSignal d (fld item 8 0) (decide (v ≠ 0)) := by
  simp only [extractItem, h, hkind, if_true]

/-- What an analog word takes of a value (R100). -/
def analogValue (item : Word) (v : Nat) : BitVec 16 :=
  if bit item 30 && decide (2 ^ fld item 25 22 ≤ v) then BitVec.ofNat 16 (v + 65536 - 2 ^ (fld item 25 22 + 1))
  else BitVec.ofNat 16 v

/-- Taking 2^(width) from a value of the upper half and adding 2^16 are the same modulo 2^16. -/
theorem extended_eq_analogValue (item : Word) (v : Nat) :
    (if bit item 30 then BitVec.ofInt 16 (signed v (fld item 25 22 + 1)) else BitVec.ofNat 16 v) = analogValue item v := by
  have hwidth : 2 ^ (fld item 25 22 + 1) ≤ 65536 := by
    have hf : fld item 25 22 < 16 := Nat.mod_lt _ (by decide)
    calc 2 ^ (fld item 25 22 + 1) ≤ 2 ^ 16 := Nat.pow_le_pow_right (by decide) hf
      _ = 65536 := rfl
  unfold analogValue
  cases bit item 30
  case false => rfl
  case true =>
    by_cases hneg : 2 ^ fld item 25 22 ≤ v
    · have hsigned : signed v (fld item 25 22 + 1) = ((v + 65536 - 2 ^ (fld item 25 22 + 1) : Nat) : Int) - 65536 := by
        rw [signed, Nat.add_sub_cancel, if_neg hneg.not_gt]
        push_cast [Nat.cast_sub (show 2 ^ (fld item 25 22 + 1) ≤ v + 65536 by omega)]
        ring
      simp only [hsigned, hneg, if_true, decide_true, Bool.and_self]
      generalize v + 65536 - 2 ^ (fld item 25 22 + 1) = n
      refine BitVec.eq_of_toNat_eq ?_
      rw [BitVec.toNat_ofInt, BitVec.toNat_ofNat]
      omega
    · have hsigned : signed v (fld item 25 22 + 1) = (v : Int) := by
        rw [signed, Nat.add_sub_cancel, if_pos (Nat.lt_of_not_le hneg)]
      simp [hsigned, hneg]

theorem extractItem_analog (h : itemValue item p = some v) (hkind : bit item 31 = false) :
    extractItem d p item = setAnalog d (fld item 7 0) (analogValue item v) := by
  rw [← extended_eq_analogValue]
  simp only [extractItem, h, hkind, Bool.false_eq_true, if_false]

/-- An item that is skipped, is no signal, or is another's leaves a signal as it is. -/
theorem signalBit_extractItem_other {i : Nat}
    (h : itemValue item p = none ∨ bit item 31 = false ∨ fld item 8 0 ≠ i) :
    signalBit (extractItem d p item) i = signalBit d i := by
  cases hv : itemValue item p with
  | none =>
    rw [extractItem_skipped hv, signalBit, evCht_bwk]
    rfl
  | some v =>
    cases hkind : bit item 31 with
    | false => rw [extractItem_analog hv hkind, signalBit_setAnalog]
    | true =>
      have hne : fld item 8 0 ≠ i := by simpa [hv, hkind] using h
      rw [extractItem_signal hv hkind, signalBit_setSignal, if_neg hne.symm]

variable (d) in
/-- An item sets no register but CHT_EVENT. -/
theorem rd_extractItem (p : List Byte) (item : Word) {a : Nat} (ha : a ≠ 0x400004) :
    rd (extractItem d p item) a = rd d a := by
  unfold extractItem
  split
  · exact rd_evCht _ _ _ ha
  · split
    · exact rd_mirrorNote ..
    · exact rd_mirrorNote ..

end

/-! ## The items of a frame (R99) -/

section
variable (d : Dev) (idx : Nat) (body : FrameBody)

theorem extract_succ (n : Nat) : extract d idx (n + 1) body = extractItem (extract d idx n body) (payload body)
    (rd (extract d idx n body) (0x410000 + 4 * ((idx + n) % 4096))) := by
  simp [extract, List.range_succ]

theorem rd_extract (n : Nat) {a : Nat} (ha : a ≠ 0x400004) : rd (extract d idx n body) a = rd d a := by
  induction n with
  | zero => rfl
  | succ n ih => rw [extract_succ, rd_extractItem _ _ _ ha, ih]

/-- The items a frame meets are those the table held before it. -/
theorem extract_succ_eq (n : Nat) : extract d idx (n + 1) body = extractItem (extract d idx n body) (payload body)
    (rd d (0x410000 + 4 * ((idx + n) % 4096))) := by
  rw [extract_succ, rd_extract _ _ _ _ (by omega)]

variable {d idx body}

/-- A signal keeps the value of the last item that writes it. -/
theorem signalBit_extract {item : Nat → Word} (hitem : ∀ j, item j = rd d (0x410000 + 4 * ((idx + j) % 4096)))
    {k v : Nat} (hv : itemValue (item k) (payload body) = some v) (hkind : bit (item k) 31 = true) {n : Nat} (hk : k < n)
    (hlast : ∀ j, k < j → j < n → itemValue (item j) (payload body) = none ∨ bit (item j) 31 = false ∨
      fld (item j) 8 0 ≠ fld (item k) 8 0) :
    signalBit (extract d idx n body) (fld (item k) 8 0) = decide (v ≠ 0) := by
  induction n, hk using Nat.le_induction with
  | base => rw [extract_succ_eq, ← hitem, extractItem_signal hv hkind, signalBit_setSignal, if_pos rfl]
  | succ n hk ih =>
    rw [extract_succ_eq, ← hitem, signalBit_extractItem_other (hlast n hk (Nat.lt_succ_self n))]
    exact ih fun j hkj hjn => hlast j hkj (Nat.lt_succ_of_lt hjn)

end

/-! ## The statement -/

/-- Settles O14. An item's bytes are summed in its order (`leNat_eq_sum`, `beNat_eq_sum`); a later item of a frame writes
another signal, a word or nothing. -/
theorem extractionItemValue : Obligations.ExtractionItemValue := by
  unfold Obligations.ExtractionItemValue
  refine ⟨?value, ?applied, ?frame⟩
  case value =>
    rintro item p n rfl
    refine ⟨fun hshort => ⟨itemValue_short hshort, fun d => ?_⟩, itemValue_little, itemValue_big⟩
    rw [extractItem_skipped (itemValue_short hshort)]
    exact ⟨evCht_bwk .., by rw [cnt_evCht, cnt_inc, if_pos rfl], setEv_bit _ _ _ _ _ _ _ (by decide)⟩
  case applied =>
    refine fun d p item v hv => ⟨fun hkind i _ => ?_, fun hkind i _ => ?_⟩
    · rw [extractItem_signal hv hkind]
      exact signalBit_setSignal ..
    · rw [extractItem_analog hv hkind, word_setAnalog]
      by_cases hi : i = fld item 7 0
      · rw [if_pos hi, if_neg (not_not.2 hi), analogValue]
      · rw [if_neg hi, if_pos hi]
  case frame =>
    intro d idx len k v body item hitem hk hv hkind hlast
    exact signalBit_extract hitem hv hkind hk hlast

end Sys2Proof.Proofs.Extraction

/-! PROOFS. Policers and the Chart's counters (R103, R115). -/

namespace Sys2Proof.Proofs.Policers

open Sys2Proof Sys2Proof.Machine Sys2Proof.Laws Sys2Proof.Proofs.LinksAndClears

/-- The policer that words 0 and 1 of index `k` and `w2` give, both buckets full (Table 3.18). -/
def policerOf (d : Dev) (k : Nat) (w2 : Word) : Policer :=
  let w0 := rd d (0x430000 + 16 * k)
  let p : Policer := {
    frames := bit w0 31, redPass := bit w0 30, cir := fld w0 23 0
    pir := fld (rd d (0x430004 + 16 * k)) 23 0, cbs := fld w2 15 0, pbs := fld w2 31 16, at_ := d.wall }
  { p with tc := p.cbs * polUnit p, tp := p.pbs * polUnit p }

theorem policerWrite_cht (d : Dev) (k : Nat) (w2 : Word) :
    (policerWrite d k w2).cht = { d.cht with pol := tset {} d.cht.pol k (policerOf d k w2) } := rfl

/-- Settles O15. Mirroring the write touches no policer, and each clear is a clear of one range of counters. -/
theorem policersAndChartCounters : Obligations.PolicersAndChartCounters := by
  unfold Obligations.PolicersAndChartCounters
  refine ⟨fun s k w2 => ?policer, clearsExactly_range fun _ => rfl, clearsExactly_range fun _ => rfl,
    fun k => clearsExactly_range fun _ => rfl⟩
  have hcht : (mirrorNote (policerWrite s.dev k w2) 0 (0x430008 + 16 * k.val)).cht =
      { s.dev.cht with pol := tset {} s.dev.cht.pol k (policerOf s.dev k w2) } :=
    (mirrorNote_cht ..).trans (policerWrite_cht ..)
  refine ⟨_, policerOf s.dev k w2, rfl, ?_⟩
  rw [hcht]
  exact ⟨tget_tset_self .., rfl, rfl, rfl, rfl, rfl, rfl, rfl, rfl, fun j hj => tget_tset_other _ _ _ hj, rfl⟩

end Sys2Proof.Proofs.Policers

/-! PROOFS. What the shared operations of slips do: work that the Quaymaster serves at once (R29), a message sent or left
pending (R150), and the device log's move to flash (R145). -/

namespace Sys2Proof.Proofs.SlipMessages

open Sys2Proof Sys2Proof.Machine Sys2Proof.Laws Sys2Proof.Proofs.WorkQueue Sys2Proof.Proofs.LinksAndClears

/-! ## Work served at once (R29) -/

/-- The device with another peak of the Quaymaster's interval: all that serving work at once leaves behind. -/
def withPeak (d : Dev) (p : Nat) : Dev := { d with qm := { d.qm with peakRun := p } }

/-- Far below the first threshold the shedding level stays 0 (Table 1.6). -/
theorem shedLevel_low {n : Nat} (h : n ≤ 1600) : shedLevel 0 n = 0 := by
  have hup : ¬ 95 * 2048 ≤ 100 * n := by omega
  have hup' : ¬ 80 * 2048 ≤ 100 * n := by omega
  simp [shedLevel, hup, hup']

/-- A Quaymaster free for a class serves its work at once. -/
theorem qmPost_free {d : Dev} {cls : Nat} (h : QmFree d cls) (hcls : cls < 5) (w : QmWork) (k : Dev → Dev) :
    ∃ p, qmPost d cls w k = k (withPeak d p) := by
  obtain ⟨hawake, hqueue, hshed, hroom⟩ := h
  have henqueue : qmEnqueue d cls w = qmPeak (withQueue d (d.qm.queue ++ [(cls, w)])) := by
    rw [qmEnqueue_queued w (by omega), qmJudge_steady]
    simpa [hshed] using shedLevel_low (by omega)
  have hq : (qmEnqueue d cls w).qm.queue = d.qm.queue ++ (cls, w) :: [] := by rw [henqueue]; rfl
  have hnext : qmNext (qmEnqueue d cls w) = some (cls, w) := qmNext_eq (by omega) hq hqueue (by simp)
  have hserves : qmAwake (qmEnqueue d cls w) = true := by rw [henqueue]; exact hawake
  have htake : qmTake (qmEnqueue d cls w) (cls, w) = qmPeak (withQueue (qmEnqueue d cls w) d.qm.queue) := by
    rw [qmTake_next hq hqueue, List.append_nil, qmJudge_steady]
    simpa [henqueue, qmPeak, hshed] using shedLevel_low (by omega)
  refine ⟨(qmPeak (withQueue (qmEnqueue d cls w) d.qm.queue)).qm.peakRun, ?_⟩
  rw [qmPost]
  simp only [hserves, hnext, decide_true, Bool.and_self, if_true, htake]
  rw [henqueue]
  rfl

/-! ## Messages (R150) -/

/-- A vector that is open and not masked is sent. -/
theorem sendVec_open {d : Dev} {n v : Nat} (ho : msixOpen d n = true)
    (hm : bit (rd d (slipWin n + 0x18C + 16 * v)) 0 = false) :
    sendVec d n v = emit d (.msix n v (rd64 d (slipWin n + 0x180 + 16 * v)) (rd d (slipWin n + 0x188 + 16 * v))) := by
  have hmask : slipWin n + 0x180 + 16 * v + 12 = slipWin n + 0x18C + 16 * v := by omega
  have hdata : slipWin n + 0x180 + 16 * v + 8 = slipWin n + 0x188 + 16 * v := by omega
  simp [sendVec, hmask, hdata, ho, hm]

/-- Sending a vector changes no ring. -/
@[simp] theorem ringOf_sendVec (d : Dev) (n v m r : Nat) : ringOf (sendVec d n v) m r = ringOf d m r := by
  simp only [sendVec]
  split <;> rfl

/-- Whether a slip's vectors are open depends on its slip, its pending bits apart, and on two registers. -/
theorem msixOpen_congr {d t : Dev} {n : Nat} (hs : ∃ b, slipOf t n = { slipOf d n with pba := b })
    (hmax : rd t 0x800010 = rd d 0x800010) (hcfg : rd t (slipWin n + 4) = rd d (slipWin n + 4)) :
    msixOpen t n = msixOpen d n := by
  obtain ⟨b, hs⟩ := hs
  unfold msixOpen withheld internalSlip hostMax
  rw [hs, hmax, hcfg]

/-- An entry of the MSI-X table whose mask bit is cleared. -/
def unmasked (d : Dev) (n v : Nat) : Dev :=
  wr d (slipWin n + 0x18C + 16 * v) (rd d (slipWin n + 0x18C + 16 * v) &&& 0xFFFFFFFE)

@[simp] theorem slipOf_unmasked (d : Dev) (n v m : Nat) : slipOf (unmasked d n v) m = slipOf d m := rfl

theorem rd_unmasked_mask (d : Dev) (n v : Nat) : bit (rd (unmasked d n v) (slipWin n + 0x18C + 16 * v)) 0 = false := by
  simp [unmasked, bit]

theorem rd_unmasked {n v a : Nat} (d : Dev) (h : a ≠ slipWin n + 0x18C + 16 * v) : rd (unmasked d n v) a = rd d a := by
  rw [unmasked, rd_wr, if_neg h]

theorem msixUnmask_entry {d : Dev} {n : Nat} (h : (slipOf d n).state ≠ .free) (v : Nat) :
    msixUnmask d n v false = pendingSend (unmasked d n v) n v := by
  simp [msixUnmask, h, unmasked]

/-- A pending vector is sent once its entry is unmasked, and is pending no more. -/
theorem pendingSend_unmasked {d : Dev} {n v : Nat} (ho : msixOpen d n = true) (hp : (slipOf d n).pba.getLsbD v = true) :
    pendingSend (unmasked d n v) n v =
      emit (setSlip (unmasked d n v) n { slipOf d n with pba := (slipOf d n).pba &&& ~~~(1#8 <<< v) })
        (.msix n v (rd64 d (slipWin n + 0x180 + 16 * v)) (rd d (slipWin n + 0x188 + 16 * v))) := by
  have hmax := rd_unmasked (n := n) (v := v) (a := 0x800010) d (by unfold slipWin; omega)
  have hcfg := rd_unmasked (n := n) (v := v) (a := slipWin n + 4) d (by omega)
  have hopen : msixOpen (unmasked d n v) n = true := (msixOpen_congr ⟨_, slipOf_unmasked ..⟩ hmax hcfg).trans ho
  have hsend : msixOpen (setSlip (unmasked d n v) n { slipOf d n with pba := (slipOf d n).pba &&& ~~~(1#8 <<< v) }) n =
      msixOpen d n := msixOpen_congr ⟨_, (slipOf_setSlip ..).trans (if_pos rfl)⟩ hmax hcfg
  simp only [pendingSend, slipOf_unmasked, hp, hopen, rd_unmasked_mask, Bool.not_false, Bool.and_self, if_true]
  rw [sendVec_open (hsend.trans ho) (rd_unmasked_mask ..)]
  simp only [rd64, rd_setSlip]
  rw [rd_unmasked d (by omega), rd_unmasked d (by omega), rd_unmasked d (by omega)]

/-! ## The device log (R145) -/

/-- Where it fits and flash is not worn out, staging goes behind what flash holds. -/
theorem logMove_fits {d : Dev} (hw : flashWorn d = false) (h : d.log.flash.length + d.log.staging.length ≤ 262144) :
    logMove d = { d with log := { d.log with flash := d.log.flash ++ d.log.staging, staging := [] } } := by
  have hdrop : (d.log.flash ++ d.log.staging).length - 262144 = 0 := by rw [List.length_append]; omega
  simp only [logMove, flashKeep, hw, hdrop]
  rfl

/-! ## The statement -/

/-- Settles O23. The Quaymaster serves the move of the log at once (`qmPost_free`); an open, unmasked vector is sent
(`sendVec_open`). -/
theorem messagesAndDeviceLog : Obligations.MessagesAndDeviceLog := by
  unfold Obligations.MessagesAndDeviceLog
  refine ⟨?flush, ?pending, ?idle, ?holdoff, fun s n r hheld => ?notHeld, clearsExactly_ranges fun _ => rfl⟩
  case flush =>
    intro s hfree hworn hfits
    have hup : fabricUp s.dev = true := by
      have hawake := hfree.1
      simp only [qmAwake, Bool.and_eq_true] at hawake
      exact hawake.1.1
    obtain ⟨p, hpost⟩ := qmPost_free hfree (by decide) .logFlush logMove
    refine ⟨{ s with dev := logFlush s.dev }, rfl, ?_⟩
    have hrun : logFlush s.dev = logMove (withPeak s.dev p) := by rw [logFlush, if_pos hup, hpost]
    rw [hrun, logMove_fits (d := withPeak s.dev p) hworn hfits]
    exact ⟨rfl, rfl⟩
  case pending =>
    intro s n v hstate hopen hpba
    refine ⟨{ s with dev := msixUnmask s.dev n v false }, rfl, ?_⟩
    simp only [msixUnmask_entry hstate, pendingSend_unmasked hopen hpba]
    refine ⟨rfl, ?_, rd_unmasked_mask .., fun a ha => rd_unmasked _ ha, fun m hm => ?_⟩
    · exact (slipOf_setSlip ..).trans (if_pos rfl)
    · exact (slipOf_setSlip ..).trans (if_neg hm)
  case idle =>
    intro s n v hstate hpba
    refine ⟨{ s with dev := msixUnmask s.dev n v false }, rfl, ?_⟩
    have hnone : pendingSend (unmasked s.dev n v) n v = unmasked s.dev n v := by
      simp only [pendingSend, slipOf_unmasked, hpba, Bool.false_and, Bool.false_eq_true, if_false]
    simp only [msixUnmask_entry hstate, hnone]
    exact ⟨rfl, rd_unmasked_mask ..⟩
  case holdoff =>
    intro s n r hheld
    refine ⟨fun howed => ?_, fun howed => ⟨{ s with dev := holdoffExpire s.dev n r }, rfl, ?_⟩⟩
    · change onDev (holdoffExpire · n r) s = _
      simp [holdoffExpire, hheld, howed]
    · have hrun : holdoffExpire s.dev n r = setRing (sendVec
          (setRing s.dev n r { ringOf s.dev n r with held := false, owed := false }) n (fld (ringCfg s.dev n r) 18 16))
          n r { ringOf s.dev n r with held := true, owed := false } := by
        simp [holdoffExpire, hheld, howed]
      rw [hrun]
      refine ⟨by simp, by simp, by simp, fun hopen hmask => ?_⟩
      rw [setRing_out, sendVec_open (d := setRing s.dev n r _) hopen hmask]
      exact ⟨_, _, rfl⟩
  case notHeld =>
    change onDev (holdoffExpire · n r) s = _
    simp [holdoffExpire, hheld]

end Sys2Proof.Proofs.SlipMessages

/-! PROOFS. The SLP commands on resources (R126, R128–R130): a command served at once, its refusals, and BIND, UNBIND and
RELEASE that end OK. -/

namespace Sys2Proof.Proofs.SlipResources

open Sys2Proof Sys2Proof.Machine Sys2Proof.Laws Sys2Proof.Proofs.SlipMessages

/-! ## A command served at once (R126) -/

/-- The device when a command has begun: its result has fallen, and the Quaymaster has taken its work. -/
def begun (d : Dev) (p : Nat) : Dev := withPeak (resultBegin d 0x80000C) p

section
variable (d : Dev) (p : Nat)

@[simp] theorem begun_slips : (begun d p).slips = d.slips := rfl
@[simp] theorem begun_ldc : (begun d p).ldc = d.ldc := rfl
@[simp] theorem begun_fio : (begun d p).fio = d.fio := rfl
@[simp] theorem begun_bwk : (begun d p).bwk = d.bwk := rfl
@[simp] theorem slipOf_begun (n : Nat) : slipOf (begun d p) n = slipOf d n := rfl
@[simp] theorem resOf_begun (k : Nat) : resOf (begun d p) k = resOf d k := rfl
@[simp] theorem hasAuthority_begun : hasAuthority (begun d p) = hasAuthority d := rfl

theorem rd_begun : rd (begun d p) 0x80000C = rd d 0x80000C &&& 0x7FFFFFFF := (rd_wr ..).trans (if_pos rfl)

theorem rd_begun_other {a : Nat} (h : a ≠ 0x80000C) : rd (begun d p) a = rd d a := (rd_wr ..).trans (if_neg h)

@[simp] theorem fieldMode_begun (k : Nat) : fieldMode (begun d p) k = fieldMode d k := by
  rw [fieldMode, actField, rd_begun_other d p (by unfold fioBase; omega)]
  rfl

end

/-- The fall of VALID leaves the sequence number alone. -/
theorem fld_seq_begun (w : Word) : fld (w &&& 0x7FFFFFFF) 15 0 = fld w 15 0 := by
  have hlow : (0x7FFFFFFF : Word).toNat % 2 ^ 16 = 2 ^ 16 - 1 := rfl
  simp only [fld, BitVec.toNat_and, Nat.shiftRight_zero, Nat.and_mod_two_pow]
  rw [hlow, Nat.and_two_pow_sub_one_eq_mod, Nat.mod_mod]

section
variable {d : Dev}

/-- A command whose result was begun and not touched since ends with its status and the next sequence number. -/
theorem rd_slpEnd {t : Dev} (st : Nat) (h : rd t 0x80000C = rd d 0x80000C &&& 0x7FFFFFFF) :
    rd (slpEnd t st) 0x80000C = slpWord (rd d 0x80000C) st := by
  have hbegun : rd { t with slips := { t.slips with cmdWait := none } } 0x80000C = rd d 0x80000C &&& 0x7FFFFFFF := h
  rw [slpEnd, resultEnd, rd_wr, if_pos rfl, hbegun, fld_seq_begun]
  rfl

section
variable (t : Dev) (st : Nat)

@[simp] theorem slpEnd_tab : (slpEnd t st).slips.tab = t.slips.tab := rfl
@[simp] theorem slpEnd_ldc : (slpEnd t st).ldc = t.ldc := rfl
@[simp] theorem slpEnd_fio : (slpEnd t st).fio = t.fio := rfl
@[simp] theorem slpEnd_bwk : (slpEnd t st).bwk = t.bwk := rfl
@[simp] theorem resOf_slpEnd (k : Nat) : resOf (slpEnd t st) k = resOf t k := rfl
@[simp] theorem resOf_mirrorNote (what arg k : Nat) : resOf (mirrorNote t what arg) k = resOf t k := by
  simp only [resOf, mirrorNote_slips]

end

/-- With no command running and the Quaymaster free a command runs from its arguments as they are. -/
theorem slpCmd_free (hv : resultValid d 0x80000C = true) (hf : QmFree d 2) (op n : Nat) :
    ∃ p, slpCmd d op n = slpRun (begun d p) op n (rd d 0x800004) (rd d 0x800008) := by
  have hbegun : QmFree (resultBegin d 0x80000C) 2 := hf
  obtain ⟨p, hpost⟩ := qmPost_free hbegun (by decide) (.slp op n (rd d 0x800004) (rd d 0x800008))
    fun d1 => slpRun d1 op n (rd d 0x800004) (rd d 0x800008)
  exact ⟨p, by rw [slpCmd, if_pos hv, hpost, begun]⟩

end

/-- A command that only ends, with `st`, is refused with it. -/
theorem slpRefused_of_run {c : Instr} {s : State} {op n st : Nat}
    (hexec : exec c s = .next { s with dev := slpCmd s.dev op n }) (hv : resultValid s.dev 0x80000C = true)
    (hf : QmFree s.dev 2)
    (hrun : ∀ p, slpRun (begun s.dev p) op n (rd s.dev 0x800004) (rd s.dev 0x800008) = slpEnd (begun s.dev p) st) :
    SlpRefused c s st := by
  obtain ⟨p, hcmd⟩ := slpCmd_free hv hf op n
  rw [hcmd, hrun] at hexec
  exact ⟨_, hexec, rd_slpEnd st (rd_begun ..), rfl, rfl, rfl, rfl, rfl, rfl, rfl⟩

/-! ## The refusals of BIND (Table 4.5) -/

section
variable {d : Dev} {n k : Nat} {a0 : Word}

theorem slpBind_bad_arg (h : argRes a0 = none) : slpBind d n a0 = slpEnd d 3 := by simp [slpBind, h]

variable (hk : argRes a0 = some k)
include hk

theorem slpBind_bad_mode (hlo : 40 ≤ k) (hhi : k < 72) (hm : fieldMode d (k - 40) ≠ 2) :
    slpBind d n a0 = slpEnd d 3 := by
  simp [slpBind, hk, hlo, hhi, hm]

variable (hrel : fld a0 29 28 < 3) (hmode : 40 ≤ k → k < 72 → fieldMode d (k - 40) = 2)
include hrel hmode

/-- A resource that can be bound is refused for its slip's sake first. -/
theorem slpBind_arg_ok : slpBind d n a0 =
    if (slipOf d n).state = .free then slpEnd d 2
    else if (slipOf d n).state = .resetting ∨ !hasAuthority d then slpEnd d 7
    else if n = 0 ∨ (slipOf d n).cls ≠ 1 then slpEnd d 8
    else if (resOf d k).owner ≠ 0 ∧ (resOf d k).owner ≠ n then slpEnd d 10
    else slpEnd (mirrorNote (setRes d k { state := .commanded, release := relOf (fld a0 29 28), owner := n })
      2 (4096 + k)) 0 := by
  have hok : ¬ (fld a0 29 28 = 3 ∨ (40 ≤ k ∧ k < 72 ∧ fieldMode d (k - 40) ≠ 2)) := by
    rintro (h | ⟨hlo, hhi, hm⟩)
    · omega
    · exact hm (hmode hlo hhi)
  simp only [slpBind, hk, if_neg hok]

theorem slpBind_bad_class (hs : (slipOf d n).state = .active ∨ (slipOf d n).state = .detached)
    (ha : hasAuthority d = true) (hc : n = 0 ∨ (slipOf d n).cls ≠ 1) : slpBind d n a0 = slpEnd d 8 := by
  rw [slpBind_arg_ok hk hrel hmode]
  rcases hs with hs | hs <;> simp [hs, ha, hc]

theorem slpBind_ok (hn : n ≠ 0) (hs : (slipOf d n).state = .active ∨ (slipOf d n).state = .detached)
    (hc : (slipOf d n).cls = 1) (ha : hasAuthority d = true) (ho : (resOf d k).owner = 0 ∨ (resOf d k).owner = n) :
    slpBind d n a0 = slpEnd (mirrorNote (setRes d k { state := .commanded, release := relOf (fld a0 29 28), owner := n })
      2 (4096 + k)) 0 := by
  rw [slpBind_arg_ok hk hrel hmode]
  rcases hs with hs | hs <;> rcases ho with ho | ho <;> simp [hs, ho, hn, hc, ha]

end

/-! ## UNBIND and RELEASE (R130) -/

section
variable {d : Dev} {n k : Nat} {a0 : Word}

theorem slpUnbind_bad_arg (h : argRes a0 = none) : slpUnbind d n a0 = slpEnd d 3 := by simp [slpUnbind, h]

theorem slpUnbind_ok (hk : argRes a0 = some k) (ho : (resOf d k).owner = n) (hr : (resOf d k).state = .released)
    (hs : n = 0 ∨ (slipOf d n).state = .active ∨ (slipOf d n).state = .detached) (ha : hasAuthority d = true) :
    slpUnbind d n a0 = slpEnd (mirrorNote (setRes d k {}) 2 (4096 + k)) 0 := by
  rcases hs with hn | hs | hs <;> simp [slpUnbind, *]

theorem slpRelease_bad_arg (h : argRes a0 = none) : slpRelease d n a0 = slpEnd d 3 := by simp [slpRelease, h]

/-- A signal group after a release with state `rel` (R130). -/
def groupAfter (rel : RelState) (old : Word) : Word :=
  match rel with
  | .off => 0
  | .on => 0xFFFFFFFF
  | .hold => old

theorem setGroup_sig (d : Dev) (g : Nat) (v : Word) : (setGroup d g v).bwk.sig = tset 0 d.bwk.sig g v :=
  congrArg Bwk.sig (mirrorNote_bwk ..)

/-- A release of a group, or with HOLD, is applied at once and reaches only the signal group. -/
theorem releaseApply_at_once (d : Dev) {k : Nat} {rel : RelState} (hkind : 72 ≤ k ∨ rel = .hold) :
    ∃ t, releaseApply d k rel = (true, t) ∧ t.slips = d.slips ∧ t.ldc = d.ldc ∧ t.fio = d.fio ∧ t.regs = d.regs ∧
      ∀ g, tget 0 t.bwk.sig g =
        if k < 72 ∨ g ≠ k - 72 then tget 0 d.bwk.sig g else groupAfter rel (tget 0 d.bwk.sig g) := by
  have hgroup (h : 72 ≤ k) (v : Word) (hv : ∀ w, groupAfter rel w = v) (g : Nat) :
      tget 0 (setGroup d (k - 72) v).bwk.sig g =
        if k < 72 ∨ g ≠ k - 72 then tget 0 d.bwk.sig g else groupAfter rel (tget 0 d.bwk.sig g) := by
    rw [setGroup_sig, tget_tset, hv]
    by_cases hg : g = k - 72 <;> simp [hg, Nat.not_lt.2 h]
  have hload (h : 72 ≤ k) : ¬ k < 40 := by omega
  cases rel with
  | hold => exact ⟨d, rfl, rfl, rfl, rfl, rfl, fun g => (ite_self _).symm⟩
  | off =>
    have h : 72 ≤ k := hkind.resolve_right nofun
    refine ⟨setGroup d (k - 72) 0, ?_, mirrorNote_slips .., mirrorNote_ldc .., mirrorNote_fio .., mirrorNote_regs ..,
      hgroup h 0 fun _ => rfl⟩
    simp [releaseApply, hload h, Nat.not_lt.2 h]
  | on =>
    have h : 72 ≤ k := hkind.resolve_right nofun
    refine ⟨setGroup d (k - 72) 0xFFFFFFFF, ?_, mirrorNote_slips .., mirrorNote_ldc .., mirrorNote_fio ..,
      mirrorNote_regs .., hgroup h 0xFFFFFFFF fun _ => rfl⟩
    simp [releaseApply, hload h, Nat.not_lt.2 h]

/-- A group, or any resource whose release state is HOLD, is released at once: RELEASED, and the command ends OK. -/
theorem slpRelease_at_once (hk : argRes a0 = some k) (hn : n ≠ 0) (hs : (slipOf d n).state ≠ .free)
    (ho : (resOf d k).owner = n) (hb : (resOf d k).state ≠ .unbound) (ha : hasAuthority d = true)
    (hkind : 72 ≤ k ∨ (resOf d k).release = .hold) :
    ∃ t, slpRelease d n a0 = mirrorNote (slpEnd (setRes t k
        { resOf d k with state := .released, applying := false }) 0) 2 (4096 + k) ∧
      t.slips = (setRes d k { resOf d k with applying := true }).slips ∧ t.ldc = d.ldc ∧ t.fio = d.fio ∧
      t.regs = d.regs ∧ ∀ g, tget 0 t.bwk.sig g = if k < 72 ∨ g ≠ k - 72 then tget 0 d.bwk.sig g
        else groupAfter (resOf d k).release (tget 0 d.bwk.sig g) := by
  obtain ⟨t, happly, hslips, hldc, hfio, hregs, hsig⟩ :=
    releaseApply_at_once (setRes d k { resOf d k with applying := true }) hkind
  refine ⟨t, ?_, hslips, hldc, hfio, hregs, hsig⟩
  have hfound : ¬ (n ≠ 0 ∧ ((slipOf d n).state = .free ∨ (resOf d k).owner ≠ n ∨ (resOf d k).state = .unbound)) := by
    simp [hs, ho, hb]
  have hres : resOf t k = { resOf d k with applying := true } := by
    rw [resOf, hslips]
    exact (resOf_setRes ..).trans (if_pos rfl)
  simp only [slpRelease, hk, hn, false_and, false_or, if_false, if_neg hfound, ha, Bool.not_true, Bool.false_eq_true]
  rw [happly, releaseEnd, hres]
  rfl

end

/-! ## The statement -/

/-- A command that has put `x` into resource `k` and ended OK. -/
theorem resource_written {d t : Dev} {p k a : Nat} {x : Res}
    (h : t = slpEnd (mirrorNote (setRes (begun d p) k x) 2 a) 0) : resOf t k = x ∧ (∀ j, j ≠ k → resOf t j = resOf d j) ∧
      t.slips.tab = d.slips.tab ∧ t.ldc = d.ldc ∧ t.fio = d.fio ∧ t.bwk = d.bwk ∧ rd t 0x80000C = slpWord (rd d 0x80000C) 0 := by
  subst h
  refine ⟨by simp, fun j hj => by simp [hj], ?_, by simp, by simp, by simp, ?_⟩
  · rw [slpEnd_tab, mirrorNote_slips]
    rfl
  · exact rd_slpEnd 0 ((rd_mirrorNote ..).trans (rd_begun d p))

/-- Settles O17. Each command is served at once (`slpCmd_free`); BIND and UNBIND only write their resource and end
(`resource_written`), a RELEASE applied at once writes its signal group beside them (`slpRelease_at_once`). -/
theorem resourcesBindReleaseUnbind : Obligations.ResourcesBindReleaseUnbind := by
  unfold Obligations.ResourcesBindReleaseUnbind
  refine ⟨?bind, ?unbind, ?release, ?refused⟩
  case bind =>
    intro s n k hv hf hauth hk hrel hmode hn hstate hcls hown
    obtain ⟨p, hcmd⟩ := slpCmd_free hv hf 3 n
    have hrun := slpBind_ok (d := begun s.dev p) hk hrel (by simpa using hmode) hn hstate hcls hauth hown
    exact ⟨_, rfl, resource_written (hcmd.trans hrun)⟩
  case unbind =>
    intro s n k hv hf hauth hk hown hreleased hstate
    obtain ⟨p, hcmd⟩ := slpCmd_free hv hf 4 n
    have hrun := slpUnbind_ok (d := begun s.dev p) hk hown hreleased hstate hauth
    exact ⟨_, rfl, resource_written (hcmd.trans hrun)⟩
  case release =>
    intro s n k hv hf hauth hk hn hstate hown hbound hkind
    obtain ⟨p, hcmd⟩ := slpCmd_free hv hf 5 n
    obtain ⟨t, hrun, hslips, hldc, hfio, hregs, hsig⟩ :=
      slpRelease_at_once (d := begun s.dev p) hk hn hstate hown hbound hauth hkind
    refine ⟨{ s with dev := slpCmd s.dev 5 n }, rfl, ?_⟩
    have hother (j : Nat) (hj : j ≠ k) : resOf t j = resOf s.dev j := by
      rw [resOf, hslips]
      exact (resOf_setRes ..).trans (if_neg hj)
    have hresult : rd t 0x80000C = rd s.dev 0x80000C &&& 0x7FFFFFFF := by
      rw [rd, hregs]
      exact rd_begun ..
    simp only [hcmd.trans hrun]
    refine ⟨by simp, fun j hj => by simp [hj, hother], by simp [hldc], by simp [hfio], fun g => ?_, ?_⟩
    · rw [mirrorNote_bwk, slpEnd_bwk, setRes_bwk, hsig, begun_bwk, resOf_begun]
      cases (resOf s.dev k).release <;> rfl
    · exact (rd_mirrorNote ..).trans (rd_slpEnd 0 hresult)
  case refused =>
    intro s n hv hf hauth
    have hbind {st : Nat} (h : ∀ p, slpBind (begun s.dev p) n (rd s.dev 0x800004) = slpEnd (begun s.dev p) st) :
        SlpRefused (.bind n) s st := slpRefused_of_run (op := 3) rfl hv hf h
    have hunbind {n : Fin 4096} {st : Nat}
        (h : ∀ p, slpUnbind (begun s.dev p) n (rd s.dev 0x800004) = slpEnd (begun s.dev p) st) :
        SlpRefused (.unbind n) s st := slpRefused_of_run (op := 4) rfl hv hf h
    have hrelease {st : Nat} (h : ∀ p, slpRelease (begun s.dev p) n (rd s.dev 0x800004) = slpEnd (begun s.dev p) st) :
        SlpRefused (.release n) s st := slpRefused_of_run (op := 5) rfl hv hf h
    refine ⟨fun harg => ⟨hbind fun _ => slpBind_bad_arg harg, hunbind fun _ => slpUnbind_bad_arg harg,
      hrelease fun _ => slpRelease_bad_arg harg⟩, fun k hk hrel => ⟨fun hlo hhi hm => ?mode, fun hmode => ?bind,
      fun hactive hn hr => ?active, fun hn ho hr => ?unowned, fun ho => ?owned⟩⟩
    case mode => exact hbind fun p => slpBind_bad_mode hk hlo hhi (by simpa using hm)
    case bind =>
      have hjudged (p : Nat) := slpBind_arg_ok (d := begun s.dev p) (n := n) hk hrel (by simpa using hmode)
      refine ⟨fun hs => hbind fun p => ?_, fun hs => hbind fun p => ?_, fun hs => ⟨fun hc => hbind fun p => ?_,
        fun hn hc ho hother => hbind fun p => ?_⟩⟩
      · simp [hjudged, hs]
      · simp [hjudged, hs]
      · exact slpBind_bad_class (d := begun s.dev p) hk hrel (by simpa using hmode) hs hauth hc
      · rcases hs with hs | hs <;> simp [hjudged, hs, hauth, hn, hc, ho, hother]
    case active => exact hunbind fun p => by simp [slpUnbind, hk, hactive, hn, hr, hauth]
    case unowned => exact hunbind fun p => by simp [slpUnbind, hk, hn, ho, hr, hauth]
    case owned => exact hunbind fun p => by simp [slpUnbind, hk, ho]

end Sys2Proof.Proofs.SlipResources

/-! PROOFS. What the Quaymaster's shedding does to slips and rings (R30, R91, R108, R150): a change of the level sets
SHED_EVT, and a first rise refuses the queued punts late, which gives a frame's descriptor its outcome. -/

namespace Sys2Proof.Proofs.LateShedding

open Sys2Proof Sys2Proof.Machine

/-! ## A level that falls (R30, R91) -/

/-- The Quaymaster is halted by debug at level 1, its queue empty, as when the LOG_READs that filled it were cancelled
(R153). SHED_EVT is enabled; slip 0's vectors are closed. No SLP command runs. -/
def levelOne : State :=
  { State.reset with dev := { Dev.reset with
      rst := { inReset := 0, qmRunning := true }, clt := { qmHalted := true }
      qm := { shed := 1 }, regs := [(0x20, 2), (0x80000C, 0x80000000)] } }

/-- Queueing CREATE of slip 5 lets the level fall to 0: SHED_EVT is set, and the manager's vector stays pending. -/
theorem levelOne_create_pends : (slipOf (slpCmd levelOne.dev 1 5) 0).pba = 1 := by decide +kernel

/-- Refutes O16, by the clause that a command which waits for the Quaymaster changes nothing of the slips. Queueing it may
change the shedding level, whose event sends the manager's vector; while that is masked or closed, the pending bit of
slip 0 is set (R150), as it is in `levelOne`. -/
theorem not_slipCommandsAndTheirOutcomes : ¬ Obligations.SlipCommandsAndTheirOutcomes := by
  unfold Obligations.SlipCommandsAndTheirOutcomes
  rintro ⟨-, -, -, -, -, -, hwaits, -⟩
  have hvalid : resultValid levelOne.dev 0x80000C = true := by decide
  have hhalted : qmAwake levelOne.dev = false := by decide
  obtain ⟨t, ht, hslips, -, -⟩ := hwaits levelOne 5 (1, .create 5) hvalid hhalted (List.mem_cons_self ..)
  have hdev : t.dev = slpCmd levelOne.dev 1 5 := by cases ht; rfl
  have hbefore : (slipOf levelOne.dev 0).pba = 0 := by decide
  have hafter := levelOne_create_pends
  rw [← hdev, slipOf, hslips] at hafter
  exact absurd (hbefore.symm.trans hafter) (by decide)

/-! ## A punt refused late (R108) -/

theorem exec_logRead_dev {n : Fin 4096} {r : Fin 8} {s t : State} (h : exec (.logRead n r) s = .next t) :
    t.dev = logRead s.dev n r := by
  cases h
  rfl

theorem exec_loadSet_dev {n : Fin 4096} {r : Fin 8} {s t : State} (h : exec (.loadSet n r) s = .next t) :
    t.dev = loadSet s.dev n r := by
  cases h
  rfl

/-- A frame that names slot `i` of ring 0 of slip 1 as its descriptor. -/
def frameOfSlot (i : Nat) : Frame :=
  { uid := 7, body := .eth (List.replicate 60 0), inPort := 11, cls := 0, ts := 0, src := some ⟨1, 0, 0⟩, descIdx := i }

/-- That frame is punted, and 1,637 items of class 3 are queued behind its punt: one more item brings the queue to 80 %. -/
def crowded (i : Nat) (halted : Bool) (slips : Slips) (ldc : Ldc) : State :=
  { State.reset with dev := { Dev.reset with
      rst := { inReset := 0, qmRunning := true }, clt := { qmHalted := halted }
      qm := { queue := (5, .punt 7 false) :: List.replicate 1637 (3, .other 0) }
      basin := { marching := false, frames := [frameOfSlot i], nextUid := 8, punts := [⟨7, false⟩] }
      regs := [(0x2019A0, 16), (0x201C00, 16)], slips := slips, ldc := ldc } }

/-- A LOG_READ of 64 bytes at slot 0. -/
def logDesc : Desc := { idx := 0, words := [0x31000000, 0, 0, 0, 64], stage := .ready }

/-- The Quaymaster is halted, and slip 1, of class 2, has a LOG_READ ready at the slot that the punted frame names: it came
from there before a reset of the slip, which with a PCIe source waits for no descriptor (R151, step 6). -/
def crowdedLog : State := crowded 0 true
  { tab := [(0, slip0), (1, { state := .active, cls := 2 })], rings := [(8, { active := true, inflight := [logDesc] })] } {}

theorem crowdedLog_ready : ReadyAtFront crowdedLog (1 : Fin 4096) (0 : Fin 8) logDesc [] :=
  ⟨⟨rfl, by simp, rfl, rfl⟩, rfl, by simp, by decide⟩

/-- The frame's verdict completes the LOG_READ that was to wait. -/
theorem crowdedLog_completes : (ringOf (logRead crowdedLog.dev 1 0) 1 0).inflight = [] := by decide +kernel

/-- Refutes O20, by the clause that a LOG_READ waits in its ring while the Quaymaster is halted. Queueing it may bring the
first rise of the shedding level, which discards the punts; the second lookup of a punted frame that names the same slot
then completes it (R108, R142), as in `crowdedLog`. -/
theorem not_operationsComplete : ¬ Obligations.OperationsComplete := by
  unfold Obligations.OperationsComplete
  rintro ⟨hready, -⟩
  obtain ⟨-, -, -, -, -, hwaits, -⟩ := hready crowdedLog 1 0 logDesc [] crowdedLog_ready
  have hhalted : qmAwake crowdedLog.dev = false := by decide
  obtain ⟨t, ht, hring, -, -⟩ := hwaits (by decide) hhalted
  rw [exec_logRead_dev ht] at hring
  exact List.cons_ne_nil _ _ (hring.symm.trans crowdedLog_completes)

/-- LOAD_SET of load channel 0 to off at slot `i`. -/
def offDesc (i : Nat) : Desc := { idx := i, words := [0x20000000], stage := .ready }

/-- Slip 1, of class 1, commands load channel 0, which is forced off with its gate still on and a sample block open. Two
LOAD_SETs are ready, the second at the slot that the punted frame names. -/
def crowdedLoad : State := crowded 1 false
  { tab := [(0, slip0), (1, { state := .active, cls := 1 })]
    rings := [(8, { active := true, inflight := [offDesc 0, offDesc 1] })]
    res := [(0, { state := .commanded, owner := 1 })] }
  { gateHold := false, ch := [(0, { forced := true, gate := true, block := { samples := [0] } })] }

theorem crowdedLoad_ready : ReadyAtFront crowdedLoad (1 : Fin 4096) (0 : Fin 8) (offDesc 0) [offDesc 1] :=
  ⟨⟨rfl, by simp [offDesc], rfl, rfl⟩, rfl, by simp [offDesc], by decide⟩

/-- The turn-off closes the sample block; its frame is punted, the first rise refuses the older punt, and its verdict
completes the second LOAD_SET along with the first. -/
theorem crowdedLoad_completes : (ringOf (loadSet crowdedLoad.dev 1 0) 1 0).inflight = [] := by decide +kernel

/-- Refutes O22, by the clause that a LOAD_SET to a forced channel completes and leaves the descriptors behind it in flight.
The recorded command is judged (R236): in `crowdedLoad` it turns the gate off, which sends a sample block (R256), whose
punt sheds the older one (R30, R108). The clause asks nothing about the gate; where it agrees with the forced state, no
block is closed. -/
theorem not_outputCommandsComplete : ¬ Obligations.OutputCommandsComplete := by
  unfold Obligations.OutputCommandsComplete
  rintro ⟨hready, -⟩
  obtain ⟨hload, -⟩ := hready crowdedLoad 1 0 (offDesc 0) [offDesc 1] crowdedLoad_ready
  obtain ⟨-, hforced, -⟩ := hload (by decide) 0 (by decide) (by decide)
  obtain ⟨t, _, _, ht, ⟨-, hrest, -⟩, -⟩ := hforced (by decide) (by decide)
  rw [exec_loadSet_dev ht] at hrest
  exact List.cons_ne_nil _ _ (hrest.symm.trans crowdedLoad_completes)

end Sys2Proof.Proofs.LateShedding

/-! PROOFS. Slip resets (R125, R151–R153): what a request leaves alone, the virtual functions, and the end of the
sequence. -/

namespace Sys2Proof.Proofs.SlipResets

open Sys2Proof Sys2Proof.Machine Sys2Proof.Laws Sys2Proof.Proofs.FreedCells Sys2Proof.Proofs.SlipMessages
open Sys2Proof.Proofs.SlipResources

/-! ## What a reset request leaves alone -/

/-- From `d` to `t` the outputs, the running SLP command and the host's settings are as before, no SLP event falls, and no
ring begins to fetch. -/
structure Aside (d t : Dev) : Prop where
  loads : t.ldc = d.ldc
  fields : t.fio = d.fio
  result : rd t 0x80000C = rd d 0x80000C
  events : ∀ b, bit (rd d 0x80001C) b = true → bit (rd t 0x80001C) b = true
  wait : t.slips.cmdWait = d.slips.cmdWait
  vfOn : t.slips.vfEnable = d.slips.vfEnable
  vfs : t.slips.numVfs = d.slips.numVfs
  active : ∀ m r, (ringOf t m r).active = (ringOf d m r).active
  stopped : ∀ m r, (ringOf d m r).fetchOn = false → (ringOf t m r).fetchOn = false

/-- `Aside`, and every slip is in its state and every resource as it was. -/
structure Calm (d t : Dev) : Prop extends Aside d t where
  states : ∀ m, (slipOf t m).state = (slipOf d m).state
  res : t.slips.res = d.slips.res

theorem Aside.trans {a b c : Dev} (h : Aside a b) (g : Aside b c) : Aside a c where
  loads := g.loads.trans h.loads
  fields := g.fields.trans h.fields
  result := g.result.trans h.result
  events i hi := g.events i (h.events i hi)
  wait := g.wait.trans h.wait
  vfOn := g.vfOn.trans h.vfOn
  vfs := g.vfs.trans h.vfs
  active m r := (g.active m r).trans (h.active m r)
  stopped m r hf := g.stopped m r (h.stopped m r hf)

theorem Calm.trans {a b c : Dev} (h : Calm a b) (g : Calm b c) : Calm a c where
  toAside := h.toAside.trans g.toAside
  states m := (g.states m).trans (h.states m)
  res := g.res.trans h.res

theorem Aside.of_rings {d t : Dev} (hrings : t.slips.rings = d.slips.rings) (hwait : t.slips.cmdWait = d.slips.cmdWait)
    (hvfOn : t.slips.vfEnable = d.slips.vfEnable) (hvfs : t.slips.numVfs = d.slips.numVfs) (hldc : t.ldc = d.ldc)
    (hfio : t.fio = d.fio) (hregs : t.regs = d.regs) : Aside d t where
  loads := hldc
  fields := hfio
  result := by simp only [rd, hregs]
  events _ h := by simpa only [rd, hregs] using h
  wait := hwait
  vfOn := hvfOn
  vfs := hvfs
  active _ _ := by simp only [ringOf, hrings]
  stopped _ _ h := by simpa only [ringOf, hrings] using h

theorem Aside.refl (d : Dev) : Aside d d := .of_rings rfl rfl rfl rfl rfl rfl rfl

theorem Calm.of_same {d t : Dev} (hslips : t.slips = d.slips) (hldc : t.ldc = d.ldc) (hfio : t.fio = d.fio)
    (hregs : t.regs = d.regs) : Calm d t where
  toAside := by apply Aside.of_rings <;> simp only [hslips, hldc, hfio, hregs]
  states _ := by simp only [slipOf, hslips]
  res := congrArg Slips.res hslips

theorem Calm.refl (d : Dev) : Calm d d := .of_same rfl rfl rfl rfl

theorem Calm.ite {c : Prop} [Decidable c] {d a b : Dev} (ha : Calm d a) (hb : Calm d b) : Calm d (if c then a else b) := by
  split <;> assumption

/-- What is calm stays calm for a device with the same slips whose registers alone differ. -/
theorem Calm.with_regs {d u t : Dev} (h : Calm d u) (hslips : t.slips = u.slips) (hldc : t.ldc = d.ldc)
    (hfio : t.fio = d.fio) (hresult : rd t 0x80000C = rd d 0x80000C)
    (hevents : ∀ b, bit (rd d 0x80001C) b = true → bit (rd t 0x80001C) b = true) : Calm d t where
  loads := hldc
  fields := hfio
  result := hresult
  events := hevents
  wait := by rw [hslips, h.wait]
  vfOn := by rw [hslips, h.vfOn]
  vfs := by rw [hslips, h.vfs]
  active m r := by rw [← h.active m r]; simp only [ringOf, hslips]
  stopped m r hf := by simpa only [ringOf, hslips] using h.stopped m r hf
  states m := by rw [← h.states m]; simp only [slipOf, hslips]
  res := by rw [hslips, h.res]

section
variable (d : Dev)

/-! ## Writes of slips, rings and registers -/

theorem inc_calm (a : Nat) : Calm d (inc d a) := .of_same rfl rfl rfl rfl
theorem cntAdd_calm (a n : Nat) : Calm d (cntAdd d a n) := .of_same rfl rfl rfl rfl
theorem emit_calm (o : Out) : Calm d (emit d o) := .of_same rfl rfl rfl rfl
theorem setBasin_calm (b : Basin) : Calm d (setBasin d b) := .of_same rfl rfl rfl rfl
theorem setCan_calm (n : Nat) (c : Can) : Calm d (setCan d n c) := .of_same rfl rfl rfl rfl

theorem wr_calm {a : Nat} (v : Word) (h : a ∉ [0x80000C, 0x80001C]) : Calm d (wr d a v) := by
  simp only [List.mem_cons, List.not_mem_nil, or_false, not_or] at h
  obtain ⟨hresult, hevents⟩ := h
  refine (Calm.refl d).with_regs rfl rfl rfl ?_ fun b hb => ?_
  · rw [rd_wr, if_neg (Ne.symm hresult)]
  · rwa [rd_wr, if_neg (Ne.symm hevents)]

variable {d}

theorem setSlip_aside (n : Nat) (x : Slip) : Aside d (setSlip d n x) := .of_rings rfl rfl rfl rfl rfl rfl rfl

theorem setSlip_calm {n : Nat} {x : Slip} (h : x.state = (slipOf d n).state) : Calm d (setSlip d n x) where
  toAside := setSlip_aside n x
  states m := by
    rw [slipOf_setSlip]
    split
    · subst m; exact h
    · rfl
  res := rfl

theorem setRing_calm {n r : Nat} {x : Ring} (hactive : x.active = (ringOf d n r).active)
    (hstopped : (ringOf d n r).fetchOn = false → x.fetchOn = false) : Calm d (setRing d n r x) := by
  have hring (m q : Nat) (h : 8 * m + q = 8 * n + r) : ringOf d m q = ringOf d n r :=
    congrArg (tget ({} : Ring) d.slips.rings) h
  refine { toAside := { Aside.refl d with active := fun m q => ?_, stopped := fun m q hf => ?_ }
           states := fun _ => rfl, res := rfl }
  · rw [ringOf_setRing]
    split
    case isTrue h => rw [hring m q h, hactive]
    case isFalse => rfl
  · rw [ringOf_setRing]
    split
    case isTrue h => exact hstopped (hring m q h ▸ hf)
    case isFalse => exact hf

variable (d)

/-! ## Messages and events (R91, R150) -/

theorem sendVec_calm (n v : Nat) : Calm d (sendVec d n v) := .ite (emit_calm ..) (setSlip_calm rfl)

/-- A vector sent or left pending from a device with the same slips. -/
theorem sendVec_slips_calm {d e : Dev} (h : e.slips = d.slips) (n v : Nat) :
    ∃ u, Calm d u ∧ (sendVec e n v).slips = u.slips := by
  simp only [sendVec]
  split
  · exact ⟨d, .refl d, h⟩
  · exact ⟨setSlip d n { slipOf d n with pba := (slipOf d n).pba ||| (1#8 <<< v) }, setSlip_calm rfl,
      by simp only [setSlip, slipOf, h]⟩

theorem setEv_calm (src en b inst : Nat) (detail : Word) {ev : Nat} (h : ev ≠ 0x80000C) :
    Calm d (setEv d src ev en b inst detail) := by
  have hslips : ∃ u, Calm d u ∧ (setEv d src ev en b inst detail).slips = u.slips := by
    simp only [setEv]
    split
    · exact ⟨d, .refl d, rfl⟩
    · split
      · exact sendVec_slips_calm (by simp) ..
      · exact ⟨d, .refl d, logRecord_slips ..⟩
  obtain ⟨u, hu, hslips⟩ := hslips
  refine hu.with_regs hslips (setEv_ldc ..) (setEv_fio ..) ?_ fun i => setEv_keeps d src ev en b inst detail _ i
  rw [rd_setEv, if_neg fun hev => h hev.1.symm]

theorem evSw_calm (b inst : Nat) : Calm d (evSw d b inst) := setEv_calm _ _ _ _ _ _ (by decide)
theorem evDev_calm (b : Nat) : Calm d (evDev d b) := setEv_calm _ _ _ _ _ _ (by decide)
theorem evSvc_calm (b inst : Nat) : Calm d (evSvc d b inst) := setEv_calm _ _ _ _ _ _ (by decide)
theorem evSlp_calm (b inst : Nat) : Calm d (evSlp d b inst) := setEv_calm _ _ _ _ _ _ (by decide)

/-! ## Freed cells and the Logbook (R44, R54, R84) -/

theorem pfcJudge_calm (p c : Nat) : Calm d (pfcJudge d p c) := by
  obtain h | ⟨m, xoff, -, -, -, h⟩ := pfcJudge_cases d p c
  · rw [h]; exact .refl d
  · rw [h]; exact .of_same rfl rfl rfl rfl

theorem reserveBring_calm (r : Nat) : Calm d (reserveBring d r) := by
  have hnote (d : Dev) : Calm d (reserveNote d r) :=
    (evSvc_calm ..).trans ((evDev_calm ..).trans (.ite (evSvc_calm ..) (.refl _)))
  have hused (s : Svc) : Calm d { d with svc := s } := .of_same rfl rfl rfl rfl
  exact (hused _).trans (hnote _)

theorem retireCell_calm (c : Nat) : Calm d (retireCell d c) := by
  unfold retireCell
  extract_lets b b1 d1 d2 d3 reserves
  have h1 : Calm d d1 := .ite (setBasin_calm ..) (setBasin_calm ..)
  have h2 : Calm d1 d2 := .ite ((evSw_calm ..).trans (reserveBring_calm ..)) ((evSw_calm ..).trans (evDev_calm ..))
  have h3 : Calm d2 d3 := .ite (evSw_calm ..) (.refl _)
  have h : Calm d d3 := h1.trans (h2.trans h3)
  exact .ite (.refl d) (.ite (h.trans ((setBasin_calm ..).trans (evSw_calm ..))) h)

theorem freeIfDone_calm (uid : Nat) : Calm d (freeIfDone d uid) := by
  unfold freeIfDone
  split
  · exact .refl d
  · extract_lets due _ d1
    have hdue : Calm d1 (due.foldl (fun d e => retireCell d e.2) d1) :=
      rel_foldl .refl .trans (fun d (e : Nat × Nat) => retireCell_calm d e.2) ..
    exact .ite (.refl d) ((setBasin_calm ..).trans (hdue.trans (pfcJudge_calm ..)))

theorem leaveQueue_calm (e : QEntry) : Calm d (leaveQueue d e) := (setBasin_calm ..).trans (freeIfDone_calm ..)

theorem lbLose_calm (c : LbCopy) : Calm d (lbLose d c) :=
  (setBasin_calm ..).trans ((inc_calm ..).trans ((evSw_calm ..).trans (freeIfDone_calm ..)))

theorem lbSlipLeaves_calm (n : Nat) : Calm d (lbSlipLeaves d n) := by
  have hlose (l : List LbCopy) (d : Dev) : Calm d (l.foldl lbLose d) := rel_foldl .refl .trans lbLose_calm l d
  exact .ite ((wr_calm d _ (by decide)).trans ((hlose _ _).trans (evSw_calm ..))) (.refl d)

theorem slipDiscard_calm (n : Nat) : Calm d (slipDiscard d n) :=
  rel_foldl .refl .trans (fun d e => (inc_calm d _).trans (leaveQueue_calm _ e)) ..

theorem hpPurge_calm (slip ring : Nat) (whole : Bool) : Calm d (hpPurge d slip ring whole) := by
  unfold hpPurge
  extract_lets goes d1
  have hcans : Calm d d1 := by
    refine rel_foldl .refl .trans (fun d n => ?_) ..
    split
    · exact (cntAdd_calm ..).trans (setCan_calm ..)
    · exact .refl d
  clear_value d1
  split
  · exact hcans.trans (.of_same rfl rfl rfl rfl)
  · exact hcans

/-! ## Rings (R133, R137, R153) -/

/-- The engine's slots have no register, so that a cancellation touches the slots and their counters alone. -/
theorem engineCancel_eq (n r : Nat) (x : Desc) : ∃ k c, engineCancel d n r x = { d with keys := k, cnts := c } := by
  unfold engineCancel
  split
  · split
    case h_1 s hs =>
      have hengine : s < 8 := List.mem_range.1 (List.mem_of_find?_eq_some hs)
      split
      · exact ⟨_, _, rfl⟩
      · simp only [mbxCancelled, hengine, if_true]
        split <;> exact ⟨_, _, rfl⟩
    case h_2 => exact ⟨_, _, rfl⟩
  · exact ⟨_, _, rfl⟩

/-- What a squashed ring's descriptors waited for is called off. -/
def callOff (d : Dev) (n r : Nat) (l : List Desc) : Dev :=
  l.foldl (fun d x => logCancel (engineCancel d n r x) n r x.idx) d

theorem callOff_keeps (n r : Nat) (l : List Desc) : Calm d (callOff d n r l) ∧ (callOff d n r l).slips = d.slips := by
  refine rel_foldl (R := fun a b => Calm a b ∧ b.slips = a.slips) (fun d => ⟨.refl d, rfl⟩)
    (fun h g => ⟨h.1.trans g.1, g.2.trans h.2⟩) (fun d x => ?_) l d
  obtain ⟨k, c, h⟩ := engineCancel_eq d n r x
  rw [h]
  exact ⟨.of_same rfl rfl rfl rfl, rfl⟩

theorem dropReads_calm (n r : Nat) (p : Nat → Bool) : Calm d (dropReads d n r p) :=
  { toAside := .of_rings rfl rfl rfl rfl rfl rfl rfl, states := fun _ => rfl, res := rfl }

theorem ringIrq_calm (n r : Nat) : Calm d (ringIrq d n r) :=
  .ite (.ite (setRing_calm rfl id) (.ite (sendVec_calm ..) ((sendVec_calm ..).trans (setRing_calm rfl id)))) (.refl d)

theorem writeCompl_calm (n r : Nat) (x : Desc) (c : Compl) : Calm d (writeCompl d n r x c) := by
  unfold writeCompl
  extract_lets g g1 s0 d0
  have hcount : Calm d d0 := by
    unfold d0
    split
    · exact setSlip_calm rfl
    · exact .refl d
  have hring : ringOf d0 n r = g := by
    unfold d0
    split <;> rfl
  refine .ite (hcount.trans (setRing_calm (by rw [hring]) (by rw [hring]; exact id))) ?_
  refine hcount.trans (.trans (setRing_calm ?_ ?_) ((emit_calm ..).trans ((emit_calm ..).trans (ringIrq_calm ..))))
  · rw [hring]
  · rw [hring]
    exact id

theorem flushList_calm (n r : Nat) (l : List Desc) : Calm d (flushList d n r l) := by
  induction l generalizing d with
  | nil => exact .refl d
  | cons x l ih =>
    unfold flushList
    split
    · exact (writeCompl_calm ..).trans (ih _)
    · exact .refl d

theorem squashRing_calm (n r : Nat) (reset : Bool) : Calm d (squashRing d n r reset) := by
  unfold squashRing
  extract_lets g judge d1 gone
  obtain ⟨hcalled, hslips⟩ := callOff_keeps d n r g.inflight
  have hring : ringOf (dropReads d1 n r gone) n r = g :=
    (congrArg (tget ({} : Ring) · (8 * n + r)) (congrArg Slips.rings hslips) :)
  refine hcalled.trans ((dropReads_calm ..).trans (.trans (setRing_calm ?_ ?_) (flushList_calm ..)))
  · exact (congrArg Ring.active hring).symm
  · exact fun h => (congrArg Ring.fetchOn hring).symm.trans h

theorem ringStop_calm (n r : Nat) : Calm d (ringStop d n r) :=
  .ite (setRing_calm rfl fun _ => rfl) (.refl d)

end

/-! ## A reset request (R151, Table 4.4) -/

section
variable (d : Dev) (n : Nat)

/-- The rings of a slip stop and are squashed (R151, step 3). -/
def stopRings (l : List Nat) : Dev := l.foldl (fun d r => squashRing (ringStop d n r) n r true) d

theorem stopRings_calm (l : List Nat) : Calm d (stopRings d n l) :=
  rel_foldl .refl .trans (fun d r => (ringStop_calm d n r).trans (squashRing_calm ..)) l d

theorem ringStop_stopped {r : Nat} (h : (ringOf d n r).active = true) : (ringOf (ringStop d n r) n r).fetchOn = false := by
  cases hf : (ringOf d n r).fetchOn <;> simp [ringStop, h, hf]

theorem stopRings_stopped {l : List Nat} {r : Nat} (hr : r ∈ l) (h : (ringOf d n r).active = true) :
    (ringOf (stopRings d n l) n r).fetchOn = false := by
  obtain ⟨before, after, rfl⟩ := List.append_of_mem hr
  have hactive : (ringOf (stopRings d n before) n r).active = true := ((stopRings_calm d n before).active n r).trans h
  rw [stopRings, List.foldl_append, List.foldl_cons]
  exact (stopRings_calm ..).stopped n r ((squashRing_calm ..).stopped n r (ringStop_stopped _ n hactive))

/-- A resource of a slip that is reset: HELD if it is bound to it (R129). -/
def heldBy (x : Res) : Res := if n ≠ 0 ∧ x.owner = n ∧ x.state ≠ .unbound then { x with state := .held } else x

theorem heldBy_heldBy (x : Res) : heldBy n (heldBy n x) = heldBy n x := by
  unfold heldBy
  split <;> simp_all

theorem heldBy_eq {x : Res} (hn : n ≠ 0) (ho : x.owner = n) (hb : x.state ≠ .unbound) :
    heldBy n x = { x with state := .held } := if_pos ⟨hn, ho, hb⟩

/-- One resource of `holdAll`. -/
def holdOne (k : Nat) : Dev :=
  let x := resOf d k
  if n ≠ 0 ∧ x.owner = n ∧ x.state ≠ .unbound then setRes d k { x with state := .held } else d

theorem holdAll_eq : holdAll d n = (List.range 88).foldl (holdOne · n) d := rfl

theorem holdOne_aside (k : Nat) : Aside d (holdOne d n k) := by
  simp only [holdOne]
  split
  · exact .of_rings rfl rfl rfl rfl rfl rfl rfl
  · exact .refl d

@[simp] theorem slipOf_holdOne (k m : Nat) : slipOf (holdOne d n k) m = slipOf d m := by
  simp only [holdOne]
  split <;> rfl

theorem resOf_holdOne (k j : Nat) : resOf (holdOne d n k) j = if j = k then heldBy n (resOf d j) else resOf d j := by
  simp only [holdOne, heldBy]
  by_cases hj : j = k
  · subst hj
    split <;> simp
  · split <;> simp [hj]

theorem resOf_foldl_holdOne (l : List Nat) (k : Nat) :
    resOf (l.foldl (holdOne · n) d) k = if k ∈ l then heldBy n (resOf d k) else resOf d k := by
  induction l generalizing d with
  | nil => rfl
  | cons j l ih =>
    rw [List.foldl_cons, ih, resOf_holdOne]
    by_cases hk : k = j <;> simp [hk, heldBy_heldBy]

theorem resOf_holdAll {k : Nat} (h : k < 88) : resOf (holdAll d n) k = heldBy n (resOf d k) := by
  rw [holdAll_eq, resOf_foldl_holdOne, if_pos (List.mem_range.2 h)]

theorem holdAll_keeps : Aside d (holdAll d n) ∧ ∀ m, slipOf (holdAll d n) m = slipOf d m := by
  rw [holdAll_eq]
  exact rel_foldl (R := fun a b => Aside a b ∧ ∀ m, slipOf b m = slipOf a m) (fun d => ⟨.refl d, fun _ => rfl⟩)
    (fun h g => ⟨h.1.trans g.1, fun m => (g.2 m).trans (h.2 m)⟩)
    (fun d k => ⟨holdOne_aside d n k, slipOf_holdOne d n k⟩) ..

variable {d n}

/-- An ACTIVE slip is marked, its rings and frames are dropped, and its resources held. -/
theorem slipReset_active (h : (slipOf d n).state = .active) (pcie destroy : Bool) :
    ∃ x u, x.state = .resetting ∧ slipReset d n pcie destroy = holdAll u n ∧
      Calm (setSlip (lbSlipLeaves d n) n x) u ∧ ∀ r < 8, (ringOf d n r).active = true → (ringOf u n r).fetchOn = false := by
  have hleaves := lbSlipLeaves_calm d n
  have hpurged (d : Dev) : Calm d (hpPurge (slipDiscard d n) n 0 true) := (slipDiscard_calm ..).trans (hpPurge_calm ..)
  simp only [slipReset, h]
  refine ⟨_, _, ?_, rfl, (stopRings_calm _ n _).trans (hpurged _), fun r hr hactive => ?_⟩
  · rfl
  · refine (hpurged _).stopped n r (stopRings_stopped _ n (List.mem_range.2 hr) ?_)
    exact (hleaves.active n r).trans hactive

/-- A request at a slip that is not ACTIVE only marks the slip. -/
theorem slipReset_inactive (h : (slipOf d n).state ≠ .active) (pcie destroy : Bool) :
    Calm d (slipReset d n pcie destroy) := by
  cases hs : (slipOf d n).state with
  | free =>
    simp only [slipReset, hs]
    exact .refl d
  | detached =>
    simp only [slipReset, hs]
    exact setSlip_calm hs.symm
  | resetting =>
    simp only [slipReset, hs]
    split
    · exact setSlip_calm hs.symm
    · exact .refl d
  | active => exact absurd hs h

/-- A request never touches an output, the running command or the host's settings. -/
theorem slipReset_aside (pcie destroy : Bool) : Aside d (slipReset d n pcie destroy) := by
  by_cases h : (slipOf d n).state = .active
  · obtain ⟨x, u, -, hreset, hcalm, -⟩ := slipReset_active h pcie destroy
    rw [hreset]
    exact (lbSlipLeaves_calm d n).toAside.trans ((setSlip_aside n x).trans (hcalm.toAside.trans (holdAll_keeps u n).1))
  · exact (slipReset_inactive h pcie destroy).toAside

/-- A request makes its slip RESETTING if it is ACTIVE, and changes the state of no slip else. -/
theorem state_slipReset (pcie destroy : Bool) (m : Nat) : (slipOf (slipReset d n pcie destroy) m).state =
    if m = n ∧ (slipOf d n).state = .active then .resetting else (slipOf d m).state := by
  by_cases h : (slipOf d n).state = .active
  · obtain ⟨x, u, hx, hreset, hcalm, -⟩ := slipReset_active h pcie destroy
    rw [hreset, (holdAll_keeps u n).2, hcalm.states, slipOf_setSlip]
    by_cases hm : m = n
    · simp [hm, h, hx]
    · simpa [hm] using (lbSlipLeaves_calm d n).states m
  · simpa [h] using (slipReset_inactive h pcie destroy).states m

/-- The resources of a slip that is reset are HELD, and stay its own. -/
theorem slipReset_held (h : (slipOf d n).state = .active) (hn : n ≠ 0) (pcie destroy : Bool) {k : Nat} (hk : k < 88)
    (ho : (resOf d k).owner = n) (hb : (resOf d k).state ≠ .unbound) :
    resOf (slipReset d n pcie destroy) k = { resOf d k with state := .held } := by
  obtain ⟨x, u, -, hreset, hcalm, -⟩ := slipReset_active h pcie destroy
  have hres : resOf u k = resOf d k := by
    simp only [resOf, hcalm.res]
    exact congrArg (tget ({} : Res) · k) (lbSlipLeaves_calm d n).res
  rw [hreset, resOf_holdAll u n hk, hres, heldBy_eq n hn ho hb]

theorem slipReset_stopped (h : (slipOf d n).state = .active) (pcie destroy : Bool) {r : Nat} (hr : r < 8)
    (hactive : (ringOf d n r).active = true) : (ringOf (slipReset d n pcie destroy) n r).fetchOn = false := by
  obtain ⟨x, u, -, hreset, -, hstopped⟩ := slipReset_active h pcie destroy
  rw [hreset]
  exact (holdAll_keeps u n).1.stopped n r (hstopped r hr hactive)

/-! ## A reset from a PCIe source (Table 4.12) -/

/-- A reset by the host is a request after events; of an ACTIVE slip it raises HOST_RESET. -/
theorem hostReset_request (d : Dev) (n : Nat) : ∃ u, Calm d u ∧ hostReset d n = slipReset u n true false ∧
    ((slipOf d n).state = .active → bit (rd u 0x80001C) 2 = true) := by
  refine ⟨_, .trans (.ite (evSlp_calm d 2 n) (.refl d)) (.ite (evSlp_calm _ 3 n) (.refl _)), rfl, fun h => ?_⟩
  have hdetach (u : Dev) (c : Prop) [Decidable c] : Calm u (if c then evSlp u 3 n else u) :=
    .ite (evSlp_calm ..) (.refl u)
  refine (hdetach _ _).events 2 ?_
  rw [if_pos h]
  exact setEv_bit _ _ _ _ _ _ _ (by decide)

theorem hostReset_aside (d : Dev) (n : Nat) : Aside d (hostReset d n) := by
  obtain ⟨u, hcalm, hreset, -⟩ := hostReset_request d n
  rw [hreset]
  exact hcalm.toAside.trans (slipReset_aside ..)

theorem state_hostReset (d : Dev) (n m : Nat) : (slipOf (hostReset d n) m).state =
    if m = n ∧ (slipOf d n).state = .active then .resetting else (slipOf d m).state := by
  obtain ⟨u, hcalm, hreset, -⟩ := hostReset_request d n
  rw [hreset, state_slipReset, hcalm.states, hcalm.states]

end

/-! ## The virtual functions (R122, R125, Table 4.12) -/

theorem exists_mem_of_tget_ne {α : Type} {x : α} {t : List (Nat × α)} {k : Nat} (h : tget x t k ≠ x) :
    (k, tget x t k) ∈ t := by
  induction t with
  | nil => exact absurd rfl h
  | cons e t ih =>
    simp only [tget] at h ⊢
    split
    case isTrue he => simp [← he]
    case isFalse he => exact List.mem_cons_of_mem _ (ih (by simpa [he] using h))

section
variable {d : Dev} {m : Nat}

/-- A host slip that is not FREE is among those that are reset with the functions. -/
theorem mem_hostSlips (hs : (slipOf d m).state ≠ .free) (hm : m ≠ 0) (hi : internalSlip d m = false) : m ∈ hostSlips d := by
  have hentry : (m, slipOf d m) ∈ d.slips.tab := exists_mem_of_tget_ne fun h => hs (congrArg Slip.state h)
  simp only [hostSlips, created, List.mem_filter, List.mem_map]
  exact ⟨⟨_, ⟨hentry, by simp [hs]⟩, rfl⟩, by simp [hm, hi]⟩

theorem hostReset_not_active (n : Nat) (h : (slipOf d m).state ≠ .active ∨ m = n) :
    (slipOf (hostReset d n) m).state ≠ .active := by
  rw [state_hostReset]
  split
  · nofun
  · rcases h with h | rfl
    · exact h
    · simp_all

/-- Of the slips that the host resets none stays ACTIVE. -/
theorem hostResets_not_active {l : List Nat} {d : Dev} (h : (slipOf d m).state ≠ .active ∨ m ∈ l) :
    (slipOf (l.foldl hostReset d) m).state ≠ .active := by
  induction l generalizing d with
  | nil => exact h.resolve_right (by simp)
  | cons n l ih =>
    refine ih ?_
    by_cases hm : m ∈ l
    · exact .inr hm
    · exact .inl (hostReset_not_active n (by simpa [hm] using h))

/-- The device with VF Enable cleared. -/
def vfOff (d : Dev) : Dev := { d with slips := { d.slips with vfEnable := false, numVfs := 0 } }

theorem vfDisable_eq (d : Dev) : vfDisable d = (hostSlips (vfOff d)).foldl hostReset (vfOff d) := rfl

theorem vfDisable_aside (d : Dev) : Aside (vfOff d) (vfDisable d) := rel_foldl .refl .trans hostReset_aside ..

theorem vfDisable_not_active (hm : m ≠ 0) (hi : internalSlip d m = false) : (slipOf (vfDisable d) m).state ≠ .active := by
  have hsame : slipOf (vfOff d) m = slipOf d m := rfl
  rw [vfDisable_eq]
  refine hostResets_not_active ?_
  by_cases hs : (slipOf d m).state = .active
  · exact .inr (mem_hostSlips (by simp [hsame, hs]) hm hi)
  · exact .inl (by rwa [hsame])

theorem pfReset_vfs (d : Dev) : (pfReset d).slips.vfEnable = false :=
  (hostReset_aside (vfDisable d) 0).vfOn.trans (vfDisable_aside d).vfOn

/-- After a reset of the physical function no host slip is ACTIVE, slip 0 included. -/
theorem pfReset_not_active (h : m = 0 ∨ internalSlip d m = false) : (slipOf (pfReset d) m).state ≠ .active := by
  have hreset : (slipOf (hostReset (vfDisable d) 0) m).state ≠ .active := by
    refine hostReset_not_active 0 ?_
    by_cases hm : m = 0
    · exact .inr hm
    · exact .inl (vfDisable_not_active hm (h.resolve_left hm))
  simpa only [pfReset, slipOf] using hreset

end

/-- The device with VF Enable set. -/
def vfOn (d : Dev) (k : Nat) (ctl : HostCtl) : Dev :=
  { d with slips := { d.slips with vfEnable := true, numVfs := k, ctl := ctl } }

/-- The functions that VF Enable covers exist, and their slips are attached (R122). -/
theorem attached_vfOn {d : Dev} {m k : Nat} (hpos : 0 < m) (hm : m ≤ k) (hk : k ≤ hostMax d) (ctl : HostCtl) :
    attached (vfOn d k ctl) m = true := by
  have hmax : m ≤ hostMax (vfOn d k ctl) := hm.trans hk
  have hset : (vfOn d k ctl).slips.vfEnable = true := rfl
  have hvfs : m ≤ (vfOn d k ctl).slips.numVfs := hm
  simp [attached, vfExists, hpos, hmax, hset, hvfs]

/-- What VF Enable does at one host slip. -/
def enableSlip (d : Dev) (n : Nat) : Dev :=
  let s := slipOf d n
  if s.state = .detached ∧ attached d n then setSlip d n { s with state := .active }
  else if s.state = .active ∧ ¬ attached d n then hostReset d n
  else d

/-- Only attached slips are ACTIVE (R122). -/
def ActiveAttached (d : Dev) : Prop := ∀ m, (slipOf d m).state = .active → attached d m = true

/-- Where only attached slips are ACTIVE, a slip stays as it is or becomes ACTIVE. -/
theorem enableSlip_cases {d : Dev} (h : ActiveAttached d) (n : Nat) :
    enableSlip d n = (if (slipOf d n).state = .detached ∧ attached d n = true then
      setSlip d n { slipOf d n with state := .active } else d) := by
  have hnot : ¬ ((slipOf d n).state = .active ∧ ¬ attached d n = true) := fun hn => hn.2 (h n hn.1)
  simp only [enableSlip, hnot, if_false]

section
variable {d : Dev} (h : ActiveAttached d) (n : Nat)
include h

/-- VF Enable at one slip leaves the host's settings alone. -/
theorem enableSlip_settings : (enableSlip d n).slips.vfEnable = d.slips.vfEnable ∧
    (enableSlip d n).slips.numVfs = d.slips.numVfs ∧ (enableSlip d n).slips.ctl = d.slips.ctl ∧
    ∀ m, attached (enableSlip d n) m = attached d m := by
  rw [enableSlip_cases h]
  split <;> exact ⟨rfl, rfl, rfl, fun _ => rfl⟩

theorem state_enableSlip (m : Nat) : (slipOf (enableSlip d n) m).state =
    if m = n ∧ (slipOf d m).state = .detached ∧ attached d m = true then .active else (slipOf d m).state := by
  rw [enableSlip_cases h]
  by_cases hm : m = n
  · subst hm
    split <;> simp [*]
  · split <;> simp [hm]

theorem enableSlip_activeAttached : ActiveAttached (enableSlip d n) := by
  intro m
  obtain ⟨-, -, -, hattached⟩ := enableSlip_settings h n
  rw [state_enableSlip h, hattached]
  split
  case isTrue hn => exact fun _ => hn.2.2
  case isFalse => exact h m

end

/-- VF Enable, slip after slip: the host's settings stay, and the attached slips that were DETACHED are ACTIVE at the
end. -/
theorem enableSlips {d : Dev} (h : ActiveAttached d) (l : List Nat) :
    (l.foldl enableSlip d).slips.vfEnable = d.slips.vfEnable ∧ (l.foldl enableSlip d).slips.numVfs = d.slips.numVfs ∧
    (l.foldl enableSlip d).slips.ctl = d.slips.ctl ∧
    ∀ m, (slipOf d m).state = .active ∨ (slipOf d m).state = .detached ∧ attached d m = true ∧ m ∈ l →
      (slipOf (l.foldl enableSlip d) m).state = .active := by
  induction l generalizing d with
  | nil => exact ⟨rfl, rfl, rfl, fun m hm => hm.resolve_right (by simp)⟩
  | cons n l ih =>
    obtain ⟨hon, hvfs, hctl, hactive⟩ := ih (enableSlip_activeAttached h n)
    obtain ⟨hon', hvfs', hctl', hatt⟩ := enableSlip_settings h n
    refine ⟨hon.trans hon', hvfs.trans hvfs', hctl.trans hctl', fun m hm => hactive m ?_⟩
    rw [state_enableSlip h, hatt]
    rcases hm with hm | ⟨hdetached, hattached, hmem⟩
    · simp [hm]
    · by_cases hn : m = n
      · simp [← hn, hdetached, hattached]
      · simp_all

/-! ## The end of a reset (R151, step 7) -/

section
variable {d : Dev} {n : Nat}

theorem ringOf_ringsReset_fold (l : List Nat) (d : Dev) {r : Nat} :
    ringOf (l.foldl (fun d r => setRing d n r { sqStop := (ringOf d n r).sqStop }) d) n r =
      if r ∈ l then { sqStop := (ringOf d n r).sqStop } else ringOf d n r := by
  induction l generalizing d with
  | nil => rfl
  | cons q l ih =>
    rw [List.foldl_cons, ih, ringOf_setRing]
    by_cases hr : r = q <;> simp [hr]

@[simp] theorem ringOf_setSlip (d : Dev) (n : Nat) (x : Slip) (m r : Nat) : ringOf (setSlip d n x) m r = ringOf d m r := rfl
@[simp] theorem ringOf_resetRegs (d : Dev) (lo hi m r : Nat) : ringOf (resetRegs d lo hi) m r = ringOf d m r := rfl

/-- The ring pairs of a slip keep only their SQ_STOP. -/
theorem ringOf_ringsReset {r : Nat} (h : r < 8) :
    ringOf (ringsReset d n true) n r = { sqStop := (ringOf d n r).sqStop } := by
  simp only [ringsReset, if_true, ringOf_ringsReset_fold, List.mem_range, h]

/-- Beside the rings nothing changes. -/
theorem ringsReset_eq (d : Dev) (n : Nat) (keepStop : Bool) :
    ∃ l, ringsReset d n keepStop = { d with slips := { d.slips with rings := l } } := by
  unfold ringsReset
  generalize List.range 8 = rings
  induction rings generalizing d with
  | nil => exact ⟨d.slips.rings, rfl⟩
  | cons r rings ih =>
    obtain ⟨l, hl⟩ := ih (setRing d n r (if keepStop then { sqStop := (ringOf d n r).sqStop } else {}))
    exact ⟨l, hl⟩

/-- The device when the sequence has ended, before a command that waited for it ends. -/
def resetEnded (d : Dev) (n : Nat) (x : Slip) : Dev :=
  setSlip (ringsReset (resetRegs d (slipWin n) (slipWin n + 0x200)) n true) n x

/-- With every descriptor completed, the end is that of the slip, and of a command that waited. -/
theorem slipResetDone_drained {z : SlipReset} (hs : (slipOf d n).state = .resetting) (hz : (slipOf d n).reset = some z)
    (hl : inFlightDesc d n = []) (hdestroy : z.destroy = false) (hdr : z.drained ≤ 65535) (hsq : z.squashed ≤ 65535) :
    ∃ x, x.state = (if attached d n then .active else .detached) ∧ x.report = at_ z.drained 16 ||| at_ z.squashed 0 ∧
      x.reset = none ∧
      (slipResetDone d n = resetEnded d n x ∨ slipResetDone d n = slpEnd (resetEnded d n x) 0) := by
  refine ⟨{ slipOf d n with
    state := if attached d n then .active else .detached, report := at_ z.drained 16 ||| at_ z.squashed 0, pba := 0
    reset := none, msixOn := (slipOf d n).msixOn && !z.noMem, msixMask := (slipOf d n).msixMask && !z.noMem },
    rfl, rfl, rfl, ?_⟩
  simp only [slipResetDone, hz, hs, hl, hdestroy, ne_eq, not_true_eq_false, and_false, or_false, List.filter_nil,
    List.length_nil, Nat.sub_zero, Nat.add_zero, Nat.min_eq_right hdr, Nat.min_eq_right hsq, if_false, Bool.false_eq_true]
  split
  · split
    · exact .inr rfl
    · exact .inl rfl
  · exact .inl rfl

variable (x : Slip)

/-- The end writes the slip's window, the rings and the slip. -/
theorem resetEnded_eq : ∃ l, resetEnded d n x =
    setSlip { resetRegs d (slipWin n) (slipWin n + 0x200) with slips := { d.slips with rings := l } } n x := by
  obtain ⟨l, hl⟩ := ringsReset_eq (resetRegs d (slipWin n) (slipWin n + 0x200)) n true
  exact ⟨l, congrArg (setSlip · n x) hl⟩

theorem slipOf_resetEnded (m : Nat) : slipOf (resetEnded d n x) m = if m = n then x else slipOf d m := by
  obtain ⟨l, hl⟩ := resetEnded_eq (d := d) (n := n) x
  rw [hl, slipOf_setSlip]
  rfl

theorem resetEnded_res : (resetEnded d n x).slips.res = d.slips.res := by
  obtain ⟨l, hl⟩ := resetEnded_eq (d := d) (n := n) x
  rw [hl]
  rfl

theorem cnt_resetEnded (a : Nat) : cnt (resetEnded d n x) a = cnt d a := by
  obtain ⟨l, hl⟩ := resetEnded_eq (d := d) (n := n) x
  rw [hl]
  rfl

/-- The window is at its reset values. -/
theorem rd_resetEnded {a : Nat} (hlo : slipWin n ≤ a) (hhi : a < slipWin n + 0x200) :
    rd (resetEnded d n x) a = regReset a := by
  obtain ⟨l, hl⟩ := resetEnded_eq (d := d) (n := n) x
  rw [hl, rd_setSlip]
  simp only [rd, resetRegs]
  rw [tget_tclear, if_pos ⟨hlo, hhi⟩]

theorem ringOf_resetEnded {r : Nat} (h : r < 8) :
    ringOf (resetEnded d n x) n r = { sqStop := (ringOf d n r).sqStop } := by
  rw [resetEnded, ringOf_setSlip, ringOf_ringsReset h, ringOf_resetRegs]

/-- The end of a command that waited writes its result and nothing of the slip. -/
theorem slpEnd_keeps_slips {e t : Dev} {st : Nat} (h : t = e ∨ t = slpEnd e st) :
    (∀ m, slipOf t m = slipOf e m) ∧ (∀ m r, ringOf t m r = ringOf e m r) ∧ (∀ a, a ≠ 0x80000C → rd t a = rd e a) ∧
    (∀ a, cnt t a = cnt e a) ∧ t.slips.res = e.slips.res := by
  rcases h with rfl | rfl
  · exact ⟨fun _ => rfl, fun _ _ => rfl, fun _ _ => rfl, fun _ => rfl, rfl⟩
  · refine ⟨fun _ => rfl, fun _ _ => rfl, fun a ha => ?_, fun _ => rfl, rfl⟩
    rw [slpEnd, resultEnd, rd_wr, if_neg ha]
    rfl

end

/-! ## The statement -/

/-- Settles O18. A request leaves all but its slip aside (`slipReset_aside`, `state_slipReset`); the clearing of VF Enable
resets every host slip (`hostResets_not_active`), its setting none (`enableSlips`); the end is `slipResetDone_drained`. -/
theorem slipResetAndRemoval : Obligations.SlipResetAndRemoval := by
  unfold Obligations.SlipResetAndRemoval
  refine ⟨?ctrl, ?host, ?flr, ?command, ?disable, ?pf, ?link, ?done, ?enable⟩
  case ctrl =>
    intro s n hi hs
    refine ⟨{ s with dev := slipCtrlReset s.dev n }, rfl, ?_⟩
    have hrun : slipCtrlReset s.dev n = slipReset s.dev n false false := if_pos hi
    have haside := slipReset_aside (d := s.dev) (n := n) false false
    simp only [hrun, state_slipReset, hs]
    refine ⟨by simp, fun r hr ha => slipReset_stopped hs _ _ hr ha, fun k hk ho hn hb => ?_, fun m hm => by simp [hm],
      haside.loads, haside.fields⟩
    rw [slipReset_held hs hn _ _ hk ho hb]
    exact ⟨rfl, ho⟩
  case host =>
    intro s n hi
    have hrun : slipCtrlReset s.dev n = s.dev := if_neg (by simp [hi])
    change onDev (slipCtrlReset · n) s = _
    simp [onDev, hrun]
  case flr =>
    intro s n he hs
    refine ⟨{ s with dev := vfFlr s.dev n }, rfl, ?_⟩
    have hrun : vfFlr s.dev n = hostReset s.dev n := if_pos he
    obtain ⟨u, hcalm, hreset, hevent⟩ := hostReset_request s.dev n
    simp only [hrun, state_hostReset, hs]
    refine ⟨by simp, ?_, fun m hm => by simp [hm]⟩
    rw [hreset]
    exact (slipReset_aside ..).events 2 (hevent hs)
  case command =>
    intro s n hv hf hn hs
    obtain ⟨p, hcmd⟩ := slpCmd_free hv hf 7 n
    refine ⟨{ s with dev := slpCmd s.dev 7 n }, rfl, ?_⟩
    have hrun : slpCmd s.dev 7 n =
        slipReset { begun s.dev p with slips := { s.dev.slips with cmdWait := some (7, n.val) } } n false false := by
      rw [hcmd]
      simp [slpRun, slpReset, hn, hs]
    have haside := slipReset_aside (n := n) false false
      (d := { begun s.dev p with slips := { s.dev.slips with cmdWait := some (7, n.val) } })
    simp only [hrun]
    refine ⟨?_, ?_, haside.wait⟩
    · rw [state_slipReset]
      exact if_pos ⟨rfl, hs⟩
    · rw [resultValid, haside.result]
      exact rd_resultBegin_valid s.dev _
  case disable =>
    intro s
    have haside := vfDisable_aside s.dev
    exact ⟨{ s with dev := vfDisable s.dev }, rfl, haside.vfOn, haside.vfs, fun m hm hi => vfDisable_not_active hm hi⟩
  case pf =>
    intro s
    exact ⟨{ s with dev := pfReset s.dev }, rfl, pfReset_vfs s.dev, pfReset_not_active (.inl rfl),
      fun m _ hi => pfReset_not_active (.inr hi)⟩
  case link =>
    intro s hup
    refine ⟨{ s with dev := hostLinkLoss s.dev }, rfl, ?_⟩
    have hvfs := pfReset_vfs s.dev
    have hslip : (slipOf (pfReset s.dev) 0).state ≠ .active := pfReset_not_active (.inl rfl)
    simp only [hostLinkLoss, hup, if_true]
    generalize pfReset s.dev = t at hvfs hslip ⊢
    exact ⟨trivial, hvfs, fun o ho => (List.mem_filter.1 ho).2, hslip⟩
  case done =>
    intro s n z hs hz hl hdestroy hdr hsq
    obtain ⟨x, hstate, hreport, hreset, hend⟩ := slipResetDone_drained hs hz hl hdestroy hdr hsq
    obtain ⟨hslip, hring, hrd, hcnt, hres⟩ := slpEnd_keeps_slips hend
    refine ⟨{ s with dev := slipResetDone s.dev n }, rfl, ?_⟩
    simp only [hslip, hring, hcnt, hres, slipOf_resetEnded, cnt_resetEnded, resetEnded_res, if_true]
    refine ⟨hstate, hreport, hreset, fun r hr => ringOf_resetEnded x hr, fun a hlo hhi => ?_, fun _ => trivial,
      fun m hm => if_neg hm, trivial⟩
    rw [hrd a (by unfold slipWin at hlo; omega), rd_resetEnded x hlo hhi]
  case enable =>
    intro s k ctl hk hactive
    have hrun : vfEnable s.dev k ctl = (hostSlips (vfOn s.dev k ctl)).foldl enableSlip (vfOn s.dev k ctl) :=
      if_neg (by omega)
    have hattached : ActiveAttached (vfOn s.dev k ctl) := by
      intro m hm
      rcases hactive m hm with hm | hm
      · simp [attached, hm]
      · simp [attached, show internalSlip (vfOn s.dev k ctl) m = true from hm]
    obtain ⟨hon, hvfs, hctl, hcovered⟩ := enableSlips hattached (hostSlips (vfOn s.dev k ctl))
    refine ⟨{ s with dev := vfEnable s.dev k ctl }, rfl, ?_⟩
    simp only [hrun]
    refine ⟨hon, hvfs, hctl, fun m hpos hm hdetached => hcovered m (.inr ⟨hdetached, ?_, ?_⟩)⟩
    · exact attached_vfOn hpos hm hk ctl
    · have hfree : (slipOf s.dev m).state ≠ .free := by simp [hdetached]
      have hinternal : internalSlip s.dev m = false := decide_eq_false (by omega)
      exact mem_hostSlips hfree (by omega) hinternal

end Sys2Proof.Proofs.SlipResets

/-! PROOFS. The tunnel engine (R174–R182): the entry at its head, what it counts, its streams, and the bridges' clears. -/

namespace Sys2Proof.Proofs.TunnelEngine

open Sys2Proof Sys2Proof.Machine Sys2Proof.Laws Sys2Proof.Proofs.FreedCells Sys2Proof.Proofs.LinksAndClears
open Sys2Proof.Proofs.LogbookRecords

/-! ## Fields of a word -/

/-- The bits of a field are bits of the word. -/
theorem testBit_fld (w : Word) (hi lo i : Nat) : (fld w hi lo).testBit i = (decide (i < hi - lo + 1) && bit w (lo + i)) := by
  rw [fld, Nat.testBit_mod_two_pow, Nat.testBit_shiftRight]
  rfl

theorem fld_congr {v w : Word} {hi lo : Nat} (hle : lo ≤ hi) (h : ∀ i, lo ≤ i → i ≤ hi → bit v i = bit w i) :
    fld v hi lo = fld w hi lo := by
  refine Nat.eq_of_testBit_eq fun i => ?_
  rw [testBit_fld, testBit_fld]
  by_cases hi' : i < hi - lo + 1
  · rw [h (lo + i) (by omega) (by omega)]
  · simp [hi']

theorem fld_lt (w : Word) (hi lo : Nat) : fld w hi lo < 2 ^ (hi - lo + 1) := Nat.mod_lt _ (Nat.two_pow_pos _)

theorem bit_and (x y : Word) (b : Nat) : bit (x &&& y) b = (bit x b && bit y b) := BitVec.getLsbD_and

/-- Both enables of a stream are 0 exactly when their field is. -/
theorem enables_off (w : Word) : fld w 31 30 = 0 ↔ bit w 31 = false ∧ bit w 30 = false := by
  constructor
  · intro h
    have hbit (i : Nat) := testBit_fld w 31 30 i
    simp only [h, Nat.zero_testBit] at hbit
    exact ⟨by simpa using (hbit 1).symm, by simpa using (hbit 0).symm⟩
  · rintro ⟨h31, h30⟩
    refine (fld_congr (w := 0) (by decide) fun i hlo hhi => ?_).trans (by decide)
    obtain rfl | rfl : i = 30 ∨ i = 31 := by omega
    · rw [h30]; rfl
    · rw [h31]; rfl

section
variable (d : Dev)

/-! ## TUN_CFG and the key in use (R174, R180) -/

theorem tunCfgWrite_open {k : Nat} (v : Word) (h : fld (rd d (tunBase k)) 31 30 = 0) :
    tunCfgWrite d k v = wr d (tunBase k) (v &&& 0xFFF71F0F) := by
  obtain ⟨h31, h30⟩ := (enables_off _).1 h
  simp [tunCfgWrite, tunCfg, h31, h30]

theorem tunCfgWrite_enabled {k : Nat} (v : Word) (h : fld (rd d (tunBase k)) 31 30 ≠ 0) :
    tunCfgWrite d k v = wr d (tunBase k) (rd d (tunBase k) &&& 0x3FFFFFFF ||| v &&& 0xC0000000) := by
  have hon : ¬ (bit (rd d (tunBase k)) 31 = false ∧ bit (rd d (tunBase k)) 30 = false) := fun hoff =>
    h ((enables_off _).2 hoff)
  refine if_pos (Bool.or_eq_true_iff.2 ?_)
  simpa only [tunCfg, not_and_or, Bool.not_eq_false] using hon

/-- A write of TUN_CFG takes the enables, whatever they were. -/
theorem tunCfgWrite_enables (k : Nat) (v : Word) : fld (rd (tunCfgWrite d k v) (tunBase k)) 31 30 = fld v 31 30 := by
  by_cases h : fld (rd d (tunBase k)) 31 30 = 0
  all_goals
    simp only [tunCfgWrite_open d v, tunCfgWrite_enabled d v, h, rd_wr, if_true, ne_eq, not_false_eq_true]
    refine fld_congr (by decide) fun i hlo hhi => ?_
    obtain rfl | rfl : i = 30 ∨ i = 31 := by omega
    all_goals
      simp only [bit_or, bit_and]
      simp [bit]

/-- While an enable is 1 the other fields stay. -/
theorem tunCfgWrite_fields {k : Nat} (v : Word) (h : fld (rd d (tunBase k)) 31 30 ≠ 0) :
    fld (rd (tunCfgWrite d k v) (tunBase k)) 29 0 = fld (rd d (tunBase k)) 29 0 := by
  rw [tunCfgWrite_enabled d v h, rd_wr, if_pos rfl]
  refine fld_congr (by decide) fun i _ hi => ?_
  have hkeep : ∀ i < 30, bit 0x3FFFFFFF i = true ∧ bit 0xC0000000 i = false := by decide
  obtain ⟨hold, hnew⟩ := hkeep i (by omega)
  rw [bit_or, bit_and, bit_and, hold, hnew, Bool.and_true, Bool.and_false, Bool.or_false]

theorem tunCfgWrite_only (k : Nat) (v : Word) : tunCfgWrite d k v = { d with regs := (tunCfgWrite d k v).regs } := by
  by_cases h : fld (rd d (tunBase k)) 31 30 = 0
  · rw [tunCfgWrite_open d v h]; rfl
  · rw [tunCfgWrite_enabled d v h]; rfl

theorem rd_tunCfgWrite_other {k a : Nat} (v : Word) (ha : a ≠ tunBase k) : rd (tunCfgWrite d k v) a = rd d a := by
  by_cases h : fld (rd d (tunBase k)) 31 30 = 0
  · rw [tunCfgWrite_open d v h, rd_wr, if_neg ha]
  · rw [tunCfgWrite_enabled d v h, rd_wr, if_neg ha]

/-- Whether a key is installed under the number that is not in use. -/
def otherKey (x : Stream) : Bool := if x.txNum then x.valid0 else x.valid1

theorem tunSwitch_moves {k : Nat} (h : otherKey (streamOf d k) = true) :
    tunSwitch d k = setStream d k { streamOf d k with txNum := !(streamOf d k).txNum } := if_pos h

theorem tunSwitch_refused {k : Nat} (h : otherKey (streamOf d k) = false) : tunSwitch d k = evBrg d 2 k :=
  if_neg (h.trans_ne Bool.false_ne_true)

/-! ## An entry leaves the engine's queue -/

theorem reserveBring_brg (r : Nat) : (reserveBring d r).brg = d.brg := by
  simp only [reserveBring, reserveNote, reserveJudge]
  split <;> simp

theorem pfcJudge_brg (p c : Nat) : (pfcJudge d p c).brg = d.brg := by
  obtain h | ⟨m, xoff, -, -, -, h⟩ := pfcJudge_cases d p c
  · rw [h]
  · rw [h]; rfl

theorem retireCell_brg (c : Nat) : (retireCell d c).brg = d.brg := by
  unfold retireCell
  extract_lets b b1 d1 d2 d3 reserves bOver
  have h1 : d1.brg = d.brg := by unfold d1; split <;> rfl
  have h2 : d2.brg = d1.brg := by unfold d2; split <;> simp [reserveBring_brg]
  have h3 : d3.brg = d2.brg := by unfold d3; split <;> simp
  have h : d3.brg = d.brg := h3.trans (h2.trans h1)
  split
  · rfl
  · split <;> simp [h, bOver]

theorem freeIfDone_brg (uid : Nat) : (freeIfDone d uid).brg = d.brg := by
  unfold freeIfDone
  split
  · rfl
  · split
    · rfl
    · rw [pfcJudge_brg, foldl_retireCell_keeps (g := (·.brg)) _ retireCell_brg]; rfl

@[simp] theorem leaveQueue_brg (e : QEntry) : (leaveQueue d e).brg = d.brg := freeIfDone_brg ..

@[simp] theorem streamOf_leaveQueue (e : QEntry) (k : Nat) : streamOf (leaveQueue d e) k = streamOf d k := by
  rw [streamOf, leaveQueue_brg]; rfl

/-- The counters of the bridges stay. -/
theorem cnt_leaveQueue (e : QEntry) {a : Nat} (h : 0xC00000 ≤ a) : cnt (leaveQueue d e) a = cnt d a := by
  rw [leaveQueue, cnt_freeIfDone _ _ fun q hlo hhi => by unfold aPcnt; omega]
  rfl

@[simp] theorem mem_leaveQueue (e q : QEntry) :
    q ∈ (leaveQueue d e).basin.queues ↔ q ∈ d.basin.queues ∧ q ≠ e := by
  rw [leaveQueue, freeIfDone_queues]
  simp [setBasin]

/-- BRIDGE_EVENT keeps its bits. -/
theorem leaveQueue_event (e : QEntry) {i : Nat} (h : bit (rd d 0xC00008) i = true) :
    bit (rd (leaveQueue d e) 0xC00008) i = true := (leaveQueue_frees d e).bits _ _ h

/-! ## A refusal is counted (Table 5.12) -/

theorem cnt_tunCount (a k : Nat) : cnt (tunCount d a k) a = cnt d a + 1 := by simp [tunCount]

theorem tunCount_event (a k : Nat) : bit (rd (tunCount d a k) 0xC00008) 2 = true := setEv_bit _ _ _ _ _ _ _ (by decide)

/-- The entry `e` is refused under the counter `a` of the bridges: one is counted, TUN_ERR is set, the streams stay, and
of the queues only `e` is gone. -/
theorem refuse_entry {a : Nat} (ha : 0xC00000 ≤ a) (k : Nat) (e : QEntry) :
    cnt (leaveQueue (tunCount d a k) e) a = cnt d a + 1 ∧
    bit (rd (leaveQueue (tunCount d a k) e) 0xC00008) 2 = true ∧
    (leaveQueue (tunCount d a k) e).brg = d.brg ∧
    ∀ q, q ∈ (leaveQueue (tunCount d a k) e).basin.queues ↔ q ∈ d.basin.queues ∧ q ≠ e := by
  refine ⟨?_, leaveQueue_event _ _ (tunCount_event ..), ?_, fun q => ?_⟩
  · rw [cnt_leaveQueue _ _ ha, cnt_tunCount]
  · simp [tunCount]
  · simp [tunCount]

end

/-! ## The entry at the head of the engine -/

section
variable {d : Dev} {e : QEntry} {f : Frame}

/-- The entry `e` stands at the head, and its frame `f` can be read. -/
structure AtHead (d : Dev) (e : QEntry) (f : Frame) : Prop where
  head : tunHead d = some e
  frame : frameOf d e.uid = some f
  good : readGood d f .clean = true

/-- Reading the frame at the head leaves no trace. -/
theorem AtHead.read (h : AtHead d e f) : frameRead d f .clean = d := frameRead_clean d (readRefused_of_good h.good)

/-! ## Wrapping (R175, R176) -/

/-- The frame that carries a wrap of stream `k` into the Basin (R176). -/
def wrapFrame (d : Dev) (k : Nat) (b : List Byte) : Frame :=
  let cls := fld (tunCfg d k) 22 20
  let tag := bit (tunCfg d k) 26
  { uid := 0, body := .eth b, inPort := 13, cls := cls, ts := devTime d
    vid := if tag then fld (rd d (tunBase k + 4)) 11 0 else fld (rd d (aPort 13 4)) 11 0
    pcp := if tag then fld (tunCfg d k) 25 23 else cls
    tagged := tag, tunnelled := true }

section
variable {k : Nat} {m : CanMsg} {ch : Fin 16} {tn : Bool}

theorem tunnelWrap_refused {c : Nat} (h : AtHead d e f) (hdest : e.dest = .wrap k) (hbody : f.body = .can m ch tn)
    (href : wrapRefusal d k m = some c) : tunnelWrap d .clean = leaveQueue (tunCount d (aRefused c) k) e := by
  simp [tunnelWrap, h.head, h.frame, h.good, h.read, hdest, hbody, href]

theorem tunnelWrap_accepted (h : AtHead d e f) (hdest : e.dest = .wrap k) (hbody : f.body = .can m ch tn)
    (href : wrapRefusal d k m = none) : tunnelWrap d .clean =
      (enterBasin (leaveQueue (wrapBuild d k m f.ts).2 e) (wrapFrame d k (wrapBuild d k m f.ts).1)).2 := by
  simp only [tunnelWrap, h.head, h.frame, h.good, h.read, hdest, hbody, href]
  rfl

end

/-- Building a wrap stores the stream with the sequence number gone on, may warn of its packet number, and is counted. -/
theorem wrapBuild_device (d : Dev) (k : Nat) (m : CanMsg) (ts : Nat) : ∃ (x : Stream) (warned : Bool),
    x.txSeq = ((streamOf d k).txSeq + 1) % (if tunMode d k < 2 then 256 else 65536) ∧
    (wrapBuild d k m ts).2 = inc (if warned then evBrg (setStream d k x) 3 k else setStream d k x) (aTun k 0) := by
  by_cases hmode : tunMode d k < 2
  · refine ⟨{ streamOf d k with txSeq := ((streamOf d k).txSeq + 1) % 256 }, false, ?_, ?_⟩
    · rw [if_pos hmode]
    · exact congrArg Prod.snd (if_pos hmode)
  · refine ⟨_, _, ?_, congrArg Prod.snd (if_neg hmode)⟩
    rw [if_neg hmode]
    split
    · rfl
    · split <;> rfl

theorem streamOf_inc (d : Dev) (a k : Nat) : streamOf (inc d a) k = streamOf d k := rfl

theorem streamOf_evBrg (d : Dev) (b inst k : Nat) : streamOf (evBrg d b inst) k = streamOf d k := by
  rw [streamOf, evBrg_brg]; rfl

/-- The sequence number goes on, the wrap is counted, the queues stay. -/
theorem wrapBuild_counts (d : Dev) (k : Nat) (m : CanMsg) (ts : Nat) :
    (streamOf (wrapBuild d k m ts).2 k).txSeq = ((streamOf d k).txSeq + 1) % (if tunMode d k < 2 then 256 else 65536) ∧
    cnt (wrapBuild d k m ts).2 (aTun k 0) = cnt d (aTun k 0) + 1 ∧
    (wrapBuild d k m ts).2.basin.queues = d.basin.queues := by
  obtain ⟨x, warned, hseq, hdev⟩ := wrapBuild_device d k m ts
  rw [hdev, ← hseq]
  cases warned <;> simp [streamOf_inc, streamOf_evBrg]

/-! ## Frames that are not unwrapped (R181) -/

section
variable {b : List Byte}

theorem tunnelUnwrap_tunnelled (h : AtHead d e f) (hdest : e.dest = .unwrap) (hbody : f.body = .eth b)
    (ht : f.tunnelled = true) : tunnelUnwrap d .clean = leaveQueue (tunCount d (aRefused 1) 0) e := by
  simp [tunnelUnwrap, h.head, h.frame, h.good, h.read, hdest, hbody, ht]

theorem tunnelUnwrap_foreign (h : AtHead d e f) (hdest : e.dest = .unwrap) (hbody : f.body = .eth b)
    (ht : f.tunnelled = false) (hacf : etherType b ≠ 0x22F0) (hxl : etherType b ≠ 0x88B5) :
    tunnelUnwrap d .clean = leaveQueue (tunCount d aBadFormat 0) e := by
  simp [tunnelUnwrap, h.head, h.frame, h.good, h.read, hdest, hbody, ht, hacf, hxl]

end

end

/-! ## The error log's clear (Table 5.14) -/

/-- The first `n` entries of the error log with VALID 0. -/
def logCleared (d : Dev) (n : Nat) : Dev :=
  (List.range n).foldl (fun d e => wr d (0xC01000 + 32 * e) (rd d (0xC01000 + 32 * e) &&& 0x7FFFFFFF)) d

theorem brgClearLog_eq (d : Dev) : brgClearLog d = logCleared d 16 := rfl

theorem logCleared_succ (d : Dev) (n : Nat) : logCleared d (n + 1) =
    wr (logCleared d n) (0xC01000 + 32 * n) (rd (logCleared d n) (0xC01000 + 32 * n) &&& 0x7FFFFFFF) := by
  rw [logCleared, List.range_succ, List.foldl_concat]
  rfl

theorem logCleared_only (d : Dev) (n : Nat) : logCleared d n = { d with regs := (logCleared d n).regs } :=
  rel_foldl (R := fun a b => b = { a with regs := b.regs }) (fun _ => rfl) (fun h g => by rw [g, h]) (fun _ _ => rfl) ..

theorem rd_logCleared_other (d : Dev) (n : Nat) {a : Nat} (h : ∀ e < n, a ≠ 0xC01000 + 32 * e) :
    rd (logCleared d n) a = rd d a := by
  induction n with
  | zero => rfl
  | succ n ih =>
    rw [logCleared_succ, rd_wr, if_neg (h n (by omega)), ih fun e he => h e (by omega)]

theorem rd_logCleared (d : Dev) (n : Nat) : ∀ e < n,
    rd (logCleared d n) (0xC01000 + 32 * e) = rd d (0xC01000 + 32 * e) &&& 0x7FFFFFFF := by
  induction n with
  | zero => intro e he; omega
  | succ n ih =>
    intro e he
    rw [logCleared_succ, rd_wr]
    split
    case isTrue heq =>
      rw [heq, rd_logCleared_other d n fun i hi => by omega]
    case isFalse hne => exact ih e (by omega)

/-! ## The statement -/

/-- Settles O26, row by row: TUN_CFG, SWITCH, the wrap refused and accepted, the frames not unwrapped, the clears. -/
theorem tunnelStreams : Obligations.TunnelStreams := by
  unfold Obligations.TunnelStreams
  refine ⟨?config, ?switch, ?wrap, ?unwrap, ?log, clearsExactly_range fun s => rfl, clearsExactly_range fun s => rfl⟩
  case config =>
    intro s k v
    have hrun := tunCfgWrite_only (dropCopies s.dev [tunBase k / 4]) k v
    refine ⟨{ s with dev := tunCfgWrite (dropCopies s.dev [tunBase k / 4]) k v }, rfl, ?_, ?_, ?_, ?_, ?_⟩
    · rw [hrun]; rfl
    · exact fun a ha => rd_tunCfgWrite_other _ v ha
    · exact tunCfgWrite_enables ..
    · exact fun h => tunCfgWrite_fields (dropCopies s.dev _) v h
    · intro h
      rw [tunCfgWrite_open (dropCopies s.dev _) v h, rd_wr, if_pos rfl]
  case switch =>
    intro s k
    refine ⟨fun h => ?_, fun h => ?_⟩
    · exact congrArg (fun d => Host.Outcome.next { s with dev := d }) (tunSwitch_moves s.dev h)
    · refine ⟨{ s with dev := tunSwitch s.dev k }, rfl, ?_⟩
      rw [tunSwitch_refused s.dev h]
      exact ⟨congrArg Brg.streams (evBrg_brg ..), setEv_bit _ _ _ _ _ _ _ (by decide)⟩
  case wrap =>
    intro s e k f m ch tn _ hhead hdest hframe hgood hbody
    have h : AtHead s.dev e f := ⟨hhead, hframe, hgood⟩
    refine ⟨fun c href => ?_, fun href => ?_⟩
    · refine ⟨{ s with dev := tunnelWrap s.dev .clean }, rfl, ?_⟩
      simp only [tunnelWrap_refused h hdest hbody href]
      obtain ⟨hcnt, hev, hbrg, hqueue⟩ := refuse_entry s.dev (a := aRefused c) (by unfold aRefused; omega) k e
      exact ⟨hcnt, hev, congrArg Brg.streams hbrg, hqueue⟩
    · obtain ⟨hseq, hcnt, hqueue⟩ := wrapBuild_counts s.dev k m f.ts
      refine ⟨leaveQueue (wrapBuild s.dev k m f.ts).2 e, wrapFrame s.dev k (wrapBuild s.dev k m f.ts).1, ?_, rfl, rfl,
        rfl, rfl, ?_, ?_, fun q => ?_⟩
      · rw [← tunnelWrap_accepted h hdest hbody href]; rfl
      · rw [cnt_leaveQueue _ _ (by unfold aTun; omega), hcnt]
      · rw [streamOf_leaveQueue, hseq]
      · rw [mem_leaveQueue, hqueue]
  case unwrap =>
    intro s e f b hhead hdest hframe hgood hbody
    have h : AtHead s.dev e f := ⟨hhead, hframe, hgood⟩
    refine ⟨fun ht => ?_, fun ht hacf hxl => ?_⟩
    · obtain ⟨hcnt, -, -, hqueue⟩ := refuse_entry s.dev (a := aRefused 1) (by decide) 0 e
      refine ⟨{ s with dev := tunnelUnwrap s.dev .clean }, rfl, ?_⟩
      simp only [tunnelUnwrap_tunnelled h hdest hbody ht]
      exact ⟨hcnt, hqueue⟩
    · obtain ⟨hcnt, -, -, hqueue⟩ := refuse_entry s.dev (a := aBadFormat) (by decide) 0 e
      refine ⟨{ s with dev := tunnelUnwrap s.dev .clean }, rfl, ?_⟩
      simp only [tunnelUnwrap_foreign h hdest hbody ht hacf hxl]
      exact ⟨hcnt, hqueue⟩
  case log =>
    intro s
    refine ⟨{ s with dev := brgClearLog s.dev }, rfl, ?_⟩
    simp only [brgClearLog_eq]
    refine ⟨?_, rd_logCleared s.dev 16, fun a ha => ?_⟩
    · exact congrArg (fun d => { s with dev := d }) (logCleared_only s.dev 16)
    · exact rd_logCleared_other s.dev 16 ha

end Sys2Proof.Proofs.TunnelEngine

/-! PROOFS. A CAN XL wrap is unwrapped to what was wrapped (R179, R181, R182): the bytes of a number, the Ethernet header
around a wrap, the fields of Table 5.8, and the engine that reads them. -/

namespace Sys2Proof.Proofs.TunnelUnwrap

open Sys2Proof Sys2Proof.Machine Sys2Proof.Laws Sys2Proof.Proofs.TunnelEngine

/-! ## Numbers as bytes -/

@[simp] theorem length_leBytes (v n : Nat) : (leBytes v n).length = n := by
  induction n generalizing v with
  | zero => rfl
  | succ n ih => rw [leBytes, List.length_cons, ih]

@[simp] theorem length_beBytes (v n : Nat) : (beBytes v n).length = n := by simp [beBytes]

theorem leNat_leBytes (v n : Nat) : leNat (leBytes v n) = v % 256 ^ n := by
  induction n generalizing v with
  | zero => simp [leBytes, leNat, Nat.mod_one]
  | succ n ih =>
    rw [leBytes, leNat, ih, BitVec.toNat_ofNat, pow_succ' 256 n]
    exact (Nat.mod_mul (a := 256)).symm

theorem beNat_beBytes {v n : Nat} (h : v < 256 ^ n) : beNat (beBytes v n) = v := by
  rw [beNat, beBytes, List.reverse_reverse, leNat_leBytes, Nat.mod_eq_of_lt h]

/-! ## Fields of a sequence of bytes -/

/-- The number in `n` bytes from `o` on. -/
def field (b : List Byte) (o n : Nat) : Nat := beNat ((b.drop o).take n)

theorem field_append {p : List Byte} {o : Nat} (h : p.length ≤ o) (q : List Byte) (n : Nat) :
    field (p ++ q) o n = field q (o - p.length) n := by
  rw [field, List.drop_append, List.drop_eq_nil_of_le h, List.nil_append, field]

theorem field_beBytes {v n : Nat} (h : v < 256 ^ n) (q : List Byte) : field (beBytes v n ++ q) 0 n = v := by
  rw [field, List.drop_zero, List.take_left' (length_beBytes v n), beNat_beBytes h]

theorem eth16_eq_field (b : List Byte) (o : Nat) : eth16 b o = field b o 2 := rfl

/-! ## The Ethernet header (R176) -/

section
variable (d : Dev) (k : Nat)

/-- The tag of VLAN_TAG = 1. -/
def tagBytes : List Byte :=
  if bit (tunCfg d k) 26 then
    [0x81, 0x00] ++ beBytes (fld (tunCfg d k) 25 23 * 8192 + fld (rd d (tunBase k + 4)) 11 0) 2
  else []

/-- The two addresses, the tag, the EtherType, the body and the padding. -/
theorem tunEther_layout (etype : Nat) (body : List Byte) : ∃ addrs pad : List Byte, addrs.length = 12 ∧
    tunEther d k etype body = addrs ++ (tagBytes d k ++ (beBytes etype 2 ++ (body ++ pad))) := by
  unfold tunEther
  extract_lets b dmac tag f
  refine ⟨beBytes dmac 6 ++ beBytes (brgSmac d) 6, List.replicate (60 - f.length) 0, by simp, ?_⟩
  have htag : tag = tagBytes d k := rfl
  clear_value tag
  subst htag
  simp [f]

variable {etype : Nat} (body : List Byte)

theorem tunEther_hasTag (htype : etype < 2 ^ 16) (hne : etype ≠ 0x8100) :
    hasTag (tunEther d k etype body) = bit (tunCfg d k) 26 := by
  obtain ⟨addrs, pad, haddrs, heq⟩ := tunEther_layout d k etype body
  have hfield : eth16 (tunEther d k etype body) 12 = if bit (tunCfg d k) 26 then 0x8100 else etype := by
    rw [heq, eth16_eq_field, field_append haddrs.le, haddrs, tagBytes]
    split
    · rfl
    · exact field_beBytes htype _
  rw [hasTag, hfield]
  split
  case isTrue htag => rw [htag]; rfl
  case isFalse htag => rw [Bool.eq_false_iff.2 htag, beq_eq_false_iff_ne.2 hne]

theorem tunEther_etherType (htype : etype < 2 ^ 16) (hne : etype ≠ 0x8100) :
    etherType (tunEther d k etype body) = etype := by
  rw [etherType, tunEther_hasTag d k body htype hne]
  obtain ⟨addrs, pad, haddrs, heq⟩ := tunEther_layout d k etype body
  rw [heq, eth16_eq_field, eth16_eq_field, field_append haddrs.le, field_append (by omega), haddrs, tagBytes]
  split
  · rw [field_append (by simp)]
    exact field_beBytes htype _
  · exact field_beBytes htype _

/-- The payload is the body and its padding. -/
theorem tunEther_payload (htype : etype < 2 ^ 16) (hne : etype ≠ 0x8100) : ∃ pad,
    (tunEther d k etype body).drop (if hasTag (tunEther d k etype body) then 18 else 14) = body ++ pad := by
  rw [tunEther_hasTag d k body htype hne]
  obtain ⟨addrs, pad, haddrs, heq⟩ := tunEther_layout d k etype body
  refine ⟨pad, ?_⟩
  have hlength : (tagBytes d k).length = if bit (tunCfg d k) 26 then 4 else 0 := by
    rw [tagBytes]
    split <;> simp
  have hhead : (addrs ++ (tagBytes d k ++ beBytes etype 2)).length = if bit (tunCfg d k) 26 then 18 else 14 := by
    rw [List.length_append, List.length_append, hlength, haddrs, length_beBytes]
    split <;> rfl
  have hsplit : tunEther d k etype body = addrs ++ (tagBytes d k ++ beBytes etype 2) ++ (body ++ pad) := by
    rw [heq, List.append_assoc, List.append_assoc]
  rw [hsplit, ← hhead, List.drop_left]

end

/-! ## The CAN XL wrap (Table 5.8) -/

/-- A CAN XL message as a bus carries it: 1 to 2,048 data bytes, an identifier of 11 bits, and none of the flags of the
other formats. -/
structure PlainXl (m : CanMsg) : Prop where
  fmt : m.fmt = 4
  nonempty : 1 ≤ m.data.length
  fits : m.data.length ≤ 2048
  id : m.id.toNat ≤ 0x7FF
  rtr : m.rtr = false
  brs : m.brs = false
  esi : m.esi = false
  dlc : m.dlc = 0

/-- FLAGS of a CAN XL message that is not authenticated: TS_VALID, and SEC of the message. -/
def wrapFlags (m : CanMsg) : Nat := 32 + if m.sec then 16 else 0

/-- `b` carries the message `m` without authentication, with the timestamp `ts`, for the bus `bus` of the stream `sid`. -/
structure Carries (b : List Byte) (sid bus : Nat) (m : CanMsg) (ts : Nat) : Prop where
  header : 64 ≤ b.length
  flags : field b 1 1 = wrapFlags m
  sid : field b 4 8 = sid
  ts : field b 12 8 = ts
  length : field b 20 2 = m.data.length
  format : field b 22 1 = 4
  bus : field b 23 1 = bus
  id : field b 24 4 = m.id.toNat
  sdt : b.getD 28 0 = m.sdt
  vcid : b.getD 29 0 = m.vcid
  af : field b 32 4 = m.af.toNat
  data : (b.drop 64).take m.data.length = m.data

theorem tunSid_lt (d : Dev) (k : Nat) : tunSid d k < 2 ^ 64 := by
  have hlow := (rd d (tunBase k + 8)).isLt
  have hhigh := (rd d (tunBase k + 8 + 4)).isLt
  unfold tunSid rd64
  omega

theorem length_xlHeader (d : Dev) (k seq pn : Nat) (num auth : Bool) (m : CanMsg) (ts : Nat) :
    (xlHeader d k seq num auth pn m ts).length = 48 := by
  have hspecific (c : Prop) [Decidable c] (a b : Byte) : (if c then [a, b, 0, 0] else [0, 0, 0, 0]).length = 4 := by
    split <;> rfl
  simp only [xlHeader, List.length_append, List.length_cons, List.length_nil, length_beBytes, hspecific, Nat.reduceAdd]

/-- The 48 bytes of the header, field after field. -/
theorem xlHeader_layout {m : CanMsg} (hm : PlainXl m) (d : Dev) (k seq pn : Nat) (num : Bool) (ts : Nat)
    (rest : List Byte) : xlHeader d k seq num false pn m ts ++ rest =
      [0x01] ++ (beBytes (wrapFlags m) 1 ++ (beBytes seq 2 ++ (beBytes (tunSid d k) 8 ++ (beBytes ts 8 ++
        (beBytes m.data.length 2 ++ (beBytes 4 1 ++ (beBytes (tunBus d k) 1 ++ (beBytes m.id.toNat 4 ++
        ([m.sdt, m.vcid, 0, 0] ++ (beBytes m.af.toNat 4 ++ (beBytes Config.serial.toNat 8 ++
        (beBytes 0 4 ++ rest)))))))))))) := by
  simp [xlHeader, wrapFlags, wrapLength, hm.fmt, hm.rtr, hm.brs, hm.esi]

/-- The header written for a message carries it, with 16 bytes of ICV, its data and any padding after it. -/
theorem xlHeader_carries {m : CanMsg} (hm : PlainXl m) (d : Dev) (k seq pn : Nat) (num : Bool) {ts : Nat}
    (hts : ts < 2 ^ 64) {icv : List Byte} (hicv : icv.length = 16) (pad : List Byte) :
    Carries (xlHeader d k seq num false pn m ts ++ (icv ++ (m.data ++ pad))) (tunSid d k) (tunBus d k) m ts := by
  have hhead := length_xlHeader d k seq pn num false m ts
  constructor
  case header => simp only [List.length_append, hhead, hicv]; omega
  case data =>
    rw [List.drop_append, List.drop_eq_nil_of_le (by omega), hhead, List.nil_append,
      List.drop_left' (by omega), List.take_left]
  all_goals
    simp only [xlHeader_layout hm, field_append, List.getD_append_right, length_beBytes, List.length_cons, List.length_nil,
      Nat.reduceLeDiff, Nat.reduceAdd, Nat.reduceSub]
  case flags => exact field_beBytes (by unfold wrapFlags; split <;> decide) _
  case sid => exact field_beBytes (tunSid_lt d k) _
  case ts => exact field_beBytes hts _
  case length => exact field_beBytes (hm.fits.trans_lt (by decide)) _
  case format => exact field_beBytes (by decide) _
  case bus => exact field_beBytes ((fld_lt ..).trans (by decide)) _
  case id => exact field_beBytes (m.id.isLt.trans (by decide)) _
  case sdt => rfl
  case vcid => rfl
  case af => exact field_beBytes m.af.isLt _

/-! ## Unwrapping (R181, R182) -/

/-- The frame that carries an unwrapped message of stream `k` into the Basin. -/
def unwrapFrame (d : Dev) (k : Nat) (m : CanMsg) (ts : Nat) : Frame :=
  let cls := fld (tunCfg d k) 18 16
  { uid := 0, body := .can m (Fin.ofNat 16 (fld (tunCfg d k) 3 0)) true, inPort := 13, cls := cls
    ts := ts, vid := fld (rd d (aPort 13 4)) 11 0, pcp := cls, tunnelled := true }

theorem unwrapEnter_eq (d : Dev) (k : Nat) (m : CanMsg) (ts : Nat) :
    unwrapEnter d k m ts = (enterBasin (inc d (aTun k 1)) (unwrapFrame d k m ts)).2 := rfl

/-- Comparing a sequence number changes no register and not the count of messages unwrapped. -/
theorem seqCheck_keeps (d : Dev) (k seq width : Nat) :
    (seqCheck d k seq width).regs = d.regs ∧ cnt (seqCheck d k seq width) (aTun k 1) = cnt d (aTun k 1) := by
  simp only [seqCheck, setStream_regs, cnt_setStream]
  split
  · exact ⟨rfl, rfl⟩
  · refine ⟨rfl, ?_⟩
    rw [cnt_inc, if_neg (by unfold aTun; omega)]

theorem wrapFlags_bits (m : CanMsg) : (wrapFlags m).testBit 1 = false ∧ (wrapFlags m).testBit 2 = false ∧
    (wrapFlags m).testBit 3 = false ∧ (wrapFlags m).testBit 4 = m.sec ∧ (wrapFlags m).testBit 5 = true := by
  cases h : m.sec <;> simp only [wrapFlags, h] <;> decide

theorem w32_toNat (w : Word) : w32 w.toNat = w := by rw [w32, BitVec.ofNat_toNat, BitVec.setWidth_eq]

/-- A CAN XL message is its own fields, the flags of the other formats at their defaults. -/
theorem PlainXl.eta {m : CanMsg} (hm : PlainXl m) :
    { id := m.id, fmt := 4, sec := m.sec, vcid := m.vcid, sdt := m.sdt, af := m.af, data := m.data } = m := by
  obtain ⟨id, fmt, rtr, brs, esi, sec, dlc, vcid, sdt, af, data⟩ := m
  obtain ⟨rfl, -, -, -, rfl, rfl, rfl, rfl⟩ := hm
  rfl

/-- A wrap passes the checks of R181 and its message enters the Basin by the stream that takes it. -/
theorem xlUnwrap_carried {d : Dev} {b : List Byte} {sid bus k ts : Nat} {m : CanMsg} (hm : PlainXl m)
    (hb : Carries b sid bus m ts) (hbus : bus < 32) (hk : rxStream d sid bus true = some k) (hauth : tunAuth d k = false) :
    xlUnwrap d b = unwrapEnter (seqCheck (setStream d k (streamOf d k)) k (field b 2 2) 65536) k m ts := by
  obtain ⟨hheader, hflags, hsid, hts, hlength, hformat, hbusAt, hid, hsdt, hvcid, haf, hdata⟩ := hb
  obtain ⟨hrtr, hesi, hbrs, hsec, htv⟩ := wrapFlags_bits m
  have hidMod : m.id.toNat % 536870912 = m.id.toNat := Nat.mod_eq_of_lt m.id.isLt
  simp only [field] at *
  simp only [xlUnwrap, hsid, hbusAt, Nat.mod_eq_of_lt hbus, hk, hflags, hformat, hlength, hid, hrtr, hesi, hbrs, hsec, htv,
    hsdt, hvcid, haf, hts, hauth]
  simp [hdata, hheader, hm.nonempty, hm.fits, hidMod, hm.id, w32_toNat, hm.eta]

/-- A frame of EtherType 0x88B5 whose payload `p` has SUBTYPE 1 is read as a CAN XL wrap. -/
theorem tunnelUnwrap_xl {d : Dev} {e : QEntry} {f : Frame} {raw p : List Byte} (h : AtHead d e f)
    (hdest : e.dest = .unwrap) (hbody : f.body = .eth raw) (ht : f.tunnelled = false) (htype : etherType raw = 0x88B5)
    (hp : raw.drop (if hasTag raw then 18 else 14) = p) (hsub : field p 2 1 = 1) :
    tunnelUnwrap d .clean = leaveQueue (xlUnwrap d (p.drop 2)) e := by
  rw [field] at hsub
  simp [tunnelUnwrap, h.head, h.frame, h.good, h.read, hdest, hbody, ht, htype, hp, hsub]

/-! ## There and back -/

/-- The wrap of a stream without authentication: two bytes of alignment, the header, an ICV of 0, the data. -/
def plainWrap (d : Dev) (k : Nat) (m : CanMsg) (ts : Nat) : List Byte :=
  [0, 0] ++ (xlHeader d k (streamOf d k).txSeq (streamOf d k).txNum false (txKey (streamOf d k)).2.1 m ts ++
    (List.replicate 16 0 ++ m.data))

theorem wrapBuild_plain {d : Dev} {k : Nat} (hmode : tunMode d k = 2) (hauth : tunAuth d k = false) (m : CanMsg) (ts : Nat) :
    (wrapBuild d k m ts).1 = tunEther d k 0x88B5 (plainWrap d k m ts) := by
  simp [wrapBuild, plainWrap, hmode, hauth]

theorem plainWrap_subtype (d : Dev) (k : Nat) (m : CanMsg) (ts : Nat) (pad : List Byte) :
    field (plainWrap d k m ts ++ pad) 2 1 = 1 := rfl

theorem plainWrap_carries {m : CanMsg} (hm : PlainXl m) (d : Dev) (k : Nat) {ts : Nat} (hts : ts < 2 ^ 64)
    (pad : List Byte) : Carries ((plainWrap d k m ts ++ pad).drop 2) (tunSid d k) (tunBus d k) m ts := by
  simp only [plainWrap, List.append_assoc]
  exact xlHeader_carries hm d k _ _ _ hts List.length_replicate pad

/-- The engine unwraps what the stream `k` built for `m` to `m`, by the stream that takes it. -/
theorem tunnelUnwrap_wrapBuild {d : Dev} {e : QEntry} {f : Frame} {k ts : Nat} {m : CanMsg} (h : AtHead d e f)
    (hdest : e.dest = .unwrap) (ht : f.tunnelled = false) (hbody : f.body = .eth (wrapBuild d k m ts).1)
    (hmode : tunMode d k = 2) (hauth : tunAuth d k = false) (hk : rxStream d (tunSid d k) (tunBus d k) true = some k)
    (hts : ts < 2 ^ 64) (hm : PlainXl m) : ∃ seq, tunnelUnwrap d .clean =
      leaveQueue (unwrapEnter (seqCheck (setStream d k (streamOf d k)) k seq 65536) k m ts) e := by
  rw [wrapBuild_plain hmode hauth] at hbody
  have htype := tunEther_etherType d k (plainWrap d k m ts) (etype := 0x88B5) (by decide) (by decide)
  obtain ⟨pad, hpayload⟩ := tunEther_payload d k (plainWrap d k m ts) (etype := 0x88B5) (by decide) (by decide)
  rw [tunnelUnwrap_xl h hdest hbody ht htype hpayload (plainWrap_subtype ..),
    xlUnwrap_carried hm (plainWrap_carries hm d k hts pad) (fld_lt ..) hk hauth]
  exact ⟨_, rfl⟩

/-- Settles O27: the frame the engine builds carries the message's fields, and the engine reads them back. -/
theorem unwrapRecoversWrappedFrame : Obligations.UnwrapRecoversWrappedFrame := by
  unfold Obligations.UnwrapRecoversWrappedFrame
  intro s k e f m ts _ hhead hdest hframe hgood ht hbody hmode hauth hk hts hfmt hpos hfits hid hrtr hbrs hesi hdlc
  obtain ⟨seq, hrun⟩ := tunnelUnwrap_wrapBuild ⟨hhead, hframe, hgood⟩ hdest ht hbody hmode hauth hk hts
    ⟨hfmt, hpos, hfits, hid, hrtr, hbrs, hesi, hdlc⟩
  rw [unwrapEnter_eq] at hrun
  obtain ⟨hregs, hcnt⟩ := seqCheck_keeps (setStream s.dev k (streamOf s.dev k)) k seq 65536
  generalize seqCheck (setStream s.dev k (streamOf s.dev k)) k seq 65536 = d at hrun hregs hcnt
  have hcfg : tunCfg d k = tunCfg s.dev k := by rw [tunCfg, rd, hregs]; rfl
  refine ⟨inc d (aTun k 1), unwrapFrame d k m ts, ?_, ?_, rfl, rfl, rfl, ?_, ?_⟩
  · exact congrArg (fun d => Host.Outcome.next { s with dev := d }) hrun
  · rw [← hcfg]; rfl
  · rw [← hcfg]; rfl
  · rw [cnt_inc, if_pos rfl, hcnt]; rfl

end Sys2Proof.Proofs.TunnelUnwrap

/-! PROOFS. The CAN channels seen from outside (chapter 6): what events, reports, freed cells and the network machine leave of
them alone, and what abandoning frames and judging the counters make of a channel. -/

namespace Sys2Proof.Proofs.CanChannels

open Sys2Proof Sys2Proof.Machine Sys2Proof.Laws Sys2Proof.Proofs.FreedCells

/-! ## Addresses of the channels (Tables 1.8, 6.8) -/

/-- `a` lies in the pages of the CAN channels. -/
def OfCan (a : Nat) : Prop := 0xD00000 ≤ a ∧ a < 0xE00000

theorem ofCan_base {n o : Nat} (hn : n < 16) (ho : o < 0x10000) : OfCan (canBase n + o) := by
  unfold OfCan canBase
  omega

theorem ofCan_aCanCnt {n k : Nat} (hn : n < 16) (hk : k < 17) : OfCan (aCanCnt n k) := by
  unfold OfCan aCanCnt canBase
  omega

theorem aCanCnt_inj {n j k : Nat} : aCanCnt n j = aCanCnt n k ↔ j = k := by
  unfold aCanCnt
  omega

/-- No other register than an event register of a channel lies where those lie in its page. -/
theorem base_not_event {n o : Nat} (ho : o < 0x10000) (h : o ≠ 8) : (canBase n + o) % 0x10000 ≠ 8 := by
  unfold canBase
  omega

/-! ## Devices with like channels -/

/-- From `d` to `t` the registers of the channels stay, but for event bits that rise, and what was sent stays sent. -/
structure Kept (d t : Dev) : Prop where
  regs : ∀ a, OfCan a → a % 0x10000 ≠ 8 → rd t a = rd d a
  bits : ∀ a i, OfCan a → bit (rd d a) i = true → bit (rd t a) i = true
  out : d.out <:+ t.out

/-- `Kept`, and every channel and every counter of the channels is as it was. -/
structure Alike (d t : Dev) : Prop extends Kept d t where
  channels : ∀ m, canOf t m = canOf d m
  cnts : ∀ a, OfCan a → cnt t a = cnt d a

/-- `Alike`, with the very table of the channels. -/
structure Beside (d t : Dev) : Prop extends Kept d t where
  can : t.can = d.can
  cnts : ∀ a, OfCan a → cnt t a = cnt d a

theorem Kept.of_regs {d t : Dev} (hregs : t.regs = d.regs) (hout : d.out <:+ t.out) : Kept d t where
  regs _ _ _ := by simp only [rd, hregs]
  bits _ _ _ h := by simpa only [rd, hregs] using h
  out := hout

theorem Kept.trans {a b c : Dev} (h : Kept a b) (g : Kept b c) : Kept a c where
  regs i hi hne := (g.regs i hi hne).trans (h.regs i hi hne)
  bits i j hi hb := g.bits i j hi (h.bits i j hi hb)
  out := h.out.trans g.out

theorem Alike.refl (d : Dev) : Alike d d where
  toKept := .of_regs rfl List.suffix_rfl
  channels _ := rfl
  cnts _ _ := rfl

/-- The channels and the counters compared one by one. -/
theorem Alike.of_channels {d t : Dev} (hregs : t.regs = d.regs) (hout : t.out = d.out)
    (hchannels : ∀ m, canOf t m = canOf d m) (hcnts : ∀ a, cnt t a = cnt d a) : Alike d t where
  toKept := .of_regs hregs (hout ▸ List.suffix_rfl)
  channels := hchannels
  cnts a _ := hcnts a

theorem Alike.trans {a b c : Dev} (h : Alike a b) (g : Alike b c) : Alike a c where
  toKept := h.toKept.trans g.toKept
  channels m := (g.channels m).trans (h.channels m)
  cnts i hi := (g.cnts i hi).trans (h.cnts i hi)

theorem Beside.alike {d t : Dev} (h : Beside d t) : Alike d t where
  toKept := h.toKept
  channels _ := by simp only [canOf, h.can]
  cnts := h.cnts

section
variable {d t : Dev} {n : Nat}

/-- The register at offset `o` of the page of channel `n`. -/
theorem Kept.rd_base (h : Kept d t) (hn : n < 16) {o : Nat} (ho : o < 0x10000) (h8 : o ≠ 8) :
    rd t (canBase n + o) = rd d (canBase n + o) := h.regs _ (ofCan_base hn ho) (base_not_event ho h8)

/-- CAN_CTRL, at the base of the page. -/
theorem Kept.rd_ctrl (h : Kept d t) (hn : n < 16) : rd t (canBase n) = rd d (canBase n) :=
  h.rd_base hn (o := 0) (by decide) (by decide)

/-- CAN_EVENT of channel `n`. -/
theorem Kept.event (h : Kept d t) (hn : n < 16) {i : Nat} (hbit : bit (rd d (canBase n + 8)) i = true) :
    bit (rd t (canBase n + 8)) i = true := h.bits _ i (ofCan_base hn (by decide)) hbit

theorem Alike.cnt_can (h : Alike d t) (hn : n < 16) {k : Nat} (hk : k < 17) : cnt t (aCanCnt n k) = cnt d (aCanCnt n k) :=
  h.cnts _ (ofCan_aCanCnt hn hk)

end

theorem Beside.refl (d : Dev) : Beside d d where
  toKept := .of_regs rfl List.suffix_rfl
  can := rfl
  cnts _ _ := rfl

theorem Beside.trans {a b c : Dev} (h : Beside a b) (g : Beside b c) : Beside a c where
  toKept := h.toKept.trans g.toKept
  can := g.can.trans h.can
  cnts i hi := (g.cnts i hi).trans (h.cnts i hi)

theorem Beside.ite {c : Prop} [Decidable c] {d a b : Dev} (ha : Beside d a) (hb : Beside d b) :
    Beside d (if c then a else b) := by
  split <;> assumption

/-- A device that differs outside registers, counters and channels. -/
theorem Beside.of_same {d t : Dev} (hcan : t.can = d.can) (hregs : t.regs = d.regs) (hcnts : t.cnts = d.cnts)
    (hout : d.out <:+ t.out) : Beside d t where
  toKept := .of_regs hregs hout
  can := hcan
  cnts _ _ := by simp only [cnt, hcnts]

/-- `Beside`, and the Basin is as it was. -/
structure Dry (d t : Dev) : Prop extends Beside d t where
  basin : t.basin = d.basin

theorem Dry.refl (d : Dev) : Dry d d := ⟨.refl d, rfl⟩

theorem Dry.trans {a b c : Dev} (h : Dry a b) (g : Dry b c) : Dry a c :=
  ⟨h.toBeside.trans g.toBeside, g.basin.trans h.basin⟩

theorem Dry.ite {c : Prop} [Decidable c] {d a b : Dev} (ha : Dry d a) (hb : Dry d b) : Dry d (if c then a else b) := by
  split <;> assumption

section
variable (d : Dev)

/-! ### What every block does (R91, R145, R150) -/

theorem emit_beside (o : Out) : Beside d (emit d o) := .of_same rfl rfl rfl (List.suffix_cons ..)
theorem setBasin_beside (b : Basin) : Beside d (setBasin d b) := .of_same rfl rfl rfl List.suffix_rfl
theorem setSlip_beside (n : Nat) (x : Slip) : Beside d (setSlip d n x) := .of_same rfl rfl rfl List.suffix_rfl
theorem setRing_beside (n r : Nat) (x : Ring) : Beside d (setRing d n r x) := .of_same rfl rfl rfl List.suffix_rfl
theorem setPort_beside (p : Nat) (x : WirePort) : Beside d (setPort d p x) := .of_same rfl rfl rfl List.suffix_rfl
theorem setNet_beside (n : Nat) (x : Net) : Beside d (setNet d n x) := .of_same rfl rfl rfl List.suffix_rfl
theorem setPart_beside (n m : Nat) (x : Partner) : Beside d (setPart d n m x) := .of_same rfl rfl rfl List.suffix_rfl

theorem inc_beside {a : Nat} (ha : ¬ OfCan a) : Beside d (inc d a) where
  toKept := .of_regs rfl List.suffix_rfl
  can := rfl
  cnts i hi := by rw [cnt_inc, if_neg (by rintro rfl; exact ha hi)]

theorem wr_beside {a : Nat} (v : Word) (ha : ¬ OfCan a) : Beside d (wr d a v) where
  regs i hi _ := by rw [rd_wr, if_neg (by rintro rfl; exact ha hi)]
  bits i j hi h := by rwa [rd_wr, if_neg (by rintro rfl; exact ha hi)]
  out := List.suffix_rfl
  can := rfl
  cnts _ _ := rfl

theorem sendVec_beside (n v : Nat) : Beside d (sendVec d n v) := .ite (emit_beside ..) (setSlip_beside ..)

theorem setEv_beside (src en b inst : Nat) (detail : Word) {ev : Nat} (hev : OfCan ev → ev % 0x10000 = 8) :
    Beside d (setEv d src ev en b inst detail) where
  regs a ha hne := by rw [rd_setEv, if_neg (by rintro ⟨rfl, -⟩; exact hne (hev ha))]
  bits a i _ := setEv_keeps d src ev en b inst detail a i
  out := setEv_out ..
  can := setEv_can ..
  cnts a _ := by rw [cnt, setEv_cnts]; rfl

theorem evCan_beside (n b : Nat) : Beside d (evCan d n b) := setEv_beside _ _ _ _ _ _ fun _ => by unfold canBase; omega

theorem evNws_beside (n b : Nat) : Beside d (evNws d n b) :=
  setEv_beside _ _ _ _ _ _ fun h => by unfold OfCan netBase at h; omega

theorem evSw_beside (b inst : Nat) : Beside d (evSw d b inst) :=
  setEv_beside _ _ _ _ _ _ fun h => by unfold OfCan at h; omega
theorem evDev_beside (b : Nat) : Beside d (evDev d b) := setEv_beside _ _ _ _ _ _ fun h => by unfold OfCan at h; omega
theorem evSvc_beside (b inst : Nat) : Beside d (evSvc d b inst) :=
  setEv_beside _ _ _ _ _ _ fun h => by unfold OfCan at h; omega
theorem evWld_beside (b inst : Nat) : Beside d (evWld d b inst) :=
  setEv_beside _ _ _ _ _ _ fun h => by unfold OfCan at h; omega

/-! ### A frame leaves a queue or is read (R43, R44, R54, R76, R351) -/

theorem pfcJudge_beside (p c : Nat) : Beside d (pfcJudge d p c) := by
  obtain h | ⟨m, xoff, hlo, hhi, -, h⟩ := pfcJudge_cases d p c
  · rw [h]; exact .refl d
  · rw [h]
    exact (setPort_beside ..).trans ((emit_beside ..).trans (inc_beside _ fun ha => by unfold OfCan aPcnt at ha; omega))

theorem reserveBring_beside (r : Nat) : Beside d (reserveBring d r) := by
  have hnote (d : Dev) : Beside d (reserveNote d r) :=
    (evSvc_beside ..).trans ((evDev_beside ..).trans (.ite (evSvc_beside ..) (.refl _)))
  unfold reserveBring
  refine .trans ?_ (hnote _)
  exact .of_same rfl rfl rfl List.suffix_rfl

theorem retireCell_beside (c : Nat) : Beside d (retireCell d c) := by
  unfold retireCell
  extract_lets b b1 d1 d2 d3 reserves
  have h1 : Beside d d1 := .ite (setBasin_beside ..) (setBasin_beside ..)
  have h2 : Beside d1 d2 := .ite ((evSw_beside ..).trans (reserveBring_beside ..)) ((evSw_beside ..).trans (evDev_beside ..))
  have h3 : Beside d2 d3 := .ite (evSw_beside ..) (.refl _)
  have h : Beside d d3 := h1.trans (h2.trans h3)
  exact .ite (.refl d) (.ite (h.trans ((setBasin_beside ..).trans (evSw_beside ..))) h)

theorem freeIfDone_beside (uid : Nat) : Beside d (freeIfDone d uid) := by
  unfold freeIfDone
  split
  · exact .refl d
  · extract_lets due _ d1
    have hdue : Beside d1 (due.foldl (fun d e => retireCell d e.2) d1) :=
      rel_foldl .refl .trans (fun d (e : Nat × Nat) => retireCell_beside d e.2) ..
    exact .ite (.refl d) ((setBasin_beside ..).trans (hdue.trans (pfcJudge_beside ..)))

theorem leaveQueue_beside (e : QEntry) : Beside d (leaveQueue d e) := (setBasin_beside ..).trans (freeIfDone_beside ..)

theorem retireWhenFree_beside (c : Nat) : Beside d (retireWhenFree d c) := by
  unfold retireWhenFree
  split
  · exact setBasin_beside ..
  · exact retireCell_beside ..

theorem cellRead_beside (r : CellRead) : Beside d (cellRead d r) := by
  cases r with
  | clean => exact .refl d
  | corrected c =>
    have hcount (b : Basin) : Beside d (inc (setBasin d b) aCeCount) :=
      (setBasin_beside ..).trans (inc_beside _ fun h => by unfold OfCan aCeCount at h; omega)
    exact .ite ((hcount _).trans (retireWhenFree_beside ..)) (hcount _)
  | uncorrectable c => exact (evSw_beside ..).trans (retireWhenFree_beside ..)

theorem violation_beside (kind mem cls off region source : Nat) : Beside d (violation d kind mem cls off region source) := by
  have hentry (t i : Nat) (hi : i < 8) : ¬ OfCan (0x1300100 + 32 * (t % 16) + 4 * i) := fun h => by unfold OfCan at h; omega
  unfold violation
  extract_lets total a ts wld d1 w d2 d3 d4
  have hw (d : Dev) (i : Nat) (v : Word) (hi : i < 8) : Beside d (w d i v) := wr_beside d v (hentry total i hi)
  have h1 : Beside d d1 := .of_same rfl rfl rfl List.suffix_rfl
  have h2 : Beside d1 d2 := (hw _ _ _ (by decide)).trans ((hw _ _ _ (by decide)).trans ((hw _ _ _ (by decide)).trans
    ((hw _ _ _ (by decide)).trans (hw _ _ _ (by decide)))))
  have h4 : Beside d2 d4 := (hw _ 0 _ (by decide)).trans (wr_beside _ _ fun h => by unfold OfCan at h; omega)
  exact h1.trans (h2.trans (h4.trans ((inc_beside _ fun h => by unfold OfCan at h; omega).trans (evWld_beside ..))))

/-- A refusal of a fabric engine, which is no hart. -/
theorem accessRefused_beside {cls : Nat} (hcls : ¬ cls ≤ 1) (source m off : Nat) (write : Bool) :
    Beside d (accessRefused d cls source m off write) := by
  simp only [accessRefused, if_neg hcls]
  split
  · exact .ite ((violation_beside ..).trans (emit_beside ..)) (violation_beside ..)
  · exact violation_beside ..

theorem frameRead_beside (f : Frame) (r : CellRead) : Beside d (frameRead d f r) := by
  refine .ite (.trans ?_ (evSw_beside ..)) (cellRead_beside ..)
  split
  · exact accessRefused_beside _ (by decide) ..
  · exact .refl d

/-! ### The report to a transmit descriptor (R137, R138, R142, R150) -/

theorem emit_dry (o : Out) : Dry d (emit d o) := ⟨emit_beside .., rfl⟩
theorem setSlip_dry (n : Nat) (x : Slip) : Dry d (setSlip d n x) := ⟨setSlip_beside .., rfl⟩
theorem setRing_dry (n r : Nat) (x : Ring) : Dry d (setRing d n r x) := ⟨setRing_beside .., rfl⟩
theorem sendVec_dry (n v : Nat) : Dry d (sendVec d n v) := ⟨sendVec_beside .., sendVec_basin ..⟩

theorem ringIrq_dry (n r : Nat) : Dry d (ringIrq d n r) :=
  .ite (.ite (setRing_dry ..) (.ite (sendVec_dry ..) ((sendVec_dry ..).trans (setRing_dry ..)))) (.refl d)

theorem writeCompl_dry (n r : Nat) (x : Desc) (c : Compl) : Dry d (writeCompl d n r x c) := by
  unfold writeCompl
  extract_lets g g1 z d0
  have h0 : Dry d d0 := by
    unfold d0
    split
    · exact setSlip_dry ..
    · exact .refl d
  refine h0.trans (.ite (setRing_dry ..) ?_)
  exact (setRing_dry ..).trans ((emit_dry ..).trans ((emit_dry ..).trans (ringIrq_dry ..)))

theorem flushList_dry (n r : Nat) (l : List Desc) : Dry d (flushList d n r l) := by
  induction l generalizing d with
  | nil => exact .refl d
  | cons x l ih =>
    unfold flushList
    split
    · exact (writeCompl_dry ..).trans (ih _)
    · exact .refl d

theorem finish_dry (n r idx : Nat) (c : Compl) : Dry d (finish d n r idx c) := by
  unfold finish
  split
  · exact .refl d
  · exact (setRing_dry ..).trans (flushList_dry ..)

theorem canReport_dry (uid ch : Nat) (ok collided : Bool) (sof : Nat) : Dry d (canReport d uid ch ok collided sof) := by
  have hjudge (d : Dev) (n r : Nat) (x : Desc) : Dry d (confirmJudge d n r x) := .ite (finish_dry ..) (.refl d)
  unfold canReport
  split; · exact .refl d
  split; · exact .refl d
  split; · exact .refl d
  exact .ite ((setRing_dry ..).trans (hjudge ..)) (.refl d)

theorem canReport_beside (uid ch : Nat) (ok collided : Bool) (sof : Nat) : Beside d (canReport d uid ch ok collided sof) :=
  (canReport_dry ..).toBeside

/-! ### The network machine and its calls (R208, R209, R219) -/

theorem aNetCnt_not_ofCan (n k : Nat) : ¬ OfCan (aNetCnt n k) := fun h => by unfold OfCan aNetCnt netBase at h; omega

theorem netEnter_beside (n : Nat) (st : NetState) : Beside d (netEnter d n st) :=
  .ite (setNet_beside ..) ((setNet_beside ..).trans (evNws_beside ..))

theorem netStart_beside (n : Nat) : Beside d (netStart d n) :=
  (netEnter_beside ..).trans ((setNet_beside ..).trans (setNet_beside ..))

theorem netStop_beside (n : Nat) : Beside d (netStop d n) := (netEnter_beside ..).trans (setNet_beside ..)

theorem kaDue_beside (n : Nat) : Beside d (kaDue d n) := by
  have hskip (d : Dev) : Beside d (netInc d n 7) := inc_beside d (aNetCnt_not_ofCan n 7)
  unfold kaDue
  split
  iterate 4 exact hskip d
  exact .trans (.ite (hskip d) (.refl d)) (setNet_beside ..)

theorem needArises_beside (n : Nat) : Beside d (needArises d n) := by
  unfold needArises
  refine .ite (.ite (kaDue_beside ..) (.refl d)) ?_
  split
  · exact kaDue_beside ..
  · exact (netEnter_beside ..).trans ((setNet_beside ..).trans ((setNet_beside ..).trans (kaDue_beside ..)))
  · exact .ite (.refl d) (setNet_beside ..)

theorem dropCall_beside (n : Nat) : Beside d (dropCall d n) :=
  .ite ((setNet_beside ..).trans (wr_beside _ _ fun h => by unfold OfCan netBase at h; omega)) (setNet_beside ..)

theorem openCall_beside (n : Nat) : Beside d (openCall d n) := by
  have hparts := rel_foldl (R := Beside) .refl .trans (f := fun d m =>
    if (partOf d n m).answered then setPart d n m { partOf d n m with answered := false } else d)
    (fun d m => .ite (setPart_beside ..) (.refl d)) (List.range 64) d
  exact hparts.trans ((setNet_beside ..).trans (emit_beside ..))

theorem callGo_beside (n : Nat) : Beside d (callGo d n) :=
  .ite (.refl d) (.ite (dropCall_beside ..) (.ite (.refl d)
    (.ite ((openCall_beside ..).trans (needArises_beside ..)) (openCall_beside ..))))

end

end Sys2Proof.Proofs.CanChannels

/-! PROOFS. What a channel becomes when frames are abandoned, its counters judged and its stop made (R187, R197, R199, R200,
Tables 6.5, 6.6). Each operation is compared with a device written out: one channel set, TX_FAILED counted. -/

namespace Sys2Proof.Proofs.CanStops

open Sys2Proof Sys2Proof.Machine Sys2Proof.Laws Sys2Proof.Proofs.FreedCells Sys2Proof.Proofs.CanChannels

theorem setCan_kept (d : Dev) (n : Nat) (c : Can) : Kept d (setCan d n c) := .of_regs rfl List.suffix_rfl
theorem cntAdd_kept (d : Dev) (a k : Nat) : Kept d (cntAdd d a k) := .of_regs rfl List.suffix_rfl

@[simp] theorem canOf_cntAdd (d : Dev) (a k m : Nat) : canOf (cntAdd d a k) m = canOf d m := rfl
@[simp] theorem canOf_inc (d : Dev) (a m : Nat) : canOf (inc d a) m = canOf d m := rfl
@[simp] theorem canOf_canInc (d : Dev) (n k m : Nat) : canOf (canInc d n k) m = canOf d m := rfl
@[simp] theorem canOf_emit (d : Dev) (o : Out) (m : Nat) : canOf (emit d o) m = canOf d m := rfl
@[simp] theorem canOf_wr (d : Dev) (a : Nat) (v : Word) (m : Nat) : canOf (wr d a v) m = canOf d m := rfl
@[simp] theorem canOf_evCan (d : Dev) (n b m : Nat) : canOf (evCan d n b) m = canOf d m := by simp [canOf]

theorem alike_setCan {d t : Dev} (h : Alike d t) (n : Nat) (c : Can) : Alike (setCan d n c) (setCan t n c) where
  regs i hi hne := h.regs i hi hne
  bits i j hi hb := h.bits i j hi hb
  out := h.out
  channels m := by simp only [canOf_setCan, h.channels]
  cnts i hi := h.cnts i hi

theorem alike_cntAdd {d t : Dev} (h : Alike d t) (a k : Nat) : Alike (cntAdd d a k) (cntAdd t a k) where
  regs i hi hne := h.regs i hi hne
  bits i j hi hb := h.bits i j hi hb
  out := h.out
  channels m := h.channels m
  cnts i hi := by
    simp only [cnt_cntAdd, h.cnts i hi]
    split
    · subst i; rw [h.cnts a hi]
    · rfl

/-! ## Frames abandoned (R197, Table 6.5) -/

/-- The channel without the loaded frames of the list `l`, and with `bus` on the bus. -/
def without (c : Can) (l : List CanLoaded) (bus : Option Nat) : Can :=
  { c with loaded := c.loaded.filter fun y => l.all fun x => y.uid != x.uid, onBus := bus }

theorem without_all (c : Can) (bus : Option Nat) : without c c.loaded bus = { c with loaded := [], onBus := bus } := by
  have hnone : c.loaded.filter (fun y => c.loaded.all fun x => y.uid != x.uid) = [] :=
    List.filter_eq_nil_iff.2 fun y hy h => by simpa using List.all_eq_true.1 h y hy
  rw [without, hnone]

/-- Channel `n` of the device has lost the frames of `l`, each counted in TX_FAILED. -/
def dropped (d : Dev) (n : Nat) (l : List CanLoaded) (bus : Option Nat) : Dev :=
  cntAdd (setCan d n (without (canOf d n) l bus)) (aCanCnt n 4) l.length

section
variable (d : Dev) (n : Nat)

theorem canAbandon_alike (x : CanLoaded) (collided : Bool) :
    ∃ bus, Alike (dropped d n [x] bus) (canAbandon d n x collided) := by
  unfold canAbandon
  extract_lets c d1 d2
  have hdrop : dropped d n [x] (if c.onBus = some x.uid then none else c.onBus) = canInc d1 n 4 := by
    simp [dropped, without, canInc, inc, d1, c]
  refine ⟨if c.onBus = some x.uid then none else c.onBus, Beside.alike (d := dropped ..) ?_⟩
  rw [hdrop]
  refine .trans (canReport_beside _ x.uid n false collided 0) ?_
  split
  · exact leaveQueue_beside ..
  · exact .refl _

/-- The abandoned frame is no longer loaded. -/
theorem canAbandon_gone (x : CanLoaded) (collided : Bool) :
    ∀ y ∈ (canOf (canAbandon d n x collided) n).loaded, y.uid ≠ x.uid := by
  obtain ⟨bus, h⟩ := canAbandon_alike d n x collided
  have hc : canOf (canAbandon d n x collided) n = without (canOf d n) [x] bus := (h.channels n).trans (by simp [dropped])
  intro y hy
  rw [hc] at hy
  simpa using (List.mem_filter.1 hy).2

/-- Abandoning frame after frame of `l`. -/
theorem abandonList_alike (l : List CanLoaded) :
    ∃ bus, Alike (dropped d n l bus) (l.foldl (fun d x => canAbandon d n x false) d) := by
  induction l generalizing d with
  | nil =>
    refine ⟨(canOf d n).onBus, .of_channels rfl rfl (fun m => ?_) fun a => ?_⟩
    · by_cases h : m = n <;> simp [dropped, without, h]
    · by_cases h : a = aCanCnt n 4 <;> simp [dropped, h]
  | cons x l ih =>
    obtain ⟨bus₁, h₁⟩ := canAbandon_alike d n x false
    obtain ⟨bus, h⟩ := ih (canAbandon d n x false)
    have hc : canOf (canAbandon d n x false) n = without (canOf d n) [x] bus₁ := by
      rw [h₁.channels]; simp [dropped]
    refine ⟨bus, .trans ?_ (.trans (alike_cntAdd (alike_setCan h₁ n _) (aCanCnt n 4) l.length) h)⟩
    rw [hc]
    refine .of_channels rfl rfl (fun m => ?_) fun a => ?_
    · by_cases hm : m = n <;> simp [dropped, without, hm, List.filter_filter, Bool.and_comm]
    · by_cases ha : a = aCanCnt n 4 <;> simp [dropped, ha]
      rw [add_assoc, add_comm 1#64, ← BitVec.ofNat_add]

theorem canAbandonAll_alike : ∃ bus, Alike
    (cntAdd (setCan d n { canOf d n with loaded := [], onBus := bus }) (aCanCnt n 4) (canOf d n).loaded.length)
    (canAbandonAll d n) := by
  obtain ⟨bus, h⟩ := abandonList_alike d n (canOf d n).loaded
  rw [dropped, without_all] at h
  exact ⟨bus, h⟩

/-! ## A stop (R187, Table 6.6) -/

/-- The channel after a stop. -/
def stopped (c : Can) : Can :=
  { c with state := .config, loaded := [], onBus := none, stopping := false, boDue := false }

theorem canConfig_alike : Alike
    (cntAdd (setCan d n (stopped (canOf d n))) (aCanCnt n 4) (canOf d n).loaded.length) (canConfig d n) := by
  obtain ⟨bus, h⟩ := abandonList_alike d n (canOf d n).loaded
  unfold canConfig
  extract_lets d1 c d2
  have hc : c = without (canOf d n) (canOf d n).loaded bus := (h.channels n).trans (by simp [dropped])
  have h2 : d2 = setCan d1 n (stopped (canOf d n)) := by
    simp only [d2, hc, without_all, stopped]
  have hset : Alike (cntAdd (setCan d n (stopped (canOf d n))) (aCanCnt n 4) (canOf d n).loaded.length) d2 := by
    rw [h2]
    refine .trans ?_ (alike_setCan h n _)
    refine .of_channels rfl rfl (fun m => ?_) fun a => ?_
    · by_cases hm : m = n <;> simp [dropped, hm]
    · simp [dropped]
  exact hset.trans (Beside.ite (netStop_beside ..) (.refl _)).alike

variable {d n}

theorem canEnded_of_running (h : (canOf d n).stopping = false) : canEnded d n = d := by simp [canEnded, h]

end

/-! ## The counters judged (R199, R200) -/

section
variable (d : Dev) (n : Nat)

/-- The channel with WARN and its state set. -/
def judged (c : Can) (warn : Bool) (state : CanState) : Can := { c with warn := warn, state := state }

theorem canWarn_alike : ∃ warn, Alike (setCan d n (judged (canOf d n) warn (canOf d n).state)) (canWarn d n) :=
  ⟨_, (Beside.ite (evCan_beside ..) (.refl _)).alike⟩

variable {d n}

/-- Below the bus-off limit a judgement changes only WARN and the error state. -/
theorem canJudge_alike (htec : (canOf d n).tec < 256) : ∃ warn state,
    Alike (setCan d n (judged (canOf d n) warn state)) (canJudge d n) := by
  obtain ⟨warn, hwarn⟩ := canWarn_alike d n
  have hset (state : CanState) :
      Alike (setCan d n (judged (canOf d n) warn state)) (setCan (canWarn d n) n (judged (canOf d n) warn state)) := by
    refine .trans ?_ (alike_setCan hwarn n _)
    refine .of_channels rfl rfl (fun m => ?_) fun a => rfl
    by_cases hm : m = n <;> simp [hm]
  unfold canJudge
  extract_lets u c
  have hc : c = judged (canOf d n) warn (canOf d n).state := (hwarn.channels n).trans (by simp)
  have hlow : ¬ 255 < c.tec := by rw [hc]; exact not_lt.2 (Nat.le_of_lt_succ htec)
  rw [if_neg hlow, hc]
  split
  · split
    · exact ⟨_, _, (hset .passive).trans (evCan_beside ..).alike⟩
    · split
      · exact ⟨_, _, hset .active⟩
      · exact ⟨_, _, hwarn⟩
  · exact ⟨_, _, hwarn⟩

end

/-! ## What judgement and stop may do to a channel -/

/-- From `d` to `t` channel `n` was judged or stopped: its registers are kept, no frame was loaded, and of the counters only
TX_FAILED and BUS_OFF rose. -/
structure Settled (n : Nat) (d t : Dev) : Prop extends Kept d t where
  loaded : (canOf t n).loaded ⊆ (canOf d n).loaded
  cnts : ∀ a, OfCan a → a ≠ aCanCnt n 4 → a ≠ aCanCnt n 13 → cnt t a = cnt d a

theorem Settled.trans {n : Nat} {a b c : Dev} (h : Settled n a b) (g : Settled n b c) : Settled n a c where
  toKept := h.toKept.trans g.toKept
  loaded := List.Subset.trans g.loaded h.loaded
  cnts i hi h4 h13 := (g.cnts i hi h4 h13).trans (h.cnts i hi h4 h13)

theorem alike_settled {d t : Dev} (h : Alike d t) (n : Nat) : Settled n d t where
  toKept := h.toKept
  loaded := by rw [h.channels]; exact List.Subset.refl _
  cnts i hi _ _ := h.cnts i hi

theorem Settled.refl (n : Nat) (d : Dev) : Settled n d d := alike_settled (.refl d) n

section
variable (d : Dev) (n : Nat)

theorem setCan_settled (c : Can) (h : c.loaded ⊆ (canOf d n).loaded) : Settled n d (setCan d n c) where
  toKept := setCan_kept ..
  loaded := by simpa using h
  cnts _ _ _ _ := rfl

theorem failed_settled (k : Nat) : Settled n d (cntAdd d (aCanCnt n 4) k) where
  toKept := cntAdd_kept ..
  loaded := List.Subset.refl _
  cnts a _ h _ := by rw [cnt_cntAdd, if_neg h]

theorem dropped_settled (l : List CanLoaded) (bus : Option Nat) : Settled n d (dropped d n l bus) :=
  (setCan_settled d n (without (canOf d n) l bus) (List.filter_subset_self _)).trans (failed_settled ..)

theorem busOff_settled : Settled n d (canInc d n 13) where
  toKept := cntAdd_kept ..
  loaded := List.Subset.refl _
  cnts a _ _ h := by rw [canInc, cnt_inc, if_neg h]

theorem evCan_settled (b : Nat) : Settled n d (evCan d n b) := alike_settled (evCan_beside d n b).alike n

theorem canAbandon_settled (x : CanLoaded) (collided : Bool) : Settled n d (canAbandon d n x collided) := by
  obtain ⟨bus, h⟩ := canAbandon_alike d n x collided
  exact (dropped_settled d n [x] bus).trans (alike_settled h n)

theorem canAbandonAll_settled : Settled n d (canAbandonAll d n) := by
  obtain ⟨bus, h⟩ := abandonList_alike d n (canOf d n).loaded
  exact (dropped_settled d n _ bus).trans (alike_settled h n)

theorem canConfig_settled : Settled n d (canConfig d n) :=
  ((setCan_settled d n _ (by exact List.nil_subset _)).trans (failed_settled ..)).trans
    (alike_settled (canConfig_alike d n) n)

theorem canEnded_settled : Settled n d (canEnded d n) := by
  unfold canEnded
  split
  · exact canConfig_settled ..
  · exact .refl ..

theorem canJudge_settled : Settled n d (canJudge d n) := by
  obtain ⟨warn, hwarn⟩ := canWarn_alike d n
  have h₁ : Settled n d (canWarn d n) := (setCan_settled d n _ (by exact List.Subset.refl _)).trans (alike_settled hwarn n)
  have hset (u : Dev) (c : Can) (hc : c.loaded = (canOf u n).loaded) : Settled n u (setCan u n c) :=
    setCan_settled u n c (hc ▸ List.Subset.refl _)
  refine h₁.trans ?_
  unfold canJudge
  extract_lets u c
  split
  · split
    · exact (hset u _ (by rfl)).trans ((busOff_settled ..).trans ((evCan_settled ..).trans (canAbandonAll_settled ..)))
    · split
      · exact (hset u _ (by rfl)).trans (evCan_settled ..)
      · split
        · exact hset u _ (by rfl)
        · exact .refl ..
  · exact .refl ..

/-- The end of an attempt that failed: the counters are judged, and a stop that waited is made. -/
theorem canJudge_canEnded_settled : Settled n d (canEnded (canJudge d n) n) :=
  (canJudge_settled ..).trans (canEnded_settled ..)

variable {d n}

/-- Of the counters a bus error moves its own, and else only TX_FAILED, TX_COLLISION_FAIL and BUS_OFF (R199, R203). -/
theorem cnt_canBusError (honline : canOnline (canOf d n) = true) (hfrozen : (netOf d n).frozen = false)
    (hup : coreUp d 4 = true) (code phase : Nat) (window : Bool) (x : ErrDetail) {a : Nat} (ha : OfCan a)
    (h4 : a ≠ aCanCnt n 4) (h7 : a ≠ aCanCnt n 7) (h13 : a ≠ aCanCnt n 13) :
    cnt (canBusError d n code phase window x) a = cnt (canInc d n (errCounter code)) a := by
  unfold canBusError
  extract_lets c sending coll d1 c1 d2 c2 cfg
  rw [if_neg (by simp [c, honline, hfrozen, hup])]
  have h2 : cnt d2 a = cnt (canInc d n (errCounter code)) a := by unfold d2; split <;> rfl
  rw [← h2]
  clear_value d2
  have hend (u : Dev) : cnt (canEnded (canJudge u n) n) a = cnt u a := (canJudge_canEnded_settled u n).cnts a ha h4 h13
  have hdrop (u : Dev) (y : CanLoaded) (b : Bool) : cnt (canAbandon u n y b) a = cnt u a :=
    (canAbandon_settled u n y b).cnts a ha h4 h13
  split
  · exact hend _
  · extract_lets y u u7 uId uEv
    have h7' : cnt u7 a = cnt u a := by unfold u7; rw [canInc, cnt_inc, if_neg h7]
    split
    · rw [hend, hdrop]
      exact (cnt_evCan ..).trans h7'
    · split
      · rw [hend, hdrop]; rfl
      · rw [hend]; rfl

end

end Sys2Proof.Proofs.CanStops

/-! PROOFS. A channel's way through its states (R187, R197, R200–R202, Tables 6.4–6.6): enabled, stopped, integrated,
recovered, commanded, faulted. -/

namespace Sys2Proof.Proofs.CanStates

open Sys2Proof Sys2Proof.Machine Sys2Proof.Laws Sys2Proof.Proofs.CanChannels Sys2Proof.Proofs.CanStops
open Sys2Proof.Proofs.TunnelEngine Sys2Proof.Proofs.GatesAndTime

/-! ## A row that is a register write (R156, R168, R171) -/

/-- The device as the effect of a row finds it: reservations of the block broken, its prefetched copy dropped. -/
def bridged (d : Dev) (a : Nat) : Dev := breakReservations (dropCopies d [a / 4]) .pf a

@[simp] theorem canOf_bridged (d : Dev) (a m : Nat) : canOf (bridged d a) m = canOf d m := rfl
@[simp] theorem netOf_bridged (d : Dev) (a m : Nat) : netOf (bridged d a) m = netOf d m := rfl
@[simp] theorem rd_bridged (d : Dev) (a i : Nat) : rd (bridged d a) i = rd d i := rfl
@[simp] theorem cnt_bridged (d : Dev) (a i : Nat) : cnt (bridged d a) i = cnt d i := rfl
@[simp] theorem resultValid_bridged (d : Dev) (a i : Nat) : resultValid (bridged d a) i = resultValid d i := rfl

theorem bridged_alike (d : Dev) (a : Nat) : Alike d (bridged d a) :=
  (Beside.of_same (d := d) (t := bridged d a) rfl rfl rfl List.suffix_rfl).alike

theorem rowWrite_bridged {d : Dev} {a : Nat} (h : RowReady d a) (ha : a < 2 ^ 26) (v : Word) (k : Dev → Dev) :
    rowWrite d a v k = k (bridged d a) := by
  obtain ⟨hfabric, ⟨hqueue, hown⟩, hblock, hcause⟩ := h
  exact rowWrite_ready v k ha hfabric hqueue hown hblock hcause

/-- A command that is a register write and finds its way has its effect. -/
theorem exec_row {c : Instr} {s : State} {a : Nat} {v : Word} {k : Dev → Dev} (hready : RowReady s.dev a) (ha : a < 2 ^ 26)
    (h : exec c s = .next { s with dev := rowWrite s.dev a v k }) :
    exec c s = .next { s with dev := k (bridged s.dev a) } := by
  rw [h, rowWrite_bridged hready ha]

theorem base_lt (n : Fin 16) {o : Nat} (ho : o < 0x10000) : canBase n + o < 2 ^ 26 := by
  unfold canBase
  omega

/-- A counter clear behind a register write. -/
theorem rowClears_range {c : Instr} {a lo hi : Nat} {v : Word} (ha : a < 2 ^ 26)
    (h : ∀ s, exec c s = onDev (fun d => rowWrite d a v (clearCnts · lo hi)) s) :
    RowClears c a fun b => lo ≤ b ∧ b < hi := by
  intro s hready
  refine ⟨{ s with dev := clearCnts (bridged s.dev a) lo hi }, ?_, rfl, fun b hb => ?_, fun b hb => ?_⟩
  · rw [h, onDev_eq, rowWrite_bridged hready ha]
  · exact (cnt_clearCnts ..).trans (if_pos hb)
  · exact (cnt_clearCnts ..).trans (if_neg hb)

/-! ## Leaving CONFIG (R187, Tables 6.3, 6.4) -/

section
variable {s : State} {n : Fin 16} {v : Word}

/-- The word ENABLE 1 stores. -/
def enabledWord (n : Fin 16) (v : Word) : Word := v &&& rwMask (canBase n) ||| 0x80000000

theorem enabledWord_on (n : Fin 16) (v : Word) : bit (enabledWord n v) 31 = true := by
  rw [enabledWord, bit_or]
  exact Bool.or_true _

/-- The channel with the settings that it takes on leaving CONFIG, its counters zero. -/
def integrating (d : Dev) (n : Fin 16) (v : Word) : Can :=
  { canOf d n with
    state := .integrating, cfgErr := 0, tec := 0, recv := 0, warn := false, stopping := false
    ctrl := enabledWord n v, nbt := rd d (canBase n + 0x10), dbt := rd d (canBase n + 0x14)
    xbt := rd d (canBase n + 0x18), tdc := rd d (canBase n + 0x1C) }

/-- With its checks passed a channel integrates. -/
theorem canEnable_integrates (hstate : (canOf s.dev n).state = .config) (hstop : (canOf s.dev n).stopping = false)
    (hok : canSettings s n v = 0) :
    Alike (setCan (wr s.dev (canBase n) (enabledWord n v)) n (integrating s.dev n v)) (canEnable s.dev n v) := by
  simp only [canSettings] at hok
  simp only [canEnable, hstop, hstate, Bool.false_eq_true, if_false, if_true, rd_wr, Nat.add_eq_left,
    OfNat.ofNat_ne_zero, hok]
  split
  · exact (netStart_beside ..).alike
  · exact .refl _

theorem canEnable_passed (hstate : (canOf s.dev n).state = .config) (hstop : (canOf s.dev n).stopping = false)
    (hok : canSettings s n v = 0) :
    (canOf (canEnable s.dev n v) n).state = .integrating ∧ (canOf (canEnable s.dev n v) n).tec = 0 ∧
    (canOf (canEnable s.dev n v) n).recv = 0 ∧ (canOf (canEnable s.dev n v) n).cfgErr = 0 ∧
    bit (rd (canEnable s.dev n v) (canBase n)) 31 = true ∧
    ∀ m, m ≠ n.val → canOf (canEnable s.dev n v) m = canOf s.dev m := by
  have h := canEnable_integrates hstate hstop hok
  have hon : rd (canEnable s.dev n v) (canBase n) = enabledWord n v := by
    rw [h.rd_ctrl n.isLt]; simp
  simp only [h.channels, hon, canOf_setCan, if_true]
  exact ⟨rfl, rfl, rfl, rfl, enabledWord_on n v, fun m hm => if_neg hm⟩

/-- With a check failed it stays, its code in CFG_ERR and the event set. -/
theorem canEnable_refused (hstate : (canOf s.dev n).state = .config) (hstop : (canOf s.dev n).stopping = false)
    (hbad : canSettings s n v ≠ 0) : canEnable s.dev n v =
      evCan (setCan (wr (wr s.dev (canBase n) (enabledWord n v)) (canBase n) (v &&& rwMask (canBase n) &&& 0x7FFFFFFF)) n
        { canOf s.dev n with cfgErr := canSettings s n v }) n 9 := by
  simp only [canSettings] at hbad ⊢
  simp only [canEnable, hstop, hstate, Bool.false_eq_true, if_false, if_true, rd_wr, Nat.add_eq_left,
      OfNat.ofNat_ne_zero]
  rfl

theorem canEnable_failed (hstate : (canOf s.dev n).state = .config) (hstop : (canOf s.dev n).stopping = false)
    (hbad : canSettings s n v ≠ 0) :
    canOf (canEnable s.dev n v) n = { canOf s.dev n with cfgErr := canSettings s n v } ∧
    bit (rd (canEnable s.dev n v) (canBase n)) 31 = false ∧ bit (rd (canEnable s.dev n v) (canBase n + 8)) 9 = true ∧
    ∀ m, m ≠ n.val → canOf (canEnable s.dev n v) m = canOf s.dev m := by
  rw [canEnable_refused hstate hstop hbad]
  refine ⟨by simp, ?_, setEv_bit _ _ _ _ _ _ _ (by decide), fun m hm => by simp [hm]⟩
  rw [(evCan_beside _ n 9).rd_ctrl n.isLt, rd_setCan, rd_wr, if_pos rfl, bit_and]
  exact Bool.and_false _

end

/-- Nominal timing in range with CAN FD and CAN XL off passes every check. -/
theorem cfgCheck_ok {n : Nat} {ctrl nbt dbt xbt tdc : Word} (hfd : bit ctrl 25 = false) (hxl : bit ctrl 24 = false)
    (h1 : 1 ≤ fld nbt 23 16) (h2 : 1 ≤ fld nbt 14 8)
    (hlo : 80 ≤ (fld nbt 7 0 + 1) * (3 + fld nbt 23 16 + fld nbt 14 8))
    (hhi : (fld nbt 7 0 + 1) * (3 + fld nbt 23 16 + fld nbt 14 8) ≤ 8000)
    (hjump : fld nbt 30 24 ≤ fld nbt 14 8) (htriple : bit nbt 31 = false) : cfgCheck n ctrl nbt dbt xbt tdc = 0 := by
  have hclocks : bitClocks (nomTime nbt) = (fld nbt 7 0 + 1) * (3 + fld nbt 23 16 + fld nbt 14 8) := by
    simp only [bitClocks, nomTime]
    congr 1
    omega
  have ht1 : 2 ≤ (nomTime nbt).t1 := Nat.succ_le_succ h1
  have ht2 : 2 ≤ (nomTime nbt).t2 := Nat.succ_le_succ h2
  have hsjw : (nomTime nbt).sjw ≤ (nomTime nbt).t2 := Nat.succ_le_succ hjump
  simp [cfgCheck, hfd, hxl, htriple, nomRateOk, hclocks, hlo, hhi, not_lt.2 ht1, not_lt.2 ht2, not_lt.2 hsjw]

theorem cfgCheck_short {n : Nat} {ctrl nbt dbt xbt tdc : Word} (h : fld nbt 23 16 = 0 ∨ fld nbt 14 8 = 0) :
    cfgCheck n ctrl nbt dbt xbt tdc = 1 := by
  have hshort : (nomTime nbt).t1 < 2 ∨ (nomTime nbt).t2 < 2 := by simp only [nomTime]; omega
  exact if_pos hshort

/-- ENABLE stored touches no other bit of the write. -/
theorem enabledWord_off {n : Fin 16} {v : Word} {i : Nat} (hi : i < 31) (h : bit v i = false) :
    bit (enabledWord n v) i = false := by
  have hbit : ∀ i < 31, bit (0x80000000 : Word) i = false := by decide
  rw [enabledWord, bit_or, bit_and, h, hbit i hi]
  rfl

/-! ## ENABLE 0 (R187, R197, Tables 6.5, 6.6) -/

section
variable {d : Dev} {n : Nat}

/-- ENABLE reads 0. -/
def disabled (d : Dev) (n : Nat) : Dev := wr d (canBase n) (rd d (canBase n) &&& 0x7FFFFFFF)

theorem disabled_off (d : Dev) (n : Nat) : bit (rd (disabled d n) (canBase n)) 31 = false := by
  rw [disabled, rd_wr, if_pos rfl, bit_and]
  exact Bool.and_false _

@[simp] theorem canOf_disabled (d : Dev) (n m : Nat) : canOf (disabled d n) m = canOf d m := rfl
@[simp] theorem cnt_disabled (d : Dev) (n a : Nat) : cnt (disabled d n) a = cnt d a := rfl

theorem canDisable_idle (hstate : (canOf d n).state ≠ .config) (hbus : (canOf d n).onBus = none) :
    canDisable d n = canConfig (disabled d n) n := by
  simp [canDisable, hstate, hbus, disabled]

theorem canDisable_stops (hn : n < 16) (hstate : (canOf d n).state ≠ .config) (hbus : (canOf d n).onBus = none) :
    (canOf (canDisable d n) n).state = .config ∧ (canOf (canDisable d n) n).loaded = [] ∧
    bit (rd (canDisable d n) (canBase n)) 31 = false ∧
    cnt (canDisable d n) (aCanCnt n 4) = cnt d (aCanCnt n 4) + BitVec.ofNat 64 (canOf d n).loaded.length := by
  rw [canDisable_idle hstate hbus]
  have h := canConfig_alike (disabled d n) n
  have hoff : rd (canConfig (disabled d n) n) (canBase n) = rd (disabled d n) (canBase n) :=
    h.rd_ctrl hn
  rw [h.channels, h.cnt_can hn (by decide), hoff]
  exact ⟨by simp [stopped], by simp [stopped], disabled_off .., by simp⟩

theorem canDisable_sending {u : Nat} (hstate : (canOf d n).state ≠ .config) (hbus : (canOf d n).onBus = some u) :
    canDisable d n = setCan (disabled d n) n { canOf d n with stopping := true } := by
  simp [canDisable, hstate, hbus, disabled]

/-! ## Integration and recovery (Table 6.6) -/

theorem callGo_none (h : (netOf d n).callDue = false) : callGo d n = d := by simp [callGo, h]

theorem canBusIntegrated_eq (hstate : (canOf d n).state = .integrating) (hfrozen : (netOf d n).frozen = false)
    (hup : coreUp d 4 = true) : canBusIntegrated d n = callGo (setCan d n { canOf d n with state := .active }) n := by
  simp [canBusIntegrated, hstate, hfrozen, hup]

theorem canBoDelayExpire_eq (hstate : (canOf d n).state = .busOff) (hauto : bit (canOf d n).ctrl 22 = false)
    (hfrozen : (netOf d n).frozen = false) (hup : coreUp d 4 = true) :
    canBoDelayExpire d n = setCan d n { canOf d n with state := .recovering, recov := 0 } := by
  simp [canBoDelayExpire, hstate, hauto, hfrozen, hup]

theorem canRecovered_eq (hstate : (canOf d n).state = .recovering) (hfrozen : (netOf d n).frozen = false)
    (hup : coreUp d 4 = true) : canRecovered d n = callGo (evCan (setCan d n
      { canOf d n with state := .active, tec := 0, recv := 0, warn := false, recov := 128 }) n 3) n := by
  simp [canRecovered, hstate, hfrozen, hup]

/-! ## Commands (Table 6.20) -/

/-- The status of a result just written. -/
theorem canEnd_status (d : Dev) (n : Nat) {st : Nat} (hst : st < 8) :
    fld (rd (canEnd d n st) (canBase n + 0x38)) 30 28 = st := by
  rw [canEnd, resultEnd, rd_wr, if_pos rfl]
  exact fld_status hst _

theorem canRecover_busOff (hvalid : resultValid d (canBase n + 0x38) = true) (hstate : (canOf d n).state = .busOff)
    (hfrozen : (netOf d n).frozen = false) : canRecover d n =
      canEnd (setCan d n { canOf d n with state := .recovering, recov := 0, boDue := false }) n 0 := by
  simp [canRecover, hvalid, hstate, hfrozen]

theorem canRecover_refused (hvalid : resultValid d (canBase n + 0x38) = true) (hstate : (canOf d n).state ≠ .busOff) :
    canRecover d n = canEnd d n 1 := by
  simp [canRecover, hvalid, hstate]

theorem canAbortTx_eq (hvalid : resultValid d (canBase n + 0x38) = true) :
    canAbortTx d n = canEnd (canAbandonOff d n) n 0 := by
  simp [canAbortTx, hvalid]

/-- Of the frames `l`, marked as ABORT_TX marks them, those not on the bus fall. -/
theorem abortMarks_filter (l : List CanLoaded) (bus : Option Nat) :
    ((l.map fun x => if bus = some x.uid then { x with abort := true } else x).filter fun y =>
      (l.filter fun x => bus != some x.uid).all fun x => y.uid != x.uid) =
    (l.filter fun x => bus == some x.uid).map fun x => { x with abort := true } := by
  have hmark (x : CanLoaded) : (if bus = some x.uid then { x with abort := true } else x).uid = x.uid := by split <;> rfl
  have hfall : ∀ y ∈ l, ((l.filter fun x => bus != some x.uid).all fun x => y.uid != x.uid) = (bus == some y.uid) := by
    intro y hy
    rw [Bool.eq_iff_iff]
    simp only [List.all_eq_true, List.mem_filter, bne_iff_ne, beq_iff_eq, and_imp]
    constructor
    · exact fun h => by_contra fun hbus => h y hy hbus rfl
    · rintro rfl x _ hne heq
      exact hne (congrArg some heq)
  rw [List.filter_map, List.filter_congr fun y hy => by rw [Function.comp_apply, hmark, hfall y hy]]
  refine List.map_congr_left fun y hy => if_pos ?_
  exact eq_of_beq (List.mem_filter.1 hy).2

/-- ABORT_TX leaves the frame on the bus alone loaded, to be abandoned if its attempt fails. -/
theorem canAbandonOff_loaded (d : Dev) (n : Nat) : (canOf (canAbandonOff d n) n).loaded =
    ((canOf d n).loaded.filter fun x => (canOf d n).onBus == some x.uid).map fun x => { x with abort := true } := by
  unfold canAbandonOff
  extract_lets c mark d1
  obtain ⟨bus, h⟩ := abandonList_alike d1 n (c.loaded.filter fun x => c.onBus != some x.uid)
  rw [h.channels, ← abortMarks_filter]
  simp [dropped, without, d1, mark, c]

/-! ## Faults (R202, R393) -/

/-- A fault takes a running channel OFFLINE, its frames abandoned and nothing else of it changed. -/
theorem canOffline_running {d : Dev} {n : Nat} (hconfig : (canOf d n).state ≠ .config) (hoff : (canOf d n).state ≠ .offline)
    (hfrozen : (netOf d n).frozen = false) (hstop : (canOf d n).stopping = false) :
    canOf (canOffline d n) n = { canOf d n with
      state := .offline, loaded := [], onBus := (canOf (canOffline d n) n).onBus, boDue := false } ∧
    bit (rd (canOffline d n) (canBase n + 8)) 7 = true ∧ ∀ m, m ≠ n → canOf (canOffline d n) m = canOf d m := by
  unfold canOffline
  extract_lets c d1
  obtain ⟨bus, h⟩ := canAbandonAll_alike (setCan d n { c with onBus := none }) n
  have hch (m : Nat) : canOf d1 m = if m = n then { c with loaded := [], onBus := bus } else canOf d m := by
    rw [h.channels]
    by_cases hm : m = n <;> simp [hm]
  have hrun : canEnded (evCan (setCan d1 n { canOf d1 n with state := .offline, boDue := false }) n 7) n =
      evCan (setCan d1 n { canOf d1 n with state := .offline, boDue := false }) n 7 :=
    canEnded_of_running (by simp [hch, c, hstop])
  rw [if_neg (by simp [c, hconfig, hoff, hfrozen]), hrun]
  exact ⟨by simp [hch, c], setEv_bit _ _ _ _ _ _ _ (by decide), fun m hm => by simp [hch, hm]⟩

theorem canTrcvFault_thermal {d : Dev} {n : Nat} (hup : coreUp d 4 = true) :
    canTrcvFault d n false = canOffline (setCan d n { canOf d n with thermalFault := true }) n := by
  have hup' (c : Can) : coreUp (setCan d n c) 4 = true := hup
  simp [canTrcvFault, canFaultJudge, hup']

theorem canTrcvFaultClear_thermal {d : Dev} {n : Nat} (hstate : (canOf d n).state = .offline)
    (hsupply : (canOf d n).supplyFault = false) (hfrozen : (netOf d n).frozen = false) (hup : coreUp d 4 = true) :
    canTrcvFaultClear d n false = setCan (setCan d n { canOf d n with thermalFault := false }) n
      { canOf d n with thermalFault := false, state := .integrating, tec := 0, recv := 0, warn := false } := by
  have hup' (c : Can) : coreUp (setCan d n c) 4 = true := hup
  have hfrozen' (c : Can) : (netOf (setCan d n c) n).frozen = false := hfrozen
  simp [canTrcvFaultClear, canFaultJudge, canOnlineAgain, hup', hfrozen', hsupply, hstate]

/-! ## The protocol exception event (R201) -/

theorem canPex_enters {d : Dev} {n : Nat} (honline : canOnline (canOf d n) = true) (hfrozen : (netOf d n).frozen = false)
    (hup : coreUp d 4 = true) (hpex : bit (canOf d n).ctrl 23 = true) :
    canPex d n = evCan (canInc (setCan d n { canOf d n with state := .integrating }) n 16) n 8 := by
  simp [canPex, canUndecoded, honline, hfrozen, hup, hpex]

theorem canPex_error {d : Dev} {n : Nat} (honline : canOnline (canOf d n) = true) (hfrozen : (netOf d n).frozen = false)
    (hup : coreUp d 4 = true) (hpex : bit (canOf d n).ctrl 23 = false) : canPex d n = canBusError d n 3 0 false {} := by
  simp [canPex, canUndecoded, honline, hfrozen, hup, hpex]

end

/-! ## The statement -/

/-- Settles O28, row by row of Table 6.6. -/
theorem canChannelStates : Obligations.CanChannelStates := by
  unfold Obligations.CanChannelStates
  refine ⟨?enable, ?timing, ?disable, ?integrated, ?delay, ?recovered, ?commands, ?fault, ?clear, ?pex, fun n => ?clears⟩
  case enable =>
    intro s n v hready hstate hstop
    have hrun := exec_row (c := .canEnable n v) hready (base_lt n (o := 0) (by decide)) rfl
    exact ⟨fun hok => ⟨_, hrun, canEnable_passed (s := { s with dev := bridged s.dev (canBase n) }) hstate hstop hok⟩,
      fun hbad => ⟨_, hrun, canEnable_failed (s := { s with dev := bridged s.dev (canBase n) }) hstate hstop hbad⟩⟩
  case timing =>
    intro s n v hfd hxl
    exact ⟨cfgCheck_ok (enabledWord_off (by decide) hfd) (enabledWord_off (by decide) hxl), cfgCheck_short⟩
  case disable =>
    intro s n hready hstate
    have hrun := exec_row (c := .canDisable n) hready (base_lt n (o := 0) (by decide)) rfl
    refine ⟨fun hbus => ⟨_, hrun, canDisable_stops (d := bridged s.dev (canBase n)) n.isLt hstate hbus⟩,
      fun u hbus => ⟨_, hrun, ?_⟩⟩
    rw [canDisable_sending (d := bridged s.dev (canBase n)) hstate hbus]
    exact ⟨by simp, by simp, by simpa using hbus, by simp, disabled_off ..⟩
  case integrated =>
    intro s n hstate hfrozen hup
    have hrun : exec (.canBusIntegrated n) s = .next { s with dev := canBusIntegrated s.dev n } := rfl
    rw [canBusIntegrated_eq hstate hfrozen hup] at hrun
    refine ⟨⟨_, hrun, ?_⟩, fun hdue => ?_⟩
    · have h := (callGo_beside (setCan s.dev n { canOf s.dev n with state := .active }) n).alike
      exact ⟨by simp [h.channels], fun m hm => by simp [h.channels, hm]⟩
    · rw [hrun, callGo_none (d := setCan s.dev n _) hdue]
  case delay =>
    intro s n hstate hauto hfrozen hup
    exact congrArg (fun d => Host.Outcome.next { s with dev := d }) (canBoDelayExpire_eq hstate hauto hfrozen hup)
  case recovered =>
    intro s n hstate hfrozen hup
    refine ⟨{ s with dev := canRecovered s.dev n }, rfl, ?_⟩
    dsimp only
    rw [canRecovered_eq hstate hfrozen hup]
    have h := (callGo_beside (evCan (setCan s.dev n
      { canOf s.dev n with state := .active, tec := 0, recv := 0, warn := false, recov := 128 }) n 3) n).alike
    refine ⟨by simp [h.channels], by simp [h.channels], by simp [h.channels], h.event n.isLt ?_⟩
    exact setEv_bit _ _ _ _ _ _ _ (by decide)
  case commands =>
    intro s n hready hvalid
    have ha := base_lt n (o := 0x34) (by decide)
    have hrun := exec_row (c := .recover n) hready ha rfl
    refine ⟨fun hstate hfrozen => ⟨_, hrun, ?_⟩, fun hstate => ⟨_, hrun, ?_⟩,
      _, exec_row (c := .abortTx n) hready ha rfl, ?_⟩
    · rw [canRecover_busOff (d := bridged s.dev _) hvalid hstate hfrozen]
      exact ⟨by simp [canEnd, resultEnd], canEnd_status _ _ (by decide)⟩
    · rw [canRecover_refused (d := bridged s.dev _) hvalid hstate]
      exact ⟨rfl, canEnd_status _ _ (by decide), rd_resultEnd_valid ..⟩
    · rw [canAbortTx_eq (d := bridged s.dev _) hvalid]
      exact ⟨canEnd_status _ _ (by decide), canAbandonOff_loaded (bridged s.dev _) n⟩
  case fault =>
    intro s n hconfig hoff hfrozen hstop hup
    refine ⟨{ s with dev := canTrcvFault s.dev n false }, rfl, ?_⟩
    dsimp only
    rw [canTrcvFault_thermal hup]
    obtain ⟨hch, hev, hothers⟩ := canOffline_running
      (d := setCan s.dev n { canOf s.dev n with thermalFault := true }) (n := n)
      (by simpa using hconfig) (by simpa using hoff) hfrozen (by simpa using hstop)
    exact ⟨by rw [hch], by rw [hch], by rw [hch]; simp, hev, fun m hm => by simp [hothers m hm, hm]⟩
  case clear =>
    intro s n hstate hsupply hfrozen hup
    refine ⟨{ s with dev := canTrcvFaultClear s.dev n false }, rfl, ?_⟩
    dsimp only
    rw [canTrcvFaultClear_thermal hstate hsupply hfrozen hup]
    exact ⟨rfl, by simp, fun m hm => by simp [hm]⟩
  case pex =>
    intro s n honline hfrozen hup
    refine ⟨fun hpex => ⟨{ s with dev := canPex s.dev n }, rfl, ?_⟩,
      fun hpex => ⟨{ s with dev := canPex s.dev n }, rfl, ?_⟩⟩
    · dsimp only
      rw [canPex_enters honline hfrozen hup hpex]
      exact ⟨by simp, setEv_bit _ _ _ _ _ _ _ (by decide), by simp [canInc]⟩
    · dsimp only
      rw [canPex_error honline hfrozen hup hpex, cnt_canBusError honline hfrozen hup _ _ _ _
        (ofCan_aCanCnt n.isLt (by decide)) (by simp [aCanCnt_inj]) (by simp [aCanCnt_inj]) (by simp [aCanCnt_inj])]
      simp [canInc, errCounter]
  case clears => exact rowClears_range (base_lt n (by decide)) fun s => rfl

end Sys2Proof.Proofs.CanStates

/-! PROOFS. A Hail frame that the high-priority table takes (R193, R218): what its place in the Quaymaster's queue does to the
Basin (R30, R108). -/

namespace Sys2Proof.Proofs.CanReception

open Sys2Proof Sys2Proof.Machine

theorem exec_canFrameRx_dev {n : Fin 16} {m : CanMsg} {ts : Nat} {s t : State}
    (h : exec (.canFrameRx n m ts) s = .next t) : t.dev = canFrameRx s.dev n m ts := by
  cases h
  rfl

/-- An ASSIGN of another caller, identifier 0x1E000000 as after reset: a Hail frame that asks nothing of this one (Table 7.5). -/
def hailAssign : CanMsg := { id := 0x1E000000, fmt := 1, data := List.replicate 8 0 }

/-- A frame from port 11 of which a copy is punted. -/
def copied : Frame := { uid := 7, body := .eth (List.replicate 60 0), inPort := 11, cls := 0, ts := 0 }

/-- The Quaymaster is halted by debug. Channel 0 is ACTIVE with ENABLE 1. Entry 0 of its high-priority table takes every
extended data frame, without COPY, to ring 0 of slip 5, which is ACTIVE, of class 0, and receives. A copy is punted, and 1,637
items of class 3 are queued behind its punt: one more item brings the queue to 80 %. -/
def crowdedHail : State :=
  { State.reset with dev := { Dev.reset with
      rst := { inReset := 0, qmRunning := true }, clt := { qmHalted := true }
      qm := { queue := (5, .punt 7 true) :: List.replicate 1637 (3, .other 0) }
      basin := { marching := false, frames := [copied], nextUid := 8, punts := [⟨7, true⟩] }
      can := [(0, { state := .active })]
      slips := { tab := [(0, slip0), (5, { state := .active })] }
      regs := [(ringBase 5 0 + 0x10, 0xC0000000), (canBase 0 + 0x50, 0x80000005), (aHp 0 0 + 8, 0x80000002),
        (netBase 0, 0x80000000)] } }

/-- The frame is queued for the Quaymaster as every Hail frame is, and the first rise of the level refuses the punt. -/
theorem crowdedHail_sheds : (canFrameRx crowdedHail.dev (0 : Fin 16) hailAssign 0).basin.punts = [] := by decide +kernel

/-- Refutes O29, by the clause that a frame stored in the high-priority buffer leaves the Basin as it was. The frame itself
stays out of the Basin, but a Hail frame is passed to the Quaymaster as well (R218). Queueing it may bring the first rise of
the shedding level, which refuses the queued punts late and takes them out of the Basin (R30, R108), as in `crowdedHail`. -/
theorem not_canReceptionAndHighPriority : ¬ Obligations.CanReceptionAndHighPriority := by
  unfold Obligations.CanReceptionAndHighPriority
  rintro ⟨-, -, -, hstored, -⟩
  have hmatch : canMatch crowdedHail.dev (aHp (0 : Fin 16) 0) hailAssign = true := by decide
  have htakes : hpTakes crowdedHail.dev (rd crowdedHail.dev (canBase (0 : Fin 16) + 0x50)) = true := by decide
  obtain ⟨t, ht, hbasin, -⟩ := hstored crowdedHail 0 hailAssign 0 0 (by decide) (by decide) (by decide) (by decide)
    (by decide) (by decide) (by decide) hmatch (by decide) (by omega) htakes (by decide) (by decide)
  have hbefore : crowdedHail.dev.basin.punts = [⟨7, true⟩] := rfl
  have hafter : t.dev.basin.punts = [] := (congrArg (fun d => d.basin.punts) (exec_canFrameRx_dev ht)).trans crowdedHail_sheds
  exact List.cons_ne_nil _ _ (hbefore.symm.trans ((congrArg Basin.punts hbasin).symm.trans hafter))

end Sys2Proof.Proofs.CanReception

/-! PROOFS. Transmission on a channel (R195–R199, R203, R464): loading, the choice of the frame offered, its attempt and how
that ends. -/

namespace Sys2Proof.Proofs.CanTransmission

open Sys2Proof Sys2Proof.Machine Sys2Proof.Laws Sys2Proof.Proofs.FreedCells Sys2Proof.Proofs.LogbookRecords
open Sys2Proof.Proofs.TunnelEngine Sys2Proof.Proofs.CanChannels Sys2Proof.Proofs.CanStops

/-! ## Loading (R195, R198) -/

section
variable {d : Dev} {n : Nat} {e : QEntry} {f : Frame}

/-- A mailbox found free is one of the 32, and no loaded frame is in it. -/
theorem mbFree_spec {c : Can} {k : Nat} (h : mbFree c = some k) : k < 32 ∧ ∀ y ∈ c.loaded, y.slot ≠ some k := by
  refine ⟨List.mem_range.1 (List.mem_of_find?_eq_some h), fun y hy hk => ?_⟩
  have hfree := List.find?_some h
  simp only [Bool.not_eq_true', List.any_eq_false, beq_iff_eq] at hfree
  exact hfree y hy hk

/-- An entry at or above MB_CLASS comes to the head only while a mailbox is free. -/
theorem canHead_mailbox (h : canHead d n = some e) (hcls : fld (rd d (canBase n + 0x28)) 26 24 ≤ e.cls) :
    ∃ k, mbFree (canOf d n) = some k := by
  obtain ⟨k, -, hk⟩ := List.exists_of_findSome?_eq_some h
  obtain ⟨hroom, hfind⟩ := Option.ite_none_right_eq_some.1 hk
  have hke : e.cls = k := by
    have hentry := List.find?_some hfind
    simp only [Bool.and_eq_true, beq_iff_eq] at hentry
    exact hentry.1.2
  rw [if_pos (hke ▸ hcls)] at hroom
  exact Option.isSome_iff_exists.1 hroom

/-- A queued frame as it is loaded: in a free mailbox, or in the FIFO below MB_CLASS. -/
def loadedAs (d : Dev) (n : Nat) (e : QEntry) (m : CanMsg) : CanLoaded :=
  { slot := if fld (rd d (canBase n + 0x28)) 26 24 ≤ e.cls then mbFree (canOf d n) else none
    uid := e.uid, msg := m, cls := e.cls, at_ := d.wall }

theorem canTxLoad_loads {m : CanMsg} {ch : Fin 16} {tn : Bool} (hown : sOwned d n = false) (hnet : netAwake d n = true)
    (hup : coreUp d 4 = true) (hstop : (canOf d n).stopping = false) (hframe : frameOf d e.uid = some f)
    (hbody : f.body = .can m ch tn) (hdoomed : canDoomed d n = none) (hhead : canHead d n = some e)
    (hgood : readGood d f .clean = true) : canTxLoad d n .clean =
      setCan (setEntry d e { e with sending := true }) n
        { canOf d n with loaded := (canOf d n).loaded ++ [loadedAs d n e m] } := by
  simp only [canTxLoad, hown, hnet, hup, hstop, hdoomed, hhead, hframe, hgood, hbody,
    frameRead_clean d (readRefused_of_good hgood)]
  rfl

/-- Reading a frame, well or not, leaves the queues as they were. -/
theorem frameRead_queues (d : Dev) (f : Frame) (r : CellRead) : (frameRead d f r).basin.queues = d.basin.queues := by
  have hretire (d : Dev) (c : Nat) : (retireWhenFree d c).basin.queues = d.basin.queues := by
    unfold retireWhenFree
    split
    · rfl
    · exact (retireCell_keeps d c).1
  unfold frameRead
  split
  · rw [evSw_basin]
    split <;> simp
  · cases readOf f r with
    | clean => rfl
    | corrected c =>
      simp only [cellRead]
      split
      · rw [hretire]; rfl
      · rfl
    | uncorrectable c => simp only [cellRead, hretire, evSw_basin]

/-- An entry discarded is counted in TX_DISCARD and leaves its queue. -/
theorem canDiscard_spec (hn : n < 16) (d : Dev) (e : QEntry) : (canDiscard d n e).can = d.can ∧
    cnt (canDiscard d n e) (aCanCnt n 5) = cnt d (aCanCnt n 5) + 1 ∧
    ∀ q, q ∈ (canDiscard d n e).basin.queues ↔ q ∈ d.basin.queues ∧ q ≠ e := by
  have h := canReport_dry (canInc d n 5) e.uid n false false 0
  have hleft := h.toBeside.trans (leaveQueue_beside _ e)
  refine ⟨hleft.can, ?_, fun q => ?_⟩
  · rw [canDiscard, hleft.alike.cnt_can hn (by decide), canInc, cnt_inc, if_pos rfl]
  · rw [canDiscard, mem_leaveQueue, h.basin]
    rfl

/-- A frame that no channel state would carry, or that cannot be read, is discarded (R198). -/
theorem canTxLoad_discards {cr : CellRead} (hown : sOwned d n = false) (hnet : netAwake d n = true)
    (hup : coreUp d 4 = true) (hstop : (canOf d n).stopping = false) (hframe : frameOf d e.uid = some f)
    (h : canDoomed d n = some e ∨ (canDoomed d n = none ∧ canHead d n = some e ∧ readGood d f cr = false)) :
    canTxLoad d n cr = canDiscard d n e ∨ canTxLoad d n cr = canDiscard (frameRead d f cr) n e := by
  obtain hdoomed | ⟨hdoomed, hhead, hbad⟩ := h
  · left; simp [canTxLoad, hown, hnet, hup, hstop, hdoomed]
  · right; simp [canTxLoad, hown, hnet, hup, hstop, hdoomed, hhead, hframe, hbad]

end

/-! ## The frame offered (R196) -/

/-- Of the best candidate so far and the next one, the one of higher arbitration priority; of equals the earlier. -/
def preferred (a : Option CanLoaded) (x : CanLoaded) : Option CanLoaded :=
  match a with
  | none => some x
  | some y => if arbKey x.msg < arbKey y.msg then some x else some y

theorem canOffer_eq (c : Can) : canOffer c = (canCandidates c).foldl preferred none := rfl

theorem preferred_spec (a : Option CanLoaded) (z : CanLoaded) : ∃ w, preferred a z = some w ∧ (a = some w ∨ w = z) ∧
    arbKey w.msg ≤ arbKey z.msg ∧ ∀ y, a = some y → arbKey w.msg ≤ arbKey y.msg := by
  cases a with
  | none => exact ⟨z, rfl, .inr rfl, le_rfl, by simp⟩
  | some y =>
    by_cases hlt : arbKey z.msg < arbKey y.msg
    · exact ⟨z, if_pos hlt, .inr rfl, le_rfl, by rintro _ ⟨⟩; exact hlt.le⟩
    · exact ⟨y, if_neg hlt, .inl rfl, not_lt.1 hlt, by rintro _ ⟨⟩; exact le_rfl⟩

/-- The choice from `l`, `a` being the best so far, is `a` or of `l`, and no key among them is lower. -/
theorem foldl_preferred {l : List CanLoaded} {a : Option CanLoaded} {x : CanLoaded} (h : l.foldl preferred a = some x) :
    (a = some x ∨ x ∈ l) ∧ (∀ y, a = some y → arbKey x.msg ≤ arbKey y.msg) ∧ ∀ y ∈ l, arbKey x.msg ≤ arbKey y.msg := by
  induction l generalizing a with
  | nil => exact ⟨.inl h, fun y hy => by rw [Option.some.inj (h.symm.trans hy)], by simp⟩
  | cons z l ih =>
    obtain ⟨w, hw, hwa, hwz, hwle⟩ := preferred_spec a z
    obtain ⟨hmem, hle, htail⟩ := ih h
    have hxw : arbKey x.msg ≤ arbKey w.msg := hle w hw
    refine ⟨?_, fun y hy => hxw.trans (hwle y hy), fun y hy => ?_⟩
    · obtain hx | hx := hmem
      · obtain rfl := Option.some.inj (hw.symm.trans hx)
        exact hwa.imp_right fun (hz : _ = z) => hz ▸ List.mem_cons_self
      · exact .inr (List.mem_cons_of_mem _ hx)
    · obtain rfl | hy := List.mem_cons.1 hy
      · exact hxw.trans hwz
      · exact htail y hy

theorem canOffer_spec {c : Can} {x : CanLoaded} (h : canOffer c = some x) :
    x ∈ c.loaded ∧ ∀ y ∈ c.loaded, y.slot.isSome → arbKey x.msg ≤ arbKey y.msg := by
  rw [canOffer_eq] at h
  obtain ⟨hmem, -, hle⟩ := foldl_preferred h
  refine ⟨List.mem_of_mem_filter (hmem.resolve_left (by simp)), fun y hy hslot => hle y ?_⟩
  exact List.mem_filter.2 ⟨hy, by rw [hslot, Bool.true_or]⟩

/-! ## An attempt, and its success (R196, R197, R464) -/

section
variable {d : Dev} {n : Nat} {x : CanLoaded}

/-- The frame offered goes on the bus; else only what the channel measures of its loop delay (R189) changes. -/
theorem canTxAttempt_starts (delay sof : Nat) (honline : canOnline (canOf d n) = true) (hbus : (canOf d n).onBus = none)
    (hfrozen : (netOf d n).frozen = false) (hup : coreUp d 4 = true) (hka : kaFirst d n = false)
    (hoffer : canOffer (canOf d n) = some x) : ∃ c : Can, c.loaded = (canOf d n).loaded ∧
      canTxAttempt d n false delay sof = setCan d n { c with onBus := some x.uid, sof := sof } := by
  simp only [canTxAttempt, honline, hbus, hfrozen, hup, hka, hoffer]
  refine ⟨_, ?_, rfl⟩
  split <;> rfl

theorem canTxAttempt_loses (delay sof : Nat) (honline : canOnline (canOf d n) = true) (hbus : (canOf d n).onBus = none)
    (hfrozen : (netOf d n).frozen = false) (hup : coreUp d 4 = true) (hka : kaFirst d n = false)
    (hoffer : canOffer (canOf d n) = some x) (hshot : bit (rd d (canBase n + 0x28)) 31 = false) :
    canTxAttempt d n true delay sof = canInc (setCan d n (canOf d n)) n 6 := by
  simp [canTxAttempt, honline, hbus, hfrozen, hup, hka, hoffer, canInc, hshot]

/-- A CAN FD frame carries the channel's own error state in ESI, any other frame 0 (R464). -/
theorem sentMsg_eq (c : Can) (m : CanMsg) :
    sentMsg c m = { m with esi := (m.fmt == 2 || m.fmt == 3) && c.state == .passive } := by
  have hfmt : ∀ k : Fin 5, decide (k.val = 2 ∨ k.val = 3) = (k == 2 || k == 3) := by decide
  simp only [sentMsg, hfmt]
  rfl

/-- The channel after frame `x` was sent: TEC falls, the frame leaves its place. -/
def afterSend (d : Dev) (n : Nat) (x : CanLoaded) : Can :=
  { canOf d n with
    onBus := none
    tec := if canCounts d n then (canOf d n).tec - 1 else (canOf d n).tec
    loaded := (canOf d n).loaded.filter (·.uid != x.uid) }

/-- The frame is sent and TX_OK counts it. -/
def sent (d : Dev) (n : Nat) (x : CanLoaded) : Dev :=
  emit (canInc (setCan d n (afterSend d n x)) n 3) (.canFrame n (sentMsg (canOf d n) x.msg))

/-- Then it is reported, the counters are judged, and its queue entry goes. -/
theorem canTxOk_eq (hbus : (canOf d n).onBus = some x.uid) (hfind : (canOf d n).loaded.find? (·.uid == x.uid) = some x)
    (hup : coreUp d 4 = true) : ∃ t,
      Beside (canJudge (canReport (sent d n x) x.uid n true false (canOf d n).sof) n) t ∧ canTxOk d n = canEnded t n := by
  unfold canTxOk
  extract_lets c tec
  simp only [hup, if_true, c, hbus, hfind]
  refine ⟨_, ?_, rfl⟩
  split
  · exact leaveQueue_beside ..
  · exact .refl _

theorem canTxOk_spec (hn : n < 16) (hbus : (canOf d n).onBus = some x.uid)
    (hfind : (canOf d n).loaded.find? (·.uid == x.uid) = some x) (htec : (canOf d n).tec < 256) (hup : coreUp d 4 = true)
    (hstop : (canOf d n).stopping = false) : (canOf (canTxOk d n) n).onBus = none ∧
      (canOf (canTxOk d n) n).loaded = (canOf d n).loaded.filter (·.uid != x.uid) ∧
      cnt (canTxOk d n) (aCanCnt n 3) = cnt d (aCanCnt n 3) + 1 ∧
      Out.canFrame n (sentMsg (canOf d n) x.msg) ∈ (canTxOk d n).out := by
  obtain ⟨t, hleft, hrun⟩ := canTxOk_eq hbus hfind hup
  have hreport := (canReport_beside (sent d n x) x.uid n true false (canOf d n).sof).alike
  have hc : canOf (canReport (sent d n x) x.uid n true false (canOf d n).sof) n = afterSend d n x :=
    (hreport.channels n).trans (by simp [sent])
  have hlow : (afterSend d n x).tec < 256 := by
    simp only [afterSend]
    split <;> omega
  obtain ⟨warn, state, hjudge⟩ := canJudge_alike (hc.symm ▸ hlow)
  rw [hc] at hjudge
  have h := hjudge.trans hleft.alike
  have ht : canOf t n = judged (afterSend d n x) warn state := (h.channels n).trans (by simp)
  rw [hrun, canEnded_of_running (by rw [ht]; exact hstop), ht]
  refine ⟨rfl, rfl, ?_, ?_⟩
  · rw [h.cnt_can hn (by decide), cnt_setCan, hreport.cnt_can hn (by decide)]
    simp [sent, canInc]
  · exact h.out.subset (hreport.out.subset (List.mem_cons_self ..))

/-! ## Bus errors in the collision window (R199, R203) -/

/-- The frame with one collision more. -/
def collided (x : CanLoaded) : CanLoaded := { x with coll := x.coll + 1 }

/-- The attempt of `x` is over, the collision counted with it. -/
def attemptOver (u : Dev) (n : Nat) (x : CanLoaded) : Dev :=
  setCan u n { canOf u n with
    onBus := none, loaded := (canOf u n).loaded.map fun y => if y.uid = x.uid then collided x else y }

/-- The last collision of `x` that COLL_LIMIT allows is counted and reported. -/
def collisionReported (u : Dev) (n : Nat) (x : CanLoaded) : Dev :=
  evCan (wr64 (wr (wr (canInc (attemptOver u n x) n 7) (canBase n + 0x40) (at_ x.msg.id.toNat 0)) (canBase n + 0x44)
    (at_ x.msg.fmt.val 4)) (canBase n + 0x48) (canOf u n).sof) n 5

theorem cnt_collisionReported (u : Dev) (n : Nat) (x : CanLoaded) (a : Nat) :
    cnt (collisionReported u n x) a = cnt (canInc u n 7) a := by
  simp [collisionReported, attemptOver, wr64, canInc]

/-- The channel after a bit error of its own attempt: noted, and TEC raised while the counters count. -/
def erred (d : Dev) (n : Nat) (er : ErrDetail) : Can :=
  { canOf d n with
    errCount := ((canOf d n).errCount + 1) % 65536
    tec := if canCounts d n then (canOf d n).tec + (8 + 8 * er.runs.val) else (canOf d n).tec }

/-- From `d` to `u` such an error was counted, in BIT_ERR and in the channel, and written to CAN_ERRLAST. -/
structure ErrorNoted (d : Dev) (n : Nat) (er : ErrDetail) (u : Dev) : Prop where
  channel : canOf u n = erred d n er
  config : rd u (canBase n + 0x28) = rd d (canBase n + 0x28)
  cnts : ∀ a, cnt u a = cnt (canInc d n 8) a

theorem canOf_canErrLast (d : Dev) (n code : Nat) (sending : Bool) (phase : Nat) :
    canOf (canErrLast d n code sending phase) n = { canOf d n with errCount := ((canOf d n).errCount + 1) % 65536 } := by
  simp [canErrLast]

theorem canCounts_canErrLast (d : Dev) (n code : Nat) (sending : Bool) (phase : Nat) :
    canCounts (canErrLast d n code sending phase) n = canCounts d n := by
  rw [canCounts, canOf_canErrLast]
  rfl

/-- The sender of a bit error adds 8, and 8 more for each run of dominant bits (R199). -/
theorem tecRise_bit (passive : Bool) (er : ErrDetail) : tecRise passive 1 er = 8 + 8 * er.runs.val := by
  simp [tecRise]

theorem canBusError_collision (ph : Nat) (er : ErrDetail) (honline : canOnline (canOf d n) = true)
    (hfrozen : (netOf d n).frozen = false) (hup : coreUp d 4 = true) (hbus : (canOf d n).onBus = some x.uid)
    (hfind : (canOf d n).loaded.find? (·.uid == x.uid) = some x) : ∃ u, ErrorNoted d n er u ∧
      canBusError d n 1 ph true er =
        if atLeast1 (fld (rd d (canBase n + 0x28)) 19 16) ≤ x.coll + 1 then
          canEnded (canJudge (canAbandon (collisionReported u n x) n (collided x) true) n) n
        else if (bit (rd d (canBase n + 0x28)) 31 || x.abort) = true then
          canEnded (canJudge (canAbandon (attemptOver u n x) n (collided x) false) n) n
        else canEnded (canJudge (attemptOver u n x) n) n := by
  unfold canBusError
  extract_lets c sending coll d1 c1 d2 c2 cfg
  have hsend : sending = true := by simp [sending, c, hbus]
  have hcoll : coll = true := by simp [coll, c, hbus]
  have hc1 : c1 = { canOf d n with errCount := ((canOf d n).errCount + 1) % 65536 } := canOf_canErrLast ..
  have hcounts : canCounts d1 n = canCounts d n := canCounts_canErrLast ..
  have hnoted : ErrorNoted d n er d2 := by
    simp only [d2, hcounts, hsend, if_true, tecRise_bit]
    by_cases h : canCounts d n = true
    · rw [if_pos h]
      refine ⟨?_, ?_, fun a => rfl⟩
      · simp [hc1, erred, h]
      · simp [d1, canErrLast, canInc]
    · rw [if_neg h]
      refine ⟨?_, ?_, fun a => rfl⟩
      · exact hc1.trans (by simp [erred, h])
      · simp [d1, canErrLast, canInc]
  have hsame : (c2.onBus.bind fun u => c2.loaded.find? (·.uid == u)) = some x := by
    simp only [c2, hnoted.channel, erred, hbus, Option.bind_some, hfind]
  refine ⟨d2, hnoted, ?_⟩
  rw [if_neg (by simp [c, honline, hfrozen, hup])]
  simp only [hsame, hcoll, cfg, hnoted.config, Bool.true_and, decide_eq_true_eq, if_true]
  rfl

/-- At COLL_LIMIT the frame is abandoned and reported. -/
theorem canBusError_limit (hn : n < 16) (ph : Nat) (er : ErrDetail) (honline : canOnline (canOf d n) = true)
    (hfrozen : (netOf d n).frozen = false) (hup : coreUp d 4 = true) (hbus : (canOf d n).onBus = some x.uid)
    (hfind : (canOf d n).loaded.find? (·.uid == x.uid) = some x)
    (hlimit : atLeast1 (fld (rd d (canBase n + 0x28)) 19 16) ≤ x.coll + 1) :
    (∀ y ∈ (canOf (canBusError d n 1 ph true er) n).loaded, y.uid ≠ x.uid) ∧
    cnt (canBusError d n 1 ph true er) (aCanCnt n 8) = cnt d (aCanCnt n 8) + 1 ∧
    cnt (canBusError d n 1 ph true er) (aCanCnt n 7) = cnt d (aCanCnt n 7) + 1 ∧
    rd (canBusError d n 1 ph true er) (canBase n + 0x40) = at_ x.msg.id.toNat 0 ∧
    bit (rd (canBusError d n 1 ph true er) (canBase n + 8)) 5 = true := by
  obtain ⟨u, hnoted, hrun⟩ := canBusError_collision ph er honline hfrozen hup hbus hfind
  rw [hrun, if_pos hlimit]
  have hend := canJudge_canEnded_settled (canAbandon (collisionReported u n x) n (collided x) true) n
  have hall := (canAbandon_settled (collisionReported u n x) n (collided x) true).trans hend
  have hcnt {k : Nat} (hk : k < 17) (h4 : k ≠ 4) (h13 : k ≠ 13) := hall.cnts (aCanCnt n k) (ofCan_aCanCnt hn hk)
    (fun h => h4 (aCanCnt_inj.1 h)) (fun h => h13 (aCanCnt_inj.1 h))
  refine ⟨fun y hy => canAbandon_gone _ _ _ _ y (hend.loaded hy), ?_, ?_, ?_,
    hall.event hn (setEv_bit _ _ _ _ _ _ _ (by decide))⟩
  · rw [hcnt (by decide) (by decide) (by decide), cnt_collisionReported, canInc, cnt_inc, if_neg (by simp [aCanCnt_inj]),
      hnoted.cnts, canInc, cnt_inc, if_pos rfl]
  · rw [hcnt (by decide) (by decide) (by decide), cnt_collisionReported, canInc, cnt_inc, if_pos rfl, hnoted.cnts, canInc,
      cnt_inc, if_neg (by simp [aCanCnt_inj])]
  · rw [hall.rd_base hn (by decide) (by decide), collisionReported,
      (evCan_beside _ n 5).rd_base hn (by decide) (by decide)]
    simp [wr64]

/-- Below the limit the frame stays loaded with its collision counted. -/
theorem canBusError_below (ph : Nat) (er : ErrDetail) (honline : canOnline (canOf d n) = true)
    (hfrozen : (netOf d n).frozen = false) (hup : coreUp d 4 = true) (hbus : (canOf d n).onBus = some x.uid)
    (hfind : (canOf d n).loaded.find? (·.uid == x.uid) = some x) (hn : n < 16)
    (hbelow : x.coll + 1 < atLeast1 (fld (rd d (canBase n + 0x28)) 19 16))
    (hshot : bit (rd d (canBase n + 0x28)) 31 = false) (habort : x.abort = false) (hstop : (canOf d n).stopping = false)
    (htec : (canOf d n).tec + 8 + 8 * er.runs.val < 256) :
    (canOf (canBusError d n 1 ph true er) n).onBus = none ∧
    cnt (canBusError d n 1 ph true er) (aCanCnt n 7) = cnt d (aCanCnt n 7) ∧
    (canMode (canOf d n) = 0 →
      (canOf (canBusError d n 1 ph true er) n).tec = (canOf d n).tec + 8 + 8 * er.runs.val) ∧
    (canOf (canBusError d n 1 ph true er) n).loaded =
      (canOf d n).loaded.map fun y => if y.uid = x.uid then collided x else y := by
  obtain ⟨u, hnoted, hrun⟩ := canBusError_collision ph er honline hfrozen hup hbus hfind
  rw [if_neg (not_le.2 hbelow), if_neg (by simp [hshot, habort])] at hrun
  have hlow : (canOf (attemptOver u n x) n).tec < 256 := by
    simp only [attemptOver, canOf_setCan, if_true, hnoted.channel, erred]
    split <;> omega
  obtain ⟨warn, state, hjudge⟩ := canJudge_alike hlow
  have hc : canOf (canJudge (attemptOver u n x) n) n = judged (canOf (attemptOver u n x) n) warn state :=
    (hjudge.channels n).trans (by simp)
  have hcnt : cnt (canJudge (attemptOver u n x) n) (aCanCnt n 7) = cnt u (aCanCnt n 7) := hjudge.cnt_can hn (by decide)
  rw [hrun, canEnded_of_running (by rw [hc]; simp [judged, attemptOver, hnoted.channel, erred, hstop]), hc, hcnt, hnoted.cnts]
  refine ⟨by simp [judged, attemptOver], by simp [canInc, aCanCnt_inj], fun hmode => ?_, ?_⟩
  · simp [judged, attemptOver, hnoted.channel, erred, canCounts, hmode, hfrozen, add_assoc]
  · simp [judged, attemptOver, hnoted.channel, erred]

/-! ## TX_TIMEOUT (Table 6.5) -/

theorem canTxTimeout_expired {i : Nat} (hx : (canOf d n).loaded[i]? = some x)
    (hon : fld (rd d (canBase n + 0x28)) 15 0 ≠ 0) (hbus : (canOf d n).onBus = none) (hup : coreUp d 4 = true)
    (htime : x.at_ + 1000000 * fld (rd d (canBase n + 0x28)) 15 0 ≤ d.wall) :
    canTxTimeout d n i = canAbandon (evCan d n 4) n x false := by
  simp [canTxTimeout, hx, hon, hbus, hup, not_lt.2 htime]

end

/-! ## The statement -/

/-- Settles O30, row by row: loading, the choice, the attempt, the frame sent, the collisions, the timeout. -/
theorem canTransmission : Obligations.CanTransmission := by
  unfold Obligations.CanTransmission
  refine ⟨?load, fun c x h => canOffer_spec h, ?attempt, ?sent, ?collision, ?timeout⟩
  case load =>
    intro s n e f m ch tn hown hnet hup hstop hframe hbody
    refine ⟨fun hdoomed hhead hgood => ?_, fun cr h => ⟨{ s with dev := canTxLoad s.dev n cr }, rfl, ?_⟩⟩
    · refine ⟨_, loadedAs s.dev n e m, rfl, canTxLoad_loads hown hnet hup hstop hframe hbody hdoomed hhead hgood,
        rfl, rfl, rfl, rfl, rfl, fun hcls => ?_, fun hcls => if_neg (not_le.2 hcls)⟩
      obtain ⟨k, hk⟩ := canHead_mailbox hhead hcls
      obtain ⟨hlt, hfree⟩ := mbFree_spec hk
      exact ⟨k, hlt, (if_pos hcls).trans hk, hfree⟩
    · dsimp only
      obtain hrun | hrun := canTxLoad_discards hown hnet hup hstop hframe h
      · rw [hrun]
        exact canDiscard_spec n.isLt s.dev e
      · have hread := frameRead_beside s.dev f cr
        obtain ⟨hcan, hcnt, hqueue⟩ := canDiscard_spec n.isLt (frameRead s.dev f cr) e
        rw [hrun, hcan, hcnt, hread.can, hread.alike.cnt_can n.isLt (by decide)]
        exact ⟨rfl, rfl, fun q => by rw [hqueue, frameRead_queues]⟩
  case attempt =>
    intro s n x delay sof honline hbus hfrozen hup hka hoffer
    refine ⟨⟨{ s with dev := canTxAttempt s.dev n false delay sof }, rfl, ?_⟩,
      fun hshot => ⟨{ s with dev := canTxAttempt s.dev n true delay sof }, rfl, ?_⟩⟩
    · obtain ⟨c, hloaded, hrun⟩ := canTxAttempt_starts delay sof honline hbus hfrozen hup hka hoffer
      simp [hrun, hloaded]
    · simp [canTxAttempt_loses delay sof honline hbus hfrozen hup hka hoffer hshot, hbus, canInc]
  case sent =>
    intro s n x hbus hfind htec hup hstop
    refine ⟨{ s with dev := canTxOk s.dev n }, rfl, ?_⟩
    obtain ⟨hbus', hloaded, hcnt, hout⟩ := canTxOk_spec n.isLt hbus hfind htec hup hstop
    refine ⟨hbus', hloaded, hcnt, ?_⟩
    rintro _ rfl
    rwa [sentMsg_eq] at hout
  case collision =>
    intro s n x ph er honline hfrozen hup hbus hfind
    refine ⟨fun hlimit => ⟨{ s with dev := canBusError s.dev n 1 ph true er }, rfl, ?_⟩,
      fun hbelow hshot habort hstop htec => ⟨{ s with dev := canBusError s.dev n 1 ph true er }, rfl, ?_⟩⟩
    · exact canBusError_limit n.isLt ph er honline hfrozen hup hbus hfind hlimit
    · exact canBusError_below ph er honline hfrozen hup hbus hfind n.isLt hbelow hshot habort hstop htec
  case timeout =>
    intro s n i x hx hon hbus hup htime
    refine ⟨{ s with dev := canTxTimeout s.dev n i }, rfl, ?_⟩
    dsimp only
    rw [canTxTimeout_expired hx hon hbus hup htime]
    obtain ⟨bus, h⟩ := canAbandon_alike (evCan s.dev n 4) n x false
    refine ⟨fun y hy => ?_, ?_, h.event n.isLt (setEv_bit _ _ _ _ _ _ _ (by decide))⟩
    · exact canAbandon_gone _ _ _ _ y hy
    · rw [h.cnt_can n.isLt (by decide)]
      simp [dropped]

end Sys2Proof.Proofs.CanTransmission

/-! PROOFS. The networks seen from outside (chapter 7): what events, reports, freed cells and the CAN channels leave of them
alone. -/

namespace Sys2Proof.Proofs.NetworkApart

open Sys2Proof Sys2Proof.Machine Sys2Proof.Laws Sys2Proof.Proofs.FreedCells

/-- `a` lies in the pages of the networks (Table 1.8). -/
def OfNws (a : Nat) : Prop := 0xE00000 ≤ a ∧ a < 0xF00000

/-- From `d` to `t` the networks and their counters stay as they are. -/
structure Apart (d t : Dev) : Prop where
  nws : t.nws = d.nws
  cnts : ∀ a, OfNws a → cnt t a = cnt d a

theorem Apart.of_same {d t : Dev} (hnws : t.nws = d.nws) (hcnts : t.cnts = d.cnts) : Apart d t :=
  ⟨hnws, fun _ _ => by simp only [cnt, hcnts]⟩

theorem Apart.refl (d : Dev) : Apart d d := .of_same rfl rfl

theorem Apart.trans {a b c : Dev} (h : Apart a b) (g : Apart b c) : Apart a c :=
  ⟨g.nws.trans h.nws, fun i hi => (g.cnts i hi).trans (h.cnts i hi)⟩

theorem Apart.ite {c : Prop} [Decidable c] {d a b : Dev} (ha : Apart d a) (hb : Apart d b) :
    Apart d (if c then a else b) := by
  split <;> assumption

theorem Apart.netOf {d t : Dev} (h : Apart d t) (n : Nat) : netOf t n = netOf d n := by
  simp only [Machine.netOf, h.nws]

section
variable (d : Dev)

/-! ### What every block does (R91, R145, R150) -/

theorem cntAdd_apart {a : Nat} (ha : ¬ OfNws a) (k : Nat) : Apart d (cntAdd d a k) :=
  ⟨rfl, fun i hi => by rw [cnt_cntAdd, if_neg (by rintro rfl; exact ha hi)]⟩

theorem inc_apart {a : Nat} (ha : ¬ OfNws a) : Apart d (inc d a) := cntAdd_apart d ha 1

theorem emit_apart (o : Out) : Apart d (emit d o) := .of_same rfl rfl
theorem setBasin_apart (b : Basin) : Apart d (setBasin d b) := .of_same rfl rfl
theorem setSlip_apart (n : Nat) (x : Slip) : Apart d (setSlip d n x) := .of_same rfl rfl
theorem setRing_apart (n r : Nat) (x : Ring) : Apart d (setRing d n r x) := .of_same rfl rfl
theorem setPort_apart (p : Nat) (x : WirePort) : Apart d (setPort d p x) := .of_same rfl rfl
theorem setCan_apart (n : Nat) (c : Can) : Apart d (setCan d n c) := .of_same rfl rfl

theorem sendVec_apart (n v : Nat) : Apart d (sendVec d n v) := .of_same (sendVec_nws ..) (sendVec_cnts ..)

theorem setEv_apart (src ev en b inst : Nat) (detail : Word) : Apart d (setEv d src ev en b inst detail) :=
  .of_same (setEv_nws ..) (setEv_cnts ..)

/-! ### Cells given up (R44, R54, R76) -/

theorem pfcJudge_apart (p c : Nat) : Apart d (pfcJudge d p c) := by
  obtain h | ⟨m, xoff, hlo, hhi, -, h⟩ := pfcJudge_cases d p c
  · rw [h]; exact .refl d
  · rw [h]
    exact (setPort_apart ..).trans ((emit_apart ..).trans (inc_apart _ fun ha => by unfold OfNws aPcnt at ha; omega))

theorem reserveBring_apart (r : Nat) : Apart d (reserveBring d r) := by
  have hnote (d : Dev) : Apart d (reserveNote d r) :=
    (setEv_apart ..).trans ((setEv_apart ..).trans (.ite (setEv_apart ..) (.refl _)))
  unfold reserveBring
  refine .trans ?_ (hnote _)
  exact .of_same rfl rfl

theorem retireCell_apart (c : Nat) : Apart d (retireCell d c) := by
  unfold retireCell
  extract_lets b b1 d1 d2 d3 reserves
  have h1 : Apart d d1 := .ite (setBasin_apart ..) (setBasin_apart ..)
  have h2 : Apart d1 d2 := .ite ((setEv_apart ..).trans (reserveBring_apart ..)) ((setEv_apart ..).trans (setEv_apart ..))
  have h3 : Apart d2 d3 := .ite (setEv_apart ..) (.refl _)
  have h : Apart d d3 := h1.trans (h2.trans h3)
  exact .ite (.refl d) (.ite (h.trans ((setBasin_apart ..).trans (setEv_apart ..))) h)

theorem freeIfDone_apart (uid : Nat) : Apart d (freeIfDone d uid) := by
  unfold freeIfDone
  split
  · exact .refl d
  · extract_lets due _ d1
    have hdue : Apart d1 (due.foldl (fun d e => retireCell d e.2) d1) :=
      rel_foldl .refl .trans (fun d (e : Nat × Nat) => retireCell_apart d e.2) ..
    exact .ite (.refl d) ((setBasin_apart ..).trans (hdue.trans (pfcJudge_apart ..)))

theorem leaveQueue_apart (e : QEntry) : Apart d (leaveQueue d e) := (setBasin_apart ..).trans (freeIfDone_apart ..)

/-! ### Reports to a descriptor (R137–R142, R150) -/

theorem ringIrq_apart (n r : Nat) : Apart d (ringIrq d n r) :=
  .ite (.ite (setRing_apart ..) (.ite (sendVec_apart ..) ((sendVec_apart ..).trans (setRing_apart ..)))) (.refl d)

theorem writeCompl_apart (n r : Nat) (x : Desc) (c : Compl) : Apart d (writeCompl d n r x c) := by
  unfold writeCompl
  extract_lets g g1 z d0
  have h0 : Apart d d0 := by
    unfold d0
    split
    · exact setSlip_apart ..
    · exact .refl d
  refine h0.trans (.ite (setRing_apart ..) ?_)
  exact (setRing_apart ..).trans ((emit_apart ..).trans ((emit_apart ..).trans (ringIrq_apart ..)))

theorem flushList_apart (n r : Nat) (l : List Desc) : Apart d (flushList d n r l) := by
  induction l generalizing d with
  | nil => exact .refl d
  | cons x l ih =>
    unfold flushList
    split
    · exact (writeCompl_apart ..).trans (ih _)
    · exact .refl d

theorem finish_apart (n r idx : Nat) (c : Compl) : Apart d (finish d n r idx c) := by
  unfold finish
  split
  · exact .refl d
  · exact (setRing_apart ..).trans (flushList_apart ..)

theorem confirmJudge_apart (n r : Nat) (x : Desc) : Apart d (confirmJudge d n r x) := .ite (finish_apart ..) (.refl d)

theorem canReport_apart (uid ch : Nat) (ok collided : Bool) (sof : Nat) : Apart d (canReport d uid ch ok collided sof) := by
  unfold canReport
  split; · exact .refl d
  split; · exact .refl d
  split; · exact .refl d
  exact .ite ((setRing_apart ..).trans (confirmJudge_apart ..)) (.refl d)

/-! ### Frames abandoned by a channel (R197, Table 6.5) -/

theorem canInc_apart {n k : Nat} (hn : n < 16) (hk : k < 17) : Apart d (canInc d n k) :=
  inc_apart d fun h => by unfold OfNws aCanCnt canBase at h; omega

theorem canAbandonAll_apart {n : Nat} (hn : n < 16) : Apart d (canAbandonAll d n) := by
  refine rel_foldl .refl .trans (fun d x => ?_) ..
  unfold canAbandon
  extract_lets c d1 d2
  have h2 : Apart d d2 := (setCan_apart ..).trans ((canInc_apart _ hn (by decide)).trans (canReport_apart ..))
  split
  · exact h2.trans (leaveQueue_apart ..)
  · exact h2

end

end Sys2Proof.Proofs.NetworkApart

/-! PROOFS. Network sleep (chapter 7, Tables 7.2, 7.3): what the network machine's operations make of a network, and its way
through AWAKE, DRAINING and ASLEEP. -/

namespace Sys2Proof.Proofs.NetworkSleep

open Sys2Proof Sys2Proof.Machine Sys2Proof.Laws Sys2Proof.Proofs.FreedCells Sys2Proof.Proofs.CanChannels
open Sys2Proof.Proofs.CanStops Sys2Proof.Proofs.CanStates Sys2Proof.Proofs.NetworkApart Sys2Proof.Proofs.Extraction

/-! ## Addresses of a network (Tables 7.7, 7.8) -/

theorem netBase_lt (n : Fin 16) {o : Nat} (ho : o < 0x100) : netBase n + o < 2 ^ 26 := by
  unfold netBase
  omega

theorem ofNws_aNetCnt {n k : Nat} (hn : n < 16) (hk : k < 10) : OfNws (aNetCnt n k) := by
  unfold OfNws aNetCnt netBase
  omega

@[simp] theorem aNetCnt_inj {n j k : Nat} : aNetCnt n j = aNetCnt n k ↔ j = k := by
  unfold aNetCnt
  omega

/-! ## What the operations make of a network -/

section
variable (d : Dev) (n : Nat)

@[simp] theorem netOf_wr (a : Nat) (v : Word) (m : Nat) : netOf (wr d a v) m = netOf d m := rfl
@[simp] theorem netOf_wr64 (a v m : Nat) : netOf (wr64 d a v) m = netOf d m := rfl
@[simp] theorem netOf_netInc (k m : Nat) : netOf (netInc d n k) m = netOf d m := rfl
@[simp] theorem netOf_emit (o : Out) (m : Nat) : netOf (emit d o) m = netOf d m := rfl
@[simp] theorem canOf_setNet (x : Net) (m : Nat) : canOf (setNet d n x) m = canOf d m := rfl
@[simp] theorem netOf_setCan (c : Can) (m : Nat) : netOf (setCan d n c) m = netOf d m := rfl
@[simp] theorem netOf_evNws (b m : Nat) : netOf (evNws d n b) m = netOf d m := by simp [netOf]

@[simp] theorem rd_netInc (k a : Nat) : rd (netInc d n k) a = rd d a := rfl
@[simp] theorem cnt_netInc (k a : Nat) : cnt (netInc d n k) a =
    if a = aNetCnt n k then cnt d (aNetCnt n k) + 1 else cnt d a :=
  cnt_inc ..

variable {n} in
@[simp] theorem rd_evNws (b : Nat) {a : Nat} (h : a ≠ netBase n + 0x18) : rd (evNws d n b) a = rd d a := by
  rw [evNws, rd_setEv, if_neg fun g => h g.1]

theorem evNws_bit {b : Nat} (h : b < 32) : bit (rd (evNws d n b) (netBase n + 0x18)) b = true := setEv_bit _ _ _ _ _ _ _ h

@[simp] theorem netOf_netEnter (st : NetState) (m : Nat) :
    netOf (netEnter d n st) m = if m = n then { netOf d n with state := st } else netOf d m := by
  simp only [netEnter]
  split <;> simp

variable {n} in
@[simp] theorem rd_netEnter (st : NetState) {a : Nat} (h : a ≠ netBase n + 0x18) : rd (netEnter d n st) a = rd d a := by
  simp only [netEnter]
  split <;> simp [h]

@[simp] theorem netEnter_cnts (st : NetState) : (netEnter d n st).cnts = d.cnts := by
  simp only [netEnter]
  split
  · rfl
  · exact evNws_cnts ..

@[simp] theorem netEnter_wall (st : NetState) : (netEnter d n st).wall = d.wall := by
  simp only [netEnter]
  split
  · rfl
  · exact evNws_wall ..

@[simp] theorem cnt_netEnter (st : NetState) (a : Nat) : cnt (netEnter d n st) a = cnt d a := by simp [cnt]

/-- A change of state sets NWS_EVENT.STATE (R209). -/
theorem netEnter_event {st : NetState} (h : (netOf d n).state ≠ st) :
    bit (rd (netEnter d n st) (netBase n + 0x18)) 0 = true := by
  simp only [netEnter, if_neg h]
  exact evNws_bit _ _ (by decide)

@[simp] theorem netOf_idleStart (m : Nat) : netOf (idleStart d n) m = if m = n then { netOf d n with
    until_ := d.wall + 1000000 * (if (netOf d n).confirmed then tIdle d n else tFalse d n) } else netOf d m :=
  netOf_setNet ..

@[simp] theorem rd_idleStart (a : Nat) : rd (idleStart d n) a = rd d a := rfl
@[simp] theorem cnt_idleStart (a : Nat) : cnt (idleStart d n) a = cnt d a := rfl

@[simp] theorem tIdle_setNet (x : Net) : tIdle (setNet d n x) n = tIdle d n := rfl
@[simp] theorem tIdle_netEnter (st : NetState) : tIdle (netEnter d n st) n = tIdle d n := by
  unfold tIdle
  rw [rd_netEnter d _ (by omega)]

/-- The machine AWAKE and CONFIRMED with its idle timer started (Table 7.2). -/
theorem netOf_netStart : netOf (netStart d n) n = { netOf d n with
    state := .awake, confirmed := true, until_ := d.wall + 1000000 * tIdle d n } := by
  simp [netStart]

variable {n} in
theorem rd_netStart {a : Nat} (h : a ≠ netBase n + 0x18) : rd (netStart d n) a = rd d a := by simp [netStart, h]

/-- A keep-alive that falls due may mark itself waiting, and does nothing else to the network (R208). -/
theorem netOf_kaDue : ∃ b, netOf (kaDue d n) n = { netOf d n with kaPending := b } := by
  unfold kaDue
  split
  iterate 4 exact ⟨(netOf d n).kaPending, rfl⟩
  refine ⟨true, ?_⟩
  dsimp only
  split <;> simp

@[simp] theorem rd_kaDue (a : Nat) : rd (kaDue d n) a = rd d a := by
  unfold kaDue
  split
  iterate 4 rfl
  dsimp only
  split <;> rfl

variable {n} in
theorem cnt_kaDue {a : Nat} (h : a ≠ aNetCnt n 7) : cnt (kaDue d n) a = cnt d a := by
  unfold kaDue
  split
  iterate 4 simp [h]
  dsimp only
  split <;> simp [h]

/-- On a channel that is online it waits; the one it replaces is counted (R208). -/
theorem kaDue_online (h : canOnline (canOf d n) = true) : kaDue d n =
    setNet (if (netOf d n).kaPending then netInc d n 7 else d) n { netOf d n with kaPending := true } := by
  have hnet : netOf (if (netOf d n).kaPending then netInc d n 7 else d) n = netOf d n := by split <;> rfl
  simp only [canOnline, decide_eq_true_eq] at h
  unfold kaDue
  rcases h with h | h <;> simp only [h, hnet]

/-- In a state that sends none it is only counted (R208). -/
theorem kaDue_skipped (h : (canOf d n).state = .config ∨ (canOf d n).state = .busOff) : kaDue d n = inc d (aNetCnt n 7) := by
  unfold kaDue
  rcases h with h | h <;> simp only [h] <;> rfl

/-- A wake in ASLEEP is latched while the transceiver switches, else served (R213, R214). -/
theorem netWake_asleep (c : WakeCause) (node : Nat) (hstate : (netOf d n).state = .asleep)
    (hwaking : (netOf d n).waking = false) (hlatched : (netOf d n).latched = none) :
    (netOf (netWake d n c node) n).state = .asleep ∧ (netOf (netWake d n c node) n).causeCode = c ∧
    ((netOf d n).switching = true → (netOf (netWake d n c node) n).latched = some c) ∧
    ((netOf d n).switching = false → (netOf (netWake d n c node) n).waking = true) := by
  cases hswitch : (netOf d n).switching <;> simp [netWake, hstate, hwaking, hlatched, hswitch]

end

/-! ## What keeps a network where it is -/

/-- From `d` to `t` network `n` stays in its state; beside NWS_EVENT and NWS_HAIL_RESULT its registers stay, and of its
counters at most KA_SKIPPED rose. -/
structure Steady (n : Nat) (d t : Dev) : Prop where
  state : (netOf t n).state = (netOf d n).state
  frozen : (netOf t n).frozen = (netOf d n).frozen
  waking : (netOf t n).waking = (netOf d n).waking
  confirmed : (netOf t n).confirmed = (netOf d n).confirmed
  regs : ∀ a, a ≠ netBase n + 0x18 → a ≠ netBase n + 0x68 → rd t a = rd d a
  cnts : ∀ a, a ≠ aNetCnt n 7 → cnt t a = cnt d a

section
variable {n : Nat}

theorem Steady.refl (d : Dev) : Steady n d d := ⟨rfl, rfl, rfl, rfl, fun _ _ _ => rfl, fun _ _ => rfl⟩

theorem Steady.trans {a b c : Dev} (h : Steady n a b) (g : Steady n b c) : Steady n a c where
  state := g.state.trans h.state
  frozen := g.frozen.trans h.frozen
  waking := g.waking.trans h.waking
  confirmed := g.confirmed.trans h.confirmed
  regs i h1 h2 := (g.regs i h1 h2).trans (h.regs i h1 h2)
  cnts i hi := (g.cnts i hi).trans (h.cnts i hi)

theorem Steady.ite {c : Prop} [Decidable c] {d a b : Dev} (ha : Steady n d a) (hb : Steady n d b) :
    Steady n d (if c then a else b) := by
  split <;> assumption

/-- NWS_HELD and NWS_CFG are among the registers that stay. -/
theorem Steady.heldMap {d t : Dev} (h : Steady n d t) : heldMap t n = heldMap d n := by
  unfold Machine.heldMap rd64
  rw [h.regs _ (by omega) (by omega), h.regs _ (by omega) (by omega)]

theorem Steady.netCfg {d t : Dev} (h : Steady n d t) : netCfg t n = netCfg d n := h.regs _ (by omega) (by omega)

theorem emit_steady (d : Dev) (o : Out) : Steady n d (emit d o) :=
  ⟨rfl, rfl, rfl, rfl, fun _ _ _ => rfl, fun _ _ => rfl⟩
theorem setPart_steady (d : Dev) (m : Nat) (x : Partner) : Steady n d (setPart d n m x) :=
  ⟨rfl, rfl, rfl, rfl, fun _ _ _ => rfl, fun _ _ => rfl⟩

theorem setNet_steady {d : Dev} {x : Net} (hstate : x.state = (netOf d n).state) (hfrozen : x.frozen = (netOf d n).frozen)
    (hwaking : x.waking = (netOf d n).waking) (hconfirmed : x.confirmed = (netOf d n).confirmed) :
    Steady n d (setNet d n x) where
  state := by simpa using hstate
  frozen := by simpa using hfrozen
  waking := by simpa using hwaking
  confirmed := by simpa using hconfirmed
  regs _ _ _ := rfl
  cnts _ _ := rfl

theorem kaDue_steady (d : Dev) : Steady n d (kaDue d n) := by
  obtain ⟨b, h⟩ := netOf_kaDue d n
  exact ⟨by rw [h], by rw [h], by rw [h], by rw [h], fun _ _ _ => rd_kaDue .., fun _ h => cnt_kaDue d h⟩

/-- Need that arises in AWAKE, or with the machine stopped, is a keep-alive at most (R208). -/
theorem needArises_steady {d : Dev} (h : (netOf d n).state = .awake) : Steady n d (needArises d n) := by
  unfold needArises
  rw [h]
  exact .ite (.ite (kaDue_steady d) (.refl d)) (kaDue_steady d)

theorem dropCall_steady (d : Dev) : Steady n d (dropCall d n) := by
  have hnet (x : Net) (h : x = { netOf d n with callDue := false, callOpen := false, callCmd := false }) :
      Steady n d (setNet d n x) := by subst h; exact setNet_steady rfl rfl rfl rfl
  refine .ite ((hnet _ rfl).trans ?_) (hnet _ rfl)
  exact ⟨rfl, rfl, rfl, rfl, fun a _ h => (rd_wr ..).trans (if_neg h), fun _ _ => rfl⟩

theorem openCall_steady (d : Dev) : Steady n d (openCall d n) := by
  unfold openCall
  extract_lets x d1 d2
  have hparts : Steady n d d1 := rel_foldl .refl .trans (fun d m => .ite (setPart_steady ..) (.refl d)) ..
  have hnet : Steady n d1 d2 := setNet_steady hparts.state.symm hparts.frozen.symm hparts.waking.symm hparts.confirmed.symm
  exact hparts.trans (hnet.trans (emit_steady ..))

/-- A call that is sent or given up in AWAKE leaves the network as it is (R219). -/
theorem callGo_steady {d : Dev} (h : (netOf d n).state = .awake) : Steady n d (callGo d n) := by
  have hopen : Steady n d (openCall d n) := openCall_steady d
  exact .ite (.refl d) (.ite (dropCall_steady d) (.ite (.refl d)
    (.ite (hopen.trans (needArises_steady (hopen.state.trans h))) hopen)))

end

/-! ## The controller online again (R212) -/

/-- From `d` to `t` network `n` stays frozen or not, no counter of the networks rises, and each channel keeps its TEC. -/
structure Rests (n : Nat) (d t : Dev) : Prop where
  frozen : (netOf t n).frozen = (netOf d n).frozen
  cnts : ∀ a, OfNws a → cnt t a = cnt d a
  tec : ∀ m, (canOf t m).tec = (canOf d m).tec

section
variable {n : Nat}

theorem Rests.trans {a b c : Dev} (h : Rests n a b) (g : Rests n b c) : Rests n a c where
  frozen := g.frozen.trans h.frozen
  cnts i hi := (g.cnts i hi).trans (h.cnts i hi)
  tec m := (g.tec m).trans (h.tec m)

theorem Rests.refl (d : Dev) : Rests n d d := ⟨rfl, fun _ _ => rfl, fun _ => rfl⟩

theorem Rests.ite {c : Prop} [Decidable c] {d a b : Dev} (ha : Rests n d a) (hb : Rests n d b) :
    Rests n d (if c then a else b) := by
  split <;> assumption

theorem Apart.rests {d t : Dev} (h : Apart d t) (htec : ∀ m, (canOf t m).tec = (canOf d m).tec) : Rests n d t :=
  ⟨by rw [h.netOf], h.cnts, htec⟩

theorem setCan_rests {d : Dev} {c : Can} (h : c.tec = (canOf d n).tec) : Rests n d (setCan d n c) := by
  refine Apart.rests (setCan_apart ..) fun m => ?_
  by_cases hm : m = n <;> simp [hm, h]

theorem evCan_rests (d : Dev) (b : Nat) : Rests n d (evCan d n b) := Apart.rests (setEv_apart ..) fun m => by simp

theorem canAbandonAll_rests (hn : n < 16) (d : Dev) : Rests n d (canAbandonAll d n) := by
  obtain ⟨bus, h⟩ := canAbandonAll_alike d n
  refine Apart.rests (canAbandonAll_apart d hn) fun m => ?_
  rw [h.channels]
  by_cases hm : m = n <;> simp [hm]

theorem netStop_rests (d : Dev) : Rests n d (netStop d n) where
  frozen := by simp [netStop]
  cnts _ _ := by simp [netStop]
  tec m := by simp only [canOf, (netStop_beside d n).can]

theorem canConfig_rests (hn : n < 16) (d : Dev) : Rests n d (canConfig d n) := by
  unfold canConfig
  extract_lets d1 c d2
  have h2 : Rests n d d2 := (canAbandonAll_rests hn d).trans (setCan_rests rfl)
  split
  · exact h2.trans (netStop_rests d2)
  · exact h2

theorem canOffline_rests (hn : n < 16) (d : Dev) : Rests n d (canOffline d n) := by
  have hended (d : Dev) : Rests n d (canEnded d n) := by
    unfold canEnded
    split
    · exact canConfig_rests hn d
    · exact .refl d
  unfold canOffline
  extract_lets c d1
  split
  · exact .refl d
  · have h1 : Rests n d d1 :=
      (setCan_rests (c := { c with onBus := none }) rfl).trans (canAbandonAll_rests hn _)
    have h2 : Rests n d1 (setCan d1 n { canOf d1 n with state := .offline, boDue := false }) := setCan_rests rfl
    exact h1.trans (h2.trans ((evCan_rests ..).trans (hended _)))

/-- The release unfreezes the network; a fault or a BO_DELAY that came meanwhile takes effect, with TEC kept but for a
channel that integrates again from OFFLINE. -/
theorem canRelease_spec (hn : n < 16) (d : Dev) : (netOf (canRelease d n) n).frozen = false ∧
    (∀ a, OfNws a → cnt (canRelease d n) a = cnt d a) ∧
    ∀ m, (canOf (canRelease d n) m).tec = (canOf d m).tec ∨ (canOf d n).state = .offline := by
  have hd (u : Dev) (h : Rests n (setNet d n { netOf d n with frozen := false }) u) : (netOf u n).frozen = false ∧
      (∀ a, OfNws a → cnt u a = cnt d a) ∧ ∀ m, (canOf u m).tec = (canOf d m).tec ∨ (canOf d n).state = .offline :=
    ⟨h.frozen.trans (by simp), h.cnts, fun m => .inl (h.tec m)⟩
  unfold canRelease
  extract_lets x u c d1
  have h1 : Rests n u d1 := setCan_rests rfl
  split
  · exact hd _ (h1.trans (canOffline_rests hn d1))
  · split
    · refine hd _ (h1.trans ?_)
      exact .ite (.ite (setCan_rests rfl) (.ite (.refl d1) (setCan_rests rfl))) (.refl d1)
    · unfold canOnlineAgain
      extract_lets c1
      split
      next h =>
        refine ⟨by simp [d1, u], fun _ _ => rfl, fun m => .inr ?_⟩
        simpa [c1, d1, c, u] using h.1
      next => exact hd _ h1

end

end Sys2Proof.Proofs.NetworkSleep

/-! PROOFS. The network states of Table 7.2 (R207–R214): enabling, keep-alives, local need, the timers, sleep and wakes. -/

namespace Sys2Proof.Proofs.NetworkStates

open Sys2Proof Sys2Proof.Machine Sys2Proof.Laws Sys2Proof.Proofs.CanChannels Sys2Proof.Proofs.CanStates
open Sys2Proof.Proofs.TunnelEngine Sys2Proof.Proofs.NetworkApart Sys2Proof.Proofs.NetworkSleep

section
variable {d : Dev} {n : Nat}

/-! ## EN (Table 7.2) -/

/-- NWS_CFG as EN 1 and as EN 0 store it. -/
def cfgOn (d : Dev) (n : Nat) (v : Word) : Dev := wr d (netBase n) ((v &&& 0x73FF003F) ||| 0x80000000)
def cfgOff (d : Dev) (n : Nat) (v : Word) : Dev := wr d (netBase n) (v &&& 0x73FF003F)

theorem cfgOn_enabled (d : Dev) (n : Nat) (v : Word) : bit (netCfg (cfgOn d n v) n) 31 = true := by
  simp [netCfg, cfgOn, bit]

theorem cfgOff_disabled (d : Dev) (n : Nat) (v : Word) : bit (netCfg (cfgOff d n v) n) 31 = false := by
  simp [netCfg, cfgOff, bit]

theorem rd_netStop (d : Dev) {n a : Nat} (h : a ≠ netBase n + 0x18) : rd (netStop d n) a = rd d a := by simp [netStop, h]

/-- A stop leaves HELD as it is. -/
theorem heldMap_cfgOff (d : Dev) (n : Nat) (v : Word) : heldMap (netStop (cfgOff d n v) n) n = heldMap d n := by
  unfold heldMap rd64
  rw [rd_netStop _ (by omega), rd_netStop _ (by omega), cfgOff, rd_wr, rd_wr, if_neg (by omega), if_neg (by omega)]

theorem nwsEnable_starts {v : Word} (h : bit (netCfg d n) 31 = false) :
    Steady n (netStart (cfgOn d n v) n) (nwsEnable d n v) := by
  simp only [nwsEnable, h, Bool.false_eq_true, if_false]
  exact .ite (kaDue_steady _) (.refl _)

theorem nwsDisable_stops {v : Word} (h : bit (netCfg d n) 31 = true) :
    Steady n (netStop (cfgOff d n v) n) (nwsDisable d n v) := by
  simp only [nwsDisable, h, if_true]
  exact callGo_steady (by simp [netStop])

/-! ## Keep-alives (R207, R208) -/

theorem kaReceive_counted {m : CanMsg} {k : Nat} (hruns : netRuns d n = true) (hfrozen : (netOf d n).frozen = false)
    (hnode : kaNode d n m = some k) (hdata : (leNat m.data).testBit k = true)
    (hheld : (heldMap d n).testBit k = false) (hstate : (netOf d n).state ≠ .asleep) :
    kaReceive d n m = netStart (setNet d n { netOf d n with seen := tput (netOf d n).seen k d.wall }) n := by
  have hruns' (x : Net) : netRuns (setNet d n x) n = true := hruns
  cases h : (netOf d n).state with
  | asleep => exact absurd h hstate
  | awake => simp [kaReceive, kaCounted, hruns, hruns', hfrozen, hnode, hdata, hheld, h, netStart]
  | draining => simp [kaReceive, kaCounted, hruns, hruns', hfrozen, hnode, hdata, hheld, h, netStart]

theorem kaReceive_ignored {m : CanMsg} {k : Nat} (hnode : kaNode d n m = some k)
    (h : (leNat m.data).testBit k = false ∨ (heldMap d n).testBit k = true) : kaReceive d n m = d := by
  rcases h with h | h <;> simp [kaReceive, hnode, h]

/-! ## Local need (R208) -/

/-- The manager sets HOST. -/
def hostSet (d : Dev) (n : Nat) : Dev := wr d (netBase n + 0x10) 1

theorem hostSet_need (d : Dev) (n : Nat) : needHolds (hostSet d n) n = true := by
  have h : fld (rd (hostSet d n) (netBase n + 0x10)) 0 0 = 1 := by simp [hostSet, fld]
  simp [needHolds, needBits, h]

theorem localNeed_arises (h : needHolds d n = false) : localNeed d n true = needArises (hostSet d n) n := by
  have hrun : localNeed d n true = needAfter d (hostSet d n) n := rfl
  simp [hrun, needAfter, h, hostSet_need]

theorem hostSet_runs (h : netRuns d n = true) : netRuns (hostSet d n) n = true := by
  have h1 : netBase n ≠ netBase n + 0x10 := by omega
  have h2 : canBase n ≠ netBase n + 0x10 := by unfold netBase canBase; omega
  simpa [netRuns, netCfg, hostSet, h1, h2] using h

theorem needArises_asleep (hruns : netRuns d n = true) (hstate : (netOf d n).state = .asleep) :
    needArises d n = netWake d n .localNeed 0 := by
  simp [needArises, hruns, hstate]

/-- Off the sleeping bus a keep-alive is sent, from DRAINING with the machine AWAKE again (R208, Table 7.2). -/
theorem needArises_sends (hruns : netRuns d n = true) (hstate : (netOf d n).state ≠ .asleep) :
    ∃ e, (netOf e n).state = .awake ∧ e.can = d.can ∧ (∀ a, a ≠ netBase n + 0x18 → rd e a = rd d a) ∧
      needArises d n = kaDue e n := by
  cases h : (netOf d n).state with
  | asleep => exact absurd h hstate
  | awake => exact ⟨d, h, rfl, fun _ _ => rfl, by simp [needArises, hruns, h]⟩
  | draining =>
    exact ⟨netStart d n, by rw [netOf_netStart], (netStart_beside d n).can, fun _ ha => rd_netStart d ha,
      by simp [needArises, hruns, h, netStart]⟩

/-! ## The timers (R209, R211, Table 7.2) -/

@[simp] theorem tDrain_netEnter (d : Dev) (n : Nat) (st : NetState) : tDrain (netEnter d n st) n = tDrain d n := by
  unfold tDrain
  rw [rd_netEnter d _ (by omega)]

@[simp] theorem tDrain_netInc (d : Dev) (n k : Nat) : tDrain (netInc d n k) n = tDrain d n := rfl

theorem idleExpire_drains (hruns : netRuns d n = true) (hstate : (netOf d n).state = .awake)
    (htime : (netOf d n).until_ ≤ d.wall) (hneed : needHolds d n = false) :
    (netOf (idleExpire d n) n).state = .draining ∧
    (netOf (idleExpire d n) n).until_ = d.wall + 1000000 * tDrain d n ∧ cnt (idleExpire d n) (aNetCnt n 3) =
      (if (netOf d n).confirmed then cnt d (aNetCnt n 3) else cnt d (aNetCnt n 3) + 1) := by
  cases h : (netOf d n).confirmed <;> simp [idleExpire, hruns, hstate, hneed, not_lt.2 htime, h]

theorem idleExpire_needed (hruns : netRuns d n = true) (hstate : (netOf d n).state = .awake)
    (htime : (netOf d n).until_ ≤ d.wall) (hneed : needHolds d n = true) : idleExpire d n = idleStart d n := by
  simp [idleExpire, hruns, hstate, hneed, not_lt.2 htime]

theorem drainExpire_sleeps (hruns : netRuns d n = true) (hstate : (netOf d n).state = .draining)
    (htime : (netOf d n).until_ ≤ d.wall) (hbus : (canOf d n).onBus = none) :
    drainExpire d n true = setNet (netEnter (netInc d n 4) n .asleep) n { netOf d n with
      state := .asleep, frozen := true, switching := true, until_ := 0, fec := 0 } := by
  simp [drainExpire, hruns, hstate, hbus, not_lt.2 htime]

theorem testBit_sub_two_pow {a b : Nat} (h : a.testBit b = true) (m : Nat) :
    (a - 2 ^ b).testBit m = (a.testBit m && m != b) := by
  induction b generalizing a m with
  | zero =>
    have hodd : a % 2 = 1 := by simpa using h
    cases m with
    | zero => simp; omega
    | succ m =>
      have hhalf : (a - 1) / 2 = a / 2 := by omega
      simp [Nat.testBit_succ, hhalf]
  | succ b ih =>
    have hhalf : (a - 2 ^ (b + 1)) / 2 = a / 2 - 2 ^ b := by rw [pow_succ]; omega
    cases m with
    | zero =>
      have hge := Nat.ge_two_pow_of_testBit h
      have hparity : (a - 2 ^ (b + 1)) % 2 = a % 2 := by rw [pow_succ] at hge ⊢; omega
      simp [Nat.testBit_zero, hparity]
    | succ m =>
      rw [Nat.testBit_succ] at h
      rw [Nat.testBit_succ, Nat.testBit_succ, hhalf, ih h m]
      simp

/-- The nodes seen but the own one (R211). -/
theorem testBit_seenOthers (seen own m : Nat) :
    (seen - (if seen.testBit own then 2 ^ own else 0)).testBit m = (seen.testBit m && m != own) := by
  split
  next h => exact testBit_sub_two_pow h m
  next h =>
    by_cases hm : m = own
    · simpa [hm] using h
    · simp [hm]

theorem rd64_evNws (d : Dev) (n b : Nat) : rd64 (evNws d n b) (netBase n + 0x28) = rd64 d (netBase n + 0x28) := by
  unfold rd64
  rw [rd_evNws d b (by omega), rd_evNws d b (by omega)]

theorem rd64_netInc (d : Dev) (n k a : Nat) : rd64 (netInc d n k) a = rd64 d a := rfl

theorem rd64_wr64 (d : Dev) (a v : Nat) : rd64 (wr64 d a v) a = v % 2 ^ 64 := by
  simp only [rd64, wr64, rd_wr, w32, if_true, BitVec.toNat_ofNat, Nat.left_eq_add, OfNat.ofNat_ne_zero, if_false,
    Nat.shiftRight_eq_div_pow]
  omega

theorem tMaxExpire_holds (hruns : netRuns d n = true) (hstate : (netOf d n).state ≠ .asleep)
    (hneed : needHolds d n = false) (hon : fld (rd d (netBase n + 8)) 31 16 ≠ 0) : tMaxExpire d n =
      let own := fld (netCfg d n) 5 0
      let add := seenMap d n - (if (seenMap d n).testBit own then 2 ^ own else 0)
      evNws (netInc (wr64 d (netBase n + 0x28) (heldMap d n ||| add)) n 5) n 1 := by
  simp [tMaxExpire, hruns, hstate, hneed, hon]

/-! ## Wakes (R212–R214) -/

theorem busWake_wup (m : CanMsg) (hruns : netRuns d n = true) (hstate : (netOf d n).state = .asleep) :
    busWake d n .wup m = if bit (rd d (netBase n + 0x38)) 30 then netWake d n .wup 0 else d := by
  simp [busWake, hruns, hstate]

/-- A good frame lowers the error counter; one that the filter matches also wakes (R213). -/
theorem busWake_wuf {m : CanMsg} (hruns : netRuns d n = true) (hstate : (netOf d n).state = .asleep)
    (hon : bit (rd d (netBase n + 0x38)) 31 = true) (hrate : wufRate d n = true) (hmatch : wufMatch d n m = true) :
    busWake d n .frame m =
      netWake (setNet d n { netOf d n with fec := (netOf d n).fec - 1 }) n .wuf ((kaNode d n m).getD 0) := by
  simp [busWake, hruns, hstate, hon, hrate, hmatch]

theorem busWake_unmatched {m : CanMsg} (h : wufMatch d n m = false ∨ wufRate d n = false) :
    (netOf (busWake d n .frame m) n).waking = (netOf d n).waking ∧
    (netOf (busWake d n .frame m) n).latched = (netOf d n).latched := by
  simp only [busWake]
  split
  · exact ⟨rfl, rfl⟩
  · rcases h with h | h
    · split <;> simp [h]
    · simp [h]

/-- After its release a sleeping network that woke is AWAKE, unconfirmed, its wake counted by kind; beside that come at most
a keep-alive and a call that waited (R212, Table 7.2). -/
theorem controllerOnline_wakes (hstate : (netOf d n).state = .asleep) (hfrozen : (netOf d n).frozen = true)
    (hwaking : (netOf d n).waking = true) (hswitch : (netOf d n).switching = false) (hup : coreUp d 4 = true) :
    ∃ u, Steady n u (controllerOnline d n) ∧ Beside (canRelease d n) (controllerOnline d n) ∧
      (netOf u n).state = .awake ∧ (netOf u n).frozen = (netOf (canRelease d n) n).frozen ∧ (netOf u n).waking = false ∧
      (netOf u n).confirmed = false ∧ ∀ k, k < 2 → cnt u (aNetCnt n k) = cnt (canRelease d n) (aNetCnt n k) +
        if k = (if (netOf d n).causeCode = .localNeed then 1 else 0) then 1 else 0 := by
  unfold controllerOnline
  extract_lets x d1 lcl d2 x3 d3 d4 d5
  rw [if_neg (by simp [x, hfrozen, hwaking, hswitch, hup]), if_neg (by simp [x, hstate])]
  have hcount (e : Dev) (k : Nat) : Beside e (netInc e n k) := inc_beside e (aNetCnt_not_ofCan n k)
  have h3 : netOf d3 n = { netOf d1 n with
      state := .awake, waking := false, confirmed := false, awakeTs := devTime d } := by simp [d3, x3, d2]
  have h4 : netOf d4 n = { netOf d3 n with until_ := (netOf d4 n).until_ } := by
    have hcounted : netOf (if x.causeLatched then netInc d3 n 2 else d3) n = netOf d3 n := by split <;> rfl
    unfold d4
    generalize (if x.causeLatched then netInc d3 n 2 else d3) = e at hcounted
    simp [hcounted]
  have hb4 : Beside d1 d4 := (hcount ..).trans ((netEnter_beside ..).trans ((setNet_beside ..).trans
    (.trans (.ite (hcount ..) (.refl _)) (setNet_beside ..))))
  have hs5 : Steady n d4 d5 := .ite (kaDue_steady _) (.refl _)
  have hb5 : Beside d4 d5 := .ite (kaDue_beside ..) (.refl _)
  have hawake : (netOf d5 n).state = .awake := by rw [hs5.state, h4, h3]
  refine ⟨d4, hs5.trans (callGo_steady hawake), hb4.trans (hb5.trans (callGo_beside ..)), by rw [h4, h3], by rw [h4, h3],
    by rw [h4, h3], by rw [h4, h3], fun k hk => ?_⟩
  have hcnt : cnt d4 (aNetCnt n k) = cnt d3 (aNetCnt n k) := by
    unfold d4
    split <;> simp [hk.ne]
  have hlcl : (if lcl = true then 1 else 0) = if (netOf d n).causeCode = .localNeed then 1 else 0 := by simp [lcl, x]
  simp only [hcnt, d3, d2, cnt_setNet, cnt_netEnter, cnt_netInc, aNetCnt_inj, hlcl, d1]
  by_cases hkind : k = if (netOf d n).causeCode = .localNeed then 1 else 0
  · rw [if_pos hkind, if_pos hkind, ← hkind]
  · simp [hkind]

end

/-! ## The statement -/

/-- Answers that differ in how the device is written. -/
theorem next_dev (s : State) {d t : Dev} (h : d = t) : (Host.Outcome.next { s with dev := d } : Answer) =
    .next { s with dev := t } := by rw [h]

/-- Settles O31, row by row of Table 7.2. -/
theorem networkSleepAndWake : Obligations.NetworkSleepAndWake := by
  unfold Obligations.NetworkSleepAndWake
  refine ⟨?enable, ?disable, ?keepAlive, ?due, ?config, ?need, ?idle, ?drain, ?tMax, ?sleepDone, ?busWake, ?online,
    fun n => ?clears⟩
  case enable =>
    intro s n v hready hoff
    have h := nwsEnable_starts (d := bridged s.dev (netBase n)) (n := n) (v := v) hoff
    refine ⟨_, exec_row (c := .nwsEnable n v) hready (netBase_lt n (o := 0) (by decide)) rfl, ?_, ?_, ?_⟩
    · rw [h.netCfg, netCfg, rd_netStart _ (by omega)]
      exact cfgOn_enabled ..
    · rw [h.state, netOf_netStart]
    · rw [h.confirmed, netOf_netStart]
  case disable =>
    intro s n v hready hon hv
    have h := nwsDisable_stops (d := bridged s.dev (netBase n)) (n := n) (v := v) hon
    refine ⟨_, exec_row (c := .nwsDisable n v) hready (netBase_lt n (o := 0) (by decide)) rfl, ?_, ?_, ?_, ?_, ?_⟩
    · rw [h.netCfg, netCfg, rd_netStop _ (by omega)]
      exact cfgOff_disabled ..
    · rw [h.state]; simp [netStop]
    · rw [h.frozen]; simp [netStop, cfgOff]
    · rw [h.waking]; simp [netStop]
    · rw [h.heldMap]
      exact heldMap_cfgOff ..
  case keepAlive =>
    intro s n m k hown hruns hfrozen hnode
    have hrun : exec (.keepAliveRx n m) s = .next { s with dev := kaReceive s.dev n m } := next_dev s (by simp [hown])
    refine ⟨fun hdata hheld hstate => ⟨_, hrun, ?_⟩, fun h => ?_⟩
    · rw [kaReceive_counted hruns hfrozen hnode hdata hheld hstate, netOf_netStart]
      simp [tget_tput]
    · rw [hrun, kaReceive_ignored hnode h]
  case due =>
    intro s n hruns hneed hstate
    have hrun : exec (.keepAliveDue n) s = .next { s with dev := kaDue s.dev n } :=
      next_dev s (by simp [keepAliveDue, hruns, hneed, hstate])
    refine ⟨fun honline => ⟨_, hrun, ?_⟩, fun hoff => ?_⟩
    · rw [kaDue_online s.dev n honline]
      cases (netOf s.dev n).kaPending <;> simp
    · rw [hrun, kaDue_skipped s.dev n (.inr hoff)]
  case config =>
    intro s n hon hconfig hneed hstate
    exact next_dev s (by simp [keepAliveDue, hon, hconfig, hneed, hstate, kaDue_skipped])
  case need =>
    intro s n hruns hneed
    have hrun : exec (.localNeed n true) s = .next { s with dev := needArises (hostSet s.dev n) n } :=
      next_dev s (localNeed_arises hneed)
    refine ⟨fun hstate honline => ?_, fun hstate hwaking hlatched => ?_⟩
    · obtain ⟨e, hawake, hcan, hregs, he⟩ := needArises_sends (d := hostSet s.dev n) (hostSet_runs hruns) hstate
      rw [he, kaDue_online e n (by simpa only [canOf, hcan, hostSet, wr_can] using honline)] at hrun
      refine ⟨_, hrun, by simpa using hawake, by simp, ?_⟩
      have hhost : rd e (netBase n + 0x10) = 1 := (hregs _ (by omega)).trans ((rd_wr ..).trans (if_pos rfl))
      cases (netOf e n).kaPending <;> simp [hhost, bit]
    · obtain ⟨hasleep, -, hlatch, hwake⟩ := netWake_asleep (hostSet s.dev n) n .localNeed 0 hstate hwaking hlatched
      rw [needArises_asleep (hostSet_runs hruns) hstate] at hrun
      exact ⟨_, hrun, hasleep, hlatch, hwake⟩
  case idle =>
    intro s n hruns hstate htime
    refine ⟨fun hneed => ⟨{ s with dev := idleExpire s.dev n }, rfl, idleExpire_drains hruns hstate htime hneed⟩,
      fun hneed => ⟨_, next_dev s (idleExpire_needed hruns hstate htime hneed), ?_, rfl⟩⟩
    simp [hstate]
  case drain =>
    intro s n hruns hstate htime hbus
    refine ⟨⟨_, next_dev s (drainExpire_sleeps hruns hstate htime hbus), ?_, ?_, ?_, ?_, ?_, ?_⟩,
      next_dev s (by simp [drainExpire])⟩
    · simp
    · simp
    · simp
    · exact (netEnter_beside _ n .asleep).can
    · simp
    · exact netEnter_event _ _ (by simp [hstate])
  case tMax =>
    intro s n hruns hstate hneed hon
    refine ⟨_, next_dev s (tMaxExpire_holds hruns hstate hneed hon), fun m hm => ?_, ?_, evNws_bit _ _ (by decide), ?_⟩
    · simp only [heldMap, rd64_evNws, rd64_netInc, rd64_wr64, Nat.testBit_mod_two_pow, hm, decide_true, Bool.true_and,
        Nat.testBit_or, testBit_seenOthers]
    · simp [wr64]
    · simp only [evNws_nws]
      rfl
  case sleepDone =>
    intro s n hswitch
    refine ⟨{ s with dev := sleepDone s.dev n }, rfl, ?_, ?_⟩
    · simp only [sleepDone, hswitch]; rfl
    · cases h : (netOf s.dev n).latched <;> simp [sleepDone, hswitch, h]
  case busWake =>
    intro s n m hruns hstate hwaking hlatched
    refine ⟨fun hon hrate hmatch => ⟨{ s with dev := busWake s.dev n .frame m }, rfl, ?_⟩,
      fun h => ⟨{ s with dev := busWake s.dev n .frame m }, rfl, ?_⟩,
      fun hon => ⟨{ s with dev := busWake s.dev n .wup m }, rfl, ?_⟩,
        fun hoff => next_dev s ((busWake_wup m hruns hstate).trans (if_neg (by simp [hoff])))⟩
    · dsimp only
      rw [busWake_wuf hruns hstate hon hrate hmatch]
      obtain ⟨-, hcause, hlatch, hwake⟩ := netWake_asleep
        (setNet s.dev n { netOf s.dev n with fec := (netOf s.dev n).fec - 1 }) n .wuf ((kaNode s.dev n m).getD 0)
        (by simpa using hstate) (by simpa using hwaking) (by simpa using hlatched)
      exact ⟨hcause, by simpa using hlatch, by simpa using hwake⟩
    · obtain ⟨hw, hl⟩ := busWake_unmatched h
      exact ⟨hw.trans hwaking, hl.trans hlatched⟩
    · dsimp only
      rw [busWake_wup m hruns hstate, if_pos hon]
      obtain ⟨-, hcause, -, hwake⟩ := netWake_asleep s.dev n .wup 0 hstate hwaking hlatched
      exact ⟨hcause, hwake⟩
  case online =>
    intro s n hstate hfrozen hwaking hswitch hup
    obtain ⟨u, hsteady, hbeside, hawake, hfree, hwoken, hconfirmed, hcount⟩ :=
      controllerOnline_wakes hstate hfrozen hwaking hswitch hup
    obtain ⟨hreleased, hcnts, htec⟩ := canRelease_spec n.isLt s.dev
    have hkind (k : Nat) (hk : k < 2) : cnt (controllerOnline s.dev n) (aNetCnt n k) = cnt s.dev (aNetCnt n k) +
        if k = (if (netOf s.dev n).causeCode = .localNeed then 1 else 0) then 1 else 0 := by
      rw [hsteady.cnts _ (by simp; omega), hcount k hk, hcnts _ (ofNws_aNetCnt n.isLt (by omega))]
    refine ⟨{ s with dev := controllerOnline s.dev n }, rfl, ?_, ?_, ?_, ?_, fun m => ?_, fun h => ?_, fun h => ?_⟩
    · rw [hsteady.state, hawake]
    · rw [hsteady.frozen, hfree, hreleased]
    · rw [hsteady.waking, hwoken]
    · rw [hsteady.confirmed, hconfirmed]
    · simpa only [canOf, hbeside.can] using htec m
    · simpa [h] using hkind 1 (by decide)
    · simpa [h] using hkind 0 (by decide)
  case clears => exact rowClears_range (netBase_lt n (by decide)) fun s => rfl

end Sys2Proof.Proofs.NetworkStates

/-! PROOFS. The LLDP copies that wait (R193, R225) outlive what the Quaymaster's queue does to other frames: verdicts,
refused punts, shedding. -/

namespace Sys2Proof.Proofs.LldpCopies

open Sys2Proof Sys2Proof.Machine Sys2Proof.Laws Sys2Proof.Proofs.NetworkApart

section
variable (d : Dev)

/-- The device taken from a choice holds the copies of the one chosen. -/
theorem ite_copies (c : Prop) [Decidable c] (a b : Dev) :
    (if c then a else b).nws.copies = if c then a.nws.copies else b.nws.copies :=
  apply_ite (fun d : Dev => d.nws.copies) c a b

theorem foldl_copies {α : Type} {f : Dev → α → Dev} (h : ∀ d x, (f d x).nws.copies = d.nws.copies) (l : List α) (d : Dev) :
    (l.foldl f d).nws.copies = d.nws.copies := by
  induction l generalizing d with
  | nil => rfl
  | cons x l ih => exact (ih _).trans (h d x)

@[simp] theorem inc_copies (a : Nat) : (inc d a).nws.copies = d.nws.copies := rfl
@[simp] theorem setBasin_copies (b : Basin) : (setBasin d b).nws.copies = d.nws.copies := rfl
@[simp] theorem setNet_copies (n : Nat) (x : Net) : (setNet d n x).nws.copies = d.nws.copies := rfl
@[simp] theorem setEv_copies (src ev en b inst : Nat) (detail : Word) :
    (setEv d src ev en b inst detail).nws.copies = d.nws.copies := by simp
@[simp] theorem setSlipEv_copies (n b : Nat) : (setSlipEv d n b).nws.copies = d.nws.copies := by simp [setSlipEv, ite_copies]
@[simp] theorem freeIfDone_copies (uid : Nat) : (freeIfDone d uid).nws.copies = d.nws.copies := by
  rw [(freeIfDone_apart d uid).nws]

/-! ### Destinations (R104, R105, R208) -/

theorem kaDue_copies (n : Nat) : (kaDue d n).nws.copies = d.nws.copies := by
  unfold kaDue
  split <;> simp [netInc, ite_copies]

theorem needAfter_copies (d1 : Dev) (n : Nat) : (needAfter d d1 n).nws.copies = d1.nws.copies := by
  unfold needAfter needArises
  cases (netOf d1 n).state <;>
    simp [ite_copies, kaDue_copies, netEnter, evNws, idleStart, netWake]

theorem offer_copies (f : Frame) (q : Nat) (dest : Dest) (miss tern : Bool) (entry : Nat) :
    (offer d f q dest miss tern entry).2.nws.copies = d.nws.copies := by
  cases dest <;> simp [offer, apply_ite Prod.snd, ite_copies, needAfter_copies]

theorem deliver_copies (f : Frame) (h : Hit) (dset : Nat) : (deliver d f h dset).nws.copies = d.nws.copies :=
  foldl_copies (fun d m => by simp [deliverOne, ite_copies, offer_copies]) ..

theorem tunnelOnce_copies (f : Frame) (stream : Nat) : (tunnelOnce d f stream).nws.copies = d.nws.copies := by
  simp [tunnelOnce, ite_copies, offer_copies]

theorem forward_copies (f : Frame) (ports chset : Nat) : (forward d f ports chset).2.nws.copies = d.nws.copies := by
  have hwires : ((List.range 11).foldl
      (fun d p => if ports.testBit p then (offer d f p .wire false false 0).2 else d) d).nws.copies = d.nws.copies :=
    foldl_copies (fun d p => by simp [ite_copies, offer_copies]) ..
  have hchannels (l : List Nat) (a : BitVec 16 × Dev) : (l.foldl (fun (a : BitVec 16 × Dev) n =>
      if chset.testBit n then
        let x := offer a.2 f 13 (.can n) false false 0
        (if x.1 then a.1 else a.1 ||| (1#16 <<< n), x.2)
      else a) a).2.nws.copies = a.2.nws.copies := by
    induction l generalizing a with
    | nil => rfl
    | cons n l ih => simp [ih, apply_ite Prod.snd, ite_copies, offer_copies]
  cases hbody : f.body <;> simp [forward, hbody, apply_ite Prod.snd, ite_copies, offer_copies, hwires, hchannels]

/-! ### The verdict (R98–R108) -/

theorem extract_copies (idx len : Nat) (body : FrameBody) : (extract d idx len body).nws.copies = d.nws.copies :=
  foldl_copies (fun d k => by
    unfold extractItem
    split <;> simp [ite_copies, setSignal, setAnalog]) ..

theorem txVerdict_copies (f : Frame) (v : VReport) : (txVerdict d f v).nws.copies = d.nws.copies := by
  have hdone (d : Dev) (n r idx : Nat) (c : Compl) : (finish d n r idx c).nws.copies = d.nws.copies := by
    rw [(finish_apart d n r idx c).nws]
  unfold txVerdict
  split
  · rfl
  · split
    · rfl
    · simp [ite_copies, hdone, confirmJudge, setDesc]

theorem meter_copies (k : Nat) (f : Frame) : (meter d k f).2.nws.copies = d.nws.copies := by
  simp [meter, apply_ite Prod.snd, ite_copies]

theorem selected_copies (msel : Nat) : (selected d msel).2.nws.copies = d.nws.copies := by
  simp [selected, drawNat, apply_ite Prod.snd, ite_copies]

theorem logbook_copies (f : Frame) (cause : Nat) (h : Hit) (colour dropCause : Nat) :
    (logbook d f cause h colour dropCause).nws.copies = d.nws.copies := by simp [logbook, ite_copies]

theorem puntRefused_copies : (puntRefused d).nws.copies = d.nws.copies := by simp [puntRefused]

theorem verdict_copies (uid : Nat) (returned : Bool) : (verdict d uid returned).2.nws.copies = d.nws.copies := by
  unfold verdict
  split
  · rfl
  next f hf =>
  extract_lets k h e dMiss impostor m colour dMetered cause wantPunt dRefused cause' dCounted s copy dSampled dDropCopy
    dDropCount dImpostor dExtracted ports dTunnelled fw named dDelivered wantCopy dReported dCopyRefused
  have hcopy (d : Dev) : (copy d).nws.copies = d.nws.copies := by simp [copy, ite_copies, logbook_copies]
  have hmetered : dMetered.nws.copies = d.nws.copies := by
    simp [dMetered, m, dMiss, apply_ite Prod.snd, ite_copies, meter_copies]
  have hsampled : dSampled.nws.copies = d.nws.copies := by
    simp [dSampled, s, dCounted, dRefused, countPair, apply_ite Prod.snd, ite_copies, selected_copies,
      puntRefused_copies, hmetered]
  have himpostor : dImpostor.nws.copies = d.nws.copies := by
    unfold dImpostor
    cases f.body <;> simp [dDropCount, dDropCopy, ite_copies, hcopy, hsampled]
  have hreported : dReported.nws.copies = d.nws.copies := by
    simp [dReported, dDelivered, fw, dTunnelled, dExtracted, apply_ite Prod.snd, ite_copies, hcopy, txVerdict_copies,
      deliver_copies, forward_copies, tunnelOnce_copies, extract_copies, hsampled]
  simp [apply_ite Prod.snd, ite_copies, hmetered, txVerdict_copies, himpostor, hreported, dCopyRefused, puntRefused_copies]

/-! ### The Quaymaster's queue (R29, R30) -/

theorem qmLevel_copies : (qmLevel d).nws.copies = d.nws.copies := by simp [qmLevel, ite_copies]

theorem qmPeak_copies : (qmPeak d).nws.copies = d.nws.copies := rfl

theorem qmDiscard_copies : (qmDiscard d).nws.copies = d.nws.copies :=
  foldl_copies (fun d e => by
    split <;> simp [refuseLate, ite_copies, verdict_copies, puntRefused_copies]) ..

theorem qmJudge_copies : (qmJudge d).nws.copies = d.nws.copies := by
  simp [qmJudge, ite_copies, qmLevel_copies, qmDiscard_copies, qmPeak_copies]

/-- Posting work leaves the copies as they are when serving it does. -/
theorem qmPost_copies (cls : Nat) (w : QmWork) {k : Dev → Dev} (h : ∀ d, (k d).nws.copies = d.nws.copies) :
    (qmPost d cls w k).nws.copies = d.nws.copies := by
  simp [qmPost, qmEnqueue, qmTake, ite_copies, h, qmJudge_copies]

end

end Sys2Proof.Proofs.LldpCopies

/-! PROOFS. A descriptor that completes (R136–R138, R150, Table 4.9): the oldest of its ring is written out, and only
messages come after it. -/

namespace Sys2Proof.Proofs.Completion

open Sys2Proof Sys2Proof.Machine Sys2Proof.Laws Sys2Proof.Proofs.SlipMessages

/-- From `d` to `t` only messages are sent. -/
def OnlyMessages (d t : Dev) : Prop := ∃ l, t.out = l ++ d.out ∧ ∀ o ∈ l, ∃ m v a w, o = Out.msix m v a w

theorem OnlyMessages.of_out {d t : Dev} (h : t.out = d.out) : OnlyMessages d t := ⟨[], h, by simp⟩

theorem OnlyMessages.trans {a b c : Dev} (h : OnlyMessages a b) (g : OnlyMessages b c) : OnlyMessages a c := by
  obtain ⟨l, hl, hml⟩ := h
  obtain ⟨k, hk, hmk⟩ := g
  refine ⟨k ++ l, by rw [hk, hl, List.append_assoc], fun o ho => ?_⟩
  rcases List.mem_append.1 ho with ho | ho
  · exact hmk o ho
  · exact hml o ho

theorem sendVec_onlyMessages (d : Dev) (n v : Nat) : OnlyMessages d (sendVec d n v) := by
  simp only [sendVec]
  split
  · exact ⟨[_], rfl, by simp⟩
  · exact .of_out rfl

theorem ringIrq_onlyMessages (d : Dev) (n r : Nat) : OnlyMessages d (ringIrq d n r) := by
  simp only [ringIrq]
  split
  · split
    · exact .of_out rfl
    · split
      · exact sendVec_onlyMessages ..
      · exact (sendVec_onlyMessages ..).trans (.of_out rfl)
  · exact .of_out rfl

@[simp] theorem ringOf_emit (d : Dev) (o : Out) (n r : Nat) : ringOf (emit d o) n r = ringOf d n r := rfl

/-- A ring without its hold-off, which alone a vector of the ring changes (R150). -/
def settled (x : Ring) : Ring := { x with held := false, owed := false }

theorem ringIrq_ring (d : Dev) (n r : Nat) : settled (ringOf (ringIrq d n r) n r) = settled (ringOf d n r) := by
  simp only [ringIrq]
  split
  · split
    · simp [settled]
    · split <;> simp [settled]
  · rfl

section
variable {s : State} {n r : Nat} {x : Desc} {rest : List Desc}

/-- The oldest descriptor of an idle ring may start (R137). -/
theorem startOp_front {op : Nat} (h : ReadyAtFront s n r x rest) (hop : opOf x = op) : startOp s.dev n r op = some x := by
  obtain ⟨⟨hflight, -, hactive, -⟩, hready, hrest, -⟩ := h
  have hnext : nextReady s.dev n r = some x := by simp [nextReady, hflight, hready]
  have hidle : ∀ y ∈ rest, y.stage ≠ .started := fun y hy => by rcases hrest y hy with h | h <;> simp [h]
  have hstart : startable s.dev n r = some x := by
    simp only [startable, hnext, hready, hactive, hflight]
    rw [if_pos]
    refine ⟨trivial, trivial, fun _ => rfl, ?_⟩
    rintro ⟨-, hbusy⟩
    obtain ⟨y, hy, hsame⟩ := List.any_eq_true.1 hbusy
    obtain ⟨hstarted, -⟩ := of_decide_eq_true hsame
    rcases List.mem_cons.1 hy with rfl | hy
    · rw [hready] at hstarted
      cases hstarted
    · exact hidle y hy hstarted
  simp [startOp, hstart, hop]

variable {d : Dev} {c : Compl}

/-- The ring with its oldest descriptor done. -/
def doneFront (d : Dev) (n r : Nat) (x : Desc) (rest : List Desc) (c : Compl) : Dev :=
  setRing d n r { ringOf d n r with inflight := { x with stage := .done c } :: rest }

/-- Of a ring with nothing done behind its oldest descriptor, that one alone is written out (R137). -/
theorem finish_front (hflight : (ringOf d n r).inflight = x :: rest)
    (hrest : ∀ y ∈ rest, y.idx ≠ x.idx ∧ ∀ c, y.stage ≠ .done c) : finish d n r x.idx c =
      writeCompl (doneFront d n r x rest c) n r { x with stage := .done c } c := by
  have hother : rest.map (fun y => if y.idx = x.idx then { x with stage := .done c } else y) = rest :=
    (List.map_congr_left fun y hy => if_neg (hrest y hy).1).trans (List.map_id' rest)
  have hset : setDesc d n r { x with stage := .done c } = doneFront d n r x rest c := by
    simp [setDesc, doneFront, hflight, hother]
  have hstop (u : Dev) : flushList u n r rest = u := by
    cases rest with
    | nil => rfl
    | cons y l =>
      unfold flushList
      split
      next c' hc => exact absurd hc ((hrest y List.mem_cons_self).2 c')
      next => rfl
  have hdesc : descOf d n r x.idx = some x := by simp [descOf, hflight]
  have hq : (ringOf (doneFront d n r x rest c) n r).inflight = { x with stage := .done c } :: rest := by simp [doneFront]
  simp only [finish, hdesc, hset, flushRing, hq, flushList, hstop]

/-- The ring after its oldest descriptor was written out. -/
def advanced (d : Dev) (n r : Nat) (rest : List Desc) : Ring :=
  let g := ringOf d n r
  { g with
    inflight := rest, cqTail := (g.cqTail + 1) % cqSize d n r, seq := (g.seq + 1) % 65536
    phase := if (g.cqTail + 1) % cqSize d n r = 0 then !g.phase else g.phase }

/-- A completion is written whole: words 1–7, then word 0, then the ring's vector if one is due (Table 4.9). -/
theorem writeCompl_front (hrest : ∀ y ∈ rest, y.idx ≠ x.idx) (hactive : (slipOf d n).state = .active)
    (hreset : (slipOf d n).reset = none) (hdesc : c.nodesc = false) :
    writeCompl (doneFront d n r x rest c) n r { x with stage := .done c } c =
      ringIrq (emit (emit (setRing (doneFront d n r x rest c) n r (advanced d n r rest))
        (.compl1 n r (cqBase d n r + 32 * (ringOf d n r).cqTail)
          [at_ (ringOf d n r).sqHead 16 ||| at_ (fld (dw x 0) 15 0) 0, w32 c.ts, w32 (c.ts >>> 32), c.c4, c.c5, c.c6, c.c7]))
        (.compl0 n r (cqBase d n r + 32 * (ringOf d n r).cqTail)
          (flag (ringOf d n r).phase 31 ||| at_ c.status 16 ||| at_ (ringOf d n r).seq 0))) n r := by
  have hfilter : rest.filter (·.idx != x.idx) = rest := by simpa using hrest
  have hmem : noMem (doneFront d n r x rest c) n = false := by
    have hslip : slipOf (doneFront d n r x rest c) n = slipOf d n := rfl
    simp [noMem, hslip, hreset, hactive]
  have hring : ringOf (doneFront d n r x rest c) n r =
      { ringOf d n r with inflight := { x with stage := .done c } :: rest } := by simp [doneFront]
  have hslip : slipOf (doneFront d n r x rest c) n = slipOf d n := rfl
  have hcq : cqBase (doneFront d n r x rest c) n r = cqBase d n r := rfl
  have hsize : cqSize (doneFront d n r x rest c) n r = cqSize d n r := rfl
  simp [writeCompl, hmem, hring, hslip, hreset, hdesc, hcq, hsize, hfilter, advanced, flag, dw]

/-- Finishing the oldest descriptor completes it; what follows may send messages and begin the ring's hold-off. -/
theorem finish_completed {t : State} (hslips : d.slips = s.dev.slips) (hregs : d.regs = s.dev.regs)
    (h : AtFront s n r x rest) (hdesc : c.nodesc = false) (hout : OnlyMessages (finish d n r x.idx c) t.dev)
    (hring : settled (ringOf t.dev n r) = settled (ringOf (finish d n r x.idx c) n r)) :
    Completed s t n r x rest d.out c := by
  obtain ⟨hflight, hrest, hactive, hreset⟩ := h
  have hr : ringOf d n r = ringOf s.dev n r := by simp only [ringOf, hslips]
  have hs : slipOf d n = slipOf s.dev n := by simp only [slipOf, hslips]
  have hcfg : ringCfg d n r = ringCfg s.dev n r := by simp only [ringCfg, rd, hregs]
  have hsize : cqSize d n r = cqSize s.dev n r := by simp only [cqSize, hcfg]
  have hbase : cqBase d n r = cqBase s.dev n r := by simp only [cqBase, rd64, rd, hregs]
  rw [finish_front (by rwa [hr]) hrest, writeCompl_front (fun y hy => (hrest y hy).1) (by rwa [hs]) (by rwa [hs]) hdesc]
    at hout hring
  obtain ⟨l, hl, hmessages⟩ := (ringIrq_onlyMessages ..).trans hout
  have ht : settled (ringOf t.dev n r) = settled (advanced d n r rest) := by
    rw [hring, ringIrq_ring]
    simp
  refine ⟨⟨l, ?_, hmessages⟩, ?_, ?_, ?_, ?_, ?_, ?_⟩
  · rw [hl, hr, hbase]; rfl
  · exact congrArg Ring.inflight ht
  · rw [← hr]; exact congrArg Ring.seq ht
  · rw [← hr, ← hsize]; exact congrArg Ring.cqTail ht
  · rw [← hr, ← hsize]; exact congrArg Ring.phase ht
  · rw [← hr]; exact (congrArg Ring.cqHead ht :)
  · rw [← hr]; exact (congrArg Ring.sqHead ht :)

end

end Sys2Proof.Proofs.Completion

/-! PROOFS. LLDP (R193, R224–R226): the agent's work at the Quaymaster, its neighbour table and its copies. -/

namespace Sys2Proof.Proofs.Lldp

open Sys2Proof Sys2Proof.Machine Sys2Proof.Laws Sys2Proof.Proofs.WorkQueue Sys2Proof.Proofs.LinksAndClears
open Sys2Proof.Proofs.SlipMessages Sys2Proof.Proofs.TunnelUnwrap Sys2Proof.Proofs.LldpCopies Sys2Proof.Proofs.Completion
open Sys2Proof.Proofs.NetworkStates Sys2Proof.Proofs.NetworkApart

/-! ## Work that waits (R29) -/

/-- Work for a Quaymaster that does not run is added to its queue. -/
theorem qmPost_waits {d : Dev} {cls : Nat} (hasleep : qmAwake d = false) (hshed : d.qm.shed = 0)
    (hroom : d.qm.queue.length < 1600) (hcls : cls < 5) (w : QmWork) (k : Dev → Dev) :
    qmPost d cls w k = qmPeak (withQueue d (d.qm.queue ++ [(cls, w)])) := by
  have henqueue : qmEnqueue d cls w = qmPeak (withQueue d (d.qm.queue ++ [(cls, w)])) := by
    rw [qmEnqueue_queued w (by omega), qmJudge_steady]
    simpa [hshed] using shedLevel_low (by omega)
  have hstill : qmAwake (qmPeak (withQueue d (d.qm.queue ++ [(cls, w)]))) = false := hasleep
  simp only [qmPost, henqueue, hstill, Bool.false_and, Bool.false_eq_true, if_false]

section
variable {d : Dev} {p : Nat}

/-! ## The agent's frames (R49, R224, R225, Table 7.6) -/

theorem lldpSend_live (hon : lldpOn d p = true) (hup : wireUp d p = true) (hpower : portPowered d p = true) :
    lldpSend d p = qmPost d 3 (.lldpTx p) (lldpServeTx · p) := by
  simp [lldpSend, hon, hup, hpower]

theorem lldpReceive_live (hon : lldpOn d p = true) (hup : wireUp d p = true) (hpower : portPowered d p = true)
    (pdu frame : List Byte) (ts : Nat) : lldpReceive d p pdu frame ts =
      qmPost (lldpCopy (inc d (aLldp p 1)) p frame ts) 3 (.lldpRx p pdu) (lldpServeRx · p pdu) := by
  simp [lldpReceive, hon, hup, hpower]

theorem lldpServeTx_plain (hon : lldpOn d p = true) (hup : wireUp d p = true) (hpower : portPowered d p = true)
    (hplain : macsecTx d p = false) :
    lldpServeTx d p = emit (inc d (aLldp p 0)) (.lldp p (lldpFrame d p) false) := by
  have hup' : wireUp (inc d (aLldp p 0)) p = true := hup
  have hplain' : macsecTx (inc d (aLldp p 0)) p = false := hplain
  have hplain'' : macsecTx (emit (inc d (aLldp p 0)) (.lldp p (lldpFrame d p) false)) p = false := hplain
  simp [lldpServeTx, hon, hup, hpower, sendAside, hup', hplain', pnJudge, hplain'']

theorem lldpFrame_head (d : Dev) (p : Nat) : (lldpFrame d p).take 6 = [0x01, 0x80, 0xC2, 0x00, 0x00, 0x0E] ∧
    ((lldpFrame d p).drop 12).take 2 = [0x88, 0xCC] := by
  have hmac : (beBytes Config.baseMac.toNat 6).length = 6 := length_beBytes ..
  simp only [lldpFrame, List.append_assoc]
  generalize beBytes Config.baseMac.toNat 6 = mac at hmac
  match mac, hmac with
  | [a, b, c, d, e, f], _ => exact ⟨rfl, rfl⟩

/-! ## The copies (R193, R225) -/

theorem lldpCopy_off (h : bit (rd d 0xE00014) 31 = false) (bytes : List Byte) (ts : Nat) : lldpCopy d p bytes ts = d := by
  simp [lldpCopy, h]

theorem lldpCopy_waits (h : bit (rd d 0xE00014) 31 = true) (htakes : hpTakes d (rd d 0xE00014) = true)
    (hroom : d.nws.copies.length < 32) (bytes : List Byte) (ts : Nat) :
    ∃ c, (lldpCopy d p bytes ts).nws.copies = d.nws.copies ++ [c] ∧ c.port = p ∧ c.bytes = bytes ∧ c.ts = ts := by
  simp [lldpCopy, h, htakes, not_le.2 hroom]

@[simp] theorem evLldp_copies (d : Dev) (b p : Nat) : (evLldp d b p).nws.copies = d.nws.copies := by simp
@[simp] theorem setNbr_copies (d : Dev) (p k : Nat) (x : Option Neighbour) : (setNbr d p k x).nws.copies = d.nws.copies :=
  rfl

theorem lldpServeRx_copies (d : Dev) (p : Nat) (pdu : List Byte) : (lldpServeRx d p pdu).nws.copies = d.nws.copies := by
  unfold lldpServeRx
  split
  · rfl
  · unfold lldpTable
    dsimp only
    split
    · simp [ite_copies, setNbr]
    · split
      · rfl
      · split <;> simp [setNbr]

/-- The oldest copy has left its place and is written into the buffer of `x`. -/
def copyWritten (d : Dev) (c : LldpCopy) (l : List LldpCopy) (sl : Nat) (x : Desc) : Dev :=
  emit { d with nws := { d.nws with copies := l } } (.dma sl (bufAddr x) (c.bytes.take (fld (dw x 4) 15 0)))

/-- The completion of the RX_BUF `x` that took the copy (Table 4.10). -/
def copyOutcome (c : LldpCopy) (x : Desc) : Compl :=
  { status := if fld (dw x 4) 15 0 < c.bytes.length then 0x0A else 0, ts := c.ts
    c4 := at_ c.bytes.length 16 ||| at_ c.port 8 ||| at_ c.cls 5, c5 := 0x00010000
    c6 := at_ 0x88CC 16 ||| at_ c.pcp 12 ||| at_ c.vid 0 }

theorem lldpDeliver_first {c : LldpCopy} {l : List LldpCopy} {sl r : Nat} {x : Desc} (hcopies : d.nws.copies = c :: l)
    (hsl : sl = fld (rd d 0xE00014) 11 0) (hr : r = fld (rd d 0xE00014) 18 16) (hstart : startOp d sl r 1 = some x) :
    lldpDeliver d =
      sendVec (finish (copyWritten d c l sl x) sl r x.idx (copyOutcome c x)) sl (fld (rd d 0xE00014) 26 24) := by
  simp only [lldpDeliver, hcopies, ← hsl, ← hr, hstart]
  rfl

/-! ## The neighbour table (R226) -/

@[simp] theorem cnt_withPeak (d : Dev) (k a : Nat) : cnt (withPeak d k) a = cnt d a := rfl

@[simp] theorem nbrOf_evLldp (d : Dev) (b q p k : Nat) : nbrOf (evLldp d b q) p k = nbrOf d p k := by simp [nbrOf]
@[simp] theorem nbrOf_inc (d : Dev) (a p k : Nat) : nbrOf (inc d a) p k = nbrOf d p k := rfl

theorem evLldp_bit (d : Dev) {b : Nat} (p : Nat) (h : b < 32) : bit (rd (evLldp d b p) 0xE00018) b = true :=
  setEv_bit _ _ _ _ _ _ _ h

theorem find_sameNbr_none {m : Neighbour} (h : ∀ k < 4, (nbrOf d p k).any (sameNbr m) = false) :
    ((List.range 4).find? fun k => (nbrOf d p k).any (sameNbr m)) = none := by
  simpa using h

/-- The neighbour as it is entered, with the end of its TTL. -/
def entered (d : Dev) (m : Neighbour) : Neighbour := { m with expires := d.wall + 1000000000 * m.ttl }

theorem lldpTable_enters {m : Neighbour} {k : Nat} (httl : m.ttl ≠ 0)
    (hnew : ∀ k < 4, (nbrOf d p k).any (sameNbr m) = false) (hk : k < 4) (hfree : nbrOf d p k = none)
    (hlow : ∀ j < k, nbrOf d p j ≠ none) :
    lldpTable d p m = evLldp (setNbr d p k (some (entered d m))) 0 p := by
  have hfind : ((List.range 4).find? fun k => (nbrOf d p k).isNone) = some k := by
    rw [List.find?_range_eq_some]
    exact ⟨by simp [hfree], List.mem_range.2 hk, fun j hj => by simpa [Option.isSome_iff_ne_none] using hlow j hj⟩
  simp only [lldpTable, find_sameNbr_none hnew, if_neg httl, hfind]
  rfl

theorem lldpTable_full {m : Neighbour} (httl : m.ttl ≠ 0) (hnew : ∀ k < 4, (nbrOf d p k).any (sameNbr m) = false)
    (hfull : ∀ k < 4, nbrOf d p k ≠ none) : lldpTable d p m = evLldp d 2 p := by
  have hfind : ((List.range 4).find? fun k => (nbrOf d p k).isNone) = none := by simpa using hfull
  simp only [lldpTable, find_sameNbr_none hnew, if_neg httl, hfind]

theorem aLldp_inj {p j k : Nat} : aLldp p j = aLldp p k ↔ j = k := by
  unfold aLldp
  omega

end

/-- A received LLDPDU is counted and served at once by a Quaymaster free for it. -/
theorem exec_lldpRx {s : State} {p : Fin 11} (hlive : LldpLive s.dev p) (hfree : QmFree s.dev 3)
    (hoff : bit (rd s.dev 0xE00014) 31 = false) (b : List Byte) (ts : Nat) : ∃ k, exec (.lldpRx p b ts) s =
      .next { s with dev := lldpServeRx (withPeak (inc s.dev (aLldp p 1)) k) p (b.drop 14) } := by
  obtain ⟨hon, hup, hpower⟩ := hlive
  obtain ⟨k, hk⟩ := qmPost_free (d := inc s.dev (aLldp p 1)) hfree (by decide) (.lldpRx p (b.drop 14))
    (lldpServeRx · p (b.drop 14))
  refine ⟨k, next_dev s ?_⟩
  dsimp only
  rw [lldpReceive_live hon hup hpower, lldpCopy_off (d := inc s.dev (aLldp p 1)) hoff, hk]

/-! ## The statement -/

/-- Settles O33. The agent's work is served at once or waits in the queue (`qmPost_free`, `qmPost_waits`); a copy outlives
whatever posting that work sheds (`qmPost_copies`), and leaves with the next RX_BUF of its ring (`finish_completed`). -/
theorem lldpNeighbours : Obligations.LldpNeighbours := by
  unfold Obligations.LldpNeighbours
  refine ⟨?off, ?queued, ?sent, ?received, ?copied, ?delivered, ?expired⟩
  case off =>
    intro s p b ts hoff
    have hdead : (lldpOn s.dev p && wireUp s.dev p && portPowered s.dev p) = false := by rcases hoff with h | h <;> simp [h]
    exact ⟨next_dev s (by simp only [lldpSend, hdead]; rfl), next_dev s (by simp only [lldpReceive, hdead]; rfl)⟩
  case queued =>
    intro s p b ts hlive hasleep hshed hroom hoff
    obtain ⟨hon, hup, hpower⟩ := hlive
    refine ⟨⟨_, next_dev s ((lldpSend_live hon hup hpower).trans
      (qmPost_waits hasleep hshed hroom (by decide) _ _)), rfl, rfl⟩, ?_⟩
    have hrun : lldpReceive s.dev p (b.drop 14) b ts = qmPeak (withQueue (inc s.dev (aLldp p 1))
        (s.dev.qm.queue ++ [(3, .lldpRx p (b.drop 14))])) := by
      rw [lldpReceive_live hon hup hpower, lldpCopy_off (d := inc s.dev (aLldp p 1)) hoff]
      exact qmPost_waits (d := inc s.dev (aLldp p 1)) hasleep hshed hroom (by decide) _ _
    have hcnt : cnt (inc s.dev (aLldp p 1)) (aLldp p 1) = cnt s.dev (aLldp p 1) + 1 := by simp
    exact ⟨_, next_dev s hrun, rfl, hcnt, rfl⟩
  case sent =>
    intro s p hlive hfree hplain
    obtain ⟨hon, hup, hpower⟩ := hlive
    obtain ⟨k, hk⟩ := qmPost_free hfree (by decide) (.lldpTx p) (lldpServeTx · p)
    have hrun : lldpSend s.dev p = emit (inc (withPeak s.dev k) (aLldp p 0)) (.lldp p (lldpFrame s.dev p) false) := by
      rw [lldpSend_live hon hup hpower, hk]
      exact lldpServeTx_plain (d := withPeak s.dev k) hon hup hpower hplain
    exact ⟨⟨_, next_dev s hrun, rfl, rfl⟩, lldpFrame_head ..⟩
  case received =>
    intro s p b ts hlive hfree hoff
    obtain ⟨k, hrun⟩ := exec_lldpRx hlive hfree hoff b ts
    refine ⟨fun hbad => ⟨_, hrun, ?_⟩,
      fun m hm httl hnew => ⟨fun i hi hnone hlow => ⟨_, hrun, ?_⟩, fun hfull => ⟨_, hrun, ?_⟩⟩⟩
    · simp only [lldpServeRx, hbad]
      exact ⟨by simp [aLldp_inj], by simp [aLldp_inj], rfl⟩
    · simp only [lldpServeRx, hm]
      rw [lldpTable_enters (d := withPeak (inc s.dev (aLldp p 1)) k) httl hnew hi hnone hlow]
      refine ⟨?_, fun j hj hne => ?_, evLldp_bit _ _ (by decide), ?_⟩
      · rw [nbrOf_evLldp, nbrOf_setNbr, if_pos rfl]
        rfl
      · rw [nbrOf_evLldp, nbrOf_setNbr, if_neg hne]
        rfl
      · simp
    · simp only [lldpServeRx, hm]
      rw [lldpTable_full (d := withPeak (inc s.dev (aLldp p 1)) k) httl hnew hfull]
      exact ⟨evLldp_nws .., evLldp_bit _ _ (by decide)⟩
  case copied =>
    intro s p b ts hlive hon' htakes hroom
    obtain ⟨hon, hup, hpower⟩ := hlive
    obtain ⟨c, hcopies, hc⟩ := lldpCopy_waits (d := inc s.dev (aLldp p 1)) (p := p) hon' htakes hroom b ts
    refine ⟨{ s with dev := lldpReceive s.dev p (b.drop 14) b ts }, c, rfl, ?_, hc⟩
    dsimp only
    rw [lldpReceive_live hon hup hpower, qmPost_copies _ _ _ fun d => lldpServeRx_copies d p _, hcopies]
    rfl
  case delivered =>
    intro s c l sl r x rest hcopies hsl hr hfront hop
    have hrun := lldpDeliver_first hcopies hsl hr (startOp_front hfront hop)
    refine ⟨{ s with dev := lldpDeliver s.dev }, rfl, ?_, ?_⟩
    · dsimp only
      rw [hrun, sendVec_nws, (finish_apart ..).nws]
      rfl
    · refine finish_completed (d := copyWritten s.dev c l sl x) (c := copyOutcome c x) rfl rfl hfront.1 rfl ?_ ?_
      · dsimp only
        rw [hrun]
        exact sendVec_onlyMessages ..
      · dsimp only
        rw [hrun, ringOf_sendVec]
  case expired =>
    intro s p k m hm
    refine ⟨fun hend => ⟨{ s with dev := lldpExpire s.dev p k }, rfl, ?_⟩, fun hend => next_dev s ?_⟩
    · have hrun : lldpExpire s.dev p k = evLldp (setNbr s.dev p k none) 1 p := by simp [lldpExpire, hm, hend]
      simp only [hrun, nbrOf_evLldp]
      exact ⟨(nbrOf_setNbr ..).trans (if_pos rfl), fun j _ hne => (nbrOf_setNbr ..).trans (if_neg hne),
        evLldp_bit _ _ (by decide)⟩
    · simp [lldpExpire, hm, not_le.2 hend]

end Sys2Proof.Proofs.Lldp

/-! PROOFS. The partner table of Hail (R221–R223): one rule per operation on its entries, and the entries a call misses. -/

namespace Sys2Proof.Proofs.HailPartners

open Sys2Proof Sys2Proof.Machine Sys2Proof.Laws Sys2Proof.Proofs.SlipMessages Sys2Proof.Proofs.TunnelEngine
open Sys2Proof.Proofs.NetworkSleep

section
variable (d : Dev) (n m : Nat)

/-! ## What writes an entry, and what leaves it -/

@[simp] theorem partOf_setPart (x : Partner) (k : Nat) : partOf (setPart d n m x) n k =
    if k = m then x else partOf d n k := by
  simp [partOf, setPart]

@[simp] theorem partOf_putPart (x : Partner) (k : Nat) : partOf (putPart d n m x) n k =
    if k = m then x else partOf d n k := by
  rw [← partOf_setPart]
  simp only [partOf, putPart, mirrorNote_nws]

@[simp] theorem partOf_evNws (b k : Nat) : partOf (evNws d n b) n k = partOf d n k := by simp [partOf]
@[simp] theorem partOf_hailEnd (st k : Nat) : partOf (hailEnd d n st) n k = partOf d n k := rfl
@[simp] theorem partOf_setNet (x : Net) (k : Nat) : partOf (setNet d n x) n k = partOf d n k := rfl
@[simp] theorem partOf_hailTaken (k : Nat) : partOf (hailTaken d n) n k = partOf d n k := rfl

@[simp] theorem netOf_hailEnd (st k : Nat) : netOf (hailEnd d n st) k = netOf d k := rfl
@[simp] theorem netOf_putPart (x : Partner) (k : Nat) : netOf (putPart d n m x) k = netOf d k := by
  simp [netOf, putPart, setPart]
@[simp] theorem canOf_putPart (x : Partner) (k : Nat) : canOf (putPart d n m x) k = canOf d k := by
  simp [canOf, putPart, setPart]
@[simp] theorem rd_putPart (x : Partner) (a : Nat) : rd (putPart d n m x) a = rd d a := by simp [putPart]

@[simp] theorem partOf_partLose (k : Nat) : partOf (partLose d n m) n k =
    if k = m then { partOf d n m with state := .lost, tries := 0 } else partOf d n k := by
  simp [partLose]

/-- An entry that is mirrored does not change whom the device is bound to. -/
@[simp] theorem putPart_bound (x : Partner) : (putPart d n m x).pair.bound = d.pair.bound := by
  simp only [putPart, mirrorNote, mirrorSend]
  split <;> simp

/-! ## The table as it is used (R223) -/

variable {d n m}

theorem partView_congr {t : Dev} (hcfg : netCfg t n = netCfg d n) (hbound : t.pair.bound = d.pair.bound)
    (hpart : partOf t n m = partOf d n m) : partView t n m = partView d n m := by
  simp only [partView, hcfg, hbound, hpart]

@[simp] theorem partView_putPart_other {k : Nat} (x : Partner) (h : k ≠ m) :
    partView (putPart d n m x) n k = partView d n k :=
  partView_congr (rd_putPart ..) (putPart_bound ..) (by simp [h])

theorem partView_cases (d : Dev) (n m : Nat) : partView d n m = partOf d n m ∨ (partView d n m).state = .own ∨
    (partView d n m).state = .peer := by
  unfold partView
  split_ifs
  · exact .inr (.inl rfl)
  · exact .inl rfl
  · exact .inr (.inr rfl)
  · exact .inl rfl
  · exact .inl rfl

/-- What is neither OWN nor PEER is the entry itself. -/
theorem partView_entry (hown : (partView d n m).state ≠ .own) (hpeer : (partView d n m).state ≠ .peer) :
    partView d n m = partOf d n m := by
  simpa [hown, hpeer] using partView_cases d n m

theorem partFind_some {uid k : Nat} {ok : PartState → Bool} (h : partFind d n uid ok = some k) :
    k < 64 ∧ ok (partView d n k).state = true ∧ (partView d n k).uid = uid := by
  have hfound := List.find?_some h
  have hmem := List.mem_of_find?_eq_some h
  simp only [Bool.and_eq_true, beq_iff_eq] at hfound
  exact ⟨List.mem_range.1 hmem, hfound.1, hfound.2⟩

/-- A number announced that is FREE is the one given (R221). -/
theorem partChoose_held {k : Nat} (hk : k < 64) (hfree : (partView d n k).state = .free) : partChoose d n k = some k := by
  simp [partChoose, partFree, hk, hfree]

/-! ## Frames to partners (Table 7.5) -/

theorem hailMsg_congr {t : Dev} (h : rd t (netBase n + 0x60) = rd d (netBase n + 0x60)) (type uid b0 b1 b2 b3 : Nat) :
    hailMsg t n type uid b0 b1 b2 b3 = hailMsg d n type uid b0 b1 b2 b3 := by
  simp only [hailMsg, h]

@[simp] theorem canSend_putPart (x : Partner) : canSend (putPart d n m x) n = canSend d n := by
  have hup : coreUp (putPart d n m x) 4 = coreUp d 4 := by simp [coreUp, domUp, putPart]
  simp only [canSend, canOf_putPart, netOf_putPart, hup]

@[simp] theorem canSend_hailTaken : canSend (hailTaken d n) n = canSend d n := by
  have hnet : (netOf (hailTaken d n) n).frozen = (netOf d n).frozen := by simp [hailTaken]
  simp only [canSend, hnet]
  rfl

@[simp] theorem partOf_sendAssign (uid k : Nat) : partOf (sendAssign d n uid m) n k = partOf d n k := by
  unfold sendAssign
  split <;> rfl

theorem sendAssign_sent (h : canSend d n = true) (uid : Nat) : sendAssign d n uid m =
    emit d (.hail n (hailMsg d n 2 uid (netOf d n).session.toNat m 0 0)) := if_pos h

/-- ASSIGN of an entry just written names the session of the last call (R221). -/
theorem sendAssign_putPart (h : canSend d n = true) (x : Partner) (uid : Nat) : sendAssign (putPart d n m x) n uid m =
    emit (putPart d n m x) (.hail n (hailMsg d n 2 uid (netOf d n).session.toNat m 0 0)) := by
  rw [sendAssign_sent (by simpa using h), netOf_putPart, hailMsg_congr (rd_putPart ..)]

theorem newcomer_assigned (h : canSend d n = true) (x : Partner) (uid : Nat) :
    Out.hail n (hailMsg d n 2 uid (netOf d n).session.toNat m 0 0) ∈
      (sendAssign (putPart (hailTaken d n) n m x) n uid m).out := by
  have hsession : (netOf (hailTaken d n) n).session = (netOf d n).session := by simp [hailTaken]
  rw [sendAssign_putPart (canSend_hailTaken.trans h), hsession]
  exact List.mem_cons_self

/-! ## Announcements, leaving, lost ASSIGNs (R221, R222) -/

/-- An ANNOUNCE that the caller heeds. -/
def Heeded (d : Dev) (n : Nat) (ss : BitVec 8) (confirm : Bool) : Prop :=
  confirm = true ∨ ((netOf d n).callOpen = true ∧ (netOf d n).callDue = false ∧ ss = (netOf d n).session)

/-- The states in which a UID is known. -/
abbrev isKnown (st : PartState) : Bool := st == .present || st == .assigning || st == .lost

theorem heeded_taken {ss : BitVec 8} {confirm : Bool} (h : Heeded d n ss confirm) :
    (confirm || ((netOf (hailTaken d n) n).callOpen && !(netOf (hailTaken d n) n).callDue &&
      ss == (netOf (hailTaken d n) n).session)) = true := by
  have hnet : netOf (hailTaken d n) n = { netOf d n with hailHeld := (netOf d n).hailHeld - 1 } := by simp [hailTaken]
  rcases h with h | ⟨hopen, hdue, hsession⟩
  · simp [h]
  · simp [hnet, hopen, hdue, hsession]

theorem announce_known {uid k : Nat} {ss held kind : BitVec 8} {confirm : Bool} (ts : Nat) (hcaller : hailCaller d n = true)
    (hheeded : Heeded d n ss confirm) (hheld : held.toNat = k) (hfind : partFind d n uid isKnown = some k) :
    announce d n uid ss held kind confirm ts = putPart (hailTaken d n) n k { partOf d n k with
      kind := kind.toNat, session := ss.toNat, seen := ts, answered := true, state := .present, misses := 0, tries := 0,
      first := if (partOf d n k).state = .assigning then ts else (partOf d n k).first } := by
  have hcaller' : hailCaller (hailTaken d n) n = true := hcaller
  have hfind' : partFind (hailTaken d n) n uid isKnown = some k := hfind
  simp only [announce, hcaller', heeded_taken hheeded, hfind', announceKnown, if_pos hheld]
  rfl

/-- The entry of a new UID: its first ASSIGN is on its way. -/
def assigned (uid ts : Nat) (ss kind : BitVec 8) : Partner :=
  { state := .assigning, uid := uid, kind := kind.toNat, session := ss.toNat, seen := ts, answered := true, tries := 1 }

theorem announce_new {uid k : Nat} {ss held kind : BitVec 8} {confirm : Bool} (ts : Nat) (hcaller : hailCaller d n = true)
    (hheeded : Heeded d n ss confirm) (hheld : held.toNat = k) (hk : k < 64) (hfind : partFind d n uid isKnown = none)
    (hfree : (partView d n k).state = .free) : announce d n uid ss held kind confirm ts =
      evNws (sendAssign (putPart (hailTaken d n) n k (assigned uid ts ss kind)) n uid k) n 2 := by
  have hcaller' : hailCaller (hailTaken d n) n = true := hcaller
  have hfind' : partFind (hailTaken d n) n uid isKnown = none := hfind
  have hchoose : partChoose (hailTaken d n) n held.toNat = some k := by rw [hheld]; exact partChoose_held hk hfree
  simp only [announce, hcaller', heeded_taken hheeded, hfind', hchoose]
  rfl

theorem leave_loses {uid k : Nat} (hcaller : hailCaller d n = true)
    (hfind : partFind d n uid (fun st => st == .present || st == .assigning) = some k) :
    leave d n uid = partLose (hailTaken d n) n k := by
  have hcaller' : hailCaller (hailTaken d n) n = true := hcaller
  have hfind' : partFind (hailTaken d n) n uid (fun st => st == .present || st == .assigning) = some k := hfind
  simp only [leave, hcaller', hfind']
  rfl

/-- The UID that leaves is that of the entry itself. -/
theorem leave_uid {uid k : Nat} (hfind : partFind d n uid (fun st => st == .present || st == .assigning) = some k) :
    (partOf d n k).uid = uid := by
  obtain ⟨-, hstate, huid⟩ := partFind_some hfind
  rwa [partView_entry (by rintro h; simp [h] at hstate) (by rintro h; simp [h] at hstate)] at huid

theorem assignTimeout_again (hstate : (partView d n m).state = .assigning) (hcaller : hailCaller d n = true)
    (hsend : canSend d n = true) (htries : (partOf d n m).tries < 3) : assignTimeout d n m =
      emit (putPart d n m { partOf d n m with tries := (partOf d n m).tries + 1 })
        (.hail n (hailMsg d n 2 (partOf d n m).uid (netOf d n).session.toNat m 0 0)) := by
  have hentry : partView d n m = partOf d n m := partView_entry (by simp [hstate]) (by simp [hstate])
  rw [hentry] at hstate
  rw [← sendAssign_putPart hsend]
  simp [assignTimeout, hentry, hstate, hcaller, hsend, not_le.2 htries]

theorem assignTimeout_conflict (hstate : (partView d n m).state = .assigning) (hcaller : hailCaller d n = true)
    (htries : 3 ≤ (partOf d n m).tries) : assignTimeout d n m = evNws (putPart d n m {}) n 4 := by
  have hentry : partView d n m = partOf d n m := partView_entry (by simp [hstate]) (by simp [hstate])
  rw [hentry] at hstate
  simp [assignTimeout, hentry, hstate, hcaller, htries]

/-! ## The entries a call misses (R222) -/

/-- The entry is PRESENT and has not answered. -/
def missing (d : Dev) (n m : Nat) : Bool := decide ((partView d n m).state = .present) && !(partView d n m).answered

theorem missing_iff : missing d n m = true ↔ (partView d n m).state = .present ∧ (partView d n m).answered = false := by
  simp [missing]

theorem missing_entry (h : missing d n m = true) : partView d n m = partOf d n m := by
  obtain ⟨hstate, -⟩ := missing_iff.1 h
  exact partView_entry (by simp [hstate]) (by simp [hstate])

/-- The number of missed calls that makes an entry LOST (NWS_HAIL_CFG). -/
def missLimit (d : Dev) (n : Nat) : Nat := atLeast1 (fld (rd d (netBase n + 0x60)) 15 12)

/-- A PRESENT entry after one more missed call. -/
def missed (limit : Nat) (e : Partner) : Partner :=
  if limit ≤ e.misses + 1 then { e with misses := min 15 (e.misses + 1), state := .lost, tries := 0 }
  else { e with misses := min 15 (e.misses + 1) }

/-- One entry as the close of a call with ALL = 1 leaves it. -/
def missOne (limit n : Nat) (d : Dev) (m : Nat) : Dev :=
  let e := partView d n m
  if e.state = .present ∧ ¬ e.answered then
    let d1 := putPart d n m { e with misses := min 15 (e.misses + 1) }
    if limit ≤ e.misses + 1 then partLose d1 n m else d1
  else d

theorem missOne_waits {limit : Nat} (h : missing d n m = false) : missOne limit n d m = d := by
  have hcond : ¬ ((partView d n m).state = .present ∧ ¬ (partView d n m).answered = true) := by simpa [missing] using h
  simp only [missOne, if_neg hcond]

theorem missOne_misses {limit : Nat} (h : missing d n m = true) : missOne limit n d m =
    if limit ≤ (partOf d n m).misses + 1 then
      partLose (putPart d n m { partOf d n m with misses := min 15 ((partOf d n m).misses + 1) }) n m
    else putPart d n m { partOf d n m with misses := min 15 ((partOf d n m).misses + 1) } := by
  obtain ⟨hstate, hanswered⟩ := missing_iff.1 h
  have hentry := missing_entry h
  rw [hentry] at hstate hanswered
  simp [missOne, hentry, hstate, hanswered]

theorem partOf_missOne (limit k : Nat) : partOf (missOne limit n d m) n k =
    if k = m ∧ missing d n m = true then missed limit (partOf d n m) else partOf d n k := by
  cases h : missing d n m with
  | false => simp [missOne_waits h]
  | true =>
    rw [missOne_misses h]
    unfold missed
    by_cases hk : k = m <;> split <;> simp [hk]

/-- One entry's miss does not touch how another is judged. -/
theorem missing_missOne {limit k : Nat} (h : k ≠ m) : missing (missOne limit n d m) n k = missing d n k := by
  have hcfg (d : Dev) : netCfg (partLose d n m) n = netCfg d n := by simp [netCfg, partLose]
  have hbound (d : Dev) : (partLose d n m).pair.bound = d.pair.bound := by simp [partLose]
  have hview : partView (missOne limit n d m) n k = partView d n k := by
    unfold missOne
    dsimp only
    split
    · split
      · rw [partView_congr (hcfg _) (hbound _) (by simp [h]), partView_putPart_other _ h]
      · exact partView_putPart_other _ h
    · rfl
  simp only [missing, hview]

theorem partOf_foldl_missOne (limit k : Nat) {l : List Nat} (hl : l.Nodup) (d : Dev) :
    partOf (l.foldl (missOne limit n) d) n k =
      if k ∈ l ∧ missing d n k = true then missed limit (partOf d n k) else partOf d n k := by
  induction l generalizing d with
  | nil => simp
  | cons m l ih =>
    obtain ⟨hm, hl⟩ := List.nodup_cons.1 hl
    rw [List.foldl_cons, ih hl, partOf_missOne]
    by_cases hk : k = m
    · subst hk
      simp [hm]
    · simp [hk, missing_missOne hk]

/-- The device after a call's close has judged every entry, if it asked all. -/
def judged (d : Dev) (n : Nat) : Dev :=
  if (netOf d n).callAll then (List.range 64).foldl (missOne (missLimit d n) n) d else d

theorem windowClose_open (hopen : (netOf d n).callOpen = true) (hdue : (netOf d n).callDue = false) :
    windowClose d n = (let d2 := setNet (judged d n) n { netOf (judged d n) n with callOpen := false, callCmd := false }
      if (netOf d n).callCmd then hailEnd d2 n 0 else d2) := by
  simp only [windowClose, hopen, hdue]
  rfl

theorem windowClose_closes (hopen : (netOf d n).callOpen = true) (hdue : (netOf d n).callDue = false) :
    (netOf (windowClose d n) n).callOpen = false := by
  rw [windowClose_open hopen hdue]
  dsimp only
  split <;> simp

theorem partOf_windowClose (hopen : (netOf d n).callOpen = true) (hdue : (netOf d n).callDue = false) (hm : m < 64) :
    partOf (windowClose d n) n m = if (netOf d n).callAll = true ∧ missing d n m = true then
      missed (missLimit d n) (partOf d n m) else partOf d n m := by
  have hjudged : partOf (windowClose d n) n m = partOf (judged d n) n m := by
    rw [windowClose_open hopen hdue]
    dsimp only
    split <;> simp
  rw [hjudged, judged]
  cases (netOf d n).callAll with
  | false => simp
  | true => simp [partOf_foldl_missOne _ _ List.nodup_range, hm]

theorem missed_reached {limit : Nat} {e : Partner} (h : limit ≤ e.misses + 1) :
    (missed limit e).state = .lost ∧ (missed limit e).uid = e.uid := by
  rw [missed, if_pos h]
  exact ⟨rfl, rfl⟩

/-- A count below the limit is far from where it would stop (four bits). -/
theorem missed_below {e : Partner} (h : e.misses + 1 < missLimit d n) :
    missed (missLimit d n) e = { e with misses := e.misses + 1 } := by
  have hfld := fld_lt (rd d (netBase n + 0x60)) 15 12
  have hlimit : missLimit d n ≤ 15 := by unfold missLimit atLeast1; split <;> omega
  have hmin : min 15 (e.misses + 1) = e.misses + 1 := by omega
  rw [missed, if_neg (by omega), hmin]

end

end Sys2Proof.Proofs.HailPartners

/-! PROOFS. Hail (R218–R223, R355): its work at the Quaymaster, calls and their commands, and the frames sent. -/

namespace Sys2Proof.Proofs.Hail

open Sys2Proof Sys2Proof.Machine Sys2Proof.Laws Sys2Proof.Proofs.CanChannels Sys2Proof.Proofs.CanStates
open Sys2Proof.Proofs.SlipMessages Sys2Proof.Proofs.TunnelEngine Sys2Proof.Proofs.TunnelUnwrap Sys2Proof.Proofs.WorkQueue
open Sys2Proof.Proofs.LinksAndClears Sys2Proof.Proofs.GatesAndTime Sys2Proof.Proofs.NetworkSleep
open Sys2Proof.Proofs.NetworkApart Sys2Proof.Proofs.NetworkStates Sys2Proof.Proofs.FreedCells Sys2Proof.Proofs.Lldp Sys2Proof.Proofs.HailPartners

section
variable {d : Dev} {n : Nat}

/-! ## Hail's work at the Quaymaster (R29, R355) -/

theorem hailPost_free (hfree : QmFree d 3) (w : HailWork) : ∃ p, hailPost d w = hailServe (withPeak d p) w :=
  qmPost_free hfree (by decide) (.hail w) (hailServe · w)

theorem hailHeard_free (howned : sOwned d n = false) (hfree : QmFree d 3) (w : HailWork) :
    ∃ p, hailHeard d n w = hailServe (withPeak d p) w := by
  simpa [hailHeard, howned] using hailPost_free hfree w

/-- The device as a command of NWS_HAIL_CMD that runs at once finds it. -/
def ordered (d : Dev) (n p : Nat) : Dev := withPeak (resultBegin (bridged d (netBase n + 0x64)) (netBase n + 0x68)) p

theorem bridged_eq (d : Dev) (a : Nat) : bridged d a = { d with brg := (bridged d a).brg } := rfl
theorem resultBegin_eq (d : Dev) (a : Nat) : resultBegin d a = { d with regs := (resultBegin d a).regs } := rfl
theorem hailEnd_eq (d : Dev) (n st : Nat) : hailEnd d n st = { d with regs := (hailEnd d n st).regs } := rfl

theorem ordered_eq (d : Dev) (n p : Nat) : ordered d n p = { d with
    regs := (resultBegin (bridged d (netBase n + 0x64)) (netBase n + 0x68)).regs, qm := { d.qm with peakRun := p }
    brg := (bridged d (netBase n + 0x64)).brg } := by
  rw [ordered, resultBegin_eq, withPeak, bridged_eq]

@[simp] theorem ordered_nws (d : Dev) (n p : Nat) : (ordered d n p).nws = d.nws := by rw [ordered_eq]
@[simp] theorem ordered_can (d : Dev) (n p : Nat) : (ordered d n p).can = d.can := by rw [ordered_eq]
@[simp] theorem ordered_rst (d : Dev) (n p : Nat) : (ordered d n p).rst = d.rst := by rw [ordered_eq]
@[simp] theorem ordered_pair (d : Dev) (n p : Nat) : (ordered d n p).pair = d.pair := by rw [ordered_eq]
@[simp] theorem netOf_ordered (d : Dev) (n p k : Nat) : netOf (ordered d n p) k = netOf d k := by simp [netOf]
@[simp] theorem partOf_ordered (d : Dev) (n p m : Nat) : partOf (ordered d n p) n m = partOf d n m := by simp [partOf]

@[simp] theorem canSend_ordered (d : Dev) (n p : Nat) : canSend (ordered d n p) n = canSend d n := by
  have hcan : canOf (ordered d n p) n = canOf d n := by simp [canOf]
  have hup : coreUp (ordered d n p) 4 = coreUp d 4 := by simp [coreUp, domUp]
  simp only [canSend, hcan, netOf_ordered, hup]

theorem ordered_regs (d : Dev) (n p : Nat) : (ordered d n p).regs = (resultBegin d (netBase n + 0x68)).regs := rfl

theorem rd_ordered {a : Nat} (p : Nat) (h : a ≠ netBase n + 0x68) : rd (ordered d n p) a = rd d a := by
  have hbegin : rd (ordered d n p) a = rd (resultBegin d (netBase n + 0x68)) a := by simp only [rd, ordered_regs]
  rw [hbegin, resultBegin, rd_wr, if_neg h]

@[simp] theorem ordered_caller (d : Dev) (n p : Nat) : hailCaller (ordered d n p) n = hailCaller d n := by
  have hcfg : netCfg (ordered d n p) n = netCfg d n := rd_ordered p (by omega)
  have hrole : pairRole (ordered d n p) = pairRole d := by rw [pairRole, ordered_pair, pairRole]
  simp only [hailCaller, hcfg, hrole]

@[simp] theorem partView_ordered (d : Dev) (n p m : Nat) : partView (ordered d n p) n m = partView d n m :=
  partView_congr (rd_ordered p (by omega)) (by rw [ordered_pair]) (partOf_ordered ..)

theorem ordered_result (d : Dev) (n p : Nat) : resultValid (ordered d n p) (netBase n + 0x68) = false := by
  rw [← rd_resultBegin_valid (d := d) (netBase n + 0x68)]
  simp only [resultValid, rd, ordered_regs]

theorem begun_free (a b : Nat) (h : QmFree d 3) : QmFree (resultBegin (bridged d a) b) 3 := by
  rw [resultBegin_eq, bridged_eq]
  exact h

/-- A command of NWS_HAIL_CMD that the Quaymaster takes at once. -/
theorem exec_hailRow {c : Instr} {s : State} {n : Fin 16} {v : Word} {w : HailWork} (hfree : QmFree s.dev 3)
    (hready : RowReady s.dev (netBase n + 0x64)) (hvalid : resultValid s.dev (netBase n + 0x68) = true)
    (h : exec c s = .next { s with dev := rowWrite s.dev (netBase n + 0x64) v (hailOrder · n w) }) :
    ∃ p, exec c s = .next { s with dev := hailServe (ordered s.dev n p) w } := by
  obtain ⟨p, hp⟩ := hailPost_free (begun_free (netBase n + 0x64) (netBase n + 0x68) hfree) w
  have horder : hailOrder (bridged s.dev (netBase n + 0x64)) n w = hailServe (ordered s.dev n p) w := by
    rw [hailOrder, resultValid_bridged, if_pos hvalid, hp, ordered]
  exact ⟨p, (exec_row hready (netBase_lt n (by decide)) h).trans (next_dev s horder)⟩

theorem hailEnd_status (d : Dev) (n : Nat) {st : Nat} (h : st < 8) :
    fld (rd (hailEnd d n st) (netBase n + 0x68)) 30 28 = st := by
  simp only [hailEnd, resultEnd, rd_wr, if_pos]
  exact fld_status h _

theorem hailEnd_valid (d : Dev) (n st : Nat) : resultValid (hailEnd d n st) (netBase n + 0x68) = true :=
  rd_resultEnd_valid ..

/-- A command that only ends touches its outcome, beside the bridge and the Quaymaster. -/
theorem hailEnd_ordered (s : State) (n p st : Nat) : ({ s with dev := hailEnd (ordered s.dev n p) n st } : State) =
    { s with dev := { s.dev with regs := (hailEnd (ordered s.dev n p) n st).regs, qm := (ordered s.dev n p).qm
                                 brg := (ordered s.dev n p).brg } } := by
  rw [ordered_eq, hailEnd_eq]

/-! ## A call is sent (R219, Table 7.5) -/

/-- No entry has answered the call that opens. -/
def unanswered (d : Dev) (n : Nat) : Dev :=
  (List.range 64).foldl (fun d m =>
    if (partOf d n m).answered then setPart d n m { partOf d n m with answered := false } else d) d

theorem unanswered_regs (d : Dev) (n : Nat) : (unanswered d n).regs = d.regs :=
  rel_foldl (R := fun d t : Dev => t.regs = d.regs) (fun _ => rfl) (fun h g => g.trans h)
    (fun _ _ => by dsimp only; split <;> rfl) ..

/-- The CALL of the session after the last, to all or to those who hold no number. -/
def callMsg (d : Dev) (n : Nat) (all : Bool) : CanMsg :=
  hailMsg d n 0 ownUid ((netOf d n).session + 1).toNat (hailWindow d n) 0 (if all then 1 else 0)

theorem openCall_eq (d : Dev) (n : Nat) : openCall d n =
    emit (setNet (unanswered d n) n
        { netOf d n with session := (netOf d n).session + 1, callOpen := true, callDue := false })
      (.hail n (callMsg d n (netOf d n).callAll)) := by
  have hmsg (x : Net) (type uid b0 b1 b2 b3 : Nat) :
      hailMsg (setNet (unanswered d n) n x) n type uid b0 b1 b2 b3 = hailMsg d n type uid b0 b1 b2 b3 :=
    hailMsg_congr (by simp only [rd, setNet, unanswered_regs]) ..
  unfold openCall callMsg
  extract_lets x d1 d2
  exact congrArg (fun c => emit d2 (.hail n c)) (hmsg ..)

/-- From `d` to `t` the CALL has been sent and its window is open; a command's outcome is as it was. -/
structure Called (n : Nat) (all : Bool) (d t : Dev) : Prop where
  session : (netOf t n).session = (netOf d n).session + 1
  callOpen : (netOf t n).callOpen = true
  result : resultValid t (netBase n + 0x68) = resultValid d (netBase n + 0x68)
  sent : Out.hail n (callMsg d n all) ∈ t.out

theorem openCall_called (d : Dev) (n : Nat) : Called n (netOf d n).callAll d (openCall d n) := by
  rw [openCall_eq]
  exact ⟨by simp, by simp, by simp [resultValid, rd, unanswered_regs], List.mem_cons_self⟩

/-- All that local need can do when it arises (R208). -/
theorem needArises_cases (d : Dev) (n : Nat) : needArises d n = d ∨ needArises d n = kaDue d n ∨
    needArises d n = kaDue (netStart d n) n ∨ needArises d n = netWake d n .localNeed 0 := by
  unfold needArises
  split
  · split
    · exact .inr (.inl rfl)
    · exact .inl rfl
  · split
    · exact .inr (.inl rfl)
    · exact .inr (.inr (.inl rfl))
    · exact .inr (.inr (.inr rfl))

/-- A wake writes its cause beside the call. -/
theorem netWake_call (d : Dev) (n : Nat) (c : WakeCause) (node : Nat) : netWake d n c node = d ∨
    ∃ x, netWake d n c node = setNet d n x ∧ x.session = (netOf d n).session ∧ x.callOpen = (netOf d n).callOpen := by
  unfold netWake
  dsimp only
  split
  · exact .inl rfl
  · refine .inr ⟨_, rfl, ?_⟩
    split <;> exact ⟨rfl, rfl⟩

/-- Local need that arises leaves an open call and a command's outcome as they are. -/
theorem needArises_call (d : Dev) (n : Nat) : (netOf (needArises d n) n).session = (netOf d n).session ∧
    (netOf (needArises d n) n).callOpen = (netOf d n).callOpen ∧
    resultValid (needArises d n) (netBase n + 0x68) = resultValid d (netBase n + 0x68) := by
  have hka (d : Dev) : (netOf (kaDue d n) n).session = (netOf d n).session ∧
      (netOf (kaDue d n) n).callOpen = (netOf d n).callOpen ∧
      resultValid (kaDue d n) (netBase n + 0x68) = resultValid d (netBase n + 0x68) := by
    obtain ⟨b, h⟩ := netOf_kaDue d n
    simp [h, resultValid]
  rcases needArises_cases d n with h | h | h | h
  · rw [h]
    exact ⟨rfl, rfl, rfl⟩
  · rw [h]
    exact hka d
  · obtain ⟨hsession, hopen, hresult⟩ := hka (netStart d n)
    rw [netOf_netStart] at hsession hopen
    have hstart : resultValid (netStart d n) (netBase n + 0x68) = resultValid d (netBase n + 0x68) := by
      rw [resultValid, rd_netStart d (by omega), resultValid]
    rw [h]
    exact ⟨hsession, hopen, hresult.trans hstart⟩
  · rw [h]
    rcases netWake_call d n .localNeed 0 with h | ⟨x, h, hsession, hopen⟩
    · rw [h]
      exact ⟨rfl, rfl, rfl⟩
    · rw [h]
      exact ⟨by simpa using hsession, by simpa using hopen, rfl⟩

theorem Called.needArises {all : Bool} {t : Dev} (h : Called n all d t) : Called n all d (needArises t n) := by
  obtain ⟨hsession, hopen, hresult⟩ := needArises_call t n
  exact ⟨hsession.trans h.session, hopen.trans h.callOpen, hresult.trans h.result, (needArises_beside t n).out.subset h.sent⟩

theorem Called.needAfter {all : Bool} {t : Dev} (h : Called n all d t) : Called n all d (needAfter d t n) := by
  unfold Machine.needAfter
  split
  · exact h.needArises
  · exact h

/-- A caller whose channel can send opens its call at once. -/
theorem callGo_calls (hdue : (netOf d n).callDue = true) (hcaller : hailCaller d n = true) (hsend : canSend d n = true)
    (hstate : (netOf d n).state ≠ .asleep) : Called n (netOf d n).callAll d (callGo d n) := by
  have hrun : callGo d n = needAfter d (openCall d n) n := by simp [callGo, hdue, hcaller, hsend, hstate]
  rw [hrun]
  exact (openCall_called d n).needAfter

/-- A call that falls due, to `all` or not, of a command or not. -/
def due (d : Dev) (n : Nat) (all cmd : Bool) : Dev :=
  setNet d n { netOf d n with callAll := all, callCmd := cmd, callDue := true }

theorem netOf_due (d : Dev) (n : Nat) (all cmd : Bool) :
    netOf (due d n all cmd) n = { netOf d n with callAll := all, callCmd := cmd, callDue := true } := by simp [due]

theorem callDue_calls (hcaller : hailCaller d n = true) (hsend : canSend d n = true) (hopen : (netOf d n).callOpen = false)
    (hdue : (netOf d n).callDue = false) (hstate : (netOf d n).state ≠ .asleep) (all cmd : Bool) :
    Called n all d (callDue d n all cmd) := by
  have hrun : callDue d n all cmd = callGo (due d n all cmd) n := by
    simp [callDue, due, windowClose, hopen, hdue, hstate]
  have hnet := netOf_due d n all cmd
  have hsend' : canSend (due d n all cmd) n = true := by
    rw [← hsend]
    simp only [canSend, hnet]
    rfl
  have hmsg : callMsg (due d n all cmd) n all = callMsg d n all := by
    simp only [callMsg, hnet]
    rfl
  obtain ⟨hsession, hcallOpen, hresult, hsent⟩ := callGo_calls (d := due d n all cmd) (by rw [hnet]) hcaller hsend'
    (by rwa [hnet])
  rw [hrun]
  simp only [hnet, hmsg] at hsession hsent
  exact ⟨hsession, hcallOpen, hresult, hsent⟩

/-- A command that calls does so at once, its outcome still to come. -/
theorem callOrdered_calls (p : Nat) (hcaller : hailCaller d n = true) (hsend : canSend d n = true)
    (hopen : (netOf d n).callOpen = false) (hdue : (netOf d n).callDue = false) (hstate : (netOf d n).state ≠ .asleep)
    (all : Bool) : resultValid (callOrdered (ordered d n p) n all) (netBase n + 0x68) = false ∧
      Out.hail n (callMsg d n all) ∈ (callOrdered (ordered d n p) n all).out := by
  have hmsg : callMsg (ordered d n p) n all = callMsg d n all := by
    simp only [callMsg, hailWindow, hailMsg, netOf_ordered,
      rd_ordered (d := d) (n := n) p (a := netBase n + 0x60) (by omega)]
  have hcaller' : hailCaller (ordered d n p) n = true := by simpa using hcaller
  have hcall : Called n all (ordered d n p) (callOrdered (ordered d n p) n all) := by
    rw [callOrdered, if_pos hcaller']
    exact callDue_calls hcaller' (by simpa using hsend) (by simpa using hopen) (by simpa using hdue)
      (by simpa using hstate) ..
  exact ⟨hcall.result.trans (ordered_result ..), hmsg ▸ hcall.sent⟩

theorem callOrdered_refused (hcaller : hailCaller d n = false) (all : Bool) : callOrdered d n all = hailEnd d n 1 := by
  simp [callOrdered, hcaller]

theorem forgetRun_refused (hcaller : hailCaller d n = false) (m : Nat) : forgetRun d n m = hailEnd d n 1 := by
  simp [forgetRun, hcaller]

theorem forgetRun_lost {m : Nat} (hcaller : hailCaller d n = true) (hlost : (partView d n m).state = .lost) :
    forgetRun d n m = hailEnd (putPart d n m {}) n 0 := by
  simp [forgetRun, hcaller, hlost]

theorem foreignCall_counted {uid : Nat} (hown : uid ≠ ownUid) (hpeer : uid ≠ d.pair.bound % 2 ^ 56) :
    foreignCall d n uid = evNws (netInc (hailTaken d n) n 9) n 6 := by
  rw [foreignCall, if_neg (not_or.2 ⟨hown, hpeer⟩)]

/-- The identifier and the data of a Hail frame (Table 7.5). -/
theorem hailMsg_shape (d : Dev) (n : Nat) {type : Nat} (uid b0 b1 b2 b3 : Nat) (h : type < 4) :
    (hailMsg d n type uid b0 b1 b2 b3).fmt = 1 ∧ (hailMsg d n type uid b0 b1 b2 b3).id.toNat =
      fld (rd d (netBase n + 0x60)) 7 5 * 2 ^ 26 + type * 2 ^ 24 + uid % 2 ^ 24 ∧
    (hailMsg d n type uid b0 b1 b2 b3).data.length = 8 := by
  have hprio := fld_lt (rd d (netBase n + 0x60)) 7 5
  have huid : uid % 2 ^ 24 < 2 ^ 24 := Nat.mod_lt _ (by decide)
  refine ⟨rfl, ?_, by simp [hailMsg]⟩
  simp only [hailMsg, BitVec.toNat_ofNat]
  exact Nat.mod_eq_of_lt (by omega)

end

/-! ## The statement -/

/-- Settles O32. Hail work is served at once (`hailPost_free`, `hailHeard_free`, `exec_hailRow`) or waits (`qmPost_waits`); a
call that falls due is sent (`callDue_calls`), and its close judges each entry by itself (`partOf_windowClose`). -/
theorem hailDiscovery : Obligations.HailDiscovery := by
  unfold Obligations.HailDiscovery
  refine ⟨?calls, ?refused, ?owned, ?queued, fun d n type uid b0 b1 b2 b3 => hailMsg_shape d n uid b0 b1 b2 b3, ?forget,
    ?announce, ?leave, ?foreign, ?close, ?timeout⟩
  case calls =>
    intro s n hcaller hfree hsend hopen hdue hstate
    refine ⟨fun hperiod => ?_, fun hready hvalid => ⟨?_, ?_⟩⟩
    · obtain ⟨p, hp⟩ := hailPost_free hfree (.period n)
      have hrun : callPeriod (withPeak s.dev p) n = callDue (withPeak s.dev p) n true false := by
        have hgo : (hailCaller (withPeak s.dev p) n &&
            decide (fld (rd (withPeak s.dev p) (netBase n + 0x60)) 31 24 ≠ 0)) = true := by
          simpa using ⟨hcaller, hperiod⟩
        rw [callPeriod, if_pos hgo]
      obtain ⟨hsession, hcallOpen, -, hsent⟩ :=
        callDue_calls (d := withPeak s.dev p) hcaller hsend hopen hdue hstate true false
      exact ⟨_, next_dev s (hp.trans hrun), hsession, hcallOpen, hsent⟩
    · obtain ⟨p, hp⟩ := exec_hailRow (c := .hailCallAll n) (w := .call n true) hfree hready hvalid rfl
      exact ⟨_, hp, callOrdered_calls p hcaller hsend hopen hdue hstate true⟩
    · obtain ⟨p, hp⟩ := exec_hailRow (c := .hailCallNew n) (w := .call n false) hfree hready hvalid rfl
      exact ⟨_, hp, callOrdered_calls p hcaller hsend hopen hdue hstate false⟩
  case refused =>
    intro s n m c hcaller hfree hready hvalid hc
    have hrefused : ∃ p, exec c s = .next { s with dev := hailEnd (ordered s.dev n p) n 1 } := by
      simp only [List.mem_cons, List.not_mem_nil, or_false] at hc
      rcases hc with rfl | rfl | rfl
      · obtain ⟨p, hp⟩ := exec_hailRow (c := .hailCallAll n) (w := .call n true) hfree hready hvalid rfl
        exact ⟨p, hp.trans (next_dev s (callOrdered_refused (by simpa using hcaller) true))⟩
      · obtain ⟨p, hp⟩ := exec_hailRow (c := .hailCallNew n) (w := .call n false) hfree hready hvalid rfl
        exact ⟨p, hp.trans (next_dev s (callOrdered_refused (by simpa using hcaller) false))⟩
      · obtain ⟨p, hp⟩ := exec_hailRow (c := .forget n m) (w := .forget n m) hfree hready hvalid rfl
        exact ⟨p, hp.trans (next_dev s (forgetRun_refused (by simpa using hcaller) m))⟩
    obtain ⟨p, hp⟩ := hrefused
    exact ⟨_, hp, hailEnd_ordered s n p 1, hailEnd_status _ _ (by decide), hailEnd_valid _ _ _⟩
  case owned =>
    intro s n uid howned
    have hdeaf (w : HailWork) : hailHeard s.dev n w = s.dev := by simp [hailHeard, howned]
    exact ⟨next_dev s (hdeaf _), next_dev s (hdeaf _), fun _ _ _ _ _ => next_dev s (hdeaf _)⟩
  case queued =>
    intro s n uid howned hasleep hshed hroom
    have hwait : hailHeard s.dev n (.leave n uid.toNat) =
        qmPeak (withQueue s.dev (s.dev.qm.queue ++ [(3, .hail (.leave n uid.toNat))])) := by
      rw [hailHeard, if_neg (by simp [howned])]
      exact qmPost_waits hasleep hshed hroom (by decide) ..
    exact ⟨_, next_dev s hwait, rfl, rfl⟩
  case forget =>
    intro s n m hcaller hfree hready hvalid hlost
    obtain ⟨p, hp⟩ := exec_hailRow (c := .forget n m) (w := .forget n m) hfree hready hvalid rfl
    have hrun := forgetRun_lost (d := ordered s.dev n p) (n := n) (m := m) (by simpa using hcaller) (by simpa using hlost)
    refine ⟨_, hp.trans (next_dev s hrun), ?_, fun k _ hk => ?_, hailEnd_status _ _ (by decide)⟩
    · simp
    · rw [partOf_hailEnd, partOf_putPart, if_neg hk]
      rfl
  case announce =>
    intro s n uid ss kind k confirm ts howned hcaller hfree hheeded
    obtain ⟨p, hp⟩ := hailHeard_free howned hfree (.announce n uid.toNat ss (BitVec.ofNat 8 k.val) kind confirm ts)
    have hheld : (BitVec.ofNat 8 k.val).toNat = k.val := by simp; omega
    refine ⟨fun hfind => ?_, fun hfind hnumber => ?_⟩
    · have hrun := announce_known (d := withPeak s.dev p) (kind := kind) ts hcaller hheeded hheld hfind
      refine ⟨_, next_dev s (hp.trans hrun), ?_⟩
      simp only [partOf_putPart, if_pos]
      exact ⟨trivial, trivial, rfl, trivial, fun m _ hm => if_neg hm⟩
    · have hrun := announce_new (d := withPeak s.dev p) (kind := kind) ts hcaller hheeded hheld k.isLt hfind hnumber
      refine ⟨_, next_dev s (hp.trans hrun), ?_⟩
      simp only [partOf_evNws, partOf_sendAssign, partOf_putPart, if_pos]
      refine ⟨rfl, rfl, rfl, fun m _ hm => if_neg hm, evNws_bit _ _ (by decide), fun hsend => ?_⟩
      exact (evNws_beside ..).out.subset (newcomer_assigned (d := withPeak s.dev p) hsend _ _)
  case leave =>
    intro s n uid k howned hcaller hfree hfind
    obtain ⟨p, hp⟩ := hailHeard_free howned hfree (.leave n uid.toNat)
    have hrun := leave_loses (d := withPeak s.dev p) hcaller hfind
    refine ⟨_, next_dev s (hp.trans hrun), ?_⟩
    simp only [partOf_partLose, if_pos]
    exact ⟨trivial, leave_uid hfind, fun m _ hm => if_neg hm, evNws_bit _ _ (by decide)⟩
  case foreign =>
    intro s n uid howned hfree hown hpeer
    obtain ⟨p, hp⟩ := hailHeard_free howned hfree (.foreign n uid.toNat)
    have hrun := foreignCall_counted (d := withPeak s.dev p) (n := n) hown hpeer
    refine ⟨_, next_dev s (hp.trans hrun), ?_, evNws_bit _ _ (by decide), ?_⟩
    · rw [evNws, (setEv_apart ..).cnts _ (ofNws_aNetCnt n.isLt (by decide)), cnt_netInc, if_pos rfl]
      rfl
    · rw [evNws, (setEv_apart ..).nws]
      rfl
  case close =>
    intro s n hfree hopen hdue
    obtain ⟨p, hp⟩ := hailPost_free hfree (.close n)
    refine ⟨_, next_dev s hp, windowClose_closes hopen hdue, fun m hm => ?_⟩
    have hpart := partOf_windowClose (d := withPeak s.dev p) hopen hdue hm
    refine ⟨fun hkept => ?_, fun hall hstate hsilent => ?_⟩
    · refine hpart.trans (if_neg fun ⟨hall, hmissing⟩ => ?_)
      obtain ⟨hstate, hsilent⟩ := missing_iff.1 hmissing
      rcases hkept with h | h | h
      · exact Bool.false_ne_true (h.symm.trans hall)
      · exact h hstate
      · exact Bool.false_ne_true (hsilent.symm.trans h)
    · have hmissing : missing s.dev n m = true := missing_iff.2 ⟨hstate, hsilent⟩
      have hmiss := hpart.trans (if_pos ⟨hall, hmissing⟩)
      rw [missing_entry hmissing] at hstate
      refine ⟨fun hbelow => ?_, fun hreached => ?_⟩
      · have hstays := hmiss.trans (missed_below hbelow)
        exact ⟨(congrArg Partner.state hstays).trans hstate, congrArg Partner.misses hstays⟩
      · obtain ⟨hlost, huid⟩ := missed_reached hreached
        exact ⟨(congrArg Partner.state hmiss).trans hlost, (congrArg Partner.uid hmiss).trans huid⟩
  case timeout =>
    intro s n m hstate hfree hcaller
    obtain ⟨p, hp⟩ := hailPost_free hfree (.timeout n m)
    refine ⟨fun htries hsend => ?_, fun htries => ?_⟩
    · have hrun := assignTimeout_again (d := withPeak s.dev p) hstate hcaller hsend htries
      refine ⟨_, next_dev s (hp.trans hrun), ?_, List.mem_cons_self⟩
      exact (partOf_putPart ..).trans (if_pos rfl)
    · have hrun := assignTimeout_conflict (d := withPeak s.dev p) hstate hcaller htries
      refine ⟨_, next_dev s (hp.trans hrun), by simp, evNws_bit _ _ (by decide)⟩

end Sys2Proof.Proofs.Hail

/-! PROOFS. The choice between clamp and ramp and the time of a ramp, against R247 and R248 in rational arithmetic. -/

namespace Sys2Proof.Proofs.RampChoice

open Sys2Proof Sys2Proof.Machine

/-! ## What the choice answers -/

/-- L I², in units of 10^-12 J. -/
def energy2 (ind : Nat) (i0 : Int) : Int := ind * i0 * i0

/-- P_RAMP − V I / 4 of R248, in units of 2.5 µW. -/
def powerTerm (n : Nat) (i0 v : Int) : Int := 400000 * (loadClass n).pRamp - v * i0

/-- Half L I² is within E_allowed (R247). -/
def Fits (n ind : Nat) (i0 tj : Int) : Prop :=
  if tj ≤ 85 then energy2 ind i0 ≤ 2000000000 * (loadClass n).e85
  else 90 * energy2 ind i0 ≤ 2000000000 * (loadClass n).e85 * max 0 (175 - tj)

/-- The longest of the three terms of R248, each in whole ns. -/
def rampNs (n ind : Nat) (i0 v : Int) : Int :=
  max (max (400 * energy2 ind i0 / powerTerm n i0 v) (100 * ind * i0 / (7000 - v))) 20000

section
variable {n ind : Nat} {i0 v tj : Int}

/-- The answer, case by case: the clamp; a ramp that R248 gives no time; one longer than 50 ms; one of R248's time. -/
theorem rampChoice_cases :
    (ind = 0 ∨ i0 ≤ 0 ∨ Fits n ind i0 tj) ∧ rampChoice n ind i0 v tj = none ∨
    (0 < i0 ∧ ¬ (ind = 0 ∨ i0 ≤ 0 ∨ Fits n ind i0 tj)) ∧
      ((powerTerm n i0 v ≤ 0 ∨ v = 7000) ∧ rampChoice n ind i0 v tj = some (50000000, true) ∨
       (0 < powerTerm n i0 v ∧ v ≠ 7000) ∧
        (50000000 < rampNs n ind i0 v ∧ rampChoice n ind i0 v tj = some (50000000, true) ∨
         rampNs n ind i0 v ≤ 50000000 ∧ rampChoice n ind i0 v tj = some ((rampNs n ind i0 v).toNat, false))) := by
  unfold rampChoice
  extract_lets c e2 fits d4 t
  have hfits : fits = true ↔ Fits n ind i0 tj := by
    unfold fits Fits
    split <;> exact decide_eq_true_iff
  have hpower : powerTerm n i0 v = d4 := rfl
  have hns : rampNs n ind i0 v = t := rfl
  rw [← hfits, hpower, hns]
  clear_value fits d4 t
  split; · exact .inl ⟨by tauto, rfl⟩
  split; · exact .inl ⟨by tauto, rfl⟩
  refine .inr ⟨⟨by omega, by tauto⟩, ?_⟩
  split; · exact .inl ⟨by assumption, rfl⟩
  refine .inr ⟨by omega, ?_⟩
  split
  · exact .inl ⟨by assumption, rfl⟩
  · exact .inr ⟨by omega, rfl⟩

/-- The choice of the clamp. -/
theorem rampChoice_none : rampChoice n ind i0 v tj = none ↔ ind = 0 ∨ i0 ≤ 0 ∨ Fits n ind i0 tj := by
  obtain ⟨h, hrun⟩ | ⟨⟨-, h⟩, ⟨-, hrun⟩ | ⟨-, ⟨-, hrun⟩ | ⟨-, hrun⟩⟩⟩ :=
    rampChoice_cases (n := n) (ind := ind) (i0 := i0) (v := v) (tj := tj)
  all_goals simp [hrun, h]

end

/-! ## The formulas of R248 -/

/-- E_allowed in J at junction temperature `tj` (R247). -/
def allowed (n : Nat) (tj : Int) : ℚ :=
  let eL : ℚ := (loadClass n).e85 / 1000
  if tj ≤ 85 then eL else if tj < 175 then eL * (175 - tj) / 90 else 0

/-- The longest of the three terms of R248, in s. -/
def rampTime (n ind : Nat) (i0 v : Int) : ℚ :=
  let iA : ℚ := i0 / 1000
  let vV : ℚ := v / 100
  let l : ℚ := ind / 1000000
  max (max (l * iA * iA / ((loadClass n).pRamp - vV * iA / 4)) (l * iA / (70 - vV))) (1 / 50000)

section
variable (n ind : Nat) (i0 v tj : Int)

theorem half_energy : (ind / 1000000 : ℚ) * (i0 / 1000) * (i0 / 1000) / 2 = energy2 ind i0 / 2000000000000 := by
  unfold energy2
  push_cast
  ring

theorem power_eq : (loadClass n).pRamp - (v / 100 : ℚ) * (i0 / 1000) / 4 = powerTerm n i0 v / 400000 := by
  unfold powerTerm
  push_cast
  ring

/-- The comparison of integers is the comparison of R247. -/
theorem fits_iff : Fits n ind i0 tj ↔ (ind / 1000000 : ℚ) * (i0 / 1000) * (i0 / 1000) / 2 ≤ allowed n tj := by
  rw [half_energy, div_le_iff₀ (by norm_num)]
  unfold Fits allowed
  dsimp only
  split_ifs with h85 h175
  · rw [← Int.cast_le (R := ℚ)]
    push_cast
    constructor <;> intro h <;> linarith
  · rw [max_eq_right (by omega), ← Int.cast_le (R := ℚ)]
    push_cast
    constructor <;> intro h <;> linarith
  · rw [max_eq_left (by omega), mul_zero, zero_mul, ← Int.cast_le (R := ℚ)]
    push_cast
    constructor <;> intro h <;> linarith

end

/-! ## The time of a ramp in whole ns -/

section
variable {n ind : Nat} {i0 v : Int}

theorem floor_div {a b : Int} (hb : 0 < b) : ⌊(a / b : ℚ)⌋ = a / b := by
  lift b to Nat using hb.le
  exact_mod_cast Rat.floor_intCast_div_natCast a b

/-- Above 70 V the term of the voltage is negative in both, and the shortest ramp outlasts it. -/
theorem floor_voltageTerm (hi : 0 < i0) (hv : v ≠ 7000) :
    max (100 * ind * i0 / (7000 - v)) 20000 = max ⌊(100 * ind * i0 : ℚ) / (7000 - v)⌋ 20000 := by
  have hcurrent : 0 ≤ 100 * ind * i0 := by positivity
  rcases hv.lt_or_gt with h | h
  · have hfloor := floor_div (a := 100 * ind * i0) (b := 7000 - v) (by omega)
    push_cast at hfloor
    rw [hfloor]
  · have hint : 100 * ind * i0 / (7000 - v) ≤ 0 := Int.ediv_nonpos_of_nonneg_of_nonpos hcurrent (by omega)
    have hrat : (100 * ind * i0 : ℚ) / (7000 - v) ≤ 0 :=
      div_nonpos_of_nonneg_of_nonpos (by exact_mod_cast hcurrent) (by exact_mod_cast (by omega : 7000 - v ≤ 0))
    have hfloor : ⌊(100 * ind * i0 : ℚ) / (7000 - v)⌋ ≤ 0 := Int.floor_nonpos hrat
    rw [max_eq_right (by omega), max_eq_right (by omega)]

/-- The time of R248 is rounded down to 1 ns. -/
theorem rampNs_eq_floor (hi : 0 < i0) (hpower : 0 < powerTerm n i0 v) (hv : v ≠ 7000) :
    rampNs n ind i0 v = ⌊1000000000 * rampTime n ind i0 v⌋ := by
  have hp : (powerTerm n i0 v : ℚ) ≠ 0 := by exact_mod_cast hpower.ne'
  have hv' : (7000 - v : ℚ) ≠ 0 := by exact_mod_cast sub_ne_zero.2 hv.symm
  have hpowerTerm : 1000000000 * ((ind / 1000000 : ℚ) * (i0 / 1000) * (i0 / 1000) / (powerTerm n i0 v / 400000)) =
      (400 * energy2 ind i0 : Int) / powerTerm n i0 v := by
    unfold energy2
    push_cast
    field_simp
    ring
  have hvoltageTerm : 1000000000 * ((ind / 1000000 : ℚ) * (i0 / 1000) / (70 - v / 100)) =
      (100 * ind * i0 : ℚ) / (7000 - v) := by
    have hden : (70 - v / 100 : ℚ) = (7000 - v) / 100 := by ring
    rw [hden]
    field_simp
    ring
  unfold rampTime rampNs
  dsimp only
  rw [power_eq, mul_max_of_nonneg _ _ (by norm_num), mul_max_of_nonneg _ _ (by norm_num), hpowerTerm, hvoltageTerm,
    Int.floor_mono.map_max, Int.floor_mono.map_max, floor_div hpower, max_assoc, max_assoc, floor_voltageTerm hi hv]
  norm_num

end

/-- R248 gives a ramp no time exactly when it has no positive power term or the bank is at 70 V. -/
theorem no_time_iff (n : Nat) (i0 v : Int) : powerTerm n i0 v ≤ 0 ∨ v = 7000 ↔
    (loadClass n).pRamp - (v / 100 : ℚ) * (i0 / 1000) / 4 ≤ 0 ∨ (v / 100 : ℚ) = 70 := by
  rw [power_eq, div_le_iff₀ (by norm_num), zero_mul, div_eq_iff (by norm_num)]
  norm_num
  norm_cast

/-- Settles O35. Each comparison of integers is one of R247 and R248 (`fits_iff`, `no_time_iff`), and the time is that of
R248 rounded down (`rampNs_eq_floor`). -/
theorem clampOrRampChoice : Obligations.ClampOrRampChoice := by
  unfold Obligations.ClampOrRampChoice
  rintro n ind i0 v tj eL pRamp eAllowed iA vV l rfl rfl rfl rfl rfl hallowed
  rw [show eAllowed = allowed n tj from hallowed, ← fits_iff]
  refine ⟨rampChoice_none, fun t capped hrun => ?_⟩
  rw [show max _ _ = rampTime n ind i0 v from rfl]
  obtain ⟨-, hclamp⟩ | ⟨⟨hi, -⟩, ⟨hnone, hcap⟩ | ⟨htime, ⟨hlong, hcap⟩ | ⟨hshort, hramp⟩⟩⟩ :=
    rampChoice_cases (n := n) (ind := ind) (i0 := i0) (v := v) (tj := tj)
  case inl =>
    rw [hclamp] at hrun
    cases hrun
  case inr.inl =>
    obtain ⟨rfl, rfl⟩ : 50000000 = t ∧ true = capped := by simpa [hcap] using hrun
    exact ⟨by decide, by decide, fun _ => rfl, nofun, fun _ => or_assoc.1 (.inl ((no_time_iff n i0 v).1 hnone))⟩
  case inr.inr.inl =>
    obtain ⟨rfl, rfl⟩ : 50000000 = t ∧ true = capped := by simpa [hcap] using hrun
    rw [rampNs_eq_floor hi htime.1 htime.2] at hlong
    have hceil : (50000000 : ℚ) < ⌊1000000000 * rampTime n ind i0 v⌋ := by exact_mod_cast hlong
    have hfloor := Int.floor_le (1000000000 * rampTime n ind i0 v)
    exact ⟨by decide, by decide, fun _ => rfl, nofun, fun _ => .inr (.inr (by linarith))⟩
  case inr.inr.inr =>
    obtain ⟨rfl, rfl⟩ : (rampNs n ind i0 v).toNat = t ∧ false = capped := by simpa [hramp] using hrun
    have hmin : 20000 ≤ rampNs n ind i0 v := le_max_right ..
    have hns : ((rampNs n ind i0 v).toNat : ℚ) = ⌊1000000000 * rampTime n ind i0 v⌋ := by
      rw [← rampNs_eq_floor hi htime.1 htime.2]
      exact_mod_cast Int.toNat_of_nonneg (by omega)
    have hfloor := Int.floor_le (1000000000 * rampTime n ind i0 v)
    have hnext := Int.lt_floor_add_one (1000000000 * rampTime n ind i0 v)
    obtain ⟨hpower, hvolt⟩ := not_or.1 fun h => absurd ((no_time_iff n i0 v).2 h) (by omega)
    refine ⟨by omega, by omega, nofun, fun _ => ⟨not_le.1 hpower, hvolt, ?_, ?_⟩, nofun⟩
    · rw [hns]; linarith
    · rw [hns]; linarith

end Sys2Proof.Proofs.RampChoice

/-! PROOFS. What closing a sample block may count elsewhere (R63, R108, R256): the block enters the Basin, its punt may
shed an older one, and the frame of that counts its refusals under its own class. -/

namespace Sys2Proof.Proofs.SampleBlocks

open Sys2Proof Sys2Proof.Machine

/-- A meaning that is an effect on the device leaves that effect's device. -/
theorem dev_of_onDev {f : Dev → Dev} {s t : State} (h : onDev f s = .next t) : t.dev = f s.dev := by
  cases h
  rfl

/-! ## A frame whose class is no class (R21) -/

/-- The class whose counter of refusals at port 13 (SW_EDROP, Table 2.9) comes out at address `a`. -/
def classCountedAt (a : Nat) : Nat := (a - aEdrop 13 0) / 8

/-- A frame of that class. -/
def frameCountedAt (a : Nat) : Frame :=
  { uid := 7, body := .eth (List.replicate 60 0), inPort := 0, cls := classCountedAt a, ts := 0 }

/-- Load channel 0 in state `x` has a sample block open, and Bank A, which has no budget, carries a current. The frame
counted at `a` is punted, and 1,637 items of class 3 are queued behind its punt: one more item brings the queue to 80 %.
An Ethernet frame without an entry is punted or, once returned, sent to port 13, whose egress limits are 0; a sample
block without one is punted. -/
def crowdedBlock (a : Nat) (x : Load) : State :=
  { State.reset with dev := { Dev.reset with
      rst := { inReset := 0, qmRunning := true }
      qm := { queue := (5, .punt 7 false) :: List.replicate 1637 (3, .other 0) }
      basin := { marching := false, frames := [frameCountedAt a], nextUid := 8, punts := [⟨7, false⟩] }
      cht := { miss := [(0, { c0 := { valid := true, a0 := 0x00600001 } })] }
      regs := [(0x2019A0, 16), (0x201C00, 16), (bankBase 0, 0)]
      ldc := { ch := [(0, { x with block := { samples := [0] } })], banks := [(0, { currs := [1] })] } } }

/-- No counter has counted yet, so that one that reads 2 afterwards has not counted once. -/
theorem not_counted_once {a : Nat} {x : Load} {t : Dev} (h : cnt t a = 2) :
    cnt t a ≠ cnt (crowdedBlock a x).dev a + 1 := by
  have hbefore : cnt (crowdedBlock a x).dev a = 0 := rfl
  rw [h, hbefore]
  decide

/-! ## Short circuit (R242) -/

/-- Channel 0 is on; SC_TRIPS is where the frame counts. -/
def crowdedTrip : State := crowdedBlock (aLdcCnt 0 0) { gate := true }

/-- The trip counts once, and the refused frame once more. -/
theorem crowdedTrip_counts : cnt (shortTrip crowdedTrip.dev 0 55000) (aLdcCnt 0 0) = 2 := by decide +kernel

/-- Refutes O34, by the clause that a short circuit raises SC_TRIPS by exactly 1. The turn-off closes the open sample
block (R256), whose punt may shed an older one (R30, R108); the returned frame counts its egress refusals under its class
(R63), and the clause quantifies over states whose frames have any class. For the frame of `crowdedTrip` that counter
comes out at SC_TRIPS. No run holds such a frame (a class is at most 7): what fails is the statement without that bound. -/
theorem not_loadTripsAndRestarts : ¬ Obligations.LoadTripsAndRestarts := by
  unfold Obligations.LoadTripsAndRestarts
  rintro ⟨hshort, -⟩
  obtain ⟨hover, -⟩ := hshort crowdedTrip 0 55000
  obtain ⟨t, ht, -, -, -, -, -, -, -, -, hcount, -⟩ := hover (by decide) (by decide) (by decide)
  rw [dev_of_onDev (f := (shortTrip · 0 55000)) ht] at hcount
  exact not_counted_once crowdedTrip_counts hcount

/-! ## A segment that does not block (R232, R234) -/

/-- Channel 0 is off, with segments 1 and 2 and the spare retired; SEG_RETIRED is where the frame counts. -/
def crowdedTest : State := crowdedBlock (aLdcCnt 0 12) { retiredSegs := 0b10110 }

/-- The retirement of segment 0 counts once, and the refused frame once more. -/
theorem crowdedTest_counts : cnt (segmentTest crowdedTest.dev 0 (some 0)) (aLdcCnt 0 12) = 2 := by decide +kernel

/-- Refutes O36, by the clause that the off-state test raises SEG_RETIRED by exactly 1. With fewer than half of the
segments left the channel trips (R234), which closes the open sample block (R256); the frame that its punt sheds counts
at SEG_RETIRED in `crowdedTest`, as one counts at SC_TRIPS in `crowdedTrip`. No run holds such a frame: what fails is the
statement without the bound of 7 on classes. -/
theorem not_segmentsDiagnosticsAndSamples : ¬ Obligations.SegmentsDiagnosticsAndSamples := by
  unfold Obligations.SegmentsDiagnosticsAndSamples
  rintro ⟨-, htest, -⟩
  obtain ⟨-, hretire⟩ := htest crowdedTest 0 0 (by decide) (by decide) (by decide)
  obtain ⟨t, ht, -, -, hcount, -⟩ := hretire (by decide) (by decide)
  rw [dev_of_onDev (f := (segmentTest · 0 (some 0))) ht] at hcount
  exact not_counted_once crowdedTest_counts hcount

/-! ## A channel shed (R278) -/

/-- Channel 0 is on, above the budget of Bank A; SHEDS of the bank is where the frame counts. -/
def crowdedBank : State := crowdedBlock (aBcnt 0 4) { gate := true }

/-- The shedding counts once, and the refused frame once more. -/
theorem crowdedBank_counts : cnt (bankOvercurrent crowdedBank.dev 0) (aBcnt 0 4) = 2 := by decide +kernel

/-- Refutes O37, by the clause that overcurrent raises SHEDS of the bank by exactly 1. The channel shed turns off, which
closes its open sample block (R256, R279); the frame that the block's punt sheds counts at SHEDS in `crowdedBank`, as one
counts at SC_TRIPS in `crowdedTrip`. No run holds such a frame: what fails is the statement without the bound of 7 on
classes. -/
theorem not_slalomAndSupplies : ¬ Obligations.SlalomAndSupplies := by
  unfold Obligations.SlalomAndSupplies
  rintro ⟨-, -, -, -, -, -, -, -, -, -, hbank, -⟩
  obtain ⟨hover, -⟩ := hbank crowdedBank 0
  obtain ⟨t, ht, -, -, -, -, -, hcount, -⟩ := hover (by decide) 0 (by decide)
  rw [dev_of_onDev (f := (bankOvercurrent · 0)) ht] at hcount
  exact not_counted_once crowdedBank_counts hcount

end Sys2Proof.Proofs.SampleBlocks

/-! PROOFS. The wire guard's trip against the equation of R263 (R262–R268): WG_TRIPS where a frame counts. -/

namespace Sys2Proof.Proofs.GuardTrips

open Sys2Proof Sys2Proof.Machine Sys2Proof.Proofs.SampleBlocks

/-- What the converters give for 100 µs without a current. -/
def noCurrent : LoadMeas := { now := 0, sum := 0, sat := 0, mean10 := 0 }

/-- Channel 0 is on with its conductor at 200 °C, under the reset declaration of its harness (EN = 1, T_TRIP 105 °C);
WG_TRIPS is where the frame counts. -/
def crowdedGuard : State := crowdedBlock (wgsBase 0 + 0x28) { gate := true, theta := 200 * deg }

/-- The channel trips at the end of its first update: 100 µs without a current leave the conductor above T_TRIP. -/
theorem crowdedGuard_above_trip : (fld (actTemp crowdedGuard.dev 0) 31 24 : Int) * deg ≤
    thetaStep (actWg crowdedGuard.dev 0) (ambient crowdedGuard.dev 0) (measMean 0 noCurrent)
      (loadOf crowdedGuard.dev 0).theta := by decide +kernel

/-- The trip counts once, and the refused frame once more. -/
theorem crowdedGuard_counts :
    cnt (wgModelUpdate crowdedGuard.dev 0 0 [noCurrent]) (wgsBase 0 + 0x28) = 2 := by decide +kernel

/-- Refutes O39, by the clause that a trip of code 4 raises WG_TRIPS by exactly 1. The latched trip closes the open sample
block (R256), whose punt may shed an older one (R30, R108); the returned frame counts its egress refusals under its class
(R63), and the clause quantifies over states whose frames have any class. For the frame of `crowdedGuard` that counter
comes out at WG_TRIPS, as one does at SC_TRIPS in `crowdedTrip`. No run holds such a frame (a class is at most 7): what
fails is the statement without that bound. -/
theorem not_wireGuardModel : ¬ Obligations.WireGuardModel := by
  unfold Obligations.WireGuardModel
  rintro ⟨-, -, -, hupdate, -⟩
  obtain ⟨t, ht, -, -, -, -, -, hchannel⟩ := hupdate crowdedGuard 0 0 [noCurrent] (by decide)
  obtain ⟨-, -, -, henabled⟩ := hchannel 0 noCurrent noCurrent (by decide) rfl (by decide)
  obtain ⟨-, htrip, -⟩ := henabled (by decide +kernel) _ rfl
  obtain ⟨-, -, -, -, hcount⟩ := htrip crowdedGuard_above_trip (by decide)
  rw [dev_of_onDev (f := (wgModelUpdate · 0 0 [noCurrent])) ht] at hcount
  exact not_counted_once crowdedGuard_counts hcount

end Sys2Proof.Proofs.GuardTrips

/-! PROOFS. What a frame that enters the Basin leaves of field I/O: its whole state, and every channel's word in effect. -/

namespace Sys2Proof.Proofs.FieldsApart

open Sys2Proof Sys2Proof.Machine Sys2Proof.Laws Sys2Proof.Proofs.FreedCells Sys2Proof.Proofs.SlipResets

/-- No channel's word in effect stands at `a` (Table 10.9). -/
def NoFieldWord (a : Nat) : Prop := a < 0x1101000 ∨ 0x1102000 ≤ a ∨ a % 0x40 ≠ 8

/-- From `d` to `t` field I/O and the words in effect of its channels stay as they are. -/
structure Apart (d t : Dev) : Prop where
  fio : t.fio = d.fio
  words : ∀ n < 32, actField t n = actField d n

theorem Apart.of_same {d t : Dev} (hfio : t.fio = d.fio) (hregs : t.regs = d.regs) : Apart d t :=
  ⟨hfio, fun _ _ => by simp only [actField, rd, hregs]⟩

theorem Apart.of_words {d t : Dev} (hfio : t.fio = d.fio) (hrd : ∀ a, ¬ NoFieldWord a → rd t a = rd d a) : Apart d t :=
  ⟨hfio, fun n hn => hrd _ (by unfold NoFieldWord fioBase; omega)⟩

theorem Apart.refl (d : Dev) : Apart d d := .of_same rfl rfl

theorem Apart.trans {a b c : Dev} (h : Apart a b) (g : Apart b c) : Apart a c :=
  ⟨g.fio.trans h.fio, fun n hn => (g.words n hn).trans (h.words n hn)⟩

theorem Apart.ite {c : Prop} [Decidable c] {d a b : Dev} (ha : Apart d a) (hb : Apart d b) :
    Apart d (if c then a else b) := by
  split <;> assumption

section
variable (d : Dev)

/-! ### What every block does (R91, R145, R150, R420) -/

theorem inc_apart (a : Nat) : Apart d (inc d a) := .of_same rfl rfl
theorem emit_apart (o : Out) : Apart d (emit d o) := .of_same rfl rfl
theorem setBasin_apart (b : Basin) : Apart d (setBasin d b) := .of_same rfl rfl
theorem setSlip_apart (n : Nat) (x : Slip) : Apart d (setSlip d n x) := .of_same rfl rfl
theorem setRing_apart (n r : Nat) (x : Ring) : Apart d (setRing d n r x) := .of_same rfl rfl
theorem setNet_apart (n : Nat) (x : Net) : Apart d (setNet d n x) := .of_same rfl rfl

theorem sendVec_apart (n v : Nat) : Apart d (sendVec d n v) := .of_same (sendVec_fio ..) (sendVec_regs ..)

theorem mirrorNote_apart (what arg : Nat) : Apart d (mirrorNote d what arg) :=
  .of_same (mirrorNote_fio ..) (mirrorNote_regs ..)

theorem wr_apart {a : Nat} (v : Word) (h : NoFieldWord a) : Apart d (wr d a v) :=
  .of_words rfl fun i hi => (rd_wr ..).trans (if_neg fun he : i = a => hi (he ▸ h))

theorem setEv_apart (src en b inst : Nat) (detail : Word) {ev : Nat} (h : NoFieldWord ev) :
    Apart d (setEv d src ev en b inst detail) :=
  .of_words (setEv_fio ..) fun i hi => (rd_setEv ..).trans (if_neg fun he : i = ev ∧ _ => hi (he.1 ▸ h))

theorem evDev_apart (b : Nat) : Apart d (evDev d b) := setEv_apart _ _ _ _ _ _ (.inl (by decide))
theorem evSw_apart (b inst : Nat) : Apart d (evSw d b inst) := setEv_apart _ _ _ _ _ _ (.inl (by decide))
theorem evCht_apart (b inst : Nat) : Apart d (evCht d b inst) := setEv_apart _ _ _ _ _ _ (.inl (by decide))
theorem evSlp_apart (b inst : Nat) : Apart d (evSlp d b inst) := setEv_apart _ _ _ _ _ _ (.inl (by decide))
theorem evBrg_apart (b inst : Nat) : Apart d (evBrg d b inst) := setEv_apart _ _ _ _ _ _ (.inl (by decide))
theorem evWld_apart (b inst : Nat) : Apart d (evWld d b inst) := setEv_apart _ _ _ _ _ _ (.inr (.inl (by decide)))

theorem evNws_apart (n b : Nat) : Apart d (evNws d n b) :=
  setEv_apart _ _ _ _ _ _ (.inr (.inr (by unfold netBase; omega)))

theorem setSlipEv_apart (n b : Nat) : Apart d (setSlipEv d n b) := by
  have hword (v : Word) : Apart d (wr d (slipWin n + 0xC) v) := wr_apart d v (.inr (.inr (by unfold slipWin; omega)))
  exact .ite (.refl d) (.ite ((hword _).trans (sendVec_apart ..)) (hword _))

/-! ### Cells taken and given up (R42, R44, R54, R76, R351) -/

theorem pfcJudge_apart (p c : Nat) : Apart d (pfcJudge d p c) := by
  obtain h | ⟨m, xoff, -, -, -, h⟩ := pfcJudge_cases d p c
  · rw [h]; exact .refl d
  · rw [h]; exact .of_same rfl rfl

theorem freeIfDone_apart (uid : Nat) : Apart d (freeIfDone d uid) := by
  obtain ⟨⟨-, hfio, -⟩, -⟩ := freeIfDone_calm d uid
  refine .of_words hfio fun a ha => (freeIfDone_frees d uid).regs a ?_
  rintro hev
  unfold NoFieldWord at ha
  fin_cases hev <;> omega

/-- The violation log and its notices lie in WLD (Table 12.17). -/
theorem accessRefused_apart (cls source m off : Nat) (write : Bool) (hcls : ¬ cls ≤ 1) :
    Apart d (accessRefused d cls source m off write) := by
  have hwld {a : Nat} (d : Dev) (v : Word) (h : 0x1300000 ≤ a) : Apart d (wr d a v) :=
    wr_apart d v (.inr (.inl (by omega)))
  have hlogged (kind region src : Nat) : Apart d (violation d kind m cls off region src) := by
    unfold violation
    extract_lets total a ts z d1 w d2 d3 d4
    have hw (d : Dev) (i : Nat) (v : Word) : Apart d (w d i v) := hwld d v (by omega)
    have h1 : Apart d d1 := .of_same rfl rfl
    have h2 : Apart d1 d2 := (hw ..).trans ((hw ..).trans ((hw ..).trans ((hw ..).trans (hw ..))))
    have h4 : Apart d2 d4 := (hw ..).trans (hwld _ _ (by decide))
    exact h1.trans (h2.trans (h4.trans ((inc_apart ..).trans (evWld_apart ..))))
  simp only [accessRefused, if_neg hcls]
  split
  · exact .ite ((hlogged ..).trans (emit_apart ..)) (hlogged ..)
  · exact hlogged ..

theorem admitFrame_apart (f : Frame) : Apart d (admitFrame d f).2 := by
  unfold admitFrame
  extract_lets n t d1 d2 uid taken no b b1 d3 d4
  have hrefused : Apart d d2 := (inc_apart ..).trans (.ite (inc_apart ..) (.refl _))
  have hadmitted : Apart d d4 := by
    refine (setBasin_apart d b1).trans (.trans ?_ (setBasin_apart ..))
    clear_value no
    cases no
    · exact .refl _
    · exact accessRefused_apart _ _ _ _ _ _ (by decide)
  split
  · exact inc_apart ..
  · split
    · exact hrefused.trans (.ite (inc_apart ..) (.refl _))
    · exact hadmitted.trans (pfcJudge_apart ..)

/-! ### The report to a transmit descriptor (R137–R142, R150) -/

theorem ringIrq_apart (n r : Nat) : Apart d (ringIrq d n r) :=
  .ite (.ite (setRing_apart ..) (.ite (sendVec_apart ..) ((sendVec_apart ..).trans (setRing_apart ..)))) (.refl d)

theorem writeCompl_apart (n r : Nat) (x : Desc) (c : Compl) : Apart d (writeCompl d n r x c) := by
  unfold writeCompl
  extract_lets g g1 z d0
  have h0 : Apart d d0 := by
    unfold d0
    split
    · exact setSlip_apart ..
    · exact .refl d
  refine h0.trans (.ite (setRing_apart ..) ?_)
  exact (setRing_apart ..).trans ((emit_apart ..).trans ((emit_apart ..).trans (ringIrq_apart ..)))

theorem flushList_apart (n r : Nat) (l : List Desc) : Apart d (flushList d n r l) := by
  induction l generalizing d with
  | nil => exact .refl d
  | cons x l ih =>
    unfold flushList
    split
    · exact (writeCompl_apart ..).trans (ih _)
    · exact .refl d

theorem finish_apart (n r idx : Nat) (c : Compl) : Apart d (finish d n r idx c) := by
  unfold finish
  split
  · exact .refl d
  · exact (setRing_apart ..).trans (flushList_apart ..)

theorem txVerdict_apart (f : Frame) (v : VReport) : Apart d (txVerdict d f v) := by
  have hjudge (d : Dev) (n r : Nat) (x : Desc) : Apart d (confirmJudge d n r x) := .ite (finish_apart ..) (.refl d)
  unfold txVerdict
  split
  · exact .refl d
  · split
    · exact .refl d
    · exact .ite ((setRing_apart ..).trans (hjudge ..)) (finish_apart ..)

/-! ### Destinations (R104, R105, R208) -/

theorem kaDue_apart (n : Nat) : Apart d (kaDue d n) := by
  unfold kaDue
  split
  iterate 4 exact inc_apart ..
  exact .trans (.ite (inc_apart ..) (.refl d)) (setNet_apart ..)

theorem needArises_apart (n : Nat) : Apart d (needArises d n) := by
  have hawake : Apart d (netEnter d n .awake) := .ite (setNet_apart ..) ((setNet_apart ..).trans (evNws_apart ..))
  unfold needArises
  refine .ite (.ite (kaDue_apart ..) (.refl d)) ?_
  split
  · exact kaDue_apart ..
  · exact hawake.trans ((setNet_apart ..).trans ((setNet_apart ..).trans (kaDue_apart ..)))
  · exact .ite (.refl d) (setNet_apart ..)

theorem offer_apart (f : Frame) (q : Nat) (dest : Dest) (miss tern : Bool) (entry : Nat) :
    Apart d (offer d f q dest miss tern entry).2 := by
  have hneed (d1 : Dev) (n : Nat) : Apart d1 (needAfter d d1 n) := .ite (needArises_apart ..) (.refl _)
  unfold offer
  extract_lets n e fits b push held
  have hpush (x : QEntry) : Apart d (push x) := setBasin_apart ..
  cases dest with
  | wire =>
    dsimp only
    split; · exact inc_apart ..
    split; · exact inc_apart ..
    split; · exact inc_apart ..
    exact hpush _
  | slip m r =>
    dsimp only
    split; · exact (inc_apart ..).trans ((inc_apart ..).trans (setSlipEv_apart ..))
    split; · exact (inc_apart ..).trans (setSlipEv_apart ..)
    exact hpush _
  | can m =>
    dsimp only
    split; · exact inc_apart ..
    exact (hpush _).trans (hneed ..)
  | _ =>
    dsimp only
    split; · exact inc_apart ..
    exact hpush _

theorem deliver_apart (f : Frame) (h : Hit) (dset : Nat) : Apart d (deliver d f h dset) := by
  refine rel_foldl .refl .trans (fun d m => ?_) ..
  exact .ite (.refl d) (.ite (offer_apart ..) ((inc_apart ..).trans (evSlp_apart ..)))

theorem tunnelOnce_apart (f : Frame) (stream : Nat) : Apart d (tunnelOnce d f stream) :=
  .ite ((inc_apart ..).trans (evBrg_apart ..)) (.ite ((inc_apart ..).trans (evBrg_apart ..)) (offer_apart ..))

/-- CAN channels that a forward action offers a frame to, whatever it answers for CONFIRM. -/
theorem foldl_offer_apart {β : Type} {f : β × Dev → Nat → β × Dev} (h : ∀ a n, Apart a.2 (f a n).2) (l : List Nat)
    (a : β × Dev) : Apart a.2 (l.foldl f a).2 := by
  induction l generalizing a with
  | nil => exact .refl _
  | cons n l ih => exact (h a n).trans (ih _)

theorem forward_apart (f : Frame) (ports chset : Nat) : Apart d (forward d f ports chset).2 := by
  unfold forward
  split
  · extract_lets d1
    have hwires : Apart d d1 := rel_foldl .refl .trans (fun _ _ => .ite (offer_apart ..) (.refl _)) ..
    exact hwires.trans (.ite (offer_apart ..) (.refl d1))
  · split
    · refine foldl_offer_apart (fun a n => ?_) _ (0, d)
      dsimp only
      split
      · exact offer_apart ..
      · exact .refl _
    · exact .refl d
  · exact .refl d

/-! ### The verdict and the punts (R30, R98–R108) -/

theorem extract_apart (idx len : Nat) (body : FrameBody) : Apart d (extract d idx len body) := by
  have hbwk (d : Dev) (b : Bwk) (what arg : Nat) : Apart d (mirrorNote { d with bwk := b } what arg) :=
    .trans (b := { d with bwk := b }) (.of_same rfl rfl) (mirrorNote_apart ..)
  refine rel_foldl .refl .trans (fun d k => ?_) ..
  unfold extractItem
  split
  · exact (inc_apart ..).trans (evCht_apart ..)
  · exact .ite (hbwk ..) (hbwk ..)

theorem meter_apart (k : Nat) (f : Frame) : Apart d (meter d k f).2 := by
  simp only [meter]
  repeat' split
  all_goals exact .of_same rfl rfl

theorem selected_apart (msel : Nat) : Apart d (selected d msel).2 := by
  simp only [selected]
  repeat' split
  all_goals exact .of_same rfl rfl

theorem logbook_apart (f : Frame) (cause : Nat) (h : Hit) (colour dropCause : Nat) :
    Apart d (logbook d f cause h colour dropCause) :=
  .ite (.refl d) (.ite ((inc_apart ..).trans (evSw_apart ..)) (setBasin_apart ..))

theorem puntRefused_apart : Apart d (puntRefused d) := (inc_apart ..).trans (evCht_apart ..)

theorem verdict_apart (uid : Nat) (returned : Bool) : Apart d (verdict d uid returned).2 := by
  unfold verdict
  split
  · exact .refl d
  next f hf =>
  extract_lets k h e dMiss impostor m colour dMetered cause wantPunt dRefused cause' dCounted s copy dSampled dDropCopy
    dDropCount dImpostor dExtracted ports dTunnelled fw named dDelivered wantCopy dReported dCopyRefused
  have hcopy (d : Dev) : Apart d (copy d) := .ite (logbook_apart ..) (.refl d)
  have hmetered : Apart d dMetered := by
    refine .trans (b := dMiss) (.ite (inc_apart ..) (.refl d)) ?_
    unfold dMetered m
    split
    · exact meter_apart ..
    · exact .refl _
  have hsampled : Apart d dSampled := by
    have hcounted : Apart dMetered dCounted :=
      .trans (.ite (puntRefused_apart ..) (.refl _)) (.ite (.of_same rfl rfl) (.refl _))
    refine hmetered.trans (hcounted.trans ?_)
    unfold dSampled s
    split
    · exact selected_apart ..
    · exact .refl _
  have himpostor : Apart d dImpostor := by
    refine hsampled.trans ((hcopy _).trans ((inc_apart ..).trans (.ite ?_ (.refl _))))
    split
    · have hword {a : Nat} (h : a < 0x1101000) (d : Dev) (v : Word) : Apart d (wr d a v) := wr_apart d v (.inl h)
      exact (inc_apart ..).trans ((hword (by decide) ..).trans ((hword (by decide) ..).trans (evCht_apart ..)))
    · exact .refl _
  have hforwarded : Apart d fw.2 := by
    have htunnelled : Apart dSampled dTunnelled :=
      .trans (.ite (extract_apart ..) (.refl _)) (.ite (tunnelOnce_apart ..) (.refl _))
    refine hsampled.trans (htunnelled.trans ?_)
    unfold fw
    split
    · exact forward_apart ..
    · exact .refl _
  have hreported : Apart d dReported :=
    hforwarded.trans (.trans (.ite (deliver_apart ..) (.refl _)) ((txVerdict_apart ..).trans (hcopy _)))
  split
  · exact hmetered
  · split
    · exact himpostor.trans ((txVerdict_apart ..).trans (freeIfDone_apart ..))
    · split
      · exact hreported
      · exact hreported.trans (.trans (.ite (puntRefused_apart ..) (.refl _)) (freeIfDone_apart ..))

variable {d} in
/-- What leaves field I/O alone after the Quaymaster's queue changed leaves it alone from before. -/
theorem Apart.of_qm {q : Qm} {t : Dev} (h : Apart { d with qm := q } t) : Apart d t := ⟨h.fio, h.words⟩

theorem qmLevel_apart : Apart d (qmLevel d) := .ite (.refl d) (.of_qm (evDev_apart ..))

theorem qmDiscard_apart : Apart d (qmDiscard d) := by
  have hlate (d : Dev) (uid : Nat) (copy : Bool) : Apart d (refuseLate d uid copy) :=
    (setBasin_apart ..).trans ((puntRefused_apart _).trans (.ite (freeIfDone_apart ..) (verdict_apart ..)))
  unfold qmDiscard
  refine .of_qm (rel_foldl .refl .trans (fun d e => ?_) ..)
  split
  · exact hlate ..
  · exact .refl d

theorem qmEnqueue_apart (cls : Nat) (w : QmWork) : Apart d (qmEnqueue d cls w) := by
  have hpeak (d : Dev) : Apart d (qmPeak d) := .of_same rfl rfl
  have hlevel (d : Dev) : Apart d (qmLevel (qmPeak d)) := (hpeak d).trans (qmLevel_apart _)
  have hjudge (d : Dev) : Apart d (qmJudge d) :=
    .ite ((hlevel d).trans ((qmDiscard_apart _).trans (qmLevel_apart _))) (hlevel d)
  exact .ite (.of_same rfl rfl) (.of_qm (hjudge _))

/-- A frame that reaches the Basin leaves field I/O alone, whatever the Chart and the Quaymaster make of it. -/
theorem enterBasin_apart (f : Frame) : Apart d (enterBasin d f).2 := by
  have hpunts (x : List (Nat × Bool) × Dev) : Apart x.2 (takePunts x) :=
    rel_foldl .refl .trans (fun d p => .trans (b := holdPunt d p.1 p.2) ((setBasin_apart ..).trans (inc_apart ..))
      (qmEnqueue_apart ..)) ..
  have hadmitted := admitFrame_apart d f
  unfold enterBasin
  split
  · next uid d1 heq =>
    rw [heq] at hadmitted
    exact hadmitted.trans ((verdict_apart ..).trans (hpunts _))
  · next d1 heq =>
    rw [heq] at hadmitted
    exact hadmitted

end

end Sys2Proof.Proofs.FieldsApart

/-! PROOFS. What the operations of field I/O make of one channel (R284, R287, R288, R293, R294, R301, R302), and what they
leave alone: the other channels, the link, every register but the channels' events. -/

namespace Sys2Proof.Proofs.FieldChannels

open Sys2Proof Sys2Proof.Machine Sys2Proof.Laws Sys2Proof.Proofs.FreedCells

/-! ## What a change of one channel leaves alone -/

/-- From `d` to `t` nothing but channels, safe states, their fault records and events has changed, and no event bit fell. -/
structure Within (d t : Dev) : Prop where
  fio : t.fio = { d.fio with ch := t.fio.ch, faults := t.fio.faults, safe := t.fio.safe }
  regs : ∀ a, a % 0x40 ≠ 0x14 → rd t a = rd d a
  bits : ∀ a i, bit (rd d a) i = true → bit (rd t a) i = true
  cnts : t.cnts = d.cnts
  ldc : t.ldc = d.ldc
  rst : t.rst = d.rst

/-- `Within`, and channel `n` and the safe state of its group are as they were. -/
structure Spares (n : Nat) (d t : Dev) : Prop extends Within d t where
  field : fieldOf t n = fieldOf d n
  safe : groupSafe t n = groupSafe d n

/-- `Within`, and every channel but `n` and every group's safe state are as they were. -/
structure InChannel (n : Nat) (d t : Dev) : Prop extends Within d t where
  others : ∀ m, m ≠ n → fieldOf t m = fieldOf d m
  safe : t.fio.safe = d.fio.safe

section
variable {a b c d t : Dev} {n : Nat}

theorem Within.refl (d : Dev) : Within d d := ⟨rfl, fun _ _ => rfl, fun _ _ h => h, rfl, rfl, rfl⟩

theorem Within.trans (h : Within a b) (g : Within b c) : Within a c where
  fio := by rw [g.fio, h.fio]
  regs i hi := (g.regs i hi).trans (h.regs i hi)
  bits i j hb := g.bits i j (h.bits i j hb)
  cnts := g.cnts.trans h.cnts
  ldc := g.ldc.trans h.ldc
  rst := g.rst.trans h.rst

theorem Within.word (h : Within d t) (n : Nat) : actField t n = actField d n :=
  h.regs _ (by unfold fioBase; omega)

theorem Within.mode (h : Within d t) (n : Nat) : fieldMode t n = fieldMode d n := by
  rw [fieldMode, h.word, fieldMode]

theorem Within.quad (h : Within d t) (n : Nat) : quadBad t n = quadBad d n := by rw [quadBad, h.fio, quadBad]

theorem Within.core (h : Within d t) (k : Nat) : coreUp t k = coreUp d k := by simp only [coreUp, domUp, h.rst]

theorem Within.cnt (h : Within d t) (a : Nat) : cnt t a = cnt d a := by simp only [Machine.cnt, h.cnts]

theorem Spares.refl (n : Nat) (d : Dev) : Spares n d d := ⟨.refl d, rfl, rfl⟩

theorem Spares.trans (h : Spares n a b) (g : Spares n b c) : Spares n a c :=
  ⟨h.toWithin.trans g.toWithin, g.field.trans h.field, g.safe.trans h.safe⟩

theorem InChannel.refl (n : Nat) (d : Dev) : InChannel n d d := ⟨.refl d, fun _ _ => rfl, rfl⟩

theorem InChannel.trans (h : InChannel n a b) (g : InChannel n b c) : InChannel n a c :=
  ⟨h.toWithin.trans g.toWithin, fun m hm => (g.others m hm).trans (h.others m hm), g.safe.trans h.safe⟩

theorem InChannel.ite {p : Prop} [Decidable p] (ha : InChannel n d a) (hb : InChannel n d b) :
    InChannel n d (if p then a else b) := by
  split <;> assumption

/-- A change of another channel spares channel `n`. -/
theorem InChannel.spares {k : Nat} (h : InChannel k d t) (hne : n ≠ k) : Spares n d t :=
  ⟨h.toWithin, h.others n hne, by rw [groupSafe, h.safe, groupSafe]⟩

end

theorem foldl_spares {n : Nat} {f : Dev → Nat → Dev} {l : List Nat} (hf : ∀ d, ∀ j ∈ l, Spares n d (f d j)) (d : Dev) :
    Spares n d (l.foldl f d) := by
  induction l generalizing d with
  | nil => exact .refl n d
  | cons j l ih => exact (hf d j List.mem_cons_self).trans (ih (fun d k hk => hf d k (List.mem_cons_of_mem _ hk)) _)

/-- A step of a fold that alone touches channel `n` finds the channel as it was, and leaves it as it will be. -/
theorem foldl_at {n i : Nat} {f : Dev → Nat → Dev} {l : List Nat} (hl : l.Nodup) (hi : i ∈ l)
    (hf : ∀ d, ∀ j ∈ l, j ≠ i → Spares n d (f d j)) (d : Dev) :
    ∃ e, Spares n d e ∧ Spares n (f e i) (l.foldl f d) := by
  obtain ⟨before, after, rfl⟩ := List.append_of_mem hi
  rw [List.nodup_middle, List.nodup_cons, List.mem_append, not_or] at hl
  obtain ⟨⟨hbefore, hafter⟩, -⟩ := hl
  refine ⟨before.foldl f d, foldl_spares (fun d j hj => hf d j (by simp [hj]) fun h => hbefore (h ▸ hj)) d, ?_⟩
  rw [List.foldl_append, List.foldl_cons]
  exact foldl_spares (fun d j hj => hf d j (by simp [hj]) fun h => hafter (h ▸ hj)) _

theorem foldl_within {f : Dev → Nat → Dev} (h : ∀ d i, Within d (f d i)) (l : List Nat) (d : Dev) :
    Within d (l.foldl f d) :=
  rel_foldl .refl .trans h l d

/-- A command that changes the device alone, by what its effect is. -/
theorem exec_onDev {c : Instr} {s : State} {d : Dev} (f : Dev → Dev) (hc : exec c s = onDev f s) (h : f s.dev = d) :
    exec c s = .next { s with dev := d } := by
  rw [hc, onDev_eq, h]

/-! ## Readings of a channel -/

section
variable (d : Dev) (n : Nat)

@[simp] theorem fieldOf_inc (a : Nat) : fieldOf (inc d a) n = fieldOf d n := rfl
@[simp] theorem fieldOf_evFio (b : Nat) : fieldOf (evFio d b) n = fieldOf d n := by simp only [fieldOf, evFio_fio]
@[simp] theorem fieldOf_evField (m b : Nat) : fieldOf (evField d m b) n = fieldOf d n := by simp only [fieldOf, evField_fio]

@[simp] theorem quadBad_setField (m : Nat) (x : FieldCh) : quadBad (setField d m x) n = quadBad d n := rfl
@[simp] theorem coreUp_evFio (b : Nat) : coreUp (evFio d b) n = coreUp d n := by simp only [coreUp, domUp, evFio_rst]

theorem evFio_bit {b : Nat} (h : b < 32) : bit (rd (evFio d b) 0x1100000) b = true := setEv_bit _ _ _ _ _ _ _ h

theorem evField_bit {b : Nat} (h : b < 32) : bit (rd (evField d n b) (fioBase n + 0x14)) b = true :=
  setEv_bit _ _ _ _ _ _ _ h

theorem rd_evFio (b : Nat) {a : Nat} (h : a ≠ 0x1100000) : rd (evFio d b) a = rd d a :=
  (rd_setEv ..).trans (if_neg fun he => h he.1)

theorem rd_evField (b : Nat) {a : Nat} (h : a % 0x40 ≠ 0x14) : rd (evField d n b) a = rd d a :=
  (rd_setEv ..).trans (if_neg fun he => h (by rw [he.1]; unfold fioBase; omega))

theorem fieldMode_evFio (b : Nat) : fieldMode (evFio d b) n = fieldMode d n := by
  rw [fieldMode, actField, rd_evFio _ _ (by unfold fioBase; omega)]
  rfl

/-! ## The operations on one channel -/

theorem setField_inChannel (x : FieldCh) : InChannel n d (setField d n x) where
  fio := rfl
  regs _ _ := rfl
  bits _ _ h := h
  cnts := rfl
  ldc := rfl
  rst := rfl
  others _ hm := (fieldOf_setField ..).trans (if_neg hm)
  safe := rfl

theorem evField_inChannel (b : Nat) : InChannel n d (evField d n b) where
  fio := by rw [evField_fio]
  regs _ ha := rd_evField d n b ha
  bits a i := setEv_keeps d _ _ _ _ _ _ a i
  cnts := evField_cnts ..
  ldc := evField_ldc ..
  rst := evField_rst ..
  others _ _ := fieldOf_evField ..
  safe := by rw [evField_fio]

theorem faultJudge_inChannel : InChannel n d (faultJudge d n) := by
  have hevent (c : Nat) := (setField_inChannel d n { fieldOf d n with repFault := c }).trans (evField_inChannel _ n 1)
  have hrecord (d : Dev) (l : List FieldFault) : InChannel n d { d with fio := { d.fio with faults := l } } :=
    ⟨⟨rfl, fun _ _ => rfl, fun _ _ h => h, rfl, rfl, rfl⟩, fun _ _ => rfl, rfl⟩
  exact .ite (.refl n d) (.ite ((hevent _).trans (hrecord ..)) (hevent _))

theorem fieldJudge_inChannel : InChannel n d (fieldJudge d n) := setField_inChannel ..

theorem fieldDrive_inChannel (want : Bool) : InChannel n d (fieldDrive d n want) := setField_inChannel ..

/-- Whatever the judgement finds, only the FAULT code of the channel can change. -/
theorem fieldOf_faultJudge_keeps : ∃ c, fieldOf (faultJudge d n) n = { fieldOf d n with repFault := c } := by
  unfold faultJudge
  extract_lets x c d1
  have hd1 : fieldOf d1 n = { fieldOf d n with repFault := c } := by simp [d1, x]
  split
  · exact ⟨_, rfl⟩
  · split
    · exact ⟨c, hd1⟩
    · exact ⟨c, hd1⟩

variable {d} in
/-- A clocked device side shows the FAULT code that holds (R294). -/
theorem fieldOf_faultJudge (h : coreUp d 4 = true) :
    fieldOf (faultJudge d n) n = { fieldOf d n with repFault := faultOf d n } := by
  unfold faultJudge
  extract_lets x c d1
  have hd1 : fieldOf d1 n = { fieldOf d n with repFault := c } := by simp [d1, x]
  split
  next hsame =>
    have hc : faultOf d n = (fieldOf d n).repFault := by simpa [h] using hsame
    rw [hc]
  next => split <;> exact hd1

variable {d} in
/-- A change of FAULT sets its event (R294). -/
theorem faultJudge_event (h : coreUp d 4 = true) (hc : faultOf d n ≠ (fieldOf d n).repFault) :
    bit (rd (faultJudge d n) (fioBase n + 0x14)) 1 = true := by
  unfold faultJudge
  extract_lets x c d1
  have hd1 : bit (rd d1 (fioBase n + 0x14)) 1 = true := evField_bit _ n (by decide)
  rw [if_neg (by simp [h, c, x, hc])]
  split <;> exact hd1

@[simp] theorem fieldOf_fieldJudge : fieldOf (fieldJudge d n) n = { fieldOf d n with req := driveReq d n } := by
  simp [fieldJudge]

/-- The drive of an output that should be as `want` says (R293, R403). -/
def driveOf (d : Dev) (n : Nat) (want : Bool) : Bool :=
  want && decide ((fieldOf d n).latched = 0) && !quadBad d n && decide (fieldMode d n = 2) && !d.ldc.gateHold

theorem driveOf_output {d : Dev} {n : Nat} (h : fieldMode d n = 2) (want : Bool) : driveOf d n want =
    (want && decide ((fieldOf d n).latched = 0) && !quadBad d n && !d.ldc.gateHold) := by
  simp [driveOf, h]

/-- What a step that spares the channel leaves of its drive. -/
theorem Spares.driveOf {n : Nat} {d t : Dev} (h : Spares n d t) (want : Bool) : driveOf t n want = driveOf d n want := by
  simp only [FieldChannels.driveOf, h.field, h.quad, h.mode, h.ldc]

@[simp] theorem fieldOf_fieldDrive (want : Bool) : fieldOf (fieldDrive d n want) n = { fieldOf d n with
    want := want, drive := driveOf d n want
    changeTs := if driveOf d n want = (fieldOf d n).drive then (fieldOf d n).changeTs else devTime d } := by
  rw [fieldDrive, fieldOf_setField, if_pos rfl]
  rfl

/-- The FAULT code of an output that is not latched (R294). -/
theorem faultOf_output {d : Dev} {n : Nat} (h : fieldMode d n = 2) : faultOf d n =
    if (fieldOf d n).latched ≠ 0 then (fieldOf d n).latched
    else if quadBad d n then 4 else if (fieldOf d n).mismatch then 5 else 0 := by
  simp only [faultOf, h]

theorem faultOf_input {d : Dev} {n : Nat} (h : fieldMode d n = 1) :
    faultOf d n = if (fieldOf d n).broken then 1 else 0 := by
  simp only [faultOf, h]

/-- A broken wire makes an input stale, which presents 0 (R287). -/
theorem fieldTerm_of_stale {d : Dev} {n : Nat} (hmode : fieldMode d n = 1)
    (h : d.fio.up = false ∨ (fieldOf d n).broken = true) : fieldTerm d n = false := by
  have hstale : fieldStale d n = true := by rcases h with h | h <;> simp [fieldStale, hmode, h]
  simp [fieldTerm, hstale]

end

end Sys2Proof.Proofs.FieldChannels

/-! PROOFS. Inputs, wires, quads and counters of field I/O (R284–R291), and the field side's frame (R287, R290, R297–R300). -/

namespace Sys2Proof.Proofs.FieldInputs

open Sys2Proof Sys2Proof.Machine Sys2Proof.Laws Sys2Proof.Proofs.FreedCells Sys2Proof.Proofs.FieldsApart
open Sys2Proof.Proofs.FieldChannels

/-! ## Edges (R286, R290, R299) -/

section
variable (d : Dev) (n : Nat) (level : Bool) (ts : Nat)

/-- The input in its new state, its edge counted. -/
def edgeSeen : Dev := inc (setField d n { fieldOf d n with state := level, since := ts }) (aFieldCnt n 0)

/-- The edge asks for a record. -/
def edgeWanted : Bool := if level then bit (actEv d n) 31 else bit (actEv d n) 30

/-- The edge is lost: 64 wait already. -/
def edgeDropped (d1 : Dev) : Dev :=
  evFio (inc (setField d1 n { fieldOf d1 n with edgeLost := true }) (aLinkCnt 4)) 4

/-- The edge waits for the field side's frames. -/
def edgeQueued (d1 : Dev) : Dev :=
  { d1 with fio := { d1.fio with
      edges := d.fio.edges ++ [⟨n, level, ts, min 65535 ((ts - (fieldOf d n).since) / 1000000)⟩] } }

variable {d n level ts}

theorem inputEdge_input (hcore : coreUp d 4 = true) (hdom : domUp d 2 = true) (hne : (fieldOf d n).state ≠ level)
    (hmode : fieldMode d n = 1) : inputEdge d n level ts =
      if edgeWanted d n level = false then edgeSeen d n level ts
      else if 64 ≤ d.fio.edges.length then edgeDropped n (edgeSeen d n level ts)
      else edgeQueued d n level ts (edgeSeen d n level ts) := by
  simp only [inputEdge, if_neg hne, hdom, Bool.not_true, Bool.false_eq_true, if_false, hmode, hcore, if_true,
    edgeWanted, Bool.not_eq_true']
  rfl

/-- A seen edge changes the input and its count; a wanted one is queued, or lost and reported when 64 wait. -/
theorem inputEdge_spec {t : Dev} (ht : t = if edgeWanted d n level = false then edgeSeen d n level ts
      else if 64 ≤ d.fio.edges.length then edgeDropped n (edgeSeen d n level ts)
      else edgeQueued d n level ts (edgeSeen d n level ts)) :
    (fieldOf t n).state = level ∧ (fieldOf t n).since = ts ∧ cnt t (aFieldCnt n 0) = cnt d (aFieldCnt n 0) + 1 ∧
    (edgeWanted d n level = true → d.fio.edges.length < 64 → t.fio.edges = d.fio.edges ++
      [⟨n, level, ts, min 65535 ((ts - (fieldOf d n).since) / 1000000)⟩]) ∧
    (edgeWanted d n level = true → 64 ≤ d.fio.edges.length → t.fio.edges = d.fio.edges ∧
      (fieldOf t n).edgeLost = true ∧ cnt t (aLinkCnt 4) = cnt d (aLinkCnt 4) + 1 ∧
      bit (rd t 0x1100000) 4 = true) ∧
    (edgeWanted d n level = false → t.fio.edges = d.fio.edges) := by
  have hcnt : aFieldCnt n 0 ≠ aLinkCnt 4 := by unfold aLinkCnt aFieldCnt fioBase; omega
  have hseen : fieldOf (edgeSeen d n level ts) n = { fieldOf d n with state := level, since := ts } := by simp [edgeSeen]
  have hcount (a : Nat) : cnt (edgeSeen d n level ts) a = if a = aFieldCnt n 0 then cnt d a + 1 else cnt d a := by
    rw [edgeSeen, cnt_inc]
    split <;> simp [*]
  by_cases hwant : edgeWanted d n level = true
  · by_cases hfull : 64 ≤ d.fio.edges.length
    · rw [if_neg (by simp [hwant]), if_pos hfull] at ht
      subst ht
      have hfield : fieldOf (edgeDropped n (edgeSeen d n level ts)) n =
          { fieldOf d n with state := level, since := ts, edgeLost := true } := by
        simp [edgeDropped, hseen]
      rw [hfield]
      refine ⟨rfl, rfl, ?_, fun _ h => absurd hfull (by omega), fun _ _ => ⟨?_, rfl, ?_, evFio_bit _ (by decide)⟩, ?_⟩
      · simp [edgeDropped, hcnt, hcount]
      · simp [edgeDropped, edgeSeen, setField]
      · simp [edgeDropped, hcnt.symm, hcount]
      · simp [hwant]
    · rw [if_neg (by simp [hwant]), if_neg hfull] at ht
      subst ht
      have hfield : fieldOf (edgeQueued d n level ts (edgeSeen d n level ts)) n =
          { fieldOf d n with state := level, since := ts } := hseen
      rw [hfield]
      exact ⟨rfl, rfl, (hcount _).trans (if_pos rfl), fun _ _ => rfl, fun _ h => absurd h hfull, fun h => by simp [hwant] at h⟩
  · rw [Bool.not_eq_true] at hwant
    rw [if_pos hwant] at ht
    subst ht
    rw [hseen, hwant]
    exact ⟨rfl, rfl, (hcount _).trans (if_pos rfl), nofun, nofun, fun _ => rfl⟩

theorem inputEdge_counter (hdom : domUp d 2 = true) (hne : (fieldOf d n).state ≠ level) (hmode : fieldMode d n = 3) :
    inputEdge d n level ts = setField d n { fieldOf d n with
      state := level, since := ts
      fsCount := if 2 ≤ fld (actField d n) 15 14 ∨ (fld (actField d n) 15 14 = 0 ↔ level = true) then
        (fieldOf d n).fsCount + 1 else (fieldOf d n).fsCount
      fsEdge := if 2 ≤ fld (actField d n) 15 14 ∨ (fld (actField d n) 15 14 = 0 ↔ level = true) then ts
        else (fieldOf d n).fsEdge } := by
  have hit : (decide (2 ≤ fld (actField d n) 15 14) ||
      (if level then fld (actField d n) 15 14 == 0 else fld (actField d n) 15 14 == 1)) =
      decide (2 ≤ fld (actField d n) 15 14 ∨ (fld (actField d n) 15 14 = 0 ↔ level = true)) := by
    rw [Bool.eq_iff_iff]
    cases level
    · simp; omega
    · simp
  simp only [inputEdge, if_neg hne, hdom, Bool.not_true, Bool.false_eq_true, if_false, hmode, hit, decide_eq_true_eq]

theorem inputEdge_output (hne : (fieldOf d n).state ≠ level) (hmode : fieldMode d n = 2) :
    inputEdge d n level ts = setField d n { fieldOf d n with state := level, since := ts } := by
  simp only [inputEdge, if_neg hne, hmode]
  exact ite_self _

end

/-! ## Wire breaks and mismatches (R287, R288, R294) -/

section
variable {d : Dev} {n : Nat}

theorem wireBreak_breaks (hmode : fieldMode d n = 1) (hquad : quadBad d n = false) (htype : bit (actField d n) 29 = true)
    (hen : bit (actField d n) 28 = true) (hwhole : (fieldOf d n).broken = false) :
    wireBreak d n = faultJudge (setField d n { fieldOf d n with broken := true }) n := by
  simp [wireBreak, hmode, hquad, htype, hen, hwhole]

theorem wireBreakClear_clears (hquad : quadBad d n = false) (hbroken : (fieldOf d n).broken = true) :
    wireBreakClear d n = faultJudge (setField d n { fieldOf d n with broken := false }) n := by
  simp [wireBreakClear, hquad, hbroken]

theorem wireBreak_quadBad (hquad : quadBad d n = true) : wireBreak d n = d ∧ wireBreakClear d n = d := by
  simp [wireBreak, wireBreakClear, hquad]

theorem outputMismatch_judged {on : Bool} (hmode : fieldMode d n = 2) (hdrive : (fieldOf d n).drive = false) :
    outputMismatch d n on = faultJudge (setField d n { fieldOf d n with mismatch := on, state := on }) n := by
  simp [outputMismatch, hmode, hdrive]

/-- The device side judges an input whose wire is found broken or whole. -/
theorem broken_judged {broken : Bool} (hcore : coreUp d 4 = true) (hmode : fieldMode d n = 1) :
    (fieldOf (faultJudge (setField d n { fieldOf d n with broken := broken }) n) n).broken = broken ∧
    (fieldOf (faultJudge (setField d n { fieldOf d n with broken := broken }) n) n).repFault =
      (if broken then 1 else 0) ∧
    ((fieldOf d n).repFault ≠ (if broken then 1 else 0) →
      bit (rd (faultJudge (setField d n { fieldOf d n with broken := broken }) n) (fioBase n + 0x14)) 1 = true) := by
  have hfault : faultOf (setField d n { fieldOf d n with broken := broken }) n = if broken then 1 else 0 := by
    rw [faultOf_input (by exact hmode), fieldOf_setField, if_pos rfl]
  have hshown : (fieldOf (setField d n { fieldOf d n with broken := broken }) n).repFault = (fieldOf d n).repFault := by
    rw [fieldOf_setField, if_pos rfl]
  rw [fieldOf_faultJudge n (by exact hcore), fieldOf_setField, if_pos rfl, hfault]
  refine ⟨rfl, rfl, fun hne => faultJudge_event n (by exact hcore) ?_⟩
  rw [hfault, hshown]
  exact hne.symm

/-- The device side judges an output whose terminal is found at odds with its drive, or not. -/
theorem mismatch_judged {on : Bool} (hcore : coreUp d 4 = true) (hmode : fieldMode d n = 2) :
    (fieldOf (faultJudge (setField d n { fieldOf d n with mismatch := on, state := on }) n) n).mismatch = on ∧
    ((fieldOf d n).latched = 0 → quadBad d n = false →
      (fieldOf (faultJudge (setField d n { fieldOf d n with mismatch := on, state := on }) n) n).repFault =
        if on then 5 else 0) := by
  rw [fieldOf_faultJudge n (by exact hcore), faultOf_output (by exact hmode), fieldOf_setField, if_pos rfl]
  refine ⟨rfl, fun hlatched hquad => ?_⟩
  simp [hlatched, hquad]

end

/-! ## Quads (R284) -/

/-- A channel of a quad follows its supply. -/
def quadFollow (d : Dev) (n : Nat) : Dev :=
  if coreUp d 4 then fieldJudge (faultJudge (fieldDrive d n (fieldOf d n).want) n) n
  else faultJudge (fieldDrive d n (fieldOf d n).want) n

theorem quadFollow_inChannel (d : Dev) (n : Nat) : InChannel n d (quadFollow d n) := by
  have hjudged : InChannel n d (faultJudge (fieldDrive d n (fieldOf d n).want) n) :=
    (fieldDrive_inChannel ..).trans (faultJudge_inChannel ..)
  exact .ite (hjudged.trans (fieldJudge_inChannel ..)) hjudged

/-- What an output makes of its quad: its drive and its FAULT code, and nothing of its command or its latch. -/
theorem quadFollow_output {d : Dev} (n : Nat) (hcore : coreUp d 4 = true) :
    (fieldOf (quadFollow d n) n).drive = driveOf d n (fieldOf d n).want ∧
    (fieldOf (quadFollow d n) n).recorded = (fieldOf d n).recorded ∧
    (fieldOf (quadFollow d n) n).latched = (fieldOf d n).latched ∧
    (fieldOf (quadFollow d n) n).repFault = faultOf (fieldDrive d n (fieldOf d n).want) n := by
  have hcore' : coreUp (fieldDrive d n (fieldOf d n).want) 4 = true := hcore
  rw [quadFollow, if_pos hcore, fieldOf_fieldJudge, fieldOf_faultJudge n hcore', fieldOf_fieldDrive]
  exact ⟨rfl, rfl, rfl, rfl⟩

section
variable {d : Dev} {q : Nat} {bad : Bool} {v : BitVec 16}

/-- The quads out of range once quad `q` is judged. -/
def quadsAfter (d : Dev) (q : Nat) (bad : Bool) : BitVec 8 :=
  if bad then d.fio.quadBad ||| (1#8 <<< q) else d.fio.quadBad &&& ~~~(1#8 <<< q)

theorem getLsbD_quadsAfter (d : Dev) {q : Nat} (bad : Bool) (hq : q < 8) : (quadsAfter d q bad).getLsbD q = bad := by
  cases bad
  · exact (getLsbD_clear ..).trans (by simp)
  · exact (getLsbD_set ..).trans (by simp [hq])

/-- The judged supply, its voltage shown and its event set, before its channels follow. -/
def quadJudged (d : Dev) (q : Nat) (bad : Bool) (v : BitVec 16) : Dev :=
  evFio { d with fio := { d.fio with
    quadVolt := tset 0 d.fio.quadVolt q v.toNat, quadBad := quadsAfter d q bad, quadTold := quadsAfter d q bad } } 3

theorem quadSet_changes (hcore : coreUp d 4 = true) (hold : d.fio.quadBad.getLsbD q ≠ bad)
    (hrange : if bad then v.toNat < 1800 ∨ 3200 < v.toNat else 1900 ≤ v.toNat ∧ v.toNat ≤ 3100) :
    quadSet d q bad v = (List.range 4).foldl (fun d i => quadFollow d (4 * q + i)) (quadJudged d q bad v) := by
  have hjudged : (if bad then decide (v.toNat < 1800 ∨ 3200 < v.toNat) else decide (1900 ≤ v.toNat ∧ v.toNat ≤ 3100)) = true := by
    cases bad <;> simpa using hrange
  unfold quadSet
  extract_lets _ shown volt judged m q1 _ d1
  have hj : judged = true := hjudged
  rw [if_neg (not_or.2 ⟨hold, by simp [hj]⟩)]
  have hd1 : d1 = quadJudged d q bad v := if_pos hcore
  rw [hd1]
  rfl

/-- A supply that goes out of range, or comes back, is shown with its voltage and event, and its outputs follow it. -/
theorem quadSet_spec (hcore : coreUp d 4 = true) (hq : q < 8) (hold : d.fio.quadBad.getLsbD q ≠ bad)
    (hrange : if bad then v.toNat < 1800 ∨ 3200 < v.toNat else 1900 ≤ v.toNat ∧ v.toNat ≤ 3100) :
    tget 0 (quadSet d q bad v).fio.quadVolt q = v.toNat ∧ (quadSet d q bad v).fio.quadBad.getLsbD q = bad ∧
    bit (rd (quadSet d q bad v) 0x1100000) 3 = true ∧ ∀ n < 32, n / 4 = q → fieldMode d n = 2 →
      (fieldOf (quadSet d q bad v) n).drive =
        ((fieldOf d n).want && decide ((fieldOf d n).latched = 0) && !bad && !d.ldc.gateHold) ∧
      (fieldOf (quadSet d q bad v) n).recorded = (fieldOf d n).recorded ∧
      (fieldOf (quadSet d q bad v) n).latched = (fieldOf d n).latched ∧
      (bad = true → (fieldOf (quadSet d q bad v) n).repFault =
        if (fieldOf d n).latched ≠ 0 then (fieldOf d n).latched else 4) := by
  have hbits := getLsbD_quadsAfter d bad hq
  have hwithin := foldl_within (fun d i => (quadFollow_inChannel d (4 * q + i)).toWithin) (List.range 4) (quadJudged d q bad v)
  rw [quadSet_changes hcore hold hrange]
  refine ⟨?_, ?_, hwithin.bits _ _ (evFio_bit _ (by decide)), fun n hn hnq hmode => ?_⟩
  · rw [hwithin.fio]; simp [quadJudged]
  · rw [hwithin.fio]; simpa [quadJudged] using hbits
  have hi : n - 4 * q ∈ List.range 4 := List.mem_range.2 (by omega)
  obtain ⟨e, he, ht⟩ := foldl_at (n := n) (f := fun d i => quadFollow d (4 * q + i)) List.nodup_range hi
    (fun d j _ hj => (quadFollow_inChannel d (4 * q + j)).spares (by omega)) (quadJudged d q bad v)
  have hn' : 4 * q + (n - 4 * q) = n := by omega
  rw [hn'] at ht
  have hfield : fieldOf e n = fieldOf d n := by rw [he.field]; simp [quadJudged, fieldOf]
  have hmode' : fieldMode e n = 2 := by rw [he.mode]; exact (fieldMode_evFio ..).trans hmode
  have hquad : quadBad e n = bad := by rw [he.quad, quadBad, hnq]; simpa [quadJudged] using hbits
  have hcore' : coreUp e 4 = true := by rw [he.core]; exact (coreUp_evFio ..).trans hcore
  have hhold : e.ldc.gateHold = d.ldc.gateHold := by rw [he.ldc]; simp [quadJudged]
  obtain ⟨hdrive, hrecorded, hlatched, hfault⟩ := quadFollow_output n hcore'
  rw [ht.field, hdrive, hrecorded, hlatched, hfault, driveOf_output hmode', hfield, hquad, hhold]
  refine ⟨rfl, rfl, rfl, ?_⟩
  rintro rfl
  have hdriven : quadBad (fieldDrive e n (fieldOf d n).want) n = true := hquad
  rw [faultOf_output (by exact hmode'), fieldOf_fieldDrive, hfield, if_pos hdriven]

end

end Sys2Proof.Proofs.FieldInputs

/-! PROOFS. What a valid field-side frame brings over (R287, R290, R297–R300): states, drives and counts, and one record,
with one EVT_SEQ, for each edge, change of FAULT and snapshot of its period. -/

namespace Sys2Proof.Proofs.FieldReports

open Sys2Proof Sys2Proof.Machine Sys2Proof.Laws Sys2Proof.Proofs.FreedCells Sys2Proof.Proofs.FieldsApart
open Sys2Proof.Proofs.FieldChannels Sys2Proof.Proofs.FieldInputs

/-! ## Changes of channels alone -/

/-- From `d` to `t` nothing but channels has changed. -/
def OnlyChannels (d t : Dev) : Prop := t = { d with fio := { d.fio with ch := t.fio.ch } }

theorem OnlyChannels.refl (d : Dev) : OnlyChannels d d := rfl

theorem OnlyChannels.trans {a b c : Dev} (h : OnlyChannels a b) (g : OnlyChannels b c) : OnlyChannels a c := by
  unfold OnlyChannels at *
  rw [g, h]

theorem setField_onlyChannels (d : Dev) (n : Nat) (x : FieldCh) : OnlyChannels d (setField d n x) := rfl

theorem OnlyChannels.rd {d t : Dev} (h : OnlyChannels d t) (a : Nat) : rd t a = rd d a := by
  rw [h]
  rfl

theorem OnlyChannels.words {d t : Dev} (h : OnlyChannels d t) (n : Nat) : actField t n = actField d n := h.rd _

theorem OnlyChannels.mode {d t : Dev} (h : OnlyChannels d t) (n : Nat) : fieldMode t n = fieldMode d n := by
  rw [fieldMode, h.words, fieldMode]

theorem OnlyChannels.fio {d t : Dev} (h : OnlyChannels d t) : t.fio = { d.fio with ch := t.fio.ch } :=
  congrArg Dev.fio h

/-! ## Records (R297, R298) -/

/-- From `d` to `t` channel `n` has formed `k n` records, and beside what a record marks in its channel nothing of field
I/O has changed. -/
structure Recorded (k : Nat → Nat) (d t : Dev) : Prop where
  fio : t.fio = { d.fio with ch := t.fio.ch }
  words : ∀ n < 32, actField t n = actField d n
  fields : ∀ n < 32, ∃ lost edgeLost snapEdge, fieldOf t n = { fieldOf d n with
    evtSeq := (fieldOf d n).evtSeq + BitVec.ofNat 16 (k n), lost := lost, edgeLost := edgeLost, snapEdge := snapEdge }

theorem Recorded.trans {j k : Nat → Nat} {a b c : Dev} (h : Recorded j a b) (g : Recorded k b c) :
    Recorded (fun n => j n + k n) a c where
  fio := by rw [g.fio, h.fio]
  words n hn := (g.words n hn).trans (h.words n hn)
  fields n hn := by
    obtain ⟨_, _, _, hb⟩ := h.fields n hn
    obtain ⟨lost, edgeLost, snapEdge, hc⟩ := g.fields n hn
    refine ⟨lost, edgeLost, snapEdge, ?_⟩
    rw [hc, hb, BitVec.ofNat_add, ← BitVec.add_assoc]

theorem Recorded.congr {j k : Nat → Nat} {d t : Dev} (h : Recorded j d t) (hjk : ∀ n < 32, j n = k n) : Recorded k d t :=
  ⟨h.fio, h.words, fun n hn => hjk n hn ▸ h.fields n hn⟩

theorem recorded_of_apart {d t : Dev} (h : Apart d t) : Recorded (fun _ => 0) d t :=
  ⟨by rw [h.fio], h.words, fun n _ => ⟨_, _, _, by rw [fieldOf, h.fio, BitVec.add_zero]; rfl⟩⟩

/-- A channel written with what a record marks in it. -/
theorem setField_recorded (d : Dev) (n k : Nat) (lost edgeLost : Bool) (snapEdge : Nat) :
    Recorded (fun m => if m = n then k else 0) d (setField d n { fieldOf d n with
      evtSeq := (fieldOf d n).evtSeq + BitVec.ofNat 16 k, lost := lost, edgeLost := edgeLost, snapEdge := snapEdge }) where
  fio := rfl
  words _ _ := rfl
  fields m _ := by
    by_cases hm : m = n
    · subst m
      exact ⟨lost, edgeLost, snapEdge, by simp⟩
    · exact ⟨_, _, _, by simp [hm]; rfl⟩

theorem lost_recorded (d : Dev) (n : Nat) : Recorded (fun _ => 0) d (setField d n { fieldOf d n with lost := true }) := by
  have h := setField_recorded d n 0 true (fieldOf d n).edgeLost (fieldOf d n).snapEdge
  rw [BitVec.add_zero] at h
  exact h.congr fun _ _ => ite_self 0

theorem formRecord_recorded (d : Dev) (n ts : Nat) (edge : Bool) (body : BitVec 16 → Bool → FrameBody) :
    Recorded (fun m => if m = n then 1 else 0) d (formRecord d n ts edge body) := by
  have hlost (d : Dev) : Recorded (fun _ => 0) d
      (evField (inc (setField d n { fieldOf d n with lost := true }) (aFieldCnt n 1)) n 0) := by
    have hevent (d : Dev) : Apart d (evField d n 0) := setEv_apart _ _ _ _ _ _ (.inr (.inr (by unfold fioBase; omega)))
    exact (lost_recorded d n).trans (recorded_of_apart ((inc_apart ..).trans (hevent _)))
  unfold formRecord
  extract_lets x seq cls f d1 lose
  have hd1 : Recorded (fun m => if m = n then 1 else 0) d d1 := setField_recorded d n 1 ..
  have hbasin := enterBasin_apart d1 f
  split
  · exact hd1.trans (hlost d1)
  · split
    · next uid d2 heq =>
      rw [heq] at hbasin
      exact hd1.trans (recorded_of_apart hbasin)
    · next d2 heq =>
      rw [heq] at hbasin
      exact hd1.trans ((recorded_of_apart hbasin).trans (hlost d2))

/-- Whether a record that a period asks for is one of channel `n`; a snapshot is formed of a counter alone. -/
def reports (d : Dev) (n : Nat) : FieldRec → Bool
  | .edge e => e.ch == n
  | .fault e => e.ch == n
  | .snap l _ => l.ch == n && decide (fieldMode d n = 3)

/-- What a record of channel `c` counts for channel `n`, said as `reports` says it. -/
theorem one_if_eq (n c : Nat) : (if n = c then 1 else 0) = if (c == n) = true then 1 else 0 := by
  simp only [beq_iff_eq, @eq_comm _ c]

theorem snapRecord_recorded (d : Dev) (l : SnapLatch) (c : BitVec 64) :
    Recorded (fun n => if n = l.ch then 1 else 0) d (snapRecord d l c) := by
  have hedge := setField_recorded d l.ch 0 (fieldOf d l.ch).lost (fieldOf d l.ch).edgeLost l.edge
  rw [BitVec.add_zero] at hedge
  rw [snapRecord]
  refine Recorded.congr (hedge.trans (formRecord_recorded ..)) fun n _ => ?_
  rw [ite_self, Nat.zero_add]

theorem recForm_recorded (d : Dev) (r : FieldRec) : Recorded (fun n => if reports d n r then 1 else 0) d (recForm d r) := by
  cases r with
  | edge e =>
    rw [recForm, edgeRecord]
    exact (formRecord_recorded ..).congr fun n _ => one_if_eq ..
  | fault e =>
    rw [recForm, faultRecord]
    exact (formRecord_recorded ..).congr fun n _ => one_if_eq ..
  | snap l c =>
    rw [recForm]
    split
    next hmode =>
      refine (snapRecord_recorded d l c).congr fun n _ => ?_
      by_cases hn : n = l.ch
      · subst hn; simp [reports, hmode]
      · simp [reports, hn, Ne.symm hn]
    next hmode =>
      refine (recorded_of_apart (.refl d)).congr fun n _ => (if_neg ?_).symm
      simp only [reports, Bool.and_eq_true, beq_iff_eq, decide_eq_true_eq, not_and]
      rintro rfl
      exact hmode

theorem foldl_recForm_recorded (l : List FieldRec) (d : Dev) :
    Recorded (fun n => l.countP (reports d n)) d (l.foldl recForm d) := by
  induction l generalizing d with
  | nil => exact recorded_of_apart (.refl d)
  | cons r l ih =>
    have hr := recForm_recorded d r
    refine (hr.trans (ih _)).congr fun n hn => ?_
    have hmode : fieldMode (recForm d r) n = fieldMode d n := by rw [fieldMode, hr.words n hn, fieldMode]
    have hsame : reports (recForm d r) n = reports d n := by
      funext q
      cases q <;> simp only [reports, hmode]
    rw [hsame, List.countP_cons, Nat.add_comm]

theorem recInsert_perm (r : FieldRec) (l : List FieldRec) : (recInsert r l).Perm (r :: l) := by
  induction l with
  | nil => exact .refl _
  | cons x t ih =>
    unfold recInsert
    split
    · exact .refl _
    · exact (ih.cons x).trans (.swap r x t)

/-- The order by time loses no record. -/
theorem recSort_perm (l : List FieldRec) : (recSort l).Perm l := by
  have hfold (l acc : List FieldRec) : (l.foldl (fun a r => recInsert r a) acc).Perm (l ++ acc) := by
    induction l generalizing acc with
    | nil => exact .refl _
    | cons r l ih => exact (ih _).trans (((recInsert_perm r acc).append_left l).trans List.perm_middle)
  exact (hfold l []).trans (by rw [List.append_nil])

/-! ## What the frame reports (R287, R290) -/

/-- The reported states and drives taken over. -/
def statesTaken (d : Dev) (u : UpFrame) : Dev :=
  (List.range 32).foldl (fun d n => setField d n { fieldOf d n with
    repState := u.states.getLsbD n, repDrive := u.drives.getLsbD n }) d

theorem statesTaken_onlyChannels (d : Dev) (u : UpFrame) : OnlyChannels d (statesTaken d u) :=
  rel_foldl .refl .trans (fun d n => setField_onlyChannels d n _) ..

theorem fieldOf_statesTaken (d : Dev) (u : UpFrame) {n : Nat} (hn : n < 32) : fieldOf (statesTaken d u) n =
    { fieldOf d n with repState := u.states.getLsbD n, repDrive := u.drives.getLsbD n } := by
  obtain ⟨e, he, ht⟩ := foldl_at (n := n) List.nodup_range (List.mem_range.2 hn)
    (fun d j _ hj => (setField_inChannel d j { fieldOf d j with
      repState := u.states.getLsbD j, repDrive := u.drives.getLsbD j }).spares hj.symm) d
  rw [statesTaken, ht.field, fieldOf_setField, if_pos rfl, he.field]

/-- One latched counter taken over, extended to 64 bits. -/
def countTaken (d : Dev) (c : Nat × (BitVec 32 × Nat)) : Dev :=
  if fieldMode d c.1 = 3 then setField d c.1 { fieldOf d c.1 with
    count := (fieldOf d c.1).count + BitVec.ofNat 64 (c.2.1 - (fieldOf d c.1).countLast).toNat
    countLast := c.2.1, lastEdge := c.2.2 }
  else d

theorem countTaken_inChannel (d : Dev) (c : Nat × (BitVec 32 × Nat)) : InChannel c.1 d (countTaken d c) :=
  .ite (setField_inChannel ..) (.refl ..)

theorem countTaken_onlyChannels (d : Dev) (c : Nat × (BitVec 32 × Nat)) : OnlyChannels d (countTaken d c) := by
  unfold countTaken
  split
  · exact setField_onlyChannels ..
  · exact .refl d

theorem countsTaken_onlyChannels (l : List (Nat × (BitVec 32 × Nat))) (d : Dev) :
    OnlyChannels d (l.foldl countTaken d) :=
  rel_foldl .refl .trans countTaken_onlyChannels ..

/-- From `d` to `t` a channel differs in its count at most. -/
def CountsOnly (n : Nat) (d t : Dev) : Prop := ∃ count countLast lastEdge, fieldOf t n =
  { fieldOf d n with count := count, countLast := countLast, lastEdge := lastEdge }

theorem countsTaken_countsOnly (l : List (Nat × (BitVec 32 × Nat))) (d : Dev) (n : Nat) :
    CountsOnly n d (l.foldl countTaken d) := by
  refine rel_foldl (R := CountsOnly n) (fun _ => ⟨_, _, _, rfl⟩) ?_ (fun d c => ?_) l d
  · rintro a b c ⟨_, _, _, h⟩ ⟨_, _, _, g⟩
    exact ⟨_, _, _, by rw [g, h]⟩
  · unfold countTaken
    split
    · by_cases hn : n = c.1
      · subst hn
        exact ⟨_, _, _, by rw [fieldOf_setField, if_pos rfl]⟩
      · exact ⟨_, _, _, by rw [fieldOf_setField, if_neg hn]⟩
    · exact ⟨_, _, _, rfl⟩

/-- Of the counters of a frame each is taken once. -/
theorem fieldOf_countsTaken (f : Nat → BitVec 32 × Nat) (d : Dev) {n : Nat} (hn : n < 8) (hmode : fieldMode d n = 3) :
    fieldOf (((List.range 8).map fun n => (n, f n)).foldl countTaken d) n = { fieldOf d n with
      count := (fieldOf d n).count + BitVec.ofNat 64 ((f n).1 - (fieldOf d n).countLast).toNat
      countLast := (f n).1, lastEdge := (f n).2 } := by
  rw [List.foldl_map]
  obtain ⟨e, he, ht⟩ := foldl_at (n := n) List.nodup_range (List.mem_range.2 hn)
    (fun d j _ hj => (countTaken_inChannel d (j, f j)).spares hj.symm) d
  rw [ht.field, countTaken, if_pos (by rw [he.mode, hmode]), fieldOf_setField, if_pos rfl, he.field]

/-- The device with the counters of a frame taken over, and what the frame brings taken off the queues. -/
def queuesTaken (d : Dev) (u : UpFrame) : Dev :=
  let d2 := u.counts.foldl countTaken (statesTaken d u)
  { d2 with fio := { d2.fio with
    edges := d2.fio.edges.drop u.edges.length, snaps := d2.fio.snaps.drop u.snaps.length
    faults := d2.fio.faults.filter fun e => !decide (e.ts ≤ u.latch) } }

/-- The records of the frame's period. -/
def periodRecs (d : Dev) (u : UpFrame) : List FieldRec :=
  u.edges.map FieldRec.edge ++ ((u.counts.foldl countTaken (statesTaken d u)).fio.faults.filter fun e =>
      decide (e.ts ≤ u.latch)).map FieldRec.fault
    ++ u.snaps.map fun l => FieldRec.snap l ((fieldOf (statesTaken d u) l.ch).count +
      BitVec.ofNat 64 (l.count - (fieldOf (statesTaken d u) l.ch).countLast).toNat)

theorem upTake_eq (d : Dev) (u : UpFrame) : upTake d u = (recSort (periodRecs d u)).foldl recForm (queuesTaken d u) := rfl

/-- How many records of channel `n` a frame brings (R297). -/
def recordsOf (d : Dev) (u : UpFrame) (n : Nat) : Nat :=
  (u.edges.filter (·.ch == n)).length +
    (d.fio.faults.filter fun e => e.ch == n && decide (e.ts ≤ u.latch)).length +
    if fieldMode d n = 3 then (u.snaps.filter (·.ch == n)).length else 0

theorem taken_onlyChannels (d : Dev) (u : UpFrame) : OnlyChannels d (u.counts.foldl countTaken (statesTaken d u)) :=
  (statesTaken_onlyChannels d u).trans (countsTaken_onlyChannels ..)

theorem queuesTaken_fio (d : Dev) (u : UpFrame) : (queuesTaken d u).fio = { d.fio with
    ch := (queuesTaken d u).fio.ch, edges := d.fio.edges.drop u.edges.length, snaps := d.fio.snaps.drop u.snaps.length
    faults := d.fio.faults.filter fun e => !decide (e.ts ≤ u.latch) } := by
  have h := taken_onlyChannels d u
  unfold OnlyChannels at h
  unfold queuesTaken
  rw [h]

theorem queuesTaken_words (d : Dev) (u : UpFrame) (n : Nat) : actField (queuesTaken d u) n = actField d n :=
  (taken_onlyChannels d u).words n

theorem countP_periodRecs (d : Dev) (u : UpFrame) (n : Nat) :
    (periodRecs d u).countP (reports (queuesTaken d u) n) = recordsOf d u n := by
  have hmode : fieldMode (queuesTaken d u) n = fieldMode d n := by rw [fieldMode, queuesTaken_words, fieldMode]
  have hfaults : (u.counts.foldl countTaken (statesTaken d u)).fio.faults = d.fio.faults := by
    rw [(taken_onlyChannels d u).fio]
  have hsnaps : u.snaps.countP (fun l => l.ch == n && decide (fieldMode d n = 3)) =
      if fieldMode d n = 3 then (u.snaps.filter (·.ch == n)).length else 0 := by
    split
    next h => simp [h, List.countP_eq_length_filter]
    next h => simp [h]
  rw [periodRecs, List.countP_append, List.countP_append, List.countP_map, List.countP_map, List.countP_map,
    List.countP_filter, hfaults, recordsOf, ← hsnaps, ← List.countP_eq_length_filter, ← List.countP_eq_length_filter]
  simp only [Function.comp_def, reports, hmode]

  
/-! ## The frame as a whole (R300) -/

section
variable {d : Dev} {u : UpFrame} {n : Nat}

theorem upTake_recorded (d : Dev) (u : UpFrame) : Recorded (recordsOf d u) (queuesTaken d u) (upTake d u) := by
  rw [upTake_eq]
  refine (foldl_recForm_recorded ..).congr fun n _ => ?_
  rw [(recSort_perm _).countP_eq, countP_periodRecs]

theorem upTake_fio (d : Dev) (u : UpFrame) : (upTake d u).fio = { d.fio with
    ch := (upTake d u).fio.ch, edges := d.fio.edges.drop u.edges.length, snaps := d.fio.snaps.drop u.snaps.length
    faults := d.fio.faults.filter fun e => !decide (e.ts ≤ u.latch) } := by
  rw [(upTake_recorded d u).fio, queuesTaken_fio]

/-- Every channel has the reported state and drive, and one EVT_SEQ more for each of its records (R287, R297). -/
theorem fieldOf_upTake (d : Dev) (u : UpFrame) (hn : n < 32) :
    (fieldOf (upTake d u) n).repState = u.states.getLsbD n ∧ (fieldOf (upTake d u) n).repDrive = u.drives.getLsbD n ∧
    (fieldOf (upTake d u) n).evtSeq = (fieldOf d n).evtSeq + BitVec.ofNat 16 (recordsOf d u n) := by
  obtain ⟨_, _, _, hrecs⟩ := (upTake_recorded d u).fields n hn
  obtain ⟨_, _, _, hcounts⟩ := countsTaken_countsOnly u.counts (statesTaken d u) n
  have hqueues : fieldOf (queuesTaken d u) n = fieldOf (u.counts.foldl countTaken (statesTaken d u)) n := rfl
  rw [hrecs, hqueues, hcounts, fieldOf_statesTaken d u hn]
  exact ⟨rfl, rfl, rfl⟩

/-- A counter's 64-bit count grows by what its latch has grown since the last one (R290). -/
theorem count_upTake {f : Nat → BitVec 32 × Nat} (hcounts : u.counts = (List.range 8).map fun n => (n, f n))
    (hn : n < 8) (hmode : fieldMode d n = 3) :
    (fieldOf (upTake d u) n).count =
      (fieldOf d n).count + BitVec.ofNat 64 ((f n).1 - (fieldOf d n).countLast).toNat ∧
    (fieldOf (upTake d u) n).countLast = (f n).1 ∧ (fieldOf (upTake d u) n).lastEdge = (f n).2 := by
  obtain ⟨_, _, _, hrecs⟩ := (upTake_recorded d u).fields n (by omega)
  have hmode' : fieldMode (statesTaken d u) n = 3 := ((statesTaken_onlyChannels d u).mode n).trans hmode
  have hqueues : fieldOf (queuesTaken d u) n = fieldOf (u.counts.foldl countTaken (statesTaken d u)) n := rfl
  rw [hrecs, hqueues, hcounts, fieldOf_countsTaken f _ hn hmode', fieldOf_statesTaken d u (by omega)]
  exact ⟨rfl, rfl, rfl⟩

/-- The link rises with the third valid frame. -/
def linkRises (d : Dev) : Bool := !d.fio.up && decide (3 ≤ d.fio.upRun + 1)

/-- The frame accepted, before what it reports is taken over. -/
def frameTaken (d : Dev) (u : UpFrame) : Dev :=
  { d with fio := { d.fio with
    upFrame := none, rxCount := some u.count, upRun := d.fio.upRun + 1, up := d.fio.up || linkRises d
    reported := d.fio.sent, reportTs := devTime d } }

theorem fieldFrameRx_valid (hu : d.fio.upFrame = some u) (hcore : coreUp d 4 = true)
    (hcount : ∀ c, d.fio.rxCount = some c → u.count = c + 1) : fieldFrameRx d true =
      if linkRises d then fieldJudgeAll (evFio (upTake (frameTaken d u) u) 1) else upTake (frameTaken d u) u := by
  unfold fieldFrameRx
  rw [hu]
  dsimp only
  rw [if_neg (by simp [hcore]), if_pos]
  · rfl
  · cases hrx : d.fio.rxCount with
    | none => rfl
    | some c => simpa using hcount c hrx

theorem fieldFrameRx_invalid {crc : Bool} (hu : d.fio.upFrame = some u) (hcore : coreUp d 4 = true)
    (hbad : crc = false ∨ ∃ c, d.fio.rxCount = some c ∧ u.count ≠ c + 1) :
    fieldFrameRx d crc = inc { d with fio := { d.fio with upFrame := none, upRun := 0 } } (aLinkCnt 0) := by
  unfold fieldFrameRx
  rw [hu]
  dsimp only
  rw [if_neg (by simp [hcore]), if_neg]
  obtain rfl | ⟨c, hrx, hne⟩ := hbad
  · simp
  · simp only [hrx, Bool.and_eq_true, beq_iff_eq, not_and]
    exact fun _ => hne

/-- From `d` to `t` a channel differs in its drive request at most. -/
def RequestsOnly (n : Nat) (d t : Dev) : Prop := ∃ req, fieldOf t n = { fieldOf d n with req := req }

theorem fieldJudge_requestsOnly (d : Dev) (m : Nat) : RequestsOnly n d (fieldJudge d m) := by
  by_cases hm : n = m
  · subst hm
    exact ⟨_, fieldOf_fieldJudge ..⟩
  · exact ⟨_, (fieldJudge_inChannel d m).others n hm⟩

theorem fieldJudgeAll_requestsOnly (n : Nat) (d : Dev) : RequestsOnly n d (fieldJudgeAll d) := by
  refine rel_foldl (R := RequestsOnly n) (fun _ => ⟨_, rfl⟩) ?_ (fun d m => fieldJudge_requestsOnly d m) _ d
  rintro a b c ⟨_, h⟩ ⟨_, g⟩
  exact ⟨_, by rw [g, h]⟩

theorem fieldJudgeAll_onlyChannels (d : Dev) : OnlyChannels d (fieldJudgeAll d) :=
  rel_foldl .refl .trans (fun d n => setField_onlyChannels d n _) ..

@[simp] theorem fieldReleaseJudge_fio (d : Dev) : (fieldReleaseJudge d).fio = d.fio := by
  unfold fieldReleaseJudge
  split
  · split <;> rfl
  · rfl

@[simp] theorem cnt_fieldReleaseJudge (d : Dev) (a : Nat) : cnt (fieldReleaseJudge d) a = cnt d a := by
  unfold fieldReleaseJudge
  split
  · split <;> rfl
  · rfl

theorem rd_fieldReleaseJudge (d : Dev) {a : Nat} (h : a ≠ 0x80000C) : rd (fieldReleaseJudge d) a = rd d a := by
  unfold fieldReleaseJudge
  split
  · split
    · exact (rd_wr ..).trans (if_neg h)
    · rfl
  · rfl

/-- What the device side holds once it has taken a valid frame: what the frame reports, and requests judged anew. -/
theorem frameRx_valid (hu : d.fio.upFrame = some u) (hcore : coreUp d 4 = true)
    (hcount : ∀ c, d.fio.rxCount = some c → u.count = c + 1) :
    (fieldReleaseJudge (fieldFrameRx d true)).fio = { (upTake (frameTaken d u) u).fio with
      ch := (fieldReleaseJudge (fieldFrameRx d true)).fio.ch } ∧
    ∀ n, RequestsOnly n (upTake (frameTaken d u) u) (fieldReleaseJudge (fieldFrameRx d true)) := by
  rw [fieldFrameRx_valid hu hcore hcount]
  have hjudged (d : Dev) (n : Nat) (t : Dev) (h : RequestsOnly n d t) : RequestsOnly n d (fieldReleaseJudge t) := by
    obtain ⟨req, hreq⟩ := h
    exact ⟨req, by rw [fieldOf, fieldReleaseJudge_fio, ← hreq, fieldOf]⟩
  split
  · refine ⟨?_, fun n => hjudged _ _ _ ?_⟩
    · rw [fieldReleaseJudge_fio, (fieldJudgeAll_onlyChannels _).fio, evFio_fio]
    · obtain ⟨req, hreq⟩ := fieldJudgeAll_requestsOnly n (evFio (upTake (frameTaken d u) u) 1)
      exact ⟨req, by rw [hreq, fieldOf_evFio]⟩
  · exact ⟨by rw [fieldReleaseJudge_fio], fun n => hjudged _ _ _ ⟨_, rfl⟩⟩

/-- With the third valid frame the link is up, and LINK_UP is set (R300). -/
theorem frameRx_linkUp (hu : d.fio.upFrame = some u) (hcore : coreUp d 4 = true)
    (hcount : ∀ c, d.fio.rxCount = some c → u.count = c + 1) (hrises : linkRises d = true) :
    bit (rd (fieldReleaseJudge (fieldFrameRx d true)) 0x1100000) 1 = true := by
  rw [rd_fieldReleaseJudge _ (by decide), fieldFrameRx_valid hu hcore hcount, if_pos hrises]
  rw [(fieldJudgeAll_onlyChannels _).rd]
  exact evFio_bit _ (by decide)

end

/-- Settles O40. An edge, a wire, a quad and a mismatch change their own channels (`InChannel`); a valid frame forms one
record for each edge, change of FAULT and snapshot of its period (`upTake_recorded`), and a record leaves field I/O alone
but for its channel's EVT_SEQ and marks, whatever its frame meets in the Basin (`enterBasin_apart`). -/
theorem fieldInputsAndRecords : Obligations.FieldInputsAndRecords := by
  unfold Obligations.FieldInputsAndRecords
  refine ⟨?edge, ?counter, ?output, ?wire, ?quad, ?mismatch, ?snapshot, ?frame⟩
  case edge =>
    rintro s n level ts want hcore hdom hne hmode rfl
    exact ⟨_, rfl, inputEdge_spec (inputEdge_input hcore hdom hne hmode)⟩
  case counter =>
    intro s n level ts hdom hne hmode
    exact exec_onDev (inputEdge · n level ts) rfl (inputEdge_counter hdom hne hmode)
  case output =>
    intro s n level ts hne hmode
    exact exec_onDev (inputEdge · n level ts) rfl (inputEdge_output hne hmode)
  case wire =>
    intro s n hcore _ hmode
    refine ⟨fun hquad htype hen hwhole => ⟨_, exec_onDev (wireBreak · n) rfl (wireBreak_breaks hmode hquad htype hen hwhole), ?_⟩,
      fun hquad hbroken => ⟨_, exec_onDev (wireBreakClear · n) rfl (wireBreakClear_clears hquad hbroken), ?_⟩, fun hquad => ?_⟩
    · obtain ⟨hbroken, hfault, hevent⟩ := broken_judged (broken := true) hcore hmode
      exact ⟨hbroken, hfault, fieldTerm_of_stale (((faultJudge_inChannel ..).mode _).trans hmode) (.inr hbroken), hevent⟩
    · obtain ⟨hbroken, hfault, -⟩ := broken_judged (broken := false) hcore hmode
      exact ⟨hbroken, hfault⟩
    · obtain ⟨hbreak, hclear⟩ := wireBreak_quadBad hquad
      exact ⟨exec_onDev (wireBreak · n) rfl hbreak, exec_onDev (wireBreakClear · n) rfl hclear⟩
  case quad =>
    intro s q v hcore
    refine ⟨fun hold hrange => ⟨_, rfl, ?_⟩, fun hold hlo hhi => ⟨_, rfl, ?_⟩⟩
    · obtain ⟨hvolt, hbit, hevent, hch⟩ := quadSet_spec (bad := true) (v := v) hcore q.isLt (by rw [hold]; decide) hrange
      refine ⟨hvolt, hbit, hevent, fun n hn hq hmode => ?_⟩
      obtain ⟨hdrive, hrecorded, hlatched, hfault⟩ := hch n hn hq hmode
      exact ⟨hdrive.trans (by simp), hrecorded, hlatched, hfault rfl⟩
    · obtain ⟨hvolt, hbit, hevent, hch⟩ := quadSet_spec (bad := false) (v := v) hcore q.isLt (by rw [hold]; decide) ⟨hlo, hhi⟩
      refine ⟨hvolt, hbit, hevent, fun n hn hq hmode => ?_⟩
      obtain ⟨hdrive, hrecorded, -, -⟩ := hch n hn hq hmode
      exact ⟨hdrive.trans (by simp), hrecorded⟩
  case mismatch =>
    intro s n hcore hmode hdrive
    refine ⟨fun _ => ⟨_, exec_onDev (outputMismatch · n true) rfl (outputMismatch_judged hmode hdrive), ?_⟩,
      fun _ => ⟨_, exec_onDev (outputMismatch · n false) rfl (outputMismatch_judged hmode hdrive), ?_⟩⟩
    · exact mismatch_judged (on := true) hcore hmode
    · exact mismatch_judged (on := false) hcore hmode
  case snapshot =>
    intro s n hmode hperiod
    exact exec_onDev (counterSnapshot · n) rfl (if_pos ⟨hmode, hperiod⟩)
  case frame =>
    intro s u hu hcore hcount
    obtain ⟨hfio, hreq⟩ := frameRx_valid hu hcore hcount
    rw [upTake_fio] at hfio
    have hfield (n : Nat) : fieldOf (frameTaken s.dev u) n = fieldOf s.dev n := rfl
    refine ⟨_, rfl, fun e => ?_, ?_, ?_, ?_, ?_, fun n hn => ?_, ?_, fun f hf n hn hmode => ?_⟩
    · rw [hfio]; simp [frameTaken]
    iterate 4 rw [hfio]; rfl
    · obtain ⟨_, h⟩ := hreq n
      obtain ⟨hstate, hdrive, hseq⟩ := fieldOf_upTake (frameTaken s.dev u) u hn
      rw [h]
      exact ⟨hstate, hdrive, hseq⟩
    · rw [hfio]; rfl
    · obtain ⟨_, h⟩ := hreq n
      rw [h]
      exact count_upTake hf hn hmode

end Sys2Proof.Proofs.FieldReports

/-! PROOFS. The isolation link (R293, R294, R300–R302): the frames of both sides, the requests that the field side applies,
silence, recovery and the loss of the link, and latched faults. -/

namespace Sys2Proof.Proofs.FieldLink

open Sys2Proof Sys2Proof.Machine Sys2Proof.Laws Sys2Proof.Proofs.FreedCells Sys2Proof.Proofs.FieldChannels
open Sys2Proof.Proofs.FieldReports

/-! ## The frames of both sides (R300) -/

theorem getLsbD_bits32 (f : Nat → Bool) {n : Nat} (hn : n < 32) : (bits32 f).getLsbD n = f n := by
  have hprefix (k : Nat) : ((List.range k).foldl (fun (a : BitVec 32) n => if f n then a ||| (1#32 <<< n) else a) 0).getLsbD n =
      (decide (n < k) && f n) := by
    induction k with
    | zero => simp
    | succ k ih =>
      have hbit : (1#32 <<< k).getLsbD n = decide (n = k) := by
        rw [Bool.eq_iff_iff]
        simp
        omega
      rw [List.range_succ, List.foldl_append, List.foldl_cons, List.foldl_nil]
      by_cases hk : n = k
      · subst hk
        cases hf : f n <;> simp_all
      · have hlt : decide (n < k + 1) = decide (n < k) := by simp; omega
        rw [hlt, ← ih]
        split
        · rw [BitVec.getLsbD_or, hbit, decide_eq_false hk, Bool.or_false]
        · rfl
  rw [bits32, hprefix, decide_eq_true hn, Bool.true_and]

/-- The device side's next frame. -/
def downOf (d : Dev) : DownFrame := { count := d.fio.txCount + 1, drives := bits32 fun n => (fieldOf d n).req }

/-- The latches of snapshots that are not reported yet, those due now among them (R291). -/
def latchesOf (d : Dev) : List SnapLatch :=
  d.fio.snaps ++ (List.range 8).flatMap fun n => List.replicate (fieldOf d n).snapDue
    ⟨n, devTime d, (fieldOf d n).fsCount, (fieldOf d n).fsEdge⟩

/-- The field side's next frame. -/
def upOf (d : Dev) : UpFrame where
  count := d.fio.fsTxCount + 1
  states := bits32 fun n => (fieldOf d n).state
  drives := bits32 fun n => (fieldOf d n).drive
  edges := d.fio.edges.take 8
  snaps := latchesOf d
  counts := (List.range 8).map fun n => (n, ((fieldOf d n).fsCount, (fieldOf d n).fsEdge))
  latch := devTime d

/-- Both sides have sent their frame. -/
def framesSent (d : Dev) : Dev :=
  { d with fio := { d.fio with
    txCount := d.fio.txCount + 1, downFrame := some (downOf d), sent := d.fio.sent + 1
    fsTxCount := d.fio.fsTxCount + 1, upFrame := some (upOf d), snaps := latchesOf d } }

theorem isolationTx_eq {d : Dev} (hcore : coreUp d 4 = true) (hdom : domUp d 2 = true) : isolationTx d =
    (List.range 8).foldl (fun d n => setField d n { fieldOf d n with snapDue := 0 }) (framesSent d) := by
  simp only [isolationTx, hcore, hdom, if_true]
  rfl

/-- Sending the frames changes the link, and of each counter the snapshots due. -/
theorem isolationTx_spec {d : Dev} (hcore : coreUp d 4 = true) (hdom : domUp d 2 = true) :
    OnlyChannels (framesSent d) (isolationTx d) ∧
    (∀ n < 8, fieldOf (isolationTx d) n = { fieldOf d n with snapDue := 0 }) ∧
    ∀ n, 8 ≤ n → fieldOf (isolationTx d) n = fieldOf d n := by
  rw [isolationTx_eq hcore hdom]
  have hstep (d : Dev) (n : Nat) := setField_inChannel d n { fieldOf d n with snapDue := 0 }
  refine ⟨rel_foldl .refl .trans (fun d n => setField_onlyChannels d n _) .., fun n hn => ?_, fun n hn => ?_⟩
  · obtain ⟨e, he, ht⟩ := foldl_at (n := n) List.nodup_range (List.mem_range.2 hn)
      (fun d j _ hj => (hstep d j).spares hj.symm) (framesSent d)
    rw [ht.field, fieldOf_setField, if_pos rfl, he.field]
    rfl
  · exact (foldl_spares (fun d j hj => (hstep d j).spares (by have := List.mem_range.1 hj; omega)) (framesSent d)).field

/-! ## The loss of the link (R300) -/

theorem fieldLinkDown_drops {d : Dev} (hcore : coreUp d 4 = true) (hup : d.fio.up = true) :
    fieldLinkDown d = evFio (inc { d with fio := { d.fio with up := false, upRun := 0 } } (aLinkCnt 2)) 0 :=
  if_pos ⟨hup, hcore⟩

theorem fieldLinkDown_stopped {d : Dev} (hcore : coreUp d 4 = false) : fieldLinkDown d = d :=
  if_neg (by simp [hcore])

/-! ## The requests that the field side applies (R293, R302) -/

/-- The request of one output applied, but in a safe state. -/
def requestTaken (u : DownFrame) (d : Dev) (n : Nat) : Dev :=
  if groupSafe d n ∨ fieldMode d n ≠ 2 then d else fieldDrive d n (u.drives.getLsbD n)

theorem requestTaken_inChannel (u : DownFrame) (d : Dev) (n : Nat) : InChannel n d (requestTaken u d n) :=
  .ite (.refl ..) (fieldDrive_inChannel ..)

/-- The frame accepted, before its requests are applied. -/
def downAccepted (d : Dev) (u : DownFrame) : Dev :=
  { d with fio := { d.fio with downFrame := none, fsRxCount := some u.count, goodRun := d.fio.goodRun + 1 } }

/-- The requests of the frame applied. -/
def requestsTaken (d : Dev) (u : DownFrame) : Dev := (List.range 32).foldl (requestTaken u) (downAccepted d u)

theorem requestsTaken_within (d : Dev) (u : DownFrame) : Within (downAccepted d u) (requestsTaken d u) :=
  foldl_within (fun d n => (requestTaken_inChannel u d n).toWithin) ..

theorem requestsTaken_safe (d : Dev) (u : DownFrame) : (requestsTaken d u).fio.safe = d.fio.safe :=
  rel_foldl (R := fun a b : Dev => b.fio.safe = a.fio.safe) (fun _ => rfl) (fun h g => g.trans h)
    (fun d n => (requestTaken_inChannel u d n).safe) _ (downAccepted d u)

theorem groupSafe_requestsTaken (d : Dev) (u : DownFrame) (n : Nat) : groupSafe (requestsTaken d u) n = groupSafe d n := by
  rw [groupSafe, requestsTaken_safe, groupSafe]

theorem fieldMode_requestsTaken (d : Dev) (u : DownFrame) (n : Nat) : fieldMode (requestsTaken d u) n = fieldMode d n :=
  (requestsTaken_within d u).mode n

/-- An output in its safe state keeps it; another is driven as the frame asks, but against its own protection. -/
theorem fieldOf_requestsTaken (d : Dev) (u : DownFrame) {n : Nat} (hn : n < 32) (hmode : fieldMode d n = 2) :
    (groupSafe d n = true → fieldOf (requestsTaken d u) n = fieldOf d n) ∧
    (groupSafe d n = false → (fieldOf (requestsTaken d u) n).want = u.drives.getLsbD n ∧
      (fieldOf (requestsTaken d u) n).drive = driveOf d n (u.drives.getLsbD n)) := by
  obtain ⟨e, he, ht⟩ := foldl_at (n := n) List.nodup_range (List.mem_range.2 hn)
    (fun d j _ hj => (requestTaken_inChannel u d j).spares hj.symm) (downAccepted d u)
  have hsafe : groupSafe e n = groupSafe d n := he.safe
  have hmode' : fieldMode e n = 2 := (he.mode n).trans hmode
  have hdrive : driveOf e n (u.drives.getLsbD n) = driveOf d n (u.drives.getLsbD n) := he.driveOf _
  rw [requestsTaken, ht.field, requestTaken, hsafe, hmode']
  refine ⟨fun h => ?_, fun h => ?_⟩
  · rw [if_pos (.inl h), he.field]
    rfl
  · rw [if_neg (by simp [h]), fieldOf_fieldDrive, hdrive]
    exact ⟨rfl, rfl⟩

/-! ## Leaving a safe state (R302) -/

/-- One output leaves its safe state: its drive becomes its recorded command. -/
def leaveSafe (d : Dev) (n : Nat) : Dev :=
  if fieldMode d n = 2 then
    evField (fieldJudge (setField d n { fieldOf d n with recorded := (fieldOf d n).drive }) n) n 3
  else d

theorem leaveSafe_inChannel (d : Dev) (n : Nat) : InChannel n d (leaveSafe d n) :=
  .ite ((setField_inChannel ..).trans ((fieldJudge_inChannel ..).trans (evField_inChannel ..))) (.refl ..)

/-- The group's safe state ended, before its outputs are judged. -/
def groupFreed (d : Dev) (g : Nat) : Dev := { d with fio := { d.fio with safe := d.fio.safe &&& ~~~(1#4 <<< g) } }

theorem groupResume_resumes {d : Dev} {g : Nat} (h : d.fio.safe.getLsbD g = true) :
    groupResume d g = (List.range 8).foldl (fun d i => leaveSafe d (8 * g + i)) (groupFreed d g) :=
  if_neg (by rw [h]; decide)

theorem groupResume_steady {d : Dev} {g : Nat} (h : d.fio.safe.getLsbD g = false) : groupResume d g = d :=
  if_pos (by rw [h]; rfl)

theorem getLsbD_groupFreed (d : Dev) (g b : Nat) :
    (groupFreed d g).fio.safe.getLsbD b = (d.fio.safe.getLsbD b && !decide (b = g)) := by
  have hbit : (1#4 <<< g).getLsbD b = decide (b = g ∧ b < 4) := by
    rw [Bool.eq_iff_iff]
    simp
    omega
  by_cases hb : b < 4
  · rw [groupFreed, BitVec.getLsbD_and, BitVec.getLsbD_not, hbit]
    simp [hb]
  · rw [BitVec.getLsbD_of_ge _ b (by omega), BitVec.getLsbD_of_ge _ b (by omega), Bool.false_and]

theorem groupFreed_within (d : Dev) (g : Nat) : Within d (groupFreed d g) :=
  ⟨rfl, fun _ _ => rfl, fun _ _ h => h, rfl, rfl, rfl⟩

/-- Outputs of another group take no note. -/
theorem groupResume_spares (d : Dev) {n g : Nat} (h : n / 8 ≠ g) : Spares n d (groupResume d g) := by
  by_cases hsafe : d.fio.safe.getLsbD g = true
  · rw [groupResume_resumes hsafe]
    have hfreed : Spares n d (groupFreed d g) :=
      ⟨groupFreed_within d g, rfl, (getLsbD_groupFreed d g _).trans (by simp [h, groupSafe])⟩
    exact hfreed.trans (foldl_spares (fun d i hi => (leaveSafe_inChannel d (8 * g + i)).spares
      (by have := List.mem_range.1 hi; omega)) _)
  · rw [groupResume_steady (by simpa using hsafe)]
    exact .refl n d

/-- An output leaves its safe state with its drive unchanged and recorded, and its event set. -/
theorem groupResume_output {d : Dev} {n : Nat} (hmode : fieldMode d n = 2) (hsafe : groupSafe d n = true) :
    (fieldOf (groupResume d (n / 8)) n).drive = (fieldOf d n).drive ∧
    (fieldOf (groupResume d (n / 8)) n).recorded = (fieldOf d n).drive ∧
    groupSafe (groupResume d (n / 8)) n = false ∧
    bit (rd (groupResume d (n / 8)) (fioBase n + 0x14)) 3 = true := by
  rw [groupResume_resumes (g := n / 8) hsafe]
  have hi : n % 8 ∈ List.range 8 := List.mem_range.2 (Nat.mod_lt _ (by decide))
  obtain ⟨e, he, ht⟩ := foldl_at (n := n) (f := fun d i => leaveSafe d (8 * (n / 8) + i)) List.nodup_range hi
    (fun d j _ hj => (leaveSafe_inChannel d (8 * (n / 8) + j)).spares (by omega))
    (groupFreed d (n / 8))
  rw [Nat.div_add_mod] at ht
  have hmode' : fieldMode e n = 2 := (he.mode n).trans hmode
  have hleft : leaveSafe e n =
      evField (fieldJudge (setField e n { fieldOf e n with recorded := (fieldOf e n).drive }) n) n 3 := if_pos hmode'
  have hfield : fieldOf e n = fieldOf d n := he.field
  have hnot : groupSafe (leaveSafe e n) n = false := by
    rw [groupSafe, (leaveSafe_inChannel e n).safe]
    exact he.safe.trans ((getLsbD_groupFreed ..).trans (by simp))
  have hevent : bit (rd (leaveSafe e n) (fioBase n + 0x14)) 3 = true := by
    rw [hleft]
    exact evField_bit _ n (by decide)
  refine ⟨?_, ?_, ht.safe.trans hnot, ht.bits _ _ hevent⟩
  · rw [ht.field, hleft]; simp [hfield]
  · rw [ht.field, hleft]; simp [hfield]

theorem groupResume_within (d : Dev) (g : Nat) : Within d (groupResume d g) := by
  by_cases hsafe : d.fio.safe.getLsbD g = true
  · rw [groupResume_resumes hsafe]
    exact (groupFreed_within d g).trans (foldl_within (fun d i => (leaveSafe_inChannel d (8 * g + i)).toWithin) ..)
  · rw [groupResume_steady (by simpa using hsafe)]
    exact .refl d

/-! ## The device side's frame at the field side (R300) -/

/-- With the third valid frame of a run every group leaves its safe state (R302). -/
def recovered (d : Dev) (run : Nat) : Dev :=
  if 3 ≤ run ∧ ¬ d.fio.fsParked then [0, 1, 2, 3].foldl groupResume d else d

section
variable {d : Dev} {u : DownFrame} {crc : Bool}

theorem fieldSideFrameRx_invalid (hu : d.fio.downFrame = some u) (hdom : domUp d 2 = true)
    (hbad : crc = false ∨ ∃ c, d.fio.fsRxCount = some c ∧ u.count ≠ c + 1) :
    fieldSideFrameRx d crc = inc { d with fio := { d.fio with downFrame := none, goodRun := 0 } } (aLinkCnt 1) := by
  unfold fieldSideFrameRx
  rw [hu]
  dsimp only
  rw [if_neg (by simp [hdom]), if_neg]
  obtain rfl | ⟨c, hrx, hne⟩ := hbad
  · simp
  · simp only [hrx, Bool.and_eq_true, beq_iff_eq, not_and]
    exact fun _ => hne

theorem fieldSideFrameRx_valid (hu : d.fio.downFrame = some u) (hdom : domUp d 2 = true)
    (hcount : ∀ c, d.fio.fsRxCount = some c → u.count = c + 1) (hpark : d.fio.fsParked = false) :
    fieldSideFrameRx d true =
      if 2 ≤ d.fio.goodRun then [0, 1, 2, 3].foldl groupResume (requestsTaken d u) else requestsTaken d u := by
  have hpark' : (requestsTaken d u).fio.fsParked = false := by rw [(requestsTaken_within d u).fio]; exact hpark
  unfold fieldSideFrameRx
  rw [hu]
  dsimp only
  rw [if_neg (by simp [hdom]), if_pos]
  · have htaken : (if (downAccepted d u).fio.fsParked then downAccepted d u else requestsTaken d u) = requestsTaken d u :=
      if_neg (by simp [downAccepted, hpark])
    have hrun : (3 ≤ d.fio.goodRun + 1 ∧ ¬(requestsTaken d u).fio.fsParked = true) ↔ 2 ≤ d.fio.goodRun := by
      simp [hpark']
    exact (congrArg (recovered · (d.fio.goodRun + 1)) htaken).trans (if_congr hrun rfl rfl)
  · cases hrx : d.fio.fsRxCount with
    | none => rfl
    | some c => simpa using hcount c hrx

/-- What the outputs make of a valid frame: those that are not in a safe state are driven as it asks, those that are keep
their drive, and leave the state with the third frame. -/
theorem sideFrame_output (hu : d.fio.downFrame = some u) (hdom : domUp d 2 = true)
    (hcount : ∀ c, d.fio.fsRxCount = some c → u.count = c + 1) (hpark : d.fio.fsParked = false) {n : Nat} (hn : n < 32)
    (hmode : fieldMode d n = 2) :
    (groupSafe d n = false → (fieldOf (fieldSideFrameRx d true) n).want = u.drives.getLsbD n ∧
      (fieldOf (fieldSideFrameRx d true) n).drive = driveOf d n (u.drives.getLsbD n)) ∧
    (groupSafe d n = true → (fieldOf (fieldSideFrameRx d true) n).drive = (fieldOf d n).drive ∧
      (d.fio.goodRun < 2 → groupSafe (fieldSideFrameRx d true) n = true) ∧
      (2 ≤ d.fio.goodRun → groupSafe (fieldSideFrameRx d true) n = false ∧
        (fieldOf (fieldSideFrameRx d true) n).recorded = (fieldOf d n).drive ∧
        bit (rd (fieldSideFrameRx d true) (fioBase n + 0x14)) 3 = true)) := by
  obtain ⟨hkept, hdriven⟩ := fieldOf_requestsTaken d u hn hmode
  rw [fieldSideFrameRx_valid hu hdom hcount hpark]
  by_cases hrun : 2 ≤ d.fio.goodRun
  · obtain ⟨e, he, ht⟩ := foldl_at (n := n) (i := n / 8) (l := [0, 1, 2, 3]) (by decide)
      (by simp only [List.mem_cons, List.not_mem_nil, or_false]; omega)
      (fun d g _ hg => groupResume_spares d hg.symm) (requestsTaken d u)
    rw [if_pos hrun]
    have hsafe : groupSafe e n = groupSafe d n := he.safe.trans (groupSafe_requestsTaken d u n)
    refine ⟨fun h => ?_, fun h => ?_⟩
    · rw [ht.field, groupResume_steady (d := e) (g := n / 8) (hsafe.trans h), he.field]
      exact hdriven h
    · have hmode' : fieldMode e n = 2 := (he.mode n).trans ((fieldMode_requestsTaken d u n).trans hmode)
      obtain ⟨hdrive, hrecorded, hfreed, hevent⟩ := groupResume_output hmode' (hsafe.trans h)
      rw [he.field, hkept h] at hdrive hrecorded
      refine ⟨by rw [ht.field, hdrive], fun hlt => absurd hrun (by omega), fun _ => ⟨ht.safe.trans hfreed, ?_, ?_⟩⟩
      · rw [ht.field, hrecorded]
      · exact ht.bits _ _ hevent
  · rw [if_neg hrun]
    refine ⟨hdriven, fun h => ⟨by rw [hkept h], fun _ => ?_, fun h2 => absurd h2 hrun⟩⟩
    rw [groupSafe_requestsTaken, h]

theorem sideFrame_goodRun (hu : d.fio.downFrame = some u) (hdom : domUp d 2 = true)
    (hcount : ∀ c, d.fio.fsRxCount = some c → u.count = c + 1) (hpark : d.fio.fsParked = false) :
    (fieldSideFrameRx d true).fio.goodRun = d.fio.goodRun + 1 := by
  have hresumed : Within (downAccepted d u) (fieldSideFrameRx d true) := by
    rw [fieldSideFrameRx_valid hu hdom hcount hpark]
    split
    · exact (requestsTaken_within d u).trans (foldl_within groupResume_within ..)
    · exact requestsTaken_within d u
  rw [hresumed.fio]
  rfl

end

/-! ## Silence (R301) -/

/-- One output takes its safe state. -/
def takeSafe (d : Dev) (n : Nat) : Dev :=
  if fieldMode d n = 2 then
    evField (setField (fieldDrive d n (safeState d n)) n
      { fieldOf (fieldDrive d n (safeState d n)) n with req := safeState d n }) n 2
  else d

theorem takeSafe_inChannel (d : Dev) (n : Nat) : InChannel n d (takeSafe d n) :=
  .ite ((fieldDrive_inChannel ..).trans ((setField_inChannel ..).trans (evField_inChannel ..))) (.refl ..)

/-- The group silent, its event and count made, before its outputs take their safe states. -/
def silenced (d : Dev) (g : Nat) : Dev :=
  evFio (inc { d with fio := { d.fio with safe := d.fio.safe ||| (1#4 <<< g), goodRun := 0 } } (aLinkCnt 3)) 2

theorem fieldSilence_falls {d : Dev} {g : Nat} (hpark : d.fio.fsParked = false) (hsafe : d.fio.safe.getLsbD g = false) :
    fieldSilence d g = (List.range 8).foldl (fun d i => takeSafe d (8 * g + i)) (silenced d g) :=
  if_neg (by rw [hpark, hsafe]; decide)

theorem fieldSilence_spec {d : Dev} {g : Nat} (hpark : d.fio.fsParked = false) (hsafe : d.fio.safe.getLsbD g = false) :
    (fieldSilence d g).fio.safe = d.fio.safe ||| (1#4 <<< g) ∧ bit (rd (fieldSilence d g) 0x1100000) 2 = true ∧
    cnt (fieldSilence d g) (aLinkCnt 3) = cnt d (aLinkCnt 3) + 1 ∧
    ∀ n < 32, n / 8 = g → fieldMode d n = 2 → (fieldOf (fieldSilence d g) n).want = safeState d n ∧
      (fieldOf (fieldSilence d g) n).drive = driveOf d n (safeState d n) ∧
      bit (rd (fieldSilence d g) (fioBase n + 0x14)) 2 = true := by
  rw [fieldSilence_falls hpark hsafe]
  have hstep (d : Dev) (i : Nat) := takeSafe_inChannel d (8 * g + i)
  have hwithin := foldl_within (fun d i => (hstep d i).toWithin) (List.range 8) (silenced d g)
  refine ⟨?_, hwithin.bits _ _ (evFio_bit _ (by decide)), ?_, fun n hn hg hmode => ?_⟩
  · have hgroups := rel_foldl (R := fun a b : Dev => b.fio.safe = a.fio.safe) (fun _ => rfl) (fun h g => g.trans h)
      (fun d i => (hstep d i).safe) (List.range 8) (silenced d g)
    rw [hgroups, silenced, evFio_fio]
    rfl
  · rw [hwithin.cnt]
    rw [silenced, cnt, evFio_cnts]
    exact (cnt_inc ..).trans (if_pos rfl)
  · have hi : n % 8 ∈ List.range 8 := List.mem_range.2 (Nat.mod_lt _ (by decide))
    have hn' : 8 * g + n % 8 = n := by omega
    obtain ⟨e, he, ht⟩ := foldl_at (n := n) (f := fun d i => takeSafe d (8 * g + i)) List.nodup_range hi
      (fun d j _ hj => (hstep d j).spares (by omega)) (silenced d g)
    rw [hn'] at ht
    have hfield : fieldOf e n = fieldOf d n := by rw [he.field]; simp [silenced, fieldOf]
    have hmode' : fieldMode e n = 2 := (he.mode n).trans ((fieldMode_evFio ..).trans hmode)
    have hsafe' : safeState e n = safeState d n := by
      have hword : actField e n = actField d n := (he.word n).trans (rd_evFio _ _ (by unfold fioBase; omega))
      simp only [safeState, hword, hfield]
    have hdrive : driveOf e n (safeState d n) = driveOf d n (safeState d n) := by
      have hquad : quadBad e n = quadBad d n := by rw [he.quad]; simp [silenced, quadBad]
      have hhold : e.ldc.gateHold = d.ldc.gateHold := by rw [he.ldc]; simp [silenced]
      simp only [driveOf, hfield, hmode', hmode, hquad, hhold]
    have htaken : takeSafe e n = evField (setField (fieldDrive e n (safeState e n)) n
      { fieldOf (fieldDrive e n (safeState e n)) n with req := safeState e n }) n 2 := if_pos hmode'
    have hevent : bit (rd (takeSafe e n) (fioBase n + 0x14)) 2 = true := by
      rw [htaken]
      exact evField_bit _ n (by decide)
    have htakenField : fieldOf (takeSafe e n) n =
        { fieldOf (fieldDrive e n (safeState e n)) n with req := safeState e n } := by
      rw [htaken, fieldOf_evField, fieldOf_setField, if_pos rfl]
    rw [ht.field, htakenField, fieldOf_fieldDrive, hsafe', hdrive]
    exact ⟨rfl, rfl, ht.bits _ _ hevent⟩

/-! ## Latched faults (R294) -/

/-- A mirrored change counts in the pair's counter and in those of port 10. -/
theorem cnt_mirrorNote_other (d : Dev) (what arg : Nat) {a : Nat} (hpair : a ≠ 0x1500068) (hport : a ≠ aPcnt 10 9) :
    cnt (mirrorNote d what arg) a = cnt d a := by
  have haside (d : Dev) (out : Bool → Out) : cnt (sendAside d 10 out) a = cnt d a := by
    unfold sendAside
    split
    · rfl
    · split
      · split
        next d1 h => rw [takePn_eq d h]; rfl
        next => exact (cnt_inc ..).trans (if_neg hport)
      · rfl
  unfold mirrorNote mirrorSend
  split
  · exact (haside ..).trans ((cnt_inc ..).trans (if_neg hpair))
  · rfl

/-- The output off at once on the field side. -/
def faultLatched (d : Dev) (n code : Nat) : Dev :=
  setField d n { fieldOf d n with latched := code, drive := false, changeTs := devTime d }

theorem outputLatch_latches {d : Dev} {n : Nat} (code : Nat) (hcore : coreUp d 4 = true) (hmode : fieldMode d n = 2)
    (hdrive : (fieldOf d n).drive = true) : outputLatch d n code = latchTaken (faultLatched d n code) n := by
  simp only [outputLatch, hmode, hdrive, ne_eq, not_true_eq_false, or_self, if_false]
  exact if_pos hcore

/-- The recorded command of an output taken off, and mirrored. -/
def commandOff (d : Dev) (n : Nat) : Dev :=
  if (fieldOf d n).recorded then mirrorNote (setField d n { fieldOf d n with recorded := false }) 5 (40 + n)
  else setField d n { fieldOf d n with recorded := false }

theorem latchTaken_eq (d : Dev) (n : Nat) :
    latchTaken d n = fieldJudge (faultJudge (inc (commandOff d n) (aFieldCnt n 2)) n) n := rfl

theorem commandOff_fio (d : Dev) (n : Nat) :
    (commandOff d n).fio = (setField d n { fieldOf d n with recorded := false }).fio := by
  unfold commandOff
  split
  · exact mirrorNote_fio ..
  · rfl

theorem commandOff_rst (d : Dev) (n : Nat) : (commandOff d n).rst = d.rst := by
  unfold commandOff
  split
  · exact mirrorNote_rst ..
  · rfl

theorem rd_commandOff (d : Dev) (n a : Nat) : rd (commandOff d n) a = rd d a := by
  unfold commandOff
  split
  · exact rd_mirrorNote ..
  · rfl

theorem cnt_commandOff (d : Dev) (n : Nat) : cnt (commandOff d n) (aFieldCnt n 2) = cnt d (aFieldCnt n 2) := by
  unfold commandOff
  split
  · refine cnt_mirrorNote_other _ _ _ ?_ ?_ <;> (unfold aFieldCnt fioBase; simp [aPcnt]; omega)
  · rfl

/-- The device side takes note of a latched fault: recorded off, FAULT shown, counted, and no other channel changes. -/
theorem latchTaken_spec {d : Dev} {n : Nat} (hcore : coreUp d 4 = true) (hmode : fieldMode d n = 2)
    (hlatched : (fieldOf d n).latched ≠ 0) :
    (fieldOf (latchTaken d n) n).latched = (fieldOf d n).latched ∧
    (fieldOf (latchTaken d n) n).drive = (fieldOf d n).drive ∧ (fieldOf (latchTaken d n) n).recorded = false ∧
    (fieldOf (latchTaken d n) n).repFault = (fieldOf d n).latched ∧
    cnt (latchTaken d n) (aFieldCnt n 2) = cnt d (aFieldCnt n 2) + 1 ∧
    ∀ m, m ≠ n → fieldOf (latchTaken d n) m = fieldOf d m := by
  have hfield (m : Nat) : fieldOf (inc (commandOff d n) (aFieldCnt n 2)) m =
      if m = n then { fieldOf d n with recorded := false } else fieldOf d m := by
    rw [← fieldOf_setField]
    exact congrArg (fun f => tget {} f.ch m) (commandOff_fio d n)
  have hcore' : coreUp (inc (commandOff d n) (aFieldCnt n 2)) 4 = true := by
    rw [← hcore]
    simp only [coreUp, domUp, inc_rst, commandOff_rst]
  have hmode' : fieldMode (inc (commandOff d n) (aFieldCnt n 2)) n = 2 := by
    rw [← hmode]
    simp only [fieldMode, actField, rd_inc, rd_commandOff]
  have hfault : faultOf (inc (commandOff d n) (aFieldCnt n 2)) n = (fieldOf d n).latched := by
    rw [faultOf_output hmode', hfield, if_pos rfl]
    exact if_pos hlatched
  have hjudged := (faultJudge_inChannel (inc (commandOff d n) (aFieldCnt n 2)) n).trans (fieldJudge_inChannel _ n)
  rw [latchTaken_eq, fieldOf_fieldJudge, fieldOf_faultJudge n hcore', hfield, if_pos rfl, hfault]
  refine ⟨rfl, rfl, rfl, rfl, ?_, fun m hm => ?_⟩
  · rw [hjudged.cnt, cnt_inc, if_pos rfl, cnt_commandOff]
  · rw [hjudged.others m hm, hfield, if_neg hm]

end Sys2Proof.Proofs.FieldLink

/-! PROOFS. The commands of field I/O (R290, R294, R306, Table 10.13) and its counter clears. -/

namespace Sys2Proof.Proofs.FieldCommands

open Sys2Proof Sys2Proof.Machine Sys2Proof.Laws Sys2Proof.Proofs.CanStates Sys2Proof.Proofs.GatesAndTime
open Sys2Proof.Proofs.FieldChannels Sys2Proof.Proofs.FieldReports Sys2Proof.Proofs.FieldLink

/-! ## Results (R40) -/

section
variable (d : Dev)

theorem fioEnd_status {k : Nat} (hk : k < 8) : fld (rd (fioEnd d k) 0x1100010) 30 28 = k := by
  rw [fioEnd, resultEnd, rd_wr, if_pos rfl]
  exact fld_status hk _

theorem rd_fioEnd (k : Nat) {a : Nat} (h : a ≠ 0x1100010) : rd (fioEnd d k) a = rd d a := (rd_wr ..).trans (if_neg h)

@[simp] theorem fioEnd_fio (k : Nat) : (fioEnd d k).fio = d.fio := rfl

@[simp] theorem fieldOf_fioEnd (k n : Nat) : fieldOf (fioEnd d k) n = fieldOf d n := rfl

theorem fioCommand_runs {d : Dev} (h : resultValid d 0x1100010 = true) (k : Dev → Dev) : fioCommand d k = k d := if_pos h

theorem fioCommand_busy {d : Dev} (h : resultValid d 0x1100010 = false) (k : Dev → Dev) : fioCommand d k = evFio d 5 :=
  if_neg (by simp [h])

end

/-- A command row of FIO_CMD that finds its way has its effect. -/
theorem exec_fioRow {c : Instr} {s : State} {op arg : Nat} {k : Dev → Dev} (hready : RowReady s.dev 0x110000C)
    (h : exec c s = commandRow 0x110000C op arg k s) : exec c s = .next { s with dev := k (bridged s.dev 0x110000C) } :=
  exec_row hready (by decide) h

/-- While a result is pending a command is dropped and reported (R306). -/
theorem exec_fioBusy {c : Instr} {s : State} {op arg : Nat} {k : Dev → Dev} (hready : RowReady s.dev 0x110000C)
    (hbusy : resultValid s.dev 0x1100010 = false) (h : exec c s = commandRow 0x110000C op arg (fioCommand · k) s) :
    exec c s = .next { s with dev := evFio (bridged s.dev 0x110000C) 5 } := by
  rw [exec_fioRow hready h, fioCommand_busy (d := bridged s.dev 0x110000C) hbusy]

/-- A command row of FIO_CMD leaves the device that its effect, found on the bridged device, comes to. -/
theorem exec_fioEnds {c : Instr} {s : State} {op arg : Nat} {k : Dev → Dev} {d : Dev} (hready : RowReady s.dev 0x110000C)
    (hk : k (bridged s.dev 0x110000C) = d) (h : exec c s = commandRow 0x110000C op arg k s) :
    exec c s = .next { s with dev := d } := by
  rw [exec_fioRow hready h, hk]

/-! ## APPLY (R290, R306) -/

section
variable {d : Dev} {n : Nat}

/-- The word asks for wire-break detection on what is no Type 3 input. -/
abbrev WbBad (w : Word) : Prop := bit w 28 = true ∧ (2 ≤ fld w 31 30 ∨ (fld w 31 30 = 1 ∧ bit w 29 = false))

theorem wbBad_iff (w : Word) : (bit w 28 && (decide (fld w 31 30 = 2 ∨ fld w 31 30 = 3) ||
    (decide (fld w 31 30 = 1) && !bit w 29))) = true ↔ WbBad w := by
  have hlt : fld w 31 30 < 4 := Nat.mod_lt _ (by decide)
  have hmode : 2 ≤ fld w 31 30 ↔ fld w 31 30 = 2 ∨ fld w 31 30 = 3 := by omega
  simp [hmode]

/-- The channel with a new word in effect. -/
def wordApplied (d : Dev) (n : Nat) : Dev :=
  wr (wr d (fioBase n + 8) (rd d (fioBase n))) (fioBase n + 0xC) (rd d (fioBase n + 4))

theorem fioApply_eq (h : resultValid d 0x1100010 = true) : fioApply d n =
    if (fld (rd d (fioBase n)) 31 30 = 3 ∧ 8 ≤ n) ∨ WbBad (rd d (fioBase n)) then fioEnd d 1
    else if fld (rd d (fioBase n)) 27 26 = 3 then fioEnd d 2
    else if fld (rd d (fioBase n)) 31 30 ≠ fieldMode d n ∧ (resOf d (40 + n)).state ≠ .unbound then fioEnd d 3
    else fioEnd (modeApplied (wordApplied d n) n (fieldMode d n)) 0 := by
  rw [fioApply, fioCommand_runs h]
  exact if_congr (or_congr Iff.rfl (wbBad_iff _)) rfl rfl

theorem actField_wordApplied : actField (wordApplied d n) n = rd d (fioBase n) := by
  rw [actField, wordApplied, rd_wr, if_neg (by omega), rd_wr, if_pos rfl]

theorem actEv_wordApplied : actEv (wordApplied d n) n = rd d (fioBase n + 4) := by
  rw [actEv, wordApplied, rd_wr, if_pos rfl]

/-- What a mode leaves of the frame on its way and of the latches: nothing of the channel's counter. -/
def latchesDropped (d : Dev) (n : Nat) : Dev :=
  { d with fio := { d.fio with
    upFrame := d.fio.upFrame.map fun u =>
      { u with counts := u.counts.filter (·.1 != n), snaps := u.snaps.filter (·.ch != n) }
    snaps := d.fio.snaps.filter (·.ch != n) } }

/-- A mode applied touches the channel alone; a channel that is no output drives nothing. -/
theorem modeApplied_spec (d : Dev) (n old : Nat) : InChannel n (latchesDropped d n) (modeApplied d n old) ∧
    (fieldMode d n ≠ 2 → (fieldOf (modeApplied d n old) n).drive = false) := by
  unfold modeApplied
  extract_lets x m x1 x2 x3 dropped _ d1
  have hin : InChannel n d1 (fieldJudge (faultJudge (setField d1 n x3) n) n) :=
    (setField_inChannel ..).trans ((faultJudge_inChannel ..).trans (fieldJudge_inChannel ..))
  refine ⟨hin, fun hmode => ?_⟩
  obtain ⟨c, hfault⟩ := fieldOf_faultJudge_keeps (setField d1 n x3) n
  have hx3 : x3 = { x2 with want := false, drive := false, req := false, latched := 0, mismatch := false } :=
    if_neg fun h => hmode h.1
  rw [fieldOf_fieldJudge, hfault, fieldOf_setField, if_pos rfl, hx3]

/-! What APPLY comes to, for each of its statuses (Table 10.13). -/

theorem fioApply_badMode (h : resultValid d 0x1100010 = true)
    (hbad : (fld (rd d (fioBase n)) 31 30 = 3 ∧ 8 ≤ n) ∨ WbBad (rd d (fioBase n))) : fioApply d n = fioEnd d 1 := by
  rw [fioApply_eq h, if_pos hbad]

theorem not_badMode {w : Word} (hmode : fld w 31 30 ≤ 2) (hwb : bit w 28 = false) :
    ¬ ((fld w 31 30 = 3 ∧ 8 ≤ n) ∨ WbBad w) := by
  rintro (⟨hcounter, -⟩ | ⟨hset, -⟩)
  · omega
  · simp [hwb] at hset

section
variable (h : resultValid d 0x1100010 = true) (hmode : fld (rd d (fioBase n)) 31 30 ≤ 2)
  (hwb : bit (rd d (fioBase n)) 28 = false)
include h hmode hwb

theorem fioApply_reserved (hres : fld (rd d (fioBase n)) 27 26 = 3) : fioApply d n = fioEnd d 2 := by
  rw [fioApply_eq h, if_neg (not_badMode hmode hwb), if_pos hres]

theorem fioApply_bound (hres : fld (rd d (fioBase n)) 27 26 ≠ 3) (hchange : fld (rd d (fioBase n)) 31 30 ≠ fieldMode d n)
    (hbound : (resOf d (40 + n)).state ≠ .unbound) : fioApply d n = fioEnd d 3 := by
  rw [fioApply_eq h, if_neg (not_badMode hmode hwb), if_neg hres, if_pos ⟨hchange, hbound⟩]

theorem fioApply_applies (hres : fld (rd d (fioBase n)) 27 26 ≠ 3)
    (hfree : fld (rd d (fioBase n)) 31 30 = fieldMode d n ∨ (resOf d (40 + n)).state = .unbound) :
    fioApply d n = fioEnd (modeApplied (wordApplied d n) n (fieldMode d n)) 0 := by
  rw [fioApply_eq h, if_neg (not_badMode hmode hwb), if_neg hres, if_neg]
  rintro ⟨hchange, hbound⟩
  exact hfree.elim hchange hbound

end

/-- The channel as its new words have it (R290, R306). -/
theorem applied_spec (d : Dev) (n : Nat) {t : Dev} (ht : t = fioEnd (modeApplied (wordApplied d n) n (fieldMode d n)) 0) :
    actField t n = rd d (fioBase n) ∧ actEv t n = rd d (fioBase n + 4) ∧
    (fld (rd d (fioBase n)) 31 30 ≠ 2 → (fieldOf t n).drive = false) ∧ ∀ k, k ≠ n → fieldOf t k = fieldOf d k := by
  obtain ⟨hin, hdrive⟩ := modeApplied_spec (wordApplied d n) n (fieldMode d n)
  have hmode : fieldMode (wordApplied d n) n = fld (rd d (fioBase n)) 31 30 := by rw [fieldMode, actField_wordApplied]
  have hreg (a : Nat) (hresult : a ≠ 0x1100010) (hevent : a % 0x40 ≠ 0x14) : rd t a = rd (wordApplied d n) a := by
    rw [ht, rd_fioEnd _ _ hresult, hin.regs a hevent]
    rfl
  refine ⟨?_, ?_, fun hne => ?_, fun k hk => ?_⟩
  · rw [← actField_wordApplied]
    exact hreg _ (by unfold fioBase; omega) (by unfold fioBase; omega)
  · rw [← actEv_wordApplied]
    exact hreg _ (by unfold fioBase; omega) (by unfold fioBase; omega)
  · rw [ht, fieldOf_fioEnd]
    exact hdrive (hmode ▸ hne)
  · rw [ht, fieldOf_fioEnd, hin.others k hk]
    rfl

end

/-! ## CLEAR_FAULT (R294) -/

section
variable {d : Dev} {n : Nat}

theorem fioClearFault_eq (h : resultValid d 0x1100010 = true) : fioClearFault d n =
    if (fieldOf d n).latched = 0 then fioEnd d 5 else fioEnd (outputUnlatch d n) 0 := fioCommand_runs h _

theorem fioClearFault_unlatched (h : resultValid d 0x1100010 = true) (hnone : (fieldOf d n).latched = 0) :
    fioClearFault d n = fioEnd d 5 := by
  rw [fioClearFault_eq h, if_pos hnone]

theorem fioClearFault_unlatches (h : resultValid d 0x1100010 = true) (hsome : (fieldOf d n).latched ≠ 0) :
    fioClearFault d n = fioEnd (outputUnlatch d n) 0 := by
  rw [fioClearFault_eq h, if_neg hsome]

/-- The request of an output that nothing holds, over a link that is up (R293). -/
theorem driveReq_free (hmode : fieldMode d n = 2) (hup : d.fio.up = true) (hsafe : groupSafe d n = false)
    (hpark : d.fio.parked = false) (hlatched : (fieldOf d n).latched = 0) : driveReq d n =
      (!quadBad d n && (fieldOf d n).permit &&
        if (fieldOf d n).forced then (fieldOf d n).forceOn else (fieldOf d n).recorded) := by
  simp only [driveReq, hmode, hup, hsafe, hpark, hlatched]
  cases quadBad d n <;> cases (fieldOf d n).permit <;> rfl

/-- The device as it judges an output without its latch. -/
def unlatched (d : Dev) (n : Nat) : Dev :=
  fieldDrive (faultJudge (setField d n { fieldOf d n with latched := 0 }) n) n
    ((fieldOf d n).want && (fieldOf d n).recorded)

theorem unlatched_inChannel (d : Dev) (n : Nat) : InChannel n d (unlatched d n) :=
  (setField_inChannel ..).trans ((faultJudge_inChannel ..).trans (fieldDrive_inChannel ..))

theorem fieldOf_unlatched (d : Dev) (n : Nat) : ∃ c w on ts, fieldOf (unlatched d n) n =
    { fieldOf d n with latched := 0, repFault := c, want := w, drive := on, changeTs := ts } := by
  obtain ⟨c, hfault⟩ := fieldOf_faultJudge_keeps (setField d n { fieldOf d n with latched := 0 }) n
  exact ⟨c, _, _, _, by rw [unlatched, fieldOf_fieldDrive, hfault, fieldOf_setField, if_pos rfl]⟩

/-- Without its latch an output's request is judged anew (R293, R294). -/
theorem outputUnlatch_spec (d : Dev) (n : Nat) : (fieldOf (outputUnlatch d n) n).latched = 0 ∧
    (fieldMode d n = 2 → d.fio.up = true → groupSafe d n = false → d.fio.parked = false →
      (fieldOf (outputUnlatch d n) n).req = (!quadBad d n && (fieldOf d n).permit &&
        if (fieldOf d n).forced then (fieldOf d n).forceOn else (fieldOf d n).recorded)) := by
  have hjudged : outputUnlatch d n = fieldJudge (unlatched d n) n := rfl
  have hin := unlatched_inChannel d n
  obtain ⟨_, _, _, _, hfield⟩ := fieldOf_unlatched d n
  rw [hjudged, fieldOf_fieldJudge]
  refine ⟨by rw [hfield], fun hmode hup hsafe hpark => ?_⟩
  have hup' : (unlatched d n).fio.up = true := by rw [hin.fio]; exact hup
  have hpark' : (unlatched d n).fio.parked = false := by rw [hin.fio]; exact hpark
  have hsafe' : groupSafe (unlatched d n) n = false := by rw [groupSafe, hin.safe]; exact hsafe
  dsimp only
  rw [driveReq_free ((hin.mode n).trans hmode) hup' hsafe' hpark' (by rw [hfield]), hin.quad, hfield]

end

/-! ## SNAPSHOT (R291) -/

section
variable {d : Dev} {n : Nat} (h : resultValid d 0x1100010 = true)
include h

theorem fioSnapshot_noCounter (hmode : fieldMode d n ≠ 3) : fioSnapshot d n = fioEnd d 5 :=
  (fioCommand_runs h _).trans (if_pos hmode)

theorem fioSnapshot_falls_due (hmode : fieldMode d n = 3) : fioSnapshot d n =
    fioEnd (setField d n { fieldOf d n with snapDue := (fieldOf d n).snapDue + 1 }) 0 :=
  (fioCommand_runs h _).trans (if_neg (not_not_intro hmode))

end

/-! ## Counter clears (R92) -/

theorem rowClears_fioChannel (n : Fin 32) :
    RowClears (.fioClearChannel n) 0x1100018 fun a => aFieldCnt n 0 ≤ a ∧ a < aFieldCnt n 3 :=
  rowClears_range (by decide) fun _ => rfl

theorem rowClears_fioLink : RowClears .fioClearLink 0x1100018 fun a => aLinkCnt 0 ≤ a ∧ a < aLinkCnt 5 :=
  rowClears_range (by decide) fun _ => rfl

/-- The clears of some channels zero their counters and no other. -/
theorem foldl_fioClearCh (l : List Nat) (d : Dev) : l.foldl fioClearCh d = { d with cnts := (l.foldl fioClearCh d).cnts } ∧
    ∀ a, cnt (l.foldl fioClearCh d) a = if ∃ n ∈ l, aFieldCnt n 0 ≤ a ∧ a < aFieldCnt n 3 then 0 else cnt d a := by
  induction l generalizing d with
  | nil => exact ⟨rfl, fun a => by simp⟩
  | cons m l ih =>
    obtain ⟨honly, hcnt⟩ := ih (fioClearCh d m)
    refine ⟨by rw [List.foldl_cons, honly]; rfl, fun a => ?_⟩
    rw [List.foldl_cons, hcnt, fioClearCh, cnt_clearCnts]
    by_cases hl : ∃ n ∈ l, aFieldCnt n 0 ≤ a ∧ a < aFieldCnt n 3
    · rw [if_pos hl, if_pos (by obtain ⟨n, hn, h⟩ := hl; exact ⟨n, List.mem_cons_of_mem _ hn, h⟩)]
    · rw [if_neg hl]
      exact if_congr (by simp [hl]) rfl rfl

/-- The counters that CLEAR of all zeroes (R92). -/
def OfFieldIo (a : Nat) : Prop := (aLinkCnt 0 ≤ a ∧ a < aLinkCnt 5) ∨ ∃ n < 32, aFieldCnt n 0 ≤ a ∧ a < aFieldCnt n 3

theorem fioClearAll_spec (d : Dev) : fioClearAll d = { d with cnts := (fioClearAll d).cnts } ∧
    (∀ a, OfFieldIo a → cnt (fioClearAll d) a = 0) ∧ ∀ a, ¬ OfFieldIo a → cnt (fioClearAll d) a = cnt d a := by
  obtain ⟨honly, hcnt⟩ := foldl_fioClearCh (List.range 32) (fioClearLink d)
  simp only [List.mem_range, fioClearLink, cnt_clearCnts] at hcnt
  refine ⟨honly, fun a ha => (hcnt a).trans ?_, fun a ha => (hcnt a).trans ?_⟩
  · split
    · rfl
    next hch => exact if_pos (ha.resolve_right hch)
  · obtain ⟨hlink, hch⟩ := not_or.1 ha
    rw [if_neg hch, if_neg hlink]

/-- A register write whose effect zeroes the counters of `hit`, and touches nothing else, is a clear of them. -/
theorem rowClears_of_effect {c : Instr} {a : Nat} {v : Word} {k : Dev → Dev} {hit : Nat → Prop} (ha : a < 2 ^ 26)
    (h : ∀ s, exec c s = onDev (fun d => rowWrite d a v k) s) (honly : ∀ d, k d = { d with cnts := (k d).cnts })
    (hzero : ∀ d b, hit b → cnt (k d) b = 0) (hkept : ∀ d b, ¬ hit b → cnt (k d) b = cnt d b) : RowClears c a hit := by
  intro s hready
  refine ⟨{ s with dev := k (bridged s.dev a) }, ?_, ?_, hzero _, hkept _⟩
  · rw [h, onDev_eq, rowWrite_bridged hready ha]
  · dsimp only
    rw [honly]
    rfl

theorem rowClears_fioAll : RowClears .fioClearAll 0x1100018 OfFieldIo :=
  rowClears_of_effect (k := fioClearAll) (v := 0x80000000) (by decide) (fun _ => rfl) (fun d => (fioClearAll_spec d).1)
    (fun d => (fioClearAll_spec d).2.1) (fun d => (fioClearAll_spec d).2.2)

/-! ## The obligation -/

/-- Settles O41. The operations that go over the channels are folds of which one step alone touches channel `n`
(`foldl_at`), so what they do is what that step does: to the output that a down frame names (`sideFrame_output`), to the
outputs of a silent group (`fieldSilence_spec`), to the output that latches (`latchTaken_spec`). The commands end as
`fioApply_eq`, `fioClearFault_eq` and `fioSnapshot` have it, with the status that `fioEnd` writes (`fioEnd_status`). -/
theorem fieldOutputsAndLink : Obligations.FieldOutputsAndLink := by
  unfold Obligations.FieldOutputsAndLink
  refine ⟨?sent, ?invalid, ?rises, ?requests, ?stopped, ?down, ?silence, ?latch, ?busy, ?apply, ?other,
    rowClears_fioAll, rowClears_fioChannel, rowClears_fioLink⟩
  case sent =>
    intro s hcore hdom
    obtain ⟨honly, hcounters, hothers⟩ := isolationTx_spec hcore hdom
    unfold OnlyChannels at honly
    refine ⟨{ s with dev := isolationTx s.dev }, upOf s.dev, downOf s.dev, rfl, ?_, ?_, ?_, rfl, rfl, rfl, rfl,
      fun n hn => ⟨getLsbD_bits32 _ hn, getLsbD_bits32 _ hn, getLsbD_bits32 _ hn⟩, rfl, hcounters, hothers⟩
    · exact congrArg (fun d : Dev => d.fio.upFrame) honly
    · exact congrArg (fun d : Dev => d.fio.downFrame) honly
    · exact congrArg (fun d : Dev => { s with dev := d }) honly
  case invalid =>
    intro s crc u hu hcore hbad
    have hrx := fieldFrameRx_invalid hu hcore hbad
    refine ⟨_, rfl, ?_, ?_⟩
    · rw [fieldReleaseJudge_fio, hrx]
      rfl
    · rw [cnt_fieldReleaseJudge, hrx, cnt_inc, if_pos rfl]
      rfl
  case rises =>
    intro s u hu hcount hcore hdown
    obtain ⟨hfio, -⟩ := frameRx_valid hu hcore hcount
    have hrises : linkRises s.dev = decide (2 ≤ s.dev.fio.upRun) := by simp [linkRises, hdown]
    refine ⟨_, rfl, ?_, fun hrun => frameRx_linkUp hu hcore hcount (by simp [hrises, hrun])⟩
    rw [hfio, upTake_fio]
    simp [frameTaken, hdown, hrises]
  case requests =>
    intro s crc u hu hdom
    refine ⟨fun hbad => ?_, ?_⟩
    · refine ⟨_, exec_onDev (fieldSideFrameRx · crc) rfl (fieldSideFrameRx_invalid hu hdom hbad), ?_, rfl⟩
      exact (cnt_inc ..).trans (if_pos rfl)
    · rintro rfl hcount hpark
      refine ⟨_, rfl, sideFrame_goodRun hu hdom hcount hpark, fun n hn hmode => ?_⟩
      rw [← driveOf_output hmode]
      exact sideFrame_output hu hdom hcount hpark hn hmode
  case stopped =>
    intro s hcore
    exact exec_onDev fieldLinkDown rfl (fieldLinkDown_stopped hcore)
  case down =>
    intro s hcore hup
    refine ⟨_, exec_onDev fieldLinkDown rfl (fieldLinkDown_drops hcore hup), ?_, ?_, ?_, evFio_bit _ (by decide),
      fun n _ hmode => fieldTerm_of_stale ((fieldMode_evFio ..).trans hmode) (.inl ?_)⟩
    · rw [evFio_fio]; rfl
    · rw [evFio_fio]; rfl
    · rw [cnt, evFio_cnts]
      exact (cnt_inc ..).trans (if_pos rfl)
    · rw [evFio_fio]; rfl
  case silence =>
    intro s g hpark hsafe
    obtain ⟨hgroups, hevent, hcnt, hch⟩ := fieldSilence_spec hpark hsafe
    refine ⟨_, rfl, hgroups, hevent, hcnt, fun n hn hg hmode => ?_⟩
    rw [← driveOf_output hmode]
    exact hch n hn hg hmode
  case latch =>
    intro s n c code hcore hmode hdrive hc
    obtain ⟨hexec, hcode⟩ : exec c s = .next { s with dev := latchTaken (faultLatched s.dev n code) n } ∧ code ≠ 0 := by
      simp only [List.mem_cons, Prod.mk.injEq, List.not_mem_nil, or_false] at hc
      obtain ⟨rfl, rfl⟩ | ⟨rfl, rfl⟩ := hc
      · exact ⟨exec_onDev (outputLatch · n 2) rfl (outputLatch_latches 2 hcore hmode hdrive), by decide⟩
      · exact ⟨exec_onDev (outputLatch · n 3) rfl (outputLatch_latches 3 hcore hmode hdrive), by decide⟩
    have hfield (m : Nat) : fieldOf (faultLatched s.dev n code) m = if m = n then { fieldOf s.dev n with
      latched := code, drive := false, changeTs := devTime s.dev } else fieldOf s.dev m := fieldOf_setField ..
    obtain ⟨hlatched, hoff, hrecorded, hfault, hcnt, hothers⟩ :=
      latchTaken_spec (d := faultLatched s.dev n code) (n := n) hcore hmode (by rw [hfield, if_pos rfl]; exact hcode)
    rw [hfield, if_pos rfl] at hlatched hoff hfault
    exact ⟨_, hexec, hlatched, hoff, hrecorded, hfault, hcnt, fun m hm => by rw [hothers m hm, hfield, if_neg hm]⟩
  case busy =>
    intro s n c hready hc hvalid
    have hexec : exec c s = .next { s with dev := evFio (bridged s.dev 0x110000C) 5 } := by
      simp only [List.mem_cons, List.not_mem_nil, or_false] at hc
      obtain rfl | rfl | rfl := hc
      all_goals exact exec_fioBusy hready hvalid rfl
    exact ⟨_, hexec, evFio_fio .., rd_evFio _ _ (by decide), evFio_bit _ (by decide)⟩
  case apply =>
    rintro s n w m hready hvalid rfl rfl
    refine ⟨fun hbad => ?_, fun hmode hwb hres => ?_, fun hmode hwb hres hchange hbound => ?_,
      fun hmode hwb hres hfree => ?_⟩
    · exact ⟨_, exec_fioEnds (k := (fioApply · n)) hready (fioApply_badMode (d := bridged s.dev 0x110000C) hvalid hbad) rfl,
        fioEnd_fio .., fioEnd_status _ (by decide), fun a ha => rd_fioEnd _ _ ha⟩
    · have heff := fioApply_reserved (d := bridged s.dev 0x110000C) hvalid (hmode.trans (by decide)) hwb hres
      exact ⟨_, exec_fioEnds (k := (fioApply · n)) hready heff rfl, fioEnd_fio .., fioEnd_status _ (by decide)⟩
    · have heff := fioApply_bound (d := bridged s.dev 0x110000C) hvalid hmode hwb hres hchange hbound
      exact ⟨_, exec_fioEnds (k := (fioApply · n)) hready heff rfl, fioEnd_fio .., fioEnd_status _ (by decide)⟩
    · have heff := fioApply_applies (d := bridged s.dev 0x110000C) hvalid hmode hwb hres hfree
      exact ⟨_, exec_fioEnds (k := (fioApply · n)) hready heff rfl, fioEnd_status _ (by decide),
        applied_spec (bridged s.dev 0x110000C) n rfl⟩
  case other =>
    intro s n hready hvalid
    refine ⟨fun hnone => ?_, fun hsome => ?_, fun hmode => ?_, fun hmode => ?_⟩
    · have heff := fioClearFault_unlatched (d := bridged s.dev 0x110000C) hvalid hnone
      exact ⟨_, exec_fioEnds (k := (fioClearFault · n)) hready heff rfl, fioEnd_fio .., fioEnd_status _ (by decide)⟩
    · have heff := fioClearFault_unlatches (d := bridged s.dev 0x110000C) hvalid hsome
      obtain ⟨hlatched, hreq⟩ := outputUnlatch_spec (bridged s.dev 0x110000C) n
      exact ⟨_, exec_fioEnds (k := (fioClearFault · n)) hready heff rfl, hlatched, fioEnd_status _ (by decide), hreq⟩
    · have heff := fioSnapshot_noCounter (d := bridged s.dev 0x110000C) hvalid hmode
      exact ⟨_, exec_fioEnds (k := (fioSnapshot · n)) hready heff rfl, fioEnd_fio .., fioEnd_status _ (by decide)⟩
    · have heff := fioSnapshot_falls_due (d := bridged s.dev 0x110000C) hvalid hmode
      refine ⟨_, exec_fioEnds (k := (fioSnapshot · n)) hready heff rfl, ?_, fioEnd_status _ (by decide)⟩
      rw [fieldOf_fioEnd, fieldOf_setField, if_pos rfl]
      rfl

end Sys2Proof.Proofs.FieldCommands
